-- ==== Sys2Proof/Word.lean ====
section
/-!
DEFINITION. The machine's words and the numbers of its units (R8, R29, R30, R31).
-/
namespace Sys2Proof

/-- R8: a byte. -/
abbrev Byte := BitVec 8
/-- R8: a halfword. -/
abbrev W16 := BitVec 16
/-- R8: a word. -/
abbrev W32 := BitVec 32
/-- R8: a doubleword. -/
abbrev W64 := BitVec 64

/-- A tile, numbered `y * 64 + x` as R77, R142 and R221 write it. -/
abbrev TileId := BitVec 12
/-- R110: 0 MXE, 1 VXE, 2 MOV, 3 WEI. -/
abbrev EngId := BitVec 2
/-- R30: a colony, 0 to 255. -/
abbrev ColId := BitVec 8
/-- R32: a partition, 0 to 63. -/
abbrev PartId := BitVec 6
/-- R322: a context number within its partition. -/
abbrev CtxId := BitVec 8
/-- R326: a hardware queue number within its partition. -/
abbrev QueueId := BitVec 10
/-- R72: a cistern slot. -/
abbrev SlotId := BitVec 6
/-- R136: a tile semaphore. -/
abbrev SemId := BitVec 4
/-- R75: a logical page number. -/
abbrev Lpn := BitVec 24
/-- R279: a Vulor port, in the direction coding of R221. -/
abbrev PortId := Fin 6
/-- R399: a power domain ID. -/
abbrev DomId := Fin 100
/-- R350: a control core by hart ID: 0 to 255 colony cores, 256 to 259 head cores. -/
abbrev CoreId := Fin 260

end Sys2Proof
end

