-- ==== Sys2Proof/Config.lean ====
section
/-!
DEFINITION. What the spec leaves open: free values without a body (log 2, DESIGN CHOICE), and the constants of the device.
-/
namespace Sys2Proof

/-- A free value. The first argument is the state's count of free values taken, the second tells the values of one
step apart. Nothing constrains it (log 2, DESIGN CHOICE). -/
opaque Config.free : Nat → Nat → Nat

/-- R271: beats that a router's buffer of class `k` holds, beyond the one that any holds: free (log 122, DESIGN CHOICE). -/
opaque Config.canalBuffer : Nat → Nat

/-- R284: the 8 check bytes of a codeword of 128 bytes. The spec names RS(136,128) over GF(2^8) and no polynomials, so what they are is free. -/
opaque Config.rsCheck : List (BitVec 8) → BitVec 64
/-- R288: AES-256-GCM under a key and an IV, of additional data and a plaintext: ciphertext and tag. A standard the spec names and does not state:
free. -/
opaque Config.gcm : BitVec 256 → BitVec 96 → List (BitVec 8) → List (BitVec 8) → List (BitVec 8) × BitVec 128
/-- R288: the SP 800-108 counter-mode KDF with HMAC-SHA-384, of a key and a context: free in the same way. -/
opaque Config.kdf : BitVec 384 → List (BitVec 8) → BitVec 384

/-- R372: SHA-384, and an ECDSA P-384 signature by a private key: free in the same way. -/
opaque Config.sha384 : List (BitVec 8) → BitVec 384
opaque Config.ecdsaSign : BitVec 384 → List (BitVec 8) → BitVec 768
/-- R372: the public key of a private key on P-384. -/
opaque Config.ecdsaPub : BitVec 384 → BitVec 768
/-- R288, R372: the secret of ECDH over P-384 from a private key and the peer's public key: free in the same way. -/
opaque Config.ecdh : BitVec 384 → BitVec 768 → BitVec 384
/-- R372, R390: AES-XTS under a key, of a data unit by its address: free in the same way. -/
opaque Config.aesXts : BitVec 512 → Nat → List (BitVec 8) → List (BitVec 8)
/-- R374: the hash of chitin's mask ROM, and Llynvar's root certificate that the ROM holds. -/
opaque Config.romHash : BitVec 384
opaque Config.rootCert : List (BitVec 8)

/-- R351: device HBM address of a die's head-core firmware region, which the image places and no rule gives: free. -/
opaque Config.headRegion : Nat → Nat

/-- Table 0-1: the ordering codes. -/
inductive Order | h8 | h4
  deriving DecidableEq, Repr

/-- The ordering code of the device modelled (R1: "for QN9-F2-H8 unless the text names QN9-F2-H4"; log 3, DESIGN CHOICE). -/
def Config.order : Order := .h8

/-- R40, R41: the populated stacks. -/
def Config.stacks : BitVec 8 := match Config.order with | .h8 => 0xFF | .h4 => 0x55

/-- R40, R41: the device ID code. -/
def Config.devid : BitVec 16 := match Config.order with | .h8 => 0x9F28 | .h4 => 0x9F24

/-- R34: installed HBM capacity, in 256 MiB units. -/
def Config.hbmUnits : Nat := match Config.order with | .h8 => 1536 | .h4 => 768

end Sys2Proof
end

