-- ==== Sys2Proof/Syntax.lean ====
section
/-!
DEFINITION. The commands of the block: one constructor of `Instr` for each row of the table of operations and events,
with the operands the row's rule names. What comes from outside the block (fetched bytes, what a sensor reads, what a
check of a signature finds) is an operand of the command that brings it.
-/
namespace Sys2Proof

/-- R472, R475: who makes a register access. -/
inductive Req
  | core (c : ColId)
  | head (d : BitVec 2)
  | chitin
  | pf
  | vf (p : PartId)
  | tap
  deriving DecidableEq, Repr

/-- A register's place: an address of the register space (R471), or a custom CSR of a core (R356). -/
inductive RegLoc
  | addr (a : W32)
  | csr (c : CoreId) (n : BitVec 12)
  deriving DecidableEq, Repr

/-- Table 4-7 less op: the fields of a weir instruction. -/
structure WeirF where
  nc : BitVec 3
  sigEn : Bool
  pset : BitVec 4
  lpn : Lpn
  rowFirst : BitVec 13
  rowCntM1 : BitVec 13
  src : BitVec 12
  dst : BitVec 12
  aux : BitVec 12
  sem : SemId
  ag : BitVec 3
  imm : BitVec 16
  deriving DecidableEq, Repr

/-- Table 6-2 less op: the fields of an MX slot. -/
structure MxF where
  fa : BitVec 4
  fb : BitVec 4
  va : Bool
  vb : Bool
  acc : Bool
  msk : Bool
  sigEn : Bool
  sem : SemId
  ag : BitVec 3
  pset : BitVec 3
  mM1 : BitVec 12
  rm : BitVec 4
  nM1 : BitVec 8
  ktM1 : BitVec 12
  a : BitVec 12
  b : BitVec 12
  c : BitVec 10
  deriving DecidableEq, Repr

/-- Table 6-5 less op: the fields of a DR slot. -/
structure DrF where
  nc : BitVec 3
  ofmt : BitVec 4
  ovar : Bool
  chain : BitVec 2
  hws : Bool
  msk : Bool
  sigEn : Bool
  sem : SemId
  ag : BitVec 3
  dset : BitVec 2
  clr : Bool
  ityp : Bool
  c : BitVec 10
  dst : BitVec 12
  rm : BitVec 4
  deriving DecidableEq, Repr

/-- Table 7-2, format V less op. -/
structure VxV where
  vd : BitVec 5
  va : BitVec 5
  vb : BitVec 5
  vc : BitVec 5
  p : BitVec 3
  pk : BitVec 2
  deriving DecidableEq, Repr

/-- Table 7-2, format C less op. -/
structure VxC where
  vd : BitVec 5
  va : BitVec 5
  src : BitVec 4
  dst : BitVec 4
  nc : BitVec 3
  p : BitVec 3
  deriving DecidableEq, Repr

/-- Table 7-2, format M less op. -/
structure VxM where
  v : BitVec 5
  ag : BitVec 3
  cb : BitVec 3
  p : BitVec 3
  line : BitVec 12
  deriving DecidableEq, Repr

/-- Table 7-2, format G less op. -/
structure VxG where
  v : BitVec 5
  vi : BitVec 5
  p : BitVec 3
  line : BitVec 12
  deriving DecidableEq, Repr

/-- Table 9-3 less op: the fields of an ISSUE slot. -/
structure IssueF where
  desc : BitVec 3
  line : BitVec 12
  ag : BitVec 3
  sigEn : Bool
  sem : SemId
  rsig : Bool
  rm : BitVec 4
  deriving DecidableEq, Repr

/-- R316: what a read of host memory brings back: bytes, or Unsupported Request or Completer Abort. -/
inductive HostResp
  | data (bytes : List Byte)
  | error
  deriving DecidableEq, Repr

/-- R241: what ATS answers for the page a HOST transfer needs. -/
inductive Xlat
  | ok
  | notPresent
  | noPermission
  | refused
  deriving DecidableEq, Repr

/-- R314: a BAR2 access. -/
inductive Bar2Op
  | read (len : Nat)
  | write (bytes : List Byte)
  deriving DecidableEq, Repr

/-- R313, R314, R398: a BAR2 access, and the IDE stream that carries it; none outside every stream. -/
structure Bar2Tlp where
  op : Bar2Op
  stream : Option (Fin 3) := none
  deriving DecidableEq, Repr

/-- Table 12-1: a beat at an ingress port. -/
structure IngressBeat where
  data : BitVec 512
  sof : Bool
  deriving DecidableEq, Repr

/-- R291, Table 11-8: message types, reserved type bytes kept apart. -/
inductive MsgType
  | write | read | signal | ack | readData | nack | time | stop
  deriving DecidableEq, Repr

/-- R291, Table 11-7: a Vulor message with its data. -/
structure Msg where
  ty : MsgType
  status : BitVec 8
  dst : BitVec 18
  src : BitVec 18
  mcount : BitVec 6
  mdir : BitVec 3
  group : BitVec 16
  tag : BitVec 16
  lenM1 : BitVec 12
  raddr : W64
  value : W64
  data : List Byte
  deriving DecidableEq, Repr

/-- Table 11-6: flit types. -/
inductive FlitType | data | idle | leave | key
  deriving DecidableEq, Repr

/-- R284: a flit's header, laid out as Table 11-6, and the seven slots of its message area. -/
structure Flit where
  hdr : BitVec 128
  slots : List (BitVec 256)
  deriving DecidableEq, Repr

/-- R284, R288: an arriving flit. The code's polynomials and the ciphers are not of this specification, so the operand carries what the FEC decoder and
the decryption compute; the receiver takes of either only what the check bytes and the tag confirm (log 142, DESIGN CHOICE). -/
structure FlitArrival where
  /-- what arrived, lane by lane -/
  lanes : List (List Byte)
  /-- header, message area and tag as the FEC decoder leaves them -/
  body : List Byte
  /-- the message area decrypted -/
  plain : List Byte
  deriving DecidableEq, Repr

/-- R283: what lane training finds at both ends. -/
structure Training where
  good : BitVec 8
  peerGood : BitVec 8
  peerGen2 : Bool
  signal : Bool
  deriving DecidableEq, Repr

/-- R362, R364: the instruction boundary at which a core claims: the address of the next instruction, and whether the core waits there in WFI. -/
structure Boundary where
  pc : W32
  wfi : Bool
  deriving DecidableEq, Repr

/-- R397: what the key exchange learns of the peer. -/
structure PeerHello where
  /-- its certificate chain verifies to Llynvar's root, and its signature by the Alias key -/
  chainOk : Bool
  /-- its owner key hash -/
  owner : BitVec 384
  fleet : W32
  id : BitVec 18
  /-- its ephemeral ECDH public key -/
  eph : BitVec 768
  deriving DecidableEq, Repr

/-- R429: what a scrub access finds in its granule. -/
inductive ScrubFind
  | clean
  | corrected (syndrome : BitVec 16) (place : BitVec 8)
  | uncorrectable (syndrome : BitVec 16) (place : BitVec 8)
  deriving DecidableEq, Repr

/-- R430: what a SCRUB_FAULT was. -/
inductive ScrubCause | parity | canaryMissed
  deriving DecidableEq, Repr

/-- R350: the read-modify-write operations of the A extension. -/
inductive AmoOp | swap | add | xor | and | or | min | max | minu | maxu
  deriving DecidableEq, Repr

/-- R350 to R352: a core's access: the fetch of an instruction of 4 bytes, or of 2 where `half`; a load or store of 1, 2 or 4 bytes (`size` 0, 1, 2); an
access of the A extension, of 4. What is read goes to x`rd`, sign-extended where `sgn`; `bad`: the word read from a memory of the core's own is
uncorrectable, or poison. -/
inductive CoreAccess
  | fetch (half bad : Bool)
  | load (rd : BitVec 5) (size : BitVec 2) (sgn bad : Bool)
  | store (size : BitVec 2) (w : W32)
  | lr (rd : BitVec 5) (bad : Bool)
  | sc (rd : BitVec 5) (w : W32)
  | amo (op : AmoOp) (rd : BitVec 5) (w : W32) (bad : Bool)
  deriving DecidableEq, Repr

/-- R355, R387: a DMI access of a Debug Module register. -/
inductive DmiOp
  | read (addr : BitVec 7)
  | write (addr : BitVec 7) (data : W32)
  deriving DecidableEq, Repr

/-- R33, R265, R289, R298: the image's parameters of a partition (Table 2-2) with those other chapters add. -/
structure PartCfg where
  cx : BitVec 4
  cy : BitVec 4
  width : BitVec 5
  height : BitVec 5
  reloc : Bool
  resident : BitVec 10
  rd : BitVec 7
  wr : BitVec 7
  rm : BitVec 7
  fence : Bool
  trace : BitVec 2
  tracePct : BitVec 3
  stages : BitVec 4
  fabStages : BitVec 2
  ingress : BitVec 16
  contexts : BitVec 9
  queues : BitVec 11
  events : BitVec 18
  waiters : BitVec 15
  hbmUnits : BitVec 11
  lat0 : BitVec 10
  lat1 : BitVec 10
  group : BitVec 16
  deriving DecidableEq, Repr

/-- R379: a tile rectangle relative to the partition's image origin. -/
structure TileRect where
  x0 : BitVec 6
  y0 : BitVec 6
  wM1 : BitVec 6
  hM1 : BitVec 6
  deriving DecidableEq, Repr

/-- R265, Table 10-4: a shape entry. -/
structure Shape where
  word : BitVec 12
  gating : Bool
  max : W32
  deriving DecidableEq, Repr

/-- R379, Table 15-2: a section with its plaintext bytes. REGS pairs are (offset, value); an offset of a device-wide
REGS section is a register address, one of a partition's is an offset of its window, of its colonies' blocks (with the
rectangle's colonies) or of its tiles' blocks (with the rectangle's tiles). -/
inductive Section
  | part (p : PartId) (cfg : PartCfg)
  | regsDevice (pairs : List (W32 × W32))
  | regsPart (p : PartId) (pairs : List (W32 × W32))
  | regsColony (p : PartId) (r : TileRect) (pairs : List (W32 × W32))
  | regsTile (p : PartId) (r : TileRect) (pairs : List (W32 × W32))
  | imem (p : PartId) (e : EngId) (r : TileRect) (dst : Nat) (bytes : List Byte)
  | spad (p : PartId) (r : TileRect) (dst : Nat) (bytes : List Byte)
  | core (p : PartId) (r : TileRect) (dst : Nat) (bytes : List Byte)
  | headfw (dst : Nat) (bytes : List Byte)
  | hbm (p : PartId) (dst : Nat) (bytes : List Byte)
  | plan (p : PartId) (e : EngId) (r : TileRect) (argLine : BitVec 12) (plan : List Shape)
  | ident (p : PartId) (dst : Nat) (bytes : List Byte)
  deriving DecidableEq, Repr

/-- R376 to R379: an image as the flash slot holds it: the bytes of its header (Table 15-1), of its tag table with its padding and of its encrypted
segments; and, as the ciphers are not of this specification, its body decrypted, before the last segment's padding. Table 15-2 gives PART and REGS
sections no layout that tells their parameters and their scope, so `sections` spells out what the body says; IMAGE_LOAD takes of both only what the
tags and the bytes of the body confirm (log 142, DESIGN CHOICE). -/
structure Image where
  header : List Byte
  table : List Byte
  segs : List (List Byte)
  body : List Byte
  sections : List Section
  deriving DecidableEq, Repr

/-- R382, R383: what the flash and the staging area answer, and whether the signature verifies. -/
structure ImageChecks where
  flashAnswers : Bool
  signature : Bool
  segmentsAgain : Bool
  stagingReadable : Bool
  deriving DecidableEq, Repr

/-- R381: what one start meets. -/
structure BootInput where
  romOk : Bool
  fusesOk : Bool
  refClocks : Bool
  pllsLock : Bool
  stacksTrained : BitVec 8
  /-- colony, failed parts (bits of DBG_COLST.failed); colonies not listed pass -/
  selfTestFails : List (ColId × BitVec 7)
  image : Option Image
  checks : ImageChecks
  /-- R391: KEYS draws its keys -/
  keysDrawn : Bool
  /-- per port: whether LINKS brings it to ACTIVE, and its peer -/
  links : List (Fin 6 × Training × PeerHello)
  coresReleased : Bool
  deriving DecidableEq, Repr

/-- R375: a provisioning request. -/
inductive FuseWrite
  | ownerKey (slot : BitVec 2) (hash : BitVec 384)
  | revoke (slot : BitVec 2)
  | svn (value : BitVec 6)
  | debugLock
  | imageKey (key : BitVec 256)
  deriving DecidableEq, Repr

/-- R398: a selectable IDE stream: one link stream and two selective streams. -/
abbrev IdeStream := Fin 3

/-- The commands: one constructor for each row of the table. -/
inductive Instr
  | registerWrite (by_ : Req) (l : RegLoc) (w : W32)
  | vfIndirectRead (by_ : Req) (p : PartId)
  | vfIndirectWrite (by_ : Req) (p : PartId) (w : W32)
  | srseedWrite (by_ : Req) (t : TileId) (w : W32)
  | mapInvalidate (by_ : Req) (p : PartId) (w : W32)
  | mapInvalidateDone (p : PartId)
  | pageopInstall (by_ : Req) (t : TileId) (slot : SlotId) (ctx : CtxId)
  | pageopPromote (by_ : Req) (t : TileId) (slot : SlotId) (ctx : CtxId)
  | pageopDemote (by_ : Req) (t : TileId) (slot : SlotId) (ctx : CtxId)
  | pageopFree (by_ : Req) (t : TileId) (slot : SlotId) (ctx : CtxId)
  | pageopInvalidOp (by_ : Req) (t : TileId) (op : BitVec 3) (slot : SlotId) (ctx : CtxId)
  | pageopDataMove (t : TileId)
  | pageopDone (t : TileId)
  | agecfgWrite (by_ : Req) (t : TileId) (w : W32)
  | ageTick (t : TileId)
  | vaultRefresh (t : TileId)
  | vaultRefreshRateChange (t : TileId) (temp : Byte)
  | vaultThrottle (t : TileId) (temp : Byte)
  | weirNop (t : TileId) (sigEn : Bool) (sem : SemId)
  | weirScore (t : TileId) (f : WeirF)
  | weirAttend (t : TileId) (f : WeirF)
  | weirTopk (t : TileId) (f : WeirF)
  | weirAppend (t : TileId) (f : WeirF)
  | weirReuse (t : TileId) (f : WeirF)
  | weirGather (t : TileId) (f : WeirF)
  | weirOpAccept (v : TileId)
  | gatherListEntry (v : TileId)
  | weirOpComplete (v : TileId)
  | weirStopResume (by_ : Req) (t : TileId)
  | weirStopFault (by_ : Req) (t : TileId) (code : Byte)
  | weiStopcntClear (by_ : Req) (t : TileId)
  | slotScrubDone (t : TileId) (sl : SlotId)
  | programStart (by_ : Req) (t : TileId) (e : EngId) (pc : BitVec 13)
  | programEnd (t : TileId) (e : EngId)
  | imemLoadWrite (by_ : Req) (t : TileId) (w : W32)
  | imemArm (by_ : Req) (t : TileId) (e : EngId)
  | imemDisarm (by_ : Req) (t : TileId) (e : EngId)
  | imldDropCountClear (by_ : Req) (t : TileId)
  | engineWordIssue (t : TileId) (e : EngId)
  | scNop (t : TileId) (e : EngId)
  | scAdd (t : TileId) (e : EngId) (d a b : BitVec 4)
  | scSub (t : TileId) (e : EngId) (d a b : BitVec 4)
  | scAnd (t : TileId) (e : EngId) (d a b : BitVec 4)
  | scOr (t : TileId) (e : EngId) (d a b : BitVec 4)
  | scXor (t : TileId) (e : EngId) (d a b : BitVec 4)
  | scSll (t : TileId) (e : EngId) (d a b : BitVec 4)
  | scSrl (t : TileId) (e : EngId) (d a b : BitVec 4)
  | scSra (t : TileId) (e : EngId) (d a b : BitVec 4)
  | scSlt (t : TileId) (e : EngId) (d a b : BitVec 4)
  | scSltu (t : TileId) (e : EngId) (d a b : BitVec 4)
  | scMul (t : TileId) (e : EngId) (d a b : BitVec 4)
  | scAddi (t : TileId) (e : EngId) (d a : BitVec 4) (imm : W16)
  | scAndi (t : TileId) (e : EngId) (d a : BitVec 4) (imm : W16)
  | scLi (t : TileId) (e : EngId) (d : BitVec 4) (imm : BitVec 20)
  | scLih (t : TileId) (e : EngId) (d : BitVec 4) (imm : BitVec 20)
  | scLw (t : TileId) (e : EngId) (d a : BitVec 4) (imm : W16)
  | scSw (t : TileId) (e : EngId) (d a : BitVec 4) (imm : W16)
  | scRdix (t : TileId) (e : EngId) (d : BitVec 4) (depth : BitVec 2)
  | scBeq (t : TileId) (e : EngId) (a b : BitVec 4) (off : W16)
  | scBne (t : TileId) (e : EngId) (a b : BitVec 4) (off : W16)
  | scBlt (t : TileId) (e : EngId) (a b : BitVec 4) (off : W16)
  | scBge (t : TileId) (e : EngId) (a b : BitVec 4) (off : W16)
  | scJmp (t : TileId) (e : EngId) (off : W16)
  | scEnd (t : TileId) (e : EngId)
  | lpBegin (t : TileId) (e : EngId) (a : BitVec 4) (end_ : BitVec 13)
  | agSet (t : TileId) (e : EngId) (a : BitVec 4) (g : BitVec 3) (c : BitVec 2) (w : BitVec 3)
  | semWait (t : TileId) (e : EngId) (sem : SemId) (n : Byte)
  | semPost (t : TileId) (e : EngId) (sem : SemId) (n : Byte)
  | semRpost (t : TileId) (e : EngId) (sem : SemId) (n : Byte) (a : BitVec 4)
  | evtSig (t : TileId) (e : EngId) (a : BitVec 4)
  | tlSig (t : TileId) (e : EngId) (a b : BitVec 4)
  | scFence (t : TileId) (e : EngId)
  | postTakesEffect (t : TileId) (e : EngId)
  | engineSignalSend (t : TileId) (e : EngId)
  | remotePostArrival (t : TileId)
  | semaphoreWrite (by_ : Req) (t : TileId) (n : SemId) (w : W32)
  | sempostWrite (by_ : Req) (t : TileId) (w : W32)
  | mxNop (t : TileId)
  | mxProb (t : TileId) (f : MxF)
  | mxProbStart (t : TileId)
  | mxProbComplete (t : TileId)
  | drNop (t : TileId)
  | drWrite (t : TileId) (f : DrF)
  | drWriteStart (t : TileId)
  | drWriteComplete (t : TileId)
  | extBeatSend (t : TileId)
  | extResultDue (t : TileId) (fsel : Bool) (result : Option (BitVec 512))
  | extStrayResult (c : ColId)
  | vxNop (t : TileId)
  | vxFadd (t : TileId) (f : VxV)
  | vxFsub (t : TileId) (f : VxV)
  | vxFmul (t : TileId) (f : VxV)
  | vxFma (t : TileId) (f : VxV)
  | vxFms (t : TileId) (f : VxV)
  | vxFnma (t : TileId) (f : VxV)
  | vxScan (t : TileId) (f : VxV)
  | vxTapmv (t : TileId) (f : VxV)
  | vxMm (t : TileId) (f : VxV)
  | vxMmbt (t : TileId) (f : VxV)
  | vxMmat (t : TileId) (f : VxV)
  | vxChol (t : TileId) (f : VxV)
  | vxChsv (t : TileId) (f : VxV)
  | vxIadd (t : TileId) (f : VxV)
  | vxIsub (t : TileId) (f : VxV)
  | vxImul (t : TileId) (f : VxV)
  | vxAnd (t : TileId) (f : VxV)
  | vxOr (t : TileId) (f : VxV)
  | vxXor (t : TileId) (f : VxV)
  | vxShl (t : TileId) (f : VxV)
  | vxShr (t : TileId) (f : VxV)
  | vxSra (t : TileId) (f : VxV)
  | vxFmin (t : TileId) (f : VxV)
  | vxFmax (t : TileId) (f : VxV)
  | vxFabs (t : TileId) (f : VxV)
  | vxFneg (t : TileId) (f : VxV)
  | vxCmp (t : TileId) (f : VxV)
  | vxSel (t : TileId) (f : VxV)
  | vxMov (t : TileId) (f : VxV)
  | vxBcs (t : TileId) (f : VxV)
  | vxBcl (t : TileId) (f : VxV)
  | vxPerm (t : TileId) (f : VxV)
  | vxGetl (t : TileId) (f : VxV)
  | vxLidx (t : TileId) (f : VxV)
  | vxCvt (t : TileId) (f : VxC)
  | vxPlog (t : TileId) (f : VxV)
  | vxRsum (t : TileId) (f : VxV)
  | vxRsuma (t : TileId) (f : VxV)
  | vxRmax (t : TileId) (f : VxV)
  | vxRmin (t : TileId) (f : VxV)
  | vxExp (t : TileId) (f : VxV)
  | vxExp2 (t : TileId) (f : VxV)
  | vxLog (t : TileId) (f : VxV)
  | vxLog2 (t : TileId) (f : VxV)
  | vxRcp (t : TileId) (f : VxV)
  | vxRsq (t : TileId) (f : VxV)
  | vxSqrt (t : TileId) (f : VxV)
  | vxDiv (t : TileId) (f : VxV)
  | vxTanh (t : TileId) (f : VxV)
  | vxSigm (t : TileId) (f : VxV)
  | vxSin (t : TileId) (f : VxV)
  | vxCos (t : TileId) (f : VxV)
  | vxLd (t : TileId) (f : VxM)
  | vxLdl (t : TileId) (f : VxM)
  | vxLdu (t : TileId) (f : VxM)
  | vxGath (t : TileId) (f : VxG)
  | vxSt (t : TileId) (f : VxM)
  | vxStl (t : TileId) (f : VxM)
  | vxStu (t : TileId) (f : VxM)
  | vxScat (t : TileId) (f : VxG)
  | spownWrite (by_ : Req) (t : TileId) (w : W32)
  | quarantineClear (t : TileId)
  | phasecntClear (by_ : Req) (t : TileId)
  | spconfClear (by_ : Req) (t : TileId)
  | movNop (t : TileId)
  | movIssue (t : TileId) (f : IssueF)
  | movDrain (t : TileId) (sigEn : Bool) (sem : SemId)
  | movCtrlArm (by_ : Req) (t : TileId) (w : W32)
  | streamStart (t : TileId) (q : BitVec 2)
  | transferAdmit (t : TileId) (q : BitVec 2) (x : Xlat)
  | transferRetire (t : TileId) (q : BitVec 2) (r : HostResp)
  | transferRefused (t : TileId) (q : BitVec 2) (x : Xlat)
  | moverStopRecord (t : TileId) (q : BitVec 2)
  | prgResponse (by_ : Req) (index : BitVec 9) (success : Bool)
  | moverStopResume (by_ : Req) (t : TileId) (q : BitVec 2)
  | moverStopFault (by_ : Req) (t : TileId) (q : BitVec 2) (code : Byte)
  | moverStopcntClear (by_ : Req) (t : TileId)
  | queueCfgWrite (by_ : Req) (t : TileId) (q : BitVec 2) (w : W32)
  | overrunCountClear (by_ : Req) (t : TileId) (d : BitVec 3)
  | rotationDeparture (t : TileId) (k : BitVec 3)
  | rotationHopComplete (t : TileId) (k : BitVec 3)
  | realignStart (by_ : Req) (t : TileId) (w : W32)
  | realignDone (t : TileId) (k : BitVec 3)
  | haloSend (t : TileId) (h : BitVec 2)
  | haloSendComplete (t : TileId) (h : BitVec 2)
  | portDomainUp (p : PortId)
  | vulCtlEnableWrite (by_ : Req) (p : PortId) (w : W32)
  | vulRetrain (by_ : Req) (p : PortId)
  | linkTrainingComplete (p : PortId) (tr : Training)
  | trainingTimeout (p : PortId)
  | keyingComplete (p : PortId) (peer : PeerHello)
  | keyingTimeout (p : PortId)
  | culvertClose (axis : Fin 3)
  | portLeave (p : PortId)
  | laneLockLoss (p : PortId)
  | peerLostTimeout (p : PortId)
  | flitReceive (p : PortId) (f : FlitArrival)
  | flitData (p : PortId) (f : Flit)
  | flitIdle (p : PortId) (f : Flit)
  | flitLeave (p : PortId) (f : Flit)
  | flitKey (p : PortId) (f : Flit)
  | keyEpochAdvance (p : PortId)
  | msgWrite (p : PortId) (vc : BitVec 3)
  | msgRead (p : PortId) (vc : BitVec 3)
  | msgSignal (p : PortId) (vc : BitVec 3)
  | msgAck (p : PortId) (vc : BitVec 3)
  | msgReadData (p : PortId) (vc : BitVec 3)
  | msgNack (p : PortId) (vc : BitVec 3)
  | msgTime (p : PortId)
  | msgStop (p : PortId)
  | vulorRequestTimeout (tag : BitVec 16)
  | timeMessagePeriod (p : PortId)
  | vulorCounterClear (by_ : Req) (p : PortId)
  | canalCounterClear (by_ : Req) (n : BitVec 2)
  | ingressBeat (q : BitVec 4) (b : IngressBeat)
  | returnBeatTaken (q : BitVec 4)
  | fabricDoorbell (c : CoreId) (o : Byte)
  | gsrAssert
  | gsrDeassert
  | gsrHoldExpiry
  | probeSend (c : ColId) (fsel : Bool)
  | probeResultDue (c : ColId) (fsel : Bool) (valid : Bool)
  | fabricCounterClear (by_ : Req)
  | bar2Access (by_ : Req) (addr : W64) (op : Bar2Tlp)
  | flrVf (p : PartId)
  | flrPf
  | perst
  | atsInvalidate (pasid : Option (BitVec 20)) (base : W64) (size : W64)
  | versionRequestFa1 (by_ : Req) (p : PartId)
  | versionRequestFa2 (by_ : Req) (p : PartId)
  | versionRequestReserved (by_ : Req) (p : PartId)
  | contextCreate (by_ : Req) (p : PartId)
  | contextDestroy (by_ : Req) (p : PartId) (c : CtxId)
  | contextBecomesFree (p : PartId) (c : CtxId)
  | queueCreate (by_ : Req) (p : PartId)
  | queueDestroy (by_ : Req) (p : PartId) (q : QueueId)
  | objectCreate (by_ : Req) (p : PartId)
  | objectFree (by_ : Req) (p : PartId)
  | objectQuery (by_ : Req) (p : PartId)
  | objectRelease (p : PartId) (idx : BitVec 24)
  | eventCreate (by_ : Req) (p : PartId) (owner : CtxId)
  | eventDestroy (by_ : Req) (p : PartId)
  | eventReset (by_ : Req) (p : PartId)
  | eventSignal (by_ : Req) (p : PartId)
  | eventQuery (by_ : Req) (p : PartId)
  | timelineSignal (by_ : Req) (p : PartId)
  | waiterArm (by_ : Req) (p : PartId) (slot : BitVec 14) (tl : Bool)
  | waiterDisarm (by_ : Req) (p : PartId) (slot : BitVec 14)
  | waiterFire (p : PartId) (slot : BitVec 14)
  | queueSubmit (by_ : Req) (p : PartId) (q : QueueId) (tail : W16)
  | commandFetch (p : PartId) (q : QueueId) (r : HostResp)
  | cmdNop (p : PartId) (q : QueueId)
  | cmdLaunch (p : PartId) (q : QueueId) (args : HostResp)
  | launchEngineStart (p : PartId) (q : QueueId)
  | launchComplete (p : PartId) (q : QueueId)
  | launchWatchdog (p : PartId) (q : QueueId)
  | commandSignalApply (p : PartId) (q : QueueId)
  | noticeRecordWrite (p : PartId) (c : CtxId)
  | noticeReadUpdate (by_ : Req) (p : PartId) (c : CtxId) (w : W32)
  | intDoorbellWrite (by_ : Req) (c : CoreId) (w : W32)
  | intEnableSet (by_ : Req) (c : CoreId) (n : BitVec 3) (w : W32)
  | intEnableClear (by_ : Req) (c : CoreId) (n : BitVec 3) (w : W32)
  | intPendingSet (by_ : Req) (c : CoreId) (n : BitVec 3) (w : W32)
  | intPendingClear (by_ : Req) (c : CoreId) (n : BitVec 3) (w : W32)
  | intStatClear (by_ : Req) (c : CoreId)
  | timecmpWrite (c : CoreId) (hi : Bool) (w : W32)
  | timerCompareMatch (c : CoreId)
  | moderationTimeout (c : CoreId) (g : BitVec 4)
  | interruptClaim (c : CoreId) (b : Boundary)
  | mret (c : CoreId)
  | errorRecordPop (by_ : Req) (c : CoreId)
  | errorLostcntClear (by_ : Req) (c : CoreId)
  | coreAccessFault (c : CoreId) (k : CoreAccess) (addr : W32) (pc : W32)
  | coreMemoryExternalWrite (by_ : Req) (c : ColId) (off : BitVec 17) (w : W32)
  | powerOn
  | resetNLow
  | devresetWrite (by_ : Req) (w : W32)
  | bootStart (i : BootInput)
  | doneLineRise
  | doneReleaseWrite (by_ : Req)
  | linkskipClear (by_ : Req) (w : W32)
  | bootCountersClear (by_ : Req)
  | spdmGetVersion
  | spdmGetCapabilities
  | spdmNegotiateAlgorithms
  | spdmGetDigests
  | spdmGetCertificate (offset : W16) (len : W16)
  | spdmChallenge (nonce : BitVec 256)
  | spdmGetMeasurements (index : Byte)
  | spdmKeyExchange (exchange : BitVec 768)
  | spdmFinish (verified : Bool)
  | spdmHeartbeat
  | spdmKeyUpdate
  | spdmEndSession
  | ideKmRequest (stream : IdeStream) (key : BitVec 256)
  | fuseProvision (w : FuseWrite) (counter : BitVec 6)
  | attestationRequest (by_ : Req) (p : PartId)
  | attestationReportDone (p : PartId)
  | dmiAccess (op : DmiOp)
  | partitionReset (by_ : Req) (w : W32)
  | domainQuietEntry (d : Fin 64)
  | domainIdleTimeout (d : Fin 64) (quietUs : Nat)
  | cwakeTimeReached (d : Fin 64)
  | domainWakeStart (d : DomId)
  | domainWakeComplete (d : DomId) (reloadOk : Bool)
  | closingComplete (d : DomId)
  | lowStateEntryComplete (d : DomId)
  | cisternIdleTimeout (e : Fin 16)
  | powerRequestWake (by_ : Req) (dom : BitVec 7)
  | powerRequestToState (by_ : Req) (dom : BitVec 7) (target : BitVec 3)
  | partitionWakeWrite (by_ : Req) (p : PartId) (w : W32)
  | governorSample (watts : Nat) (watts1ms : Nat)
  | capWrite (by_ : Req) (w : W32)
  | junctionThrottle (temp : Byte)
  | junctionHot (temp : Byte)
  | thermalTrip (temp : Byte)
  | hbmStackThrottle (n : BitVec 3) (temp : Byte)
  | hbmRefreshDouble (n : BitVec 3) (temp : Byte)
  | weevilPassStart (t : TileId)
  | weevilScrubAccess (t : TileId) (find : ScrubFind)
  | weevilPassEnd (t : TileId)
  | scrubFault (t : TileId) (why : ScrubCause)
  | weevilReload (t : TileId) (ok : Bool)
  | hbmPatrolScrub (n : BitVec 3) (addr : W64) (find : ScrubFind)
  | tileEccClear (by_ : Req) (t : TileId)
  | colonyEccClear (by_ : Req) (c : ColId)
  | hbmEccClear (by_ : Req)
  | lightCounterSample (energy : Nat)
  | windowMark (by_ : Req) (t : TileId)
  | windowEnd (by_ : Req) (t : TileId)
  | tracePacketSend (t : TileId)
  | traceRingWrite (p : PartId)
  | traceReadUpdate (by_ : Req) (p : PartId) (w : W32)
  | traceLostClear (by_ : Req) (p : PartId)
  | tileTraceLostClear (by_ : Req) (t : TileId)
  | fireflyBeacon
  | engineRelease (by_ : Req) (t : TileId) (m : BitVec 4)
  | engineStep (by_ : Req) (t : TileId) (m : BitVec 4)
  | coreTriggerHit (c : CoreId)
  | tapRegacc (write : Bool) (addr : W32) (data : W32)
  | globalStopGo (by_ : Req) (w : W32)
  | stopMarkerArrival (t : TileId)
  | vulorStopSend
  | moltVwaitExpiry
  | moltSnapshotWrite
  | globalStopRelease (by_ : Req)
  | partitionResetComplete (p : PartId)
  | lowWordRead (by_ : Req) (l : RegLoc)
  deriving DecidableEq, Repr

end Sys2Proof
end

