-- ==== Sys2Proof/Decode.lean ====
section
/-!
DEFINITION. The command that a word spells by the table's bits. The table of this block gives no row any bits, so a word spells none.
-/
namespace Sys2Proof

/-- The command of a word of `nbits` bits: none, as no row of the table has bits. -/
def decodeTableWord (_nbits _w : Nat) : Option Instr := none

end Sys2Proof
end

