-- ==== Sys2Proof/Machine/Bits.lean ====
section
/-!
DEFINITION. Bit fields of registers and descriptors, and byte order (R9: little-endian).
-/
namespace Sys2Proof.Machine

/-- Bits [hi:lo] of a natural number. -/
def bits (w hi lo : Nat) : Nat := (w >>> lo) % 2 ^ (hi + 1 - lo)

/-- Bits [hi:lo] of a word. -/
def fld (w : W32) (hi lo : Nat) : Nat := bits w.toNat hi lo

/-- One bit. -/
def bit (w : W32) (i : Nat) : Bool := w.getLsbD i

/-- `w` with bits [hi:lo] replaced by the low bits of `v`. -/
def setFld (w : W32) (hi lo v : Nat) : W32 :=
  let m := BitVec.ofNat 32 ((2 ^ (hi + 1 - lo) - 1) <<< lo)
  (w &&& ~~~m) ||| (BitVec.ofNat 32 (v <<< lo) &&& m)

/-- `w` with bit `i` replaced. -/
def setBit (w : W32) (i : Nat) (b : Bool) : W32 := setFld w i i (if b then 1 else 0)

/-- The number of a flag. -/
def nat01 (b : Bool) : Nat := if b then 1 else 0

/-- The low `n` bits of `v`, read as a signed number. -/
def sx (n v : Nat) : Int := let u := v % 2 ^ n; if u < 2 ^ (n - 1) then (u : Int) else (u : Int) - 2 ^ n

/-- A signed number in 32-bit two's complement. -/
def w32i (i : Int) : W32 := BitVec.ofInt 32 i

/-- R9: a little-endian number. -/
def leNat : List Byte → Nat
  | [] => 0
  | b :: bs => b.toNat + 256 * leNat bs

/-- R9: the `n` bytes of a number, lowest first. -/
def natLe : Nat → Nat → List Byte
  | 0, _ => []
  | n + 1, v => BitVec.ofNat 8 v :: natLe n (v / 256)

/-- R9: the word at the front of a list of bytes. -/
def leW32 (bs : List Byte) : W32 := BitVec.ofNat 32 (leNat (bs.take 4))

/-- Increment saturating at `cap`. -/
def satAdd (cap v n : Nat) : Nat := min cap (v + n)

/-- Increment a field of a word, saturating at the field's largest value. -/
def incFld (w : W32) (hi lo n : Nat) : W32 := setFld w hi lo (satAdd (2 ^ (hi + 1 - lo) - 1) (fld w hi lo) n)

/-- A word from its fields: (lowest bit, value). -/
def pack (l : List (Nat × Nat)) : W32 := BitVec.ofNat 32 (l.foldl (fun a x => a + x.2 * 2 ^ x.1) 0)

/-- A word whose bit `b` is `f b`, for `b` below `n`. -/
def bitsWhere (n : Nat) (f : Nat → Bool) : W32 := pack ((List.range n).map fun b => (b, nat01 (f b)))

/-- Least number below `n` that `p` holds of. -/
def firstBelow (n : Nat) (p : Nat → Bool) : Option Nat := (List.range n).find? p

/-- Set a list's element. -/
def setAt {α : Type} (l : List α) (i : Nat) (v : α) : List α := l.set i v

end Sys2Proof.Machine
end

