-- ==== Sys2Proof/Machine/Num.lean ====
section
/-!
DEFINITION. Numbers (R48 to R66, R476, R477): decoding of every format, exact dyadic arithmetic, the rounding of R57,
overflow and special values of R58, R65 and R66, and the choice of a result within a stated bound (R68, R71).
-/
namespace Sys2Proof.Machine

/-! ## Exact numbers -/

/-- The number m × 2^e. -/
structure Dy where
  m : Int
  e : Int
  deriving DecidableEq, Repr

/-- What an encoding stands for: NaN, an infinity, or a finite number with the sign of a zero kept. -/
inductive Fp
  | nan
  | inf (neg : Bool)
  | fin (neg : Bool) (m : Nat) (e : Int)
  deriving DecidableEq, Repr

/-- Numerator of a number at exponent `e`, where `e` is at most its own. -/
def Dy.at (x : Dy) (e : Int) : Int := x.m * (2 ^ (x.e - e).toNat : Nat)
/-- Exact sum. -/
def Dy.add (x y : Dy) : Dy := let e := min x.e y.e; ⟨x.at e + y.at e, e⟩
/-- Exact product. -/
def Dy.mul (x y : Dy) : Dy := ⟨x.m * y.m, x.e + y.e⟩
/-- Negation. -/
def Dy.neg (x : Dy) : Dy := ⟨-x.m, x.e⟩
/-- Magnitude. -/
def Dy.abs (x : Dy) : Dy := ⟨x.m.natAbs, x.e⟩
/-- Exact comparison x ≤ y. -/
def Dy.le (x y : Dy) : Bool := let e := min x.e y.e; decide (x.at e ≤ y.at e)
/-- x < y. -/
def Dy.lt (x y : Dy) : Bool := !(y.le x)
/-- Zero. -/
def Dy.zero : Dy := ⟨0, 0⟩
/-- 2^k. -/
def Dy.pow2 (k : Int) : Dy := ⟨1, k⟩
/-- Exact sum of a list. -/
def Dy.sum (l : List Dy) : Dy := l.foldl Dy.add Dy.zero
/-- x × a ÷ b, cut off 64 bits below the exponent of x: the bounds of Table 3-6 carry the factor 1.01. -/
def Dy.scale (x : Dy) (a b : Nat) : Dy := ⟨(x.m * (a * 2 ^ 64 : Nat)) / (b : Int), x.e - 64⟩

/-- The finite number. -/
def Fp.dy : Fp → Dy
  | .fin n m e => ⟨if n then -(m : Int) else m, e⟩
  | _ => Dy.zero

/-- Sign. -/
def Fp.isNeg : Fp → Bool
  | .nan => false | .inf n => n | .fin n _ _ => n
/-- NaN? -/
def Fp.isNan : Fp → Bool
  | .nan => true | _ => false
/-- Infinity? -/
def Fp.isInf : Fp → Bool
  | .inf _ => true | _ => false

/-! ## Formats -/

/-- Table 3-1: how a floating-point format treats its top codes. -/
inductive Specials
  /-- IEEE 754: top exponent holds infinities and NaN -/
  | ieee
  /-- E4M3: only S.1111.111 is special, a NaN -/
  | e4m3
  /-- every code is finite -/
  | none
  deriving DecidableEq, Repr

/-- A floating-point format. -/
structure Fmt where
  eb : Nat
  mb : Nat
  bias : Nat
  sp : Specials
  deriving DecidableEq, Repr

def f32 : Fmt := ⟨8, 23, 127, .ieee⟩
def f16 : Fmt := ⟨5, 10, 15, .ieee⟩
def bf16 : Fmt := ⟨8, 7, 127, .ieee⟩
def e4m3 : Fmt := ⟨4, 3, 7, .e4m3⟩
def e5m2 : Fmt := ⟨5, 2, 15, .ieee⟩
def e2m3 : Fmt := ⟨2, 3, 1, .none⟩
def e3m2 : Fmt := ⟨3, 2, 3, .none⟩
def e2m1 : Fmt := ⟨2, 1, 1, .none⟩

/-- Width of a format. -/
def Fmt.width (f : Fmt) : Nat := 1 + f.eb + f.mb

/-- R48, R64: decode; subnormals exactly. -/
def Fmt.decode (f : Fmt) (w : Nat) : Fp :=
  let neg := decide (w / 2 ^ (f.eb + f.mb) % 2 = 1)
  let ex := w / 2 ^ f.mb % 2 ^ f.eb
  let ma := w % 2 ^ f.mb
  let top := decide (ex = 2 ^ f.eb - 1)
  if f.sp = .ieee ∧ top then (if ma = 0 then .inf neg else .nan)
  else if f.sp = .e4m3 ∧ top ∧ ma = 2 ^ f.mb - 1 then .nan
  else if ex = 0 then .fin neg ma (1 - (f.bias : Int) - f.mb)
  else .fin neg (2 ^ f.mb + ma) ((ex : Int) - f.bias - f.mb)

/-- R65: the canonical NaN. -/
def Fmt.nanCode (f : Fmt) : Nat :=
  match f.sp with
  | .ieee => (2 ^ f.eb - 1) * 2 ^ f.mb + 2 ^ (f.mb - 1)
  | .e4m3 => 2 ^ (f.eb + f.mb) - 1
  | .none => 0

/-- Code of the largest finite magnitude. -/
def Fmt.maxCode (f : Fmt) : Nat :=
  match f.sp with
  | .ieee => (2 ^ f.eb - 1) * 2 ^ f.mb - 1
  | .e4m3 => 2 ^ (f.eb + f.mb) - 2
  | .none => 2 ^ (f.eb + f.mb) - 1

/-- R65: E5M2's NaN is 0x7E and every other format's the code of R65. -/
def Fmt.canonNan (f : Fmt) : Nat := if f = e5m2 then 0x7E else f.nanCode

/-- Sign bit of a code. -/
def Fmt.signed (f : Fmt) (neg : Bool) (c : Nat) : Nat := c + (if neg then 2 ^ (f.eb + f.mb) else 0)

/-- Code of an infinity. -/
def Fmt.infCode (f : Fmt) (neg : Bool) : Nat := f.signed neg ((2 ^ f.eb - 1) * 2 ^ f.mb)

/-! ## Rounding -/

/-- Table 3-3: rnd. -/
inductive Rnd | rne | rtz | sr
  deriving DecidableEq, Repr

/-- Table 3-3: the rnd bits of a numeric control field; 3 is illegal and never reaches here. -/
def rndOf (nc : BitVec 3) : Rnd := match nc.toNat % 4 with | 1 => .rtz | 2 => .sr | _ => .rne
/-- Table 3-3: the sat bit. -/
def satOf (nc : BitVec 3) : Bool := nc.msb

/-- Position of the leading one. -/
def lead (m : Nat) : Nat := Nat.log2 m

/-- R57: m × 2^e as a multiple of 2^q: the quotient rounded, and whether it was exact. `g` is the generator's value. -/
def roundQ (r : Rnd) (m : Nat) (e q : Int) (g : Nat) : Nat × Bool :=
  if q ≤ e then (m * 2 ^ (e - q).toNat, true)
  else
    let k := (q - e).toNat
    let lo := m / 2 ^ k
    let rem := m % 2 ^ k
    if rem = 0 then (lo, true)
    else
      let up := match r with
        | .rtz => false
        | .rne => decide (2 ^ k < 2 * rem) || (decide (2 * rem = 2 ^ k) && decide (lo % 2 = 1))
        | .sr => decide (65536 ≤ rem * 65536 / 2 ^ k + g)
      (if up then lo + 1 else lo, false)

/-- Exponent of the last place of a format at the magnitude m × 2^e. -/
def Fmt.quantum (f : Fmt) (m : Nat) (e : Int) : Int :=
  max ((lead m : Int) + e - f.mb) (1 - (f.bias : Int) - f.mb)

/-- Code (without sign) of n × 2^q, where n is below 2^(mb+1) or equal to it. -/
def Fmt.encode (f : Fmt) (n : Nat) (q : Int) : Nat :=
  if n < 2 ^ f.mb then n
  else
    -- n = 2^mb + mantissa; a carry into the next binade continues the code
    ((q + f.mb + f.bias).toNat * 2 ^ f.mb) + (n - 2 ^ f.mb)

/-- A result: its code and what it tells TIL_NUMSTAT (R61). -/
structure Res where
  code : Nat
  nan : Bool := false
  inf : Bool := false
  sat : Bool := false
  uflow : Bool := false
  deriving DecidableEq, Repr

/-- R57: does rounding this magnitude draw a value of the generator? -/
def Fmt.inexact (f : Fmt) (m : Nat) (e : Int) : Bool :=
  if m = 0 then false else !(roundQ .rtz m e (f.quantum m e) 0).2

/-- R57, R58, R66: round a finite number to a format. -/
def Fmt.round (f : Fmt) (r : Rnd) (sat : Bool) (neg : Bool) (m : Nat) (e : Int) (g : Nat) : Res :=
  if m = 0 then { code := f.signed neg 0 }
  else
    let q := f.quantum m e
    let (n, exact) := roundQ r m e q g
    let c := f.encode n q
    let small := decide (c < 2 ^ f.mb) && (!exact || decide (c ≠ 0))
    if f.maxCode < c then
      if sat || decide (f.sp = .none) then { code := f.signed neg f.maxCode, sat := true }
      else match f.sp with
        | .ieee => { code := f.infCode neg, inf := true }
        | _ => { code := f.canonNan, nan := true }
    else { code := f.signed neg c, uflow := small }

/-- R66, Table 3-5: convert any value to a floating-point format. -/
def Fmt.convert (f : Fmt) (r : Rnd) (sat : Bool) (x : Fp) (g : Nat) : Res :=
  match x with
  | .nan => { code := f.canonNan, nan := true }
  | .inf n =>
    if sat then { code := f.signed n f.maxCode, sat := true }
    else if f.sp = .ieee then { code := f.infCode n, inf := true }
    else { code := f.canonNan, nan := true }
  | .fin n m e => f.round r sat n m e g

/-- Least and greatest value of a w-bit integer (R476). -/
def intMin (w : Nat) : Int := -(2 ^ (w - 1) : Nat)
def intMax (w : Nat) : Int := (2 ^ (w - 1) : Nat) - 1

/-- R476, R66, R61: convert to a w-bit two's-complement number in units of 2^q. A nonzero value that becomes 0 sets uflow. -/
def toInt (w : Nat) (q : Int) (r : Rnd) (x : Fp) (g : Nat) : Res :=
  let code := fun (i : Int) => (i % (2 ^ w : Nat)).toNat
  match x with
  | .nan => { code := 0, nan := true }
  | .inf n => { code := code (if n then intMin w else intMax w), sat := true }
  | .fin n m e =>
    let v : Int := (roundQ r m e q g).1
    let v := if n then -v else v
    if v < intMin w then { code := code (intMin w), sat := true }
    else if intMax w < v then { code := code (intMax w), sat := true }
    else { code := code v, uflow := decide (v = 0) && decide (m ≠ 0) }

/-- R57: does an integer conversion draw? -/
def intInexact (q : Int) (x : Fp) : Bool :=
  match x with
  | .fin _ m e => !(roundQ .rtz m e q 0).2
  | _ => false

/-! ## FP32 arithmetic -/

/-- FP32 of a word. -/
def fp (w : W32) : Fp := f32.decode w.toNat

/-- Round an exact number to a format, to nearest; a zero takes the sign given. -/
def Fmt.ofDy (f : Fmt) (x : Dy) (zneg : Bool) : Res :=
  if x.m = 0 then { code := f.signed zneg 0 } else f.round .rne false (decide (x.m < 0)) x.m.natAbs x.e 0

/-- R65: x + y rounded once to a format. -/
def Fmt.add (f : Fmt) (x y : Fp) : Res :=
  match x, y with
  | .nan, _ => { code := f.canonNan, nan := true }
  | _, .nan => { code := f.canonNan, nan := true }
  | .inf a, .inf b => if a = b then { code := f.infCode a, inf := true } else { code := f.canonNan, nan := true }
  | .inf a, _ => { code := f.infCode a, inf := true }
  | _, .inf b => { code := f.infCode b, inf := true }
  | .fin a _ _, .fin b _ _ => f.ofDy (x.dy.add y.dy) (a && b)

/-- Negation of a value. -/
def Fp.negate : Fp → Fp
  | .nan => .nan | .inf n => .inf (!n) | .fin n m e => .fin (!n) m e

/-- Exact product; NaN for 0 × ∞. -/
def Fp.mul (x y : Fp) : Fp :=
  match x, y with
  | .nan, _ => .nan
  | _, .nan => .nan
  | .inf a, .inf b => .inf (a != b)
  | .inf a, .fin b m _ => if m = 0 then .nan else .inf (a != b)
  | .fin a m _, .inf b => if m = 0 then .nan else .inf (a != b)
  | .fin a m e, .fin b n k => .fin (a != b) (m * n) (e + k)

/-- Exact sum; NaN for ∞ − ∞. -/
def Fp.add (x y : Fp) : Fp :=
  match x, y with
  | .nan, _ => .nan
  | _, .nan => .nan
  | .inf a, .inf b => if a = b then .inf a else .nan
  | .inf a, _ => .inf a
  | _, .inf b => .inf b
  | .fin a _ _, .fin b _ _ =>
    let s := x.dy.add y.dy
    .fin (if s.m = 0 then a && b else decide (s.m < 0)) s.m.natAbs s.e

/-- Round an exact value to a format, to nearest. -/
def Fmt.nearest (f : Fmt) (x : Fp) : Res := f.convert .rne false x 0

/-- R477: x orders at or below y, −0 below +0; neither is NaN. -/
def Fp.leq (x y : Fp) : Bool :=
  match x, y with
  | .inf a, .inf b => a || !b
  | .inf a, _ => a
  | _, .inf b => !b
  | .fin a m _, .fin b n _ => if m = 0 ∧ n = 0 then a || !b else x.dy.le y.dy
  | _, _ => false

/-- R477: minimum and maximum; a NaN operand gives NaN. -/
def Fp.min (x y : Fp) : Fp := if x.isNan || y.isNan then .nan else if x.leq y then x else y
def Fp.max (x y : Fp) : Fp := if x.isNan || y.isNan then .nan else if x.leq y then y else x

/-! ## A result within a bound -/

/-- Place of an FP32 code in the order of its numbers; both zeros are 0. -/
def ordOf (c : Nat) : Int := if c < 2 ^ 31 then c else -((c - 2 ^ 31 : Nat) : Int)
/-- The code at a place. -/
def ofOrd (i : Int) : Nat := if 0 ≤ i then i.toNat else 2 ^ 31 + (-i).toNat

/-- Largest place whose number is at most x, and whether they are equal. Places past the largest finite stand for ∞. -/
def ordFloor (x : Dy) : Int :=
  if x.m = 0 then 0 else
  let q := f32.quantum x.m.natAbs x.e
  let (n, exact) := roundQ .rtz x.m.natAbs x.e q 0
  let c : Int := min (f32.encode n q) 0x7F800000
  if 0 < x.m then c else if exact then -c else max (-c - 1) (-0x7F800000)

/-- Smallest place whose number is at least x. -/
def ordCeil (x : Dy) : Int := -(ordFloor x.neg)

/-- R68, R71: an FP32 result whose distance from the reference is at most the bound: one of the codes there, taken by the
free number; the nearest code where the bound is below half its last place. -/
def pickWithin (ref bound : Dy) (free : Nat) : Nat :=
  let lo := ordCeil (ref.add bound.neg)
  let hi := ordFloor (ref.add bound)
  if hi < lo then (f32.ofDy ref (decide (ref.m < 0))).code
  else
    let c := ofOrd (lo + ((free % (hi - lo + 1).toNat : Nat) : Int))
    if c = 0 ∧ ref.m < 0 then 2 ^ 31 else c

/-- A result from a code that stands for a reference. -/
def codeRes (c : Nat) (nonzero : Bool) : Res :=
  let x := f32.decode c
  { code := if x.isNan then f32.canonNan else c, nan := x.isNan, inf := x.isInf,
    uflow := nonzero && decide (c % 2 ^ 31 < 2 ^ 23) }
/-- A result within a bound of its reference, for an exact result that is 0 or not. -/
def pickNz (nonzero : Bool) (ref bound : Dy) (free : Nat) : Res := codeRes (pickWithin ref bound free) nonzero
/-- A result within a bound of its reference. -/
def pickRes (ref bound : Dy) (free : Nat) : Res := pickNz (decide (ref.m ≠ 0)) ref bound free

/-- One unit in the last place of FP32 at a number. -/
def ulp32 (x : Dy) : Dy := ⟨1, f32.quantum x.m.natAbs x.e⟩

/-- k ulp at a number, plus 2^a where given. -/
def ulps (k : Nat) (x : Dy) (extra : Option Int) : Dy :=
  let b : Dy := if x.m = 0 then ⟨k, -149⟩ else ⟨k, (ulp32 x).e⟩
  match extra with
  | none => b
  | some a => b.add (Dy.pow2 a)

/-- R68: a reference treats its FP64 result as exact. -/
def toF64 (x : Dy) : Dy :=
  if x.m = 0 then x else
  let q := max ((lead x.m.natAbs : Int) + x.e - 52) (-1074)
  let n := (roundQ .rne x.m.natAbs x.e q 0).1
  ⟨if x.m < 0 then -(n : Int) else n, q⟩

/-! ## Elementary functions, to 160 fractional bits before FP64 rounding -/

/-- Fractional bits of the references. -/
def prec : Nat := 160

/-- ln 2 × 2^prec. -/
def ln2F : Nat := 0xB17217F7D1CF79ABC9E3B39803F2F6AF40F34326

/-- Fixed point of a number. -/
def Dy.fix (x : Dy) : Int :=
  if 0 ≤ x.e + prec then x.m * (2 ^ (x.e + prec).toNat : Nat) else x.m / (2 ^ (-(x.e + prec)).toNat : Nat)

/-- Σ x^k ÷ k! from the term given, `n` terms. -/
def expTerms (x : Int) : Nat → Nat → Int → Int
  | 0, _, _ => 0
  | n + 1, k, t => t + expTerms x n (k + 1) (t * x / (2 ^ prec : Nat) / ((k + 1 : Nat) : Int))

/-- e^x for a fixed-point x, as a number. -/
def expFix (x : Int) : Dy :=
  let k := x / (ln2F : Int)
  let r := x - k * ln2F
  ⟨expTerms r 48 0 (2 ^ prec : Nat), k - prec⟩

/-- 2^x for a number. -/
def exp2Fix (x : Int) : Dy :=
  let k := x / (2 ^ prec : Nat)
  let r := x - k * (2 ^ prec : Nat)
  ⟨expTerms (r * ln2F / (2 ^ prec : Nat)) 48 0 (2 ^ prec : Nat), k - prec⟩

/-- Σ z^(2k+1) ÷ (2k + 1), `n` terms. -/
def atanhTerms (z2 : Int) : Nat → Nat → Int → Int
  | 0, _, _ => 0
  | n + 1, k, t => t / ((2 * k + 1 : Nat) : Int) + atanhTerms z2 n (k + 1) (t * z2 / (2 ^ prec : Nat))

/-- ln m × 2^prec for m × 2^e > 0. -/
def lnFix (m : Nat) (e : Int) : Int :=
  let l := lead m
  let y : Int := if l ≤ prec then (m * 2 ^ (prec - l) : Nat) else (m / 2 ^ (l - prec) : Nat)
  let one : Int := (2 ^ prec : Nat)
  let z := (y - one) * one / (y + one)
  2 * atanhTerms (z * z / one) 60 0 z + (e + l) * ln2F

/-- Σ (−1)^k x^(2k + s) ÷ (2k + s)!, `n` terms from the term given. -/
def sinTerms (x2 : Int) : Nat → Nat → Int → Int
  | 0, _, _ => 0
  | n + 1, k, t => t + sinTerms x2 n (k + 2) (-(t * x2 / (2 ^ prec : Nat) / (((k + 1) * (k + 2) : Nat) : Int)))

/-- A fixed-point number as a number. -/
def ofFix (x : Int) : Dy := ⟨x, -(prec : Int)⟩

/-- A fixed-point argument held to ±1100, past which FP64 has overflowed or reached 0. -/
def held (x : Int) : Int := let b : Int := 1100 * (2 ^ prec : Nat); max (-b) (min b x)
/-- e^x. -/
def refExp (x : Dy) : Dy := toF64 (expFix (held x.fix))
/-- 2^x. -/
def refExp2 (x : Dy) : Dy := toF64 (exp2Fix (held x.fix))
/-- ln x, x > 0. -/
def refLog (x : Dy) : Dy := toF64 (ofFix (lnFix x.m.natAbs x.e))
/-- log2 x, x > 0. -/
def refLog2 (x : Dy) : Dy := toF64 (ofFix (lnFix x.m.natAbs x.e * (2 ^ prec : Nat) / ln2F))
/-- a ÷ b to 120 bits and more, b ≠ 0. -/
def refDiv (a b : Dy) : Dy := toF64 ⟨(a.m * (2 ^ prec : Nat)) / b.m, a.e - b.e - prec⟩

/-- 1 ÷ (1 + e^−x), to `prec` bits and more of the value. -/
def sigmDy (x : Dy) : Dy :=
  let e := expFix (-(held x.abs.fix))
  let one : Int := (2 ^ prec : Nat)
  if x.m < 0 then ⟨e.m * one / (one + e.fix), e.e⟩ else ofFix (one * one / (one + e.fix))
/-- 1 ÷ (1 + e^−x). -/
def refSigm (x : Dy) : Dy := toF64 (sigmDy x)
/-- tanh x; below 2^−40, x − x³ ÷ 3. -/
def refTanh (x : Dy) : Dy :=
  let e := (expFix (-2 * held x.abs.fix)).fix
  let one : Int := (2 ^ prec : Nat)
  let v := (one - e) * one / (one + e)
  if x.abs.lt (Dy.pow2 (-40)) then toF64 (x.add (refDiv (x.mul (x.mul x)) ⟨3, 0⟩).neg)
  else toF64 (ofFix (if x.m < 0 then -v else v))
/-- sin x and cos x, |x| ≤ π. -/
def refSin (x : Dy) : Dy := toF64 (ofFix (sinTerms (x.fix * x.fix / (2 ^ prec : Nat)) 60 1 x.fix))
def refCos (x : Dy) : Dy := toF64 (ofFix (sinTerms (x.fix * x.fix / (2 ^ prec : Nat)) 60 0 (2 ^ prec : Nat)))

/-- Integer square root by bits, from bit `k` down. -/
def isqrtBits (n : Nat) : Nat → Nat → Nat
  | 0, r => r
  | k + 1, r => isqrtBits n k (if (r + 2 ^ k) * (r + 2 ^ k) ≤ n then r + 2 ^ k else r)

/-- √x as a number with a sticky last bit, x ≥ 0. -/
def sqrtDy (m : Nat) (e : Int) : Dy :=
  let e2 := if e % 2 = 0 then e else e - 1
  let m2 := (if e % 2 = 0 then m else 2 * m) * 2 ^ 128
  let r := isqrtBits m2 (lead m2 / 2 + 1) 0
  ⟨2 * r + (if r * r = m2 then 0 else 1), e2 / 2 - 64 - 1⟩

end Sys2Proof.Machine
end

