-- ==== Sys2Proof/Machine/Elem.lean ====
section
/-!
DEFINITION. Elements in memory: packing (R50), the formats of tensors by FEAT_FMT number with their variants (R48), MX
scales (R51, R59), and conversion of a row to a format under a numeric control field (R55 to R59).
-/
namespace Sys2Proof.Machine

/-- A tensor's element format: FEAT_FMT bit number 0 to 10 and variant (Tables 3-1, 6-2). -/
structure EFmt where
  num : Nat
  var : Bool
  deriving DecidableEq, Repr

/-- Bits of an element. -/
def EFmt.bits (f : EFmt) : Nat :=
  match f.num with
  | 4 => 6 | 6 => 4 | 7 => 4 | 8 => 16 | 9 => 16 | 10 => 32 | _ => 8

/-- Does the format carry shared scales? -/
def EFmt.isMx (f : EFmt) : Bool := decide (f.num = 3) || decide (f.num = 4) || decide (f.num = 5) || decide (f.num = 6)

/-- Is it an integer format, MXINT8 included? -/
def EFmt.isInt (f : EFmt) : Bool := decide (f.num = 2) || decide (f.num = 5) || decide (f.num = 7)

/-- Has the format variants? -/
def EFmt.hasVar (n : Nat) : Bool := decide (n = 3) || decide (n = 4)

/-- The floating-point layout of a format that is no integer. -/
def EFmt.fmt (f : EFmt) : Fmt :=
  match f.num, f.var with
  | 0, _ => e4m3 | 1, _ => e5m2 | 3, false => e4m3 | 3, true => e5m2 | 4, false => e2m3 | 4, true => e3m2 | 6, _ => e2m1
  | 8, _ => bf16 | 9, _ => f16 | _, _ => f32

/-- Exponent of an integer format's unit: −6 for MXINT8 (R49). -/
def EFmt.unit (f : EFmt) : Int := if f.num = 5 then -6 else 0

/-- R48: an element's value from its code, without a scale. -/
def EFmt.decode (f : EFmt) (c : Nat) : Fp :=
  if f.isInt then let v := sx f.bits c; .fin (decide (v < 0)) v.natAbs f.unit else f.fmt.decode c

/-- R50: element `i` of packed bytes. -/
def elemAt (bs : List Byte) (w i : Nat) : Nat :=
  match w with
  | 4 => let b := (bs.getD (i / 2) 0).toNat; if i % 2 = 0 then b % 16 else b / 16
  | 6 => let k := 3 * (i / 4); (leNat [bs.getD k 0, bs.getD (k + 1) 0, bs.getD (k + 2) 0]) / 2 ^ (6 * (i % 4)) % 64
  | _ => leNat ((bs.drop (i * (w / 8))).take (w / 8))

/-- R50: bytes of packed elements, lowest first. -/
def packElems (w : Nat) : List Nat → List Byte
  | [] => []
  | c :: r =>
    match w with
    | 4 => match r with
      | [] => natLe 1 c
      | d :: r' => natLe 1 (c % 16 + 16 * (d % 16)) ++ packElems 4 r'
    | 6 => natLe 3 (c % 64 + 64 * (r.getD 0 0 % 64) + 4096 * (r.getD 1 0 % 64) + 262144 * (r.getD 2 0 % 64)) ++
        (match r with | _ :: _ :: _ :: r' => packElems 6 r' | _ => [])
    | 8 => natLe 1 c ++ packElems 8 r
    | 16 => natLe 2 c ++ packElems 16 r
    | _ => natLe 4 c ++ packElems 32 r

/-- R49, R51: a scale byte applied to a value; 0xFF is NaN. -/
def applyScale (e : Nat) (x : Fp) : Fp :=
  if e = 0xFF then .nan else
  match x with
  | .fin n m k => .fin n m (k + (e : Int) - 127)
  | y => y

/-- A 6-bit TIL_NUMSTAT word of a result (R61). -/
def Res.stat (r : Res) : Nat := nat01 r.nan + 2 * nat01 r.inf + 4 * nat01 r.sat + 32 * nat01 r.uflow

/-- R59: emax of an element format. -/
def EFmt.emax (f : EFmt) : Int :=
  match f.num, f.var with
  | 3, false => 8 | 3, true => 15 | 4, false => 2 | 4, true => 4 | 5, _ => 0 | _, _ => 2

/-- R57: would the conversion of a value to the format draw a generator value? `sh` is the shared exponent. -/
def EFmt.draws (f : EFmt) (r : Rnd) (sh : Int) (x : Fp) : Bool :=
  decide (r = .sr) && match x with
    | .fin n m e => if f.isInt then intInexact f.unit (.fin n m (e - sh)) else f.fmt.inexact m (e - sh)
    | _ => false

/-- R57, R58, R66: convert a value to an element of the format; an MX element's overflow clamps without fp_sat (R58). -/
def EFmt.conv (f : EFmt) (r : Rnd) (sat : Bool) (sh : Int) (x : Fp) (g : Nat) : Res :=
  let x := match x with
    | .fin n m e => .fin n m (e - sh)
    | y => y
  let v := if f.isInt then toInt f.bits f.unit r x g else f.fmt.convert r (sat || f.isMx) x g
  if f.isMx then { v with sat := false } else v

/-- R57, R60: convert values in element order, drawing from the generator where rounding needs it. Answers the codes, the
status bits and the values drawn. -/
def convAll (f : EFmt) (r : Rnd) (sat : Bool) (sh : Int) : List Fp → List Nat → List Nat × Nat × List Nat
  | [], gs => ([], 0, gs)
  | x :: xs, gs =>
    let d := f.draws r sh x
    let v := f.conv r sat sh x (if d then gs.headD 0 else 0)
    let (cs, st, gs') := convAll f r sat sh xs (if d then gs.drop 1 else gs)
    (v.code :: cs, st ||| v.stat, gs')

/-- How many values converting these draws. -/
def drawCount (f : EFmt) (r : Rnd) (sh : Int) (xs : List Fp) : Nat := (xs.filter (f.draws r sh)).length

/-- R59: the hardware scale of a block; none where the block is a block NaN. -/
def hwScale (f : EFmt) (xs : List Fp) : Option Int :=
  if xs.any fun x => x.isNan || x.isInf then none
  else
    let top := xs.foldl (fun (b : Option Int) x => match x with
      | .fin _ m e => if m = 0 then b else
          let l := (lead m : Int) + e
          (match b with | none => some l | some c => some (max c l))
      | _ => b) none
    match top with
    | none => some (-127)
    | some l => some (max (-127) (min 127 (l - f.emax)))

/-- R59: a block written to an MX format: its scale byte, its codes, status bits, generator values left. `sw`: the
software scale. A block NaN sets mx_nan, and nan too, for a NaN is produced (log 97, DEDUCED). -/
def mxBlock (f : EFmt) (r : Rnd) (sat : Bool) (sw : Option Nat) (xs : List Fp) (gs : List Nat) :
    Nat × List Nat × Nat × List Nat :=
  if xs.any fun x => x.isNan || x.isInf then (0xFF, xs.map fun _ => 0, 17, gs)
  else
    let e : Int := match sw with
      | some b => (b : Int) - 127
      | none => (hwScale f xs).getD (-127)
    let (cs, st, gs') := convAll f r sat e xs gs
    ((e + 127).toNat, cs, st, gs')

end Sys2Proof.Machine
end

