-- ==== Sys2Proof/Machine/Geom.lean ====
section
/-!
DEFINITION. Dies, colonies, tiles and power domains (R29 to R31, R399), and the addresses of register blocks (R471).
-/
namespace Sys2Proof.Machine

/-- Column of a tile. -/
def tileX (t : TileId) : Nat := t.toNat % 64
/-- Row of a tile. -/
def tileY (t : TileId) : Nat := t.toNat / 64
/-- The tile at (x, y). -/
def tileXY (x y : Nat) : TileId := BitVec.ofNat 12 (y * 64 + x)

/-- R30: colony of a tile. -/
def colonyOf (t : TileId) : ColId :=
  let x := tileX t; let y := tileY t
  BitVec.ofNat 8 ((x / 32 + 2 * (y / 32)) * 64 + ((y % 32) / 4) * 8 + (x % 32) / 4)

/-- R30: index of a tile in its colony. -/
def indexOf (t : TileId) : Nat := (tileY t % 4) * 4 + tileX t % 4

/-- R30: tile `i` of colony `c`. -/
def tileOf (c : ColId) (i : Nat) : TileId :=
  let q := c.toNat / 64; let m := c.toNat % 64
  tileXY ((q % 2) * 32 + (m % 8) * 4 + i % 4) ((q / 2) * 32 + (m / 8) * 4 + i / 4)

/-- Column of a colony in the colony grid. -/
def colX (c : ColId) : Nat := tileX (tileOf c 0) / 4
/-- Row of a colony in the colony grid. -/
def colY (c : ColId) : Nat := tileY (tileOf c 0) / 4
/-- The colony at a place of the colony grid. -/
def colAt (cx cy : Nat) : ColId := colonyOf (tileXY (cx * 4) (cy * 4))
/-- Die of a colony (Table 2-1). -/
def dieOfCol (c : ColId) : Nat := c.toNat / 64
/-- Die of a tile. -/
def dieOf (t : TileId) : Nat := dieOfCol (colonyOf t)
/-- R275, Table 11-2: die of a port's spine. -/
def dieOfPort (p : PortId) : Nat := match p.val with | 0 => 1 | 1 => 0 | 2 => 3 | 3 => 2 | 4 => 1 | _ => 2
/-- R275, Table 11-2: die of a stack's spine. -/
def dieOfStack (n : Nat) : Nat := n / 2 % 4
/-- The sixteen tiles of a colony. -/
def tilesOfCol (c : ColId) : List TileId := (List.range 16).map (tileOf c)

/-- R31: tile domain of a colony, 0 to 63. -/
def tdomOfCol (c : ColId) : Nat := c.toNat / 4
/-- R31: cistern domain of a colony, 0 to 15. -/
def cdomOfCol (c : ColId) : Nat := c.toNat / 16
/-- R399: domain ID of a tile's tile domain. -/
def domTile (t : TileId) : Nat := 1 + tdomOfCol (colonyOf t)
/-- R399: domain ID of the cistern domain above a tile. -/
def domCis (t : TileId) : Nat := 65 + cdomOfCol (colonyOf t)
/-- Colonies of tile domain `d` (R31). -/
def tdomCols (d : Nat) : List ColId := (List.range 4).map fun i => BitVec.ofNat 8 (4 * d + i)
/-- Colonies under cistern domain `e` (R31). -/
def cdomCols (e : Nat) : List ColId := (List.range 16).map fun i => BitVec.ofNat 8 (16 * e + i)
/-- Colonies of a domain, by its ID. -/
def domCols (d : Nat) : List ColId :=
  if 1 ≤ d ∧ d ≤ 64 then tdomCols (d - 1) else if 65 ≤ d ∧ d ≤ 80 then cdomCols (d - 65) else []

/-- R471: base of colony block `c`. -/
def colBase (c : ColId) : Nat := 0x01000000 + c.toNat * 0x40000
/-- R471: base of a tile's block. -/
def tileBase (t : TileId) : Nat := colBase (colonyOf t) + 0x20000 + indexOf t * 0x2000
/-- R468: base of a tile's observation registers. -/
def obsBase (t : TileId) : Nat := colBase (colonyOf t) + 0x1E000 + indexOf t * 0x100
/-- R471: base of partition window `p`. -/
def partBase (p : PartId) : Nat := 0x06000000 + p.toNat * 0x40000
/-- R471: base of Vulor port `p`. -/
def portBase (p : PortId) : Nat := 0x05000000 + p.val * 0x10000
/-- R471: base of canal spine `n`. -/
def spineBase (n : Nat) : Nat := 0x050E0000 + n * 0x10000
/-- Table 19-2. -/
def hgtBase : Nat := 0x00010000
def pwrBase : Nat := 0x00100000
def dbgBase : Nat := 0x00200000
def fabBase : Nat := 0x00400000
def chiBase : Nat := 0x00F00000

/-- A core's hart ID from a natural number. -/
def coreId (n : Nat) : CoreId := ⟨n % 260, Nat.mod_lt _ (by decide)⟩
/-- The core of a colony. -/
def coreOfCol (c : ColId) : CoreId := coreId c.toNat
/-- The head core of die `d`. -/
def headCore (d : Nat) : CoreId := coreId (256 + d % 4)
/-- R371: base of a core's interrupt controller. -/
def intBase (c : CoreId) : Nat :=
  if c.val < 256 then colBase (BitVec.ofNat 8 c.val) + 0x18000 else 0x00300000 + (c.val - 256) * 0x10000

/-- Blocks of the register space (Tables 19-1 to 19-3). -/
inductive Blk
  | feat | hgt | pwr | dbg | fab | chi
  | int (c : CoreId)
  | cmem (c : ColId)
  | colpwr (c : ColId)
  | colrel (c : ColId)
  | obs (t : TileId)
  | tile (t : TileId)
  | port (p : PortId)
  | spine (n : Fin 4)
  | part (p : PartId)
  deriving DecidableEq, Repr

/-- R471: the block an address falls in, and its offset there. -/
def locate (a : Nat) : Option (Blk × Nat) :=
  if a < 0x01000000 then
    if a < 0x00010000 then some (.feat, a)
    else if a < 0x00020000 then some (.hgt, a - hgtBase)
    else if 0x00100000 ≤ a ∧ a < 0x00110000 then some (.pwr, a - pwrBase)
    else if 0x00200000 ≤ a ∧ a < 0x00210000 then some (.dbg, a - dbgBase)
    else if 0x00300000 ≤ a ∧ a < 0x00340000 then some (.int (headCore ((a - 0x00300000) / 0x10000)), a % 0x10000)
    else if 0x00400000 ≤ a ∧ a < 0x00410000 then some (.fab, a - fabBase)
    else if 0x00F00000 ≤ a ∧ a < 0x00F00100 then some (.chi, a - chiBase)
    else none
  else if a < 0x05000000 then
    let c : ColId := BitVec.ofNat 8 ((a - 0x01000000) / 0x40000)
    let o := a % 0x40000
    if o < 0x18000 then some (.cmem c, o)
    else if o < 0x1C000 then some (.int (coreOfCol c), o - 0x18000)
    else if o < 0x1D000 then some (.colpwr c, o - 0x1C000)
    else if o < 0x1E000 then some (.colrel c, o - 0x1D000)
    else if o < 0x1F000 then some (.obs (tileOf c ((o - 0x1E000) / 0x100)), o % 0x100)
    else if o < 0x20000 then none
    else some (.tile (tileOf c ((o - 0x20000) / 0x2000)), o % 0x2000)
  else if a < 0x05060000 then
    if h : (a - 0x05000000) / 0x10000 < 6 then some (.port ⟨_, h⟩, a % 0x10000) else none
  else if 0x050E0000 ≤ a ∧ a < 0x05120000 then
    some (.spine ⟨(a - 0x050E0000) / 0x10000 % 4, Nat.mod_lt _ (by decide)⟩, (a - 0x050E0000) % 0x10000)
  else if 0x06000000 ≤ a ∧ a < 0x07000000 then some (.part (BitVec.ofNat 6 ((a - 0x06000000) / 0x40000)), a % 0x40000)
  else none

end Sys2Proof.Machine
end

