-- ==== Sys2Proof/Machine/State.lean ====
section
/-!
DEFINITION. The machine's state: plain data, everything the spec gives the block, and the queue of waiting commands.
Registers whose only behaviour is to hold a value live in `regs`, one 32-bit word for each register address (R471);
state that units change as they run lives in the structures below, and the registers that show it are computed from
them (`Machine/ReadReg.lean`). Memories and tables are sparse lists in one canonical form (`Machine/Sparse.lean`).
-/
namespace Sys2Proof.Machine

/-- Why a step can stop with a fault. NO CONSTRUCTOR: the spec gives the block no event that stops it. A "fault" of the
spec loses a context and the block goes on (R324), so it is a next state here. Nobody raises one; safe. -/
inductive Fault : Type
  deriving DecidableEq, Repr

/-- Why a step can be refused. -/
inductive Refusal : Type
  /-- Raised by an arm of `exec` whose command has no meaning yet; safe, for nothing is claimed of the command. -/
  | notModelled (mnemonic : String)
  deriving DecidableEq, Repr

/-- A sparse table: entries with rising keys; a key that is not listed reads as the table's default. -/
abbrev Sparse (α : Type) := List (Nat × α)

/-- R110, Table 5-1: engine states. -/
inductive EngSt | idle | run | wait | stopped | halted | faulted
  deriving DecidableEq, Repr

/-- R129: an entry of the loop unit. -/
structure Loop where
  first : BitVec 14
  last : BitVec 14
  remaining : BitVec 20
  index : BitVec 20
  deriving DecidableEq, Repr

/-- R141: what waits for earlier operations of its engine. -/
inductive PendKind
  | post (sem : SemId) (n : Byte)
  | rpost (target : TileId) (sem : SemId) (n : Byte)
  | evt (handle : W32)
  | tl (handle : W32) (value : W64)
  deriving DecidableEq, Repr

/-- R141: a pending post or signal; `seq` is one more than the number of the last operation issued before it. -/
structure Pend where
  seq : Nat
  kind : PendKind
  deriving DecidableEq, Repr

/-- An engine (R110 to R146). `seq` numbers the operations it issues, so that posts know what came before them. -/
structure Eng where
  st : EngSt := .idle
  code : Byte := 0
  bank : Bool := false
  /-- 8,192: past the bank's end (R122) -/
  pc : BitVec 14 := 0
  pending : Option (BitVec 13) := none
  arm : Bool := false
  startRefused : Bool := false
  loops : List Loop := []
  faultPc : BitVec 14 := 0
  /-- R137: the waits of the word that is waiting, in slot order -/
  waits : List (SemId × Byte) := []
  /-- the last attempt to issue it found every wait satisfied -/
  waitUnit : Bool := false
  /-- SC.END has issued and operations are outstanding (R113) -/
  ending : Bool := false
  /-- R141: issue waits until every operation numbered below this has completed -/
  fence : Option Nat := none
  seq : Nat := 0
  pend : List Pend := []
  /-- R215, R259: starts held until quar or realign_busy clears -/
  held : List (BitVec 13) := []
  /-- the state before HALTED (R456, R464) -/
  before : EngSt := .idle
  /-- R455: the first issue after a release or step passes its breakpoint -/
  skipBreak : Bool := false
  /-- R456: halt again after one word -/
  stepping : Bool := false
  /-- R456: held by a global stop -/
  gstop : Bool := false
  /-- R460: stamp at which the engine stopped -/
  haltStamp : W64 := 0
  /-- R451: sixteenths of fast-clock cycles that the current wait has lasted in WAIT -/
  waited : Option Nat := none
  /-- R450: where its program started -/
  startPc : BitVec 14 := 0
  /-- R424: a register file, semaphore, generator, loop or buffer head that it uses has a parity error -/
  parity : Bool := false
  deriving DecidableEq, Repr

/-- R205: a tile's scratchpad as it stood when an operation began: its bytes and its poison marks. -/
structure Snap where
  mem : List (Nat × Byte) := []
  bad : List (Nat × Bool) := []
  deriving DecidableEq, Repr

/-- R153, R154: an issued MX.PROB with its offsets applied, its rows read and its parameter set latched. -/
structure MxOp where
  seq : Nat
  f : MxF
  rows : Nat
  setRow : W32
  setScl : W32
  setMsk : W32
  running : Bool
  /-- R450: the domain's clock at its start -/
  since : Nat
  /-- R442: MACs counted so far -/
  counted : Nat := 0
  /-- R172: the address of the word that issued it -/
  pc : BitVec 14 := 0
  /-- R205: the scratchpad when it started -/
  old : Snap := {}
  deriving DecidableEq, Repr

/-- R169, R304: sixteen consecutive values of an output row on their way through the chain. -/
structure Beat where
  row : Nat
  col : Nat
  vals : List (W32 × Bool)
  /-- the chain stage the beat stands before -/
  stage : Nat
  sent : Bool
  deriving DecidableEq, Repr

/-- R160, R162, R163: an issued DR.WRITE; set and chain are latched when it starts. -/
structure DrOp where
  seq : Nat
  f : DrF
  rows : Nat
  /-- channel 2 and channel 3 offsets -/
  mskOfs : BitVec 32
  vofs : BitVec 32
  running : Bool
  shape : W32
  aux : W32
  sws : W32
  /-- stages: (CFG word, IMM word) -/
  chain : List (W32 × W32)
  /-- R447: the drain started inside a command window with its set observed -/
  stat : Bool
  /-- the values the drain has read, on their way through the chain -/
  beats : List Beat
  since : Nat
  /-- R172: the address of the word that issued it -/
  pc : BitVec 14 := 0
  /-- R205: the scratchpad when it started -/
  old : Snap := {}
  /-- rows below this one have been written -/
  wrote : Nat := 0
  deriving DecidableEq, Repr

/-- R78: where a page was found. -/
structure PageAt where
  inCistern : Bool
  tile : TileId
  slot : SlotId
  frame : BitVec 23
  cls : BitVec 4
  clsWord : W32
  /-- R81: a cached map entry that software has changed since led here -/
  stale : Bool := false
  deriving DecidableEq, Repr

/-- Table 4-8. -/
inductive WeirKind | nop | score | attend | topk | append | reuse | gather
  deriving DecidableEq, Repr

/-- R88, R92: an issued weir operation, its set latched and its pages resolved. -/
structure WeirOp where
  seq : Nat
  kind : WeirKind
  f : WeirF
  cfg : W32
  scale : W32
  vofs : W32
  ctx : CtxId
  page : PageAt
  vpage : PageAt
  /-- list mode: next entry to resolve -/
  entry : Nat
  accepted : Bool
  done : Bool
  since : Nat
  /-- R205: the issuing tile's scratchpad when the weir accepted the operation -/
  old : Snap := {}
  /-- R88: list mode: the page to whose vault the next entry has been forwarded, and its row -/
  sent : Option (PageAt × Nat) := none
  /-- R274: a beat of its src and aux lines was delivered as poison -/
  hurt : Bool := false
  deriving DecidableEq, Repr

/-- R103: the weir stop record. -/
structure WeirStop where
  code : Byte := 0
  reason : BitVec 3 := 0
  valid : Bool := false
  lpn : Lpn := 0
  ctx : CtxId := 0
  entry : BitVec 13 := 0
  deriving DecidableEq, Repr

/-- R84, R85: the page operation of a vault. -/
structure PageOp where
  op : BitVec 3
  slot : SlotId
  ctx : CtxId
  lpn : Lpn
  frame : BitVec 23
  moved : Bool
  poison : Bool
  deriving DecidableEq, Repr

/-- R214, R479: what a QUARANTINE ends with. -/
inductive Quar
  | handover (newCtx : CtxId)
  | kill
  deriving DecidableEq, Repr

/-- R428, R430: the weevil's state of Table 17-6. -/
inductive WvSt | off | run | halted | failed
  deriving DecidableEq, Repr

/-- R450: a trace record. -/
structure TraceRec where
  ty : Byte
  unit : BitVec 4
  idm : Bool
  tile : TileId
  ctx : CtxId
  ctxV : Bool
  part : PartId
  time : W64
  place : W64
  info : W64
  deriving DecidableEq, Repr

/-- A semaphore post on its way over the canal (R142), or a post that takes effect in the next cycle. -/
structure RPost where
  sem : SemId
  n : Nat
  src : TileId
  eng : EngId
  deriving DecidableEq, Repr

/-- What a tile holds beside its registers, engines, movers and memories. -/
structure Tile where
  gen : W64 := 0
  /-- R234, R408: MOV_SLUICE_STAT.gov with the governor's stage at its top; 0 until the tile's image has been applied -/
  govTop : BitVec 7 := 0
  genLeft : List W16 := []
  reseed : Option W64 := none
  ctx : CtxId := 0
  owned : Bool := false
  quar : Option Quar := none
  /-- contexts killed during a hand-over (R479) that wait for this QUARANTINE -/
  quarWait : List CtxId := []
  spRefused : Bool := false
  mxq : List MxOp := []
  drq : List DrOp := []
  /-- R169: beats sent to a fabric stage and not answered, oldest first: fsel, drain, index of the beat, and whether GSR was
  asserted since (R170) -/
  extSent : List (Bool × Nat × Nat × Bool) := []
  wei : List WeirOp := []
  /-- R88: operations that reached this tile's weir, in acceptance order: issuing tile and number -/
  weirArrived : List (TileId × Nat) := []
  weirRunning : Option (TileId × Nat) := none
  wstop : WeirStop := {}
  /-- R231: the mover queue whose turn comes next -/
  movTurn : BitVec 2 := 0
  /-- R97, R102: a list-mode WEIR.GATHER whose word waits while its entries resolve -/
  walk : Option WeirOp := none
  /-- R104: the entry from which a resumed list-mode WEIR.GATHER goes on -/
  weirFrom : Nat := 0
  pageop : Option PageOp := none
  poDone : Bool := false
  poResult : BitVec 2 := 0
  poOverrun : Bool := false
  /-- R109: slots under a slot scrub -/
  scrub : List SlotId := []
  /-- R86: time of the last expiry or restart of the tick counter -/
  ageFrom : W64 := 0
  lastCisAccess : W64 := 0
  wv : WvSt := .off
  wvParity : Bool := false
  wvCanaryMiss : Bool := false
  wvPasses : BitVec 16 := 0
  wvPassNo : Nat := 0
  wvRegion : BitVec 2 := 0
  wvIndex : BitVec 12 := 0
  wvSlot : BitVec 6 := 0
  /-- the granule within the line or the four entries -/
  wvSub : BitVec 4 := 0
  /-- a pass is under way; its last granule has been scrubbed -/
  wvIn : Bool := false
  wvDone : Bool := false
  wvCanaryFixed : Bool := false
  /-- R430: the flipped bit stands in the canary line -/
  canary : BitVec 8 := 0
  inwin : Bool := false
  /-- R443: a LAUNCH has opened a window here and the tile has not met R334 since -/
  launched : Bool := false
  /-- R447: values of drains that wait for those of an earlier one before they enter the FP32 sum, with their drains, in DR.WRITE order -/
  sums : List (Nat × W32) := []
  fifo : List TraceRec := []
  fifoLost : BitVec 32 := 0
  /-- R142, R229: posts that have reached this tile and have not taken effect -/
  rposts : List RPost := []
  realign : BitVec 8 := 0
  /-- R460: the marker of the global stop in progress has reached the tile -/
  marker : Bool := false
  /-- R114: semaphores and address generators reload once admitted operations complete -/
  reloadDue : Bool := false
  deriving DecidableEq, Repr

/-- R222: the position of a transfer in its stream. -/
structure Pos where
  i1 : Nat := 0
  i2 : Nat := 0
  i3 : Nat := 0
  i4 : Nat := 0
  off : Nat := 0
  deriving DecidableEq, Repr

/-- R225, R227: an arming. -/
structure Arm where
  desc : BitVec 3
  line : BitVec 12
  sem : SemId
  sigEn : Bool
  rsig : Bool
  /-- none: n1 = c1; some n: read from s[rm] -/
  n1 : Option Nat
  farOfs : BitVec 32
  mlineOfs : BitVec 32
  /-- number of the MOV operation, for an arming by MOV.ISSUE -/
  seq : Option Nat
  deriving DecidableEq, Repr

/-- R219, R228: a started stream. `words` are the descriptor's words latched at the start. -/
structure Stream where
  arm : Arm
  words : List W32
  n1 : Nat
  mask : List Bool
  /-- first transfer not yet admitted; none: all admitted -/
  next : Option Pos
  /-- R296, R244: parts -/
  parts : Nat
  bytes : Nat
  fabStarted : Bool
  /-- R248: killed; only its admitted transfers go on -/
  dead : Bool := false
  /-- R243: faulted; nothing of it goes on -/
  failed : Bool := false
  deriving DecidableEq, Repr

/-- R231: an admitted transfer that has not retired. -/
structure Xfer where
  /-- which of the queue's started streams, by number since the queue's first -/
  stream : Nat
  pos : Pos
  far : W64
  loc : Nat
  len : Nat
  /-- CISTERN, SIDEBAND: where its page was found -/
  page : Option PageAt
  /-- data taken at admission (FABRIC in), or brought by READ_DATA -/
  data : Option (List Byte)
  poison : Bool
  tag : Option (BitVec 16)
  /-- VULOR: parts answered, and parts that failed -/
  okParts : W64
  failParts : W64
  refused : Bool
  /-- R228: bytes of the transfer, by number, whose write another stream's in flight has overtaken -/
  lost : List Nat
  /-- R228: it has completed at its destination, and waits for an earlier one to retire -/
  done : Bool := false
  /-- R269: answers that are still to come over the canal -/
  legs : Nat := 0
  /-- R274: a beat of its data was delivered as poison -/
  hurt : Bool := false
  /-- R205: what stood in the scratchpad it reads when it was admitted, with its poison -/
  old : List Byte × Bool := ([], false)
  deriving DecidableEq, Repr

/-- Table 11-1: the classes of the canal. -/
inductive CanClass | control | trace | response | request
  deriving DecidableEq, Repr

/-- R268, R275: what sends and takes packets: a tile, or the spine of a die. -/
inductive CanNode
  | tile (t : TileId)
  | spine (q : BitVec 2)
  deriving DecidableEq, Repr

/-- R271: what a packet brings. -/
inductive CanLoad
  | post (x : RPost) (target : TileId)
  /-- a transfer of a mover, by tile, queue, stream and position: its request, or the answer; the answer's data beats -/
  | xfer (t : TileId) (q stream : Nat) (pos : Pos) (answer : Bool) (data : Nat)
  /-- R88: a weir operation of tile `t` for vault `v`, by its number -/
  | weir (v t : TileId) (seq : Nat)
  /-- earlier lines of its src and aux -/
  | weirData (t : TileId) (seq : Nat)
  | traces (p : PartId) (l : List TraceRec)
  /-- R79: a map invalidation of a partition -/
  | inval (p : PartId)
  | plain
  deriving DecidableEq, Repr

/-- R269: a packet: one header beat and `data` data beats. -/
structure CanPkt where
  cls : CanClass
  src : CanNode
  dst : CanNode
  data : Nat
  load : CanLoad
  /-- R274: a beat of it was delivered as poison -/
  bad : Bool
  deriving DecidableEq, Repr

/-- A beat in a router's buffer: its packet, by number, and the cycle since which it stands there. -/
structure CanBeat where
  pkt : Nat
  head : Bool
  last : Bool
  bad : Bool
  since : Nat
  deriving DecidableEq, Repr

/-- R271, R272: what an output of a router keeps for a class: the input whose packet is in progress, the input whose turn is next, and the
cycles that TRACE has used. -/
structure CanOut where
  owner : Option Nat := none
  next : Nat := 0
  used : List Nat := []
  deriving DecidableEq, Repr

/-- R268 to R275: the canal's routers and the packets under way. -/
structure Canal where
  /-- number of the next packet -/
  next : Nat := 0
  /-- fast-clock cycles in which beats or a marker were under way -/
  cycle : Nat := 0
  pkts : List (Nat × CanPkt) := []
  /-- buffers by (router × 4 + class) × 6 + input -/
  bufs : List (Nat × List CanBeat) := []
  /-- outputs by (router × 6 + output) × 4 + class -/
  outs : List (Nat × CanOut) := []
  /-- R460: routers that the marker of a global stop has reached, and those of them that have not forwarded it -/
  marks : List TileId := []
  front : List TileId := []
  deriving DecidableEq, Repr

/-- R238: why a queue stops. -/
structure StopWhy where
  code : Byte
  reason : BitVec 3
  kind : BitVec 2
  dom : Byte
  /-- pages a HOST_PAGE group asks for, and whether for writing -/
  pages : List (W64 × Bool × Bool)
  deriving DecidableEq, Repr

/-- R238, Table 9-9: a mover stop record. -/
structure MovStop where
  code : Byte := 0
  reason : BitVec 3 := 0
  desc : BitVec 3 := 0
  prg : BitVec 2 := 0
  valid : Bool := false
  addr : W64 := 0
  i1 : W16 := 0
  i2 : W16 := 0
  i3 : W16 := 0
  i4 : W16 := 0
  off : W16 := 0
  dom : Byte := 0
  kind : BitVec 2 := 0
  prgi : BitVec 9 := 0
  deriving DecidableEq, Repr

/-- A mover queue (R228 to R242). -/
structure MovQ where
  arms : List Arm := []
  streams : List Stream := []
  /-- number of the first of `streams` -/
  base : Nat := 0
  inflight : List Xfer := []
  why : Option StopWhy := none
  stop : MovStop := {}
  code : Byte := 0
  faulted : Bool := false
  cfgRefused : Bool := false
  /-- R242, R460: halted by a global stop -/
  gstop : Bool := false
  deriving DecidableEq, Repr

/-- R226: a descriptor's state beside its words. -/
structure MovD where
  armed : Bool := false
  running : Bool := false
  pending : Option Arm := none
  rearmOverrun : Bool := false
  overrunCnt : W16 := 0
  deriving DecidableEq, Repr

/-- R253, R254: a rotation set at a tile. -/
structure RSet where
  count : BitVec 6 := 0
  seat : Byte := 0
  rep : BitVec 12 := 0
  departing : Bool := false
  /-- a departure that consumed gsem posts asem (R258, R259) -/
  posts : Bool := false
  /-- R254, R256: lines of the departure that stand at the successor already -/
  landed : List Nat := []
  /-- R254: lines of the departure in the successor's landing buffer, with their bytes and poison -/
  buf : List (Nat × List Byte × Bool) := []
  /-- R254: the sliver that follows has arrived before this departure completed -/
  early : Bool := false
  deriving DecidableEq, Repr

/-- R260: a halo channel. -/
structure Halo where
  busy : Bool := false
  /-- R260, R261: lines of the send that stand at the neighbour already -/
  landed : List Nat := []
  /-- R215: the ends of it that were in QUARANTINE when it began, and still are -/
  lateAt : List TileId := []
  sends : W16 := 0
  deriving DecidableEq, Repr

/-- R350, R355, R362: a control core. Its instructions are outside the table; what traps, accesses, the Debug Module and resets do to it is
here. (log 95, DESIGN CHOICE) -/
structure Core where
  inReset : Bool := true
  halted : Bool := false
  wfi : Bool := false
  priv : BitVec 2 := 3
  pc : W32 := 0
  gstop : Bool := false
  /-- R350: the reservation that LR.W holds: its address and the word it loaded -/
  resv : Option (W32 × W32) := none
  /-- x1 to x31 -/
  gpr : List W32 := List.replicate 31 0
  /-- R355: tdata1 and tdata2 of the two triggers -/
  trig : List (W32 × W32) := [(0, 0), (0, 0)]
  /-- R355: what the Debug Module holds for the hart: a halt request, its resume acknowledgement, and that it has been reset -/
  haltReq : Bool := false
  resumeAck : Bool := false
  haveReset : Bool := true
  /-- the Debug Module holds the hart in reset (log 127, PRESUMED) -/
  dmReset : Bool := false
  deriving DecidableEq, Repr

/-- R355: the Debug Module (log 127, PRESUMED). -/
structure Dm where
  active : Bool := false
  hartsel : BitVec 20 := 0
  /-- dmcontrol.hartreset, dmcontrol.ndmreset -/
  hartReset : Bool := false
  ndmReset : Bool := false
  cmderr : BitVec 3 := 0
  data0 : W32 := 0
  /-- what the last DMI read returned -/
  out : W32 := 0
  deriving DecidableEq, Repr

/-- R432, Table 17-4: an error record. -/
structure ErrRec where
  sev : BitVec 3
  unit : Byte
  cause : Byte
  rep : BitVec 7
  ctx : CtxId
  ctxV : Bool
  part : PartId
  partV : Bool
  tile : TileId
  eng : BitVec 2
  addr : W64
  time : W64
  syndrome : W16
  place : Byte
  layer : W16
  operator : W16
  deriving DecidableEq, Repr

/-- R357 to R370: an interrupt controller beside its registers. -/
structure Ctl where
  fifo : List ErrRec := []
  /-- R358: the timer source has been raised since the last TIMECMP write -/
  timerFired : Bool := false
  /-- R364: groups whose time T has expired -/
  modExpired : W16 := 0
  /-- R364: sources of the moderated groups in the order in which they became pending -/
  order : List Nat := []
  timeHi : W32 := 0
  deriving DecidableEq, Repr

/-- R322: context states. -/
inductive CtxSt | free | active | lost | dying
  deriving DecidableEq, Repr

/-- R341: a notice record, less the phase it takes when it is written. -/
structure Notice where
  ty : Byte
  status : Byte
  queue : QueueId
  ctx : CtxId
  tag : W32
  layer : W16
  operator : W16
  seq : W64
  time : W64
  place : W64
  addr : W64
  parts : W64
  /-- R343: the command asked for MSI-X, or the type always sends it -/
  irq : Bool
  deriving DecidableEq, Repr

/-- A context (R322 to R325, R342). -/
structure Ctx where
  st : CtxSt := .free
  code : Byte := 0
  byPf : Bool := false
  fa1 : Bool := false
  ring : W64 := 0
  nlog2 : BitVec 5 := 0
  vector : BitVec 11 := 0
  vecEn : Bool := false
  pasid : BitVec 20 := 0
  pasidEn : Bool := false
  nread : BitVec 17 := 0
  nwrite : BitVec 17 := 0
  lostRecs : W16 := 0
  waiting : List Notice := []
  /-- R325: DESTROY waits until the submitted commands have been read -/
  killing : Bool := false
  deriving DecidableEq, Repr

/-- R328, Table 13-4: the LAUNCH body. -/
structure LaunchBody where
  prog : W32
  rx : BitVec 4
  ry : BitVec 4
  rwM1 : BitVec 4
  rhM1 : BitVec 4
  args : W32
  alen : BitVec 13
  aofs : W64
  inline : List W32
  deriving DecidableEq, Repr

/-- How far a fetched command has come. -/
inductive CmdSt
  | fetched | staging | running
  /-- completed with a status; its signal is not yet applied (R339) -/
  | done (status : Byte)
  deriving DecidableEq, Repr

/-- A fetched command (R328, R330). -/
structure Cmd where
  seq : W64
  launch : Option LaunchBody
  notice : Bool
  irq : Bool
  barrier : Bool
  waitTl : Bool
  sigTl : Bool
  layer : W16
  operator : W16
  tag : W32
  wait : W32
  waitVal : W64
  signal : W32
  sigVal : W64
  st : CmdSt
  /-- the waiter slot it took (R338) -/
  slot : Option (BitVec 14)
  /-- its wait was found satisfied; with the fence's error -/
  waitOk : Bool
  waitErr : Bool
  stage : BitVec 8
  since : W64
  /-- from its package: the engines with code, and the shapes with their arguments: gating, maximum, value -/
  engs : BitVec 4
  shapes : List (Bool × W32 × W32)
  deriving DecidableEq, Repr

/-- A hardware queue (R326, R327). -/
structure Queue where
  isOpen : Bool := false
  stopped : Bool := false
  ctx : CtxId := 0
  prio : BitVec 2 := 0
  qlog2 : BitVec 5 := 0
  ring : W64 := 0
  head : W16 := 0
  tail : W16 := 0
  /-- submissions not yet fetched: entries left, sequence -/
  subs : List (Nat × W64) := []
  cmds : List Cmd := []
  wsWait : Bool := false
  deriving DecidableEq, Repr

/-- R320, R321: an entry's state. -/
inductive ObjSt | free | live | freeing
  deriving DecidableEq, Repr

/-- R318: a memory object's entry. -/
structure Obj where
  st : ObjSt := .free
  gen : Byte := 1
  kind : BitVec 2 := 0
  /-- none: the context that owned it is destroyed -/
  owner : Option CtxId := none
  shared : Bool := false
  addr : W64 := 0
  len : W64 := 0
  dev : BitVec 18 := 0
  remote : Bool := false
  freeSeq : W64 := 0
  deriving DecidableEq, Repr

/-- R335: an event object. -/
structure Evt where
  live : Bool := false
  gen : Byte := 1
  owner : Option CtxId := none
  signalled : Bool := false
  error : Bool := false
  deriving DecidableEq, Repr

/-- R338: a waiter's target. -/
inductive WTgt
  | sem (t : TileId) (s : SemId)
  | notice
  | command (q : QueueId)
  deriving DecidableEq, Repr

/-- R338: a waiter slot. -/
structure Waiter where
  armed : Bool := false
  gen : Byte := 1
  handle : W32 := 0
  tl : Bool := false
  val : W64 := 0
  owner : CtxId := 0
  tgt : WTgt := .notice
  /-- its wait has been satisfied; WAITER_FIRE does what it is armed for -/
  due : Bool := false
  /-- it was satisfied with the fence's error -/
  err : Bool := false
  deriving DecidableEq, Repr

/-- R79: which unit holds a map cache. -/
inductive MapUnit | weir | mover
  deriving DecidableEq, Repr

/-- R79: an entry of a map cache: kind 0 root, 1 directory, 2 leaf. -/
structure MapEntry where
  tile : TileId
  unit : MapUnit
  kind : Nat
  ctx : CtxId
  /-- kind 1: LPN [23:12]; kind 2: the LPN -/
  index : Nat
  value : W64
  deriving DecidableEq, Repr

/-- R80: an invalidation under way. -/
structure MapInv where
  ctx : CtxId
  all : Bool
  root : Bool
  lpn : Lpn
  deriving DecidableEq, Repr

/-- What a partition holds beside its registers. -/
structure Part where
  loaded : Bool := false
  cfg : Option PartCfg := none
  /-- R38: where it stands -/
  cx : BitVec 4 := 0
  cy : BitVec 4 := 0
  /-- R276: device HBM address of its allocation -/
  hbmBase : Nat := 0
  /-- R390, R391: its memory key, by the number of its draw -/
  keyDraw : Nat := 0
  subSeq : W64 := 0
  mapCache : List MapEntry := []
  mapInv : Option MapInv := none
  mapOverrun : Bool := false
  resetting : Bool := false
  /-- R327: the queue last served at each priority -/
  rr : List (BitVec 2 × QueueId) := []
  pattBusy : Bool := false
  pattResult : BitVec 3 := 0
  pattOverrun : Bool := false
  vfRefused : Bool := false
  /-- R452: records on their way to the ring, and losses not yet reported there -/
  sink : List TraceRec := []
  trwr : BitVec 27 := 0
  trLost : W16 := 0
  trLostPend : BitVec 32 := 0
  /-- R415: domain last named by PWR_PWAKE -/
  pwakeDom : Nat := 0
  /-- R332: staging slots in use -/
  stages : List (BitVec 8) := []
  deriving DecidableEq, Repr

/-- Table 11-4. -/
inductive PortSt | off | culverted | training | keying | active | retrain
  deriving DecidableEq, Repr

/-- R292: a request this device has sent. -/
structure VulReq where
  tag : BitVec 16
  ty : MsgType
  /-- WRITE, READ: tile and queue of the transfer; SIGNAL: partition and context -/
  tile : TileId
  /-- SIGNAL: a tile's program sent it, not the headgate -/
  charge : Bool := true
  q : BitVec 2
  part : PartId
  ctx : CtxId
  parts : Nat
  deriving DecidableEq, Repr

/-- A Vulor port (R279 to R297). -/
structure Port where
  st : PortSt := .off
  isOpen : Bool := false
  gen2 : Bool := false
  width : BitVec 2 := 0
  epoch : Bool := false
  epochNo : Nat := 0
  fail : BitVec 4 := 0
  peer : BitVec 18 := 0
  span : BitVec 3 := 0
  peerValid : Bool := false
  lanes : Byte := 0
  feccnt : W32 := 0
  discarded : W16 := 0
  tagfail : W16 := 0
  retrains : W16 := 0
  failures : W16 := 0
  /-- R287: credits held, by channel -/
  credits : List Nat := [0, 0, 0, 0, 0]
  txSeq : W64 := 0
  rxNext : W64 := 0
  /-- R286: flits sent and not acknowledged: number and bytes, as they were sent -/
  replay : List (W64 × List Byte) := []
  /-- R288: the ephemeral private key of the exchange, and the keys and salts of the two directions -/
  eph : BitVec 384 := 0
  txKey : BitVec 256 := 0
  txSalt : W32 := 0
  rxKey : BitVec 256 := 0
  rxSalt : W32 := 0
  /-- R294: the flit of the last period's TIME message -/
  timeSeq : W64 := 0
  nakDue : Bool := false
  /-- R287: slots freed and not yet returned, by channel -/
  freed : List Nat := [0, 0, 0, 0, 0]
  /-- messages that wait for credits or room, with their channel -/
  txWait : List (BitVec 3 × Msg) := []
  /-- R281: how many of them, the first, are to be resent before any other goes -/
  resend : Nat := 0
  /-- R281: messages sent and not wholly acknowledged, with the number of their last flit -/
  sent : List (W64 × BitVec 3 × Msg) := []
  /-- the flit last accepted, before its slots are taken, and the stamp of its acceptance (R294) -/
  rxFlit : Option Flit := none
  rxAt : W64 := 0
  /-- slots of a message not yet whole -/
  rxPart : List (BitVec 256) := []
  /-- R287: receive buffers by channel -/
  bufs : List (BitVec 3 × Msg) := []
  /-- R286: stamps of discards in the last millisecond -/
  discardAt : List W64 := []
  tagRun : Nat := 0
  trainFails : Nat := 0
  leaving : Bool := false
  /-- R293: SIGNAL messages applied -/
  signals : List (BitVec 18 × BitVec 16) := []
  stopSent : Bool := false
  stopSeen : Bool := false
  /-- R462: messages that arrived before STOP -/
  inFlight : List (BitVec 3 × Msg) := []
  deriving DecidableEq, Repr

/-- R400, R405: a power domain. -/
structure Dom where
  st : BitVec 3 := 0
  phase : BitVec 2 := 0
  gate : Bool := false
  target : BitVec 3 := 0
  /-- R406: every admitted access has completed, and entry is under way -/
  entering : Bool := false
  wakeReq : Bool := false
  fail : Bool := false
  quiet : Bool := false
  quietSince : W64 := 0
  /-- R411: fast-clock divisor of a tile domain, sixteenths of 2.25 GHz -/
  n : BitVec 5 := 16
  /-- R411, R450: sixteenths of fast-clock cycles that the domain has run -/
  edges : Nat := 0
  /-- R408 stage 2: the halvings of the sluice that the domain's tiles have taken -/
  sluice : Nat := 0
  deriving DecidableEq, Repr

/-- R403: a register write held until its domain runs. -/
inductive HeldWrite
  | start (t : TileId) (e : EngId) (pc : BitVec 13)
  | sempost (t : TileId) (w : W32)
  | spown (t : TileId) (w : W32)
  /-- a post of a waiter slot -/
  | post (t : TileId) (n : SemId) (slot : BitVec 14)
  /-- R405: an update `v` of the timeline word at partition HBM address `a`, whose stack's gate is closed -/
  | tlWord (p : PartId) (a v : W64)
  deriving DecidableEq, Repr

/-- R408, R409: the governor. -/
structure Gov where
  /-- stage 3: memory controllers at half rate -/
  memHalf : Bool := false
  /-- stage 4: halvings of Vulor admission, 0 to 4 -/
  vul : Nat := 0
  /-- stage 5: sixteenths of issue duty held, 0 to 15 -/
  duty : Nat := 0
  /-- stage 2: halvings of the sluice, 0 to 6 -/
  sluice : Nat := 0
  jThrottle : Bool := false
  hot : Bool := false
  trip : Bool := false
  tjMax : Byte := 0
  /-- R409: the temperature registers whose sensor last read 95 °C or more -/
  warm : List Nat := []
  pkgW : BitVec 11 := 0
  floorOver : Bool := false
  capRefused : Bool := false
  /-- R408: a write lowered the cap since the last sample -/
  capLowered : Bool := false
  thermCnt : W16 := 0
  deriving DecidableEq, Repr

/-- R375: the fuses. -/
structure Fuses where
  keys : List (Option (BitVec 384)) := [none, none, none, none]
  revoked : BitVec 4 := 0
  svn : BitVec 6 := 0
  debugLock : Bool := false
  /-- R380: flash size: 1, 2 or 4 GiB for 0, 1, 2 -/
  flash : BitVec 2 := 2
  /-- R374: UDS, and the DeviceID certificate that Llynvar signed -/
  uds : BitVec 256 := 0
  devCert : List Byte := []
  /-- R378: K_own -/
  kown : BitVec 256 := 0
  deriving DecidableEq, Repr

/-- R395: the SPDM responder's state. -/
inductive SpdmSt | start | version | capabilities | algorithms | exchanged | session
  deriving DecidableEq, Repr

/-- R395: what chitin answers over DOE. -/
inductive SpdmResp
  | none | busy | unexpected | invalid
  | version (v : Byte)
  | capabilities
  | algorithms
  | digests (b : List Byte)
  | certificate (b : List Byte)
  | challengeAuth (b : List Byte)
  | measurements (index : Byte) (b : List Byte)
  | keyExchange (b : List Byte)
  | finish | heartbeat | keyUpdate | endSession | vendor
  deriving DecidableEq, Repr

/-- Chitin (R372 to R398). -/
structure Chitin where
  fuses : Fuses := {}
  image : Option Image := none
  /-- R395, R387: IMAGE_LOAD has passed at this start -/
  loadPassed : Bool := false
  step : BitVec 4 := 0
  st : BitVec 2 := 0
  slotB : Bool := false
  attempts : BitVec 3 := 0
  /-- R386: failed attempts since the last power-on or external device reset -/
  failed : Nat := 0
  /-- R386: the slot of the next attempt -/
  nextB : Bool := false
  doneReleased : Bool := false
  doneLine : Bool := false
  imgSvn : BitVec 6 := 0
  kslot : BitVec 2 := 0
  linkskip : BitVec 6 := 0
  skipTag : BitVec 384 := 0
  partFail : W16 := 0
  spdm : SpdmSt := .start
  spdmKeyNo : Nat := 0
  resp : SpdmResp := .none
  ide : List (Fin 3 × BitVec 256) := []
  /-- R391: keys drawn so far, and the draw of the device's memory key -/
  draws : Nat := 0
  devKey : Nat := 0
  /-- R387: error of the last DMI access -/
  dmiError : Bool := false
  /-- R458: the TAP's instruction register, and what Capture-DR of REGACC finds: the last read's data, and whether the last access was refused -/
  tapIr : BitVec 5 := 0x01
  tapData : W32 := 0
  tapRefused : Bool := false
  /-- R374: CDI and Alias certificate of the loaded image -/
  cdi : BitVec 384 := 0
  aliasCert : List Byte := []
  /-- R382, R392: what the staging area holds between IMAGE_LOAD and the end of APPLY -/
  staging : List Byte := []
  /-- R16: the draw of the values that the loaded image gives what the image format names no field for (log 44, DESIGN CHOICE) -/
  imgDraw : Nat := 0
  /-- R372: 512 KiB of private memory; from IMAGE_LOAD on it holds the tag table, which R383 needs again (log 144, DESIGN CHOICE) -/
  mem : Sparse Byte := []
  deriving DecidableEq, Repr

/-- R459, Table 18-13. -/
inductive GsSt | running | stopping | stopped | releasing
  deriving DecidableEq, Repr

/-- R465: a request that a global stop holds: PWR_PRESET, PWR_REQ, HGT DESTROY. -/
inductive GsReq
  | preset (p : PartId)
  | power (dom : Nat) (target : BitVec 3)
  | destroy (p : PartId) (c : CtxId)
  | destroyQueue (p : PartId) (q : QueueId)
  | destroyEvent (p : PartId) (h : W32)
  deriving DecidableEq, Repr

/-- R459 to R465: the global stop. -/
structure GStop where
  st : GsSt := .running
  device : Bool := false
  part : PartId := 0
  origin : BitVec 3 := 0
  port : BitVec 3 := 0
  originTile : TileId := 0
  moltErr : Bool := false
  merged : W16 := 0
  time : W64 := 0
  first : Option W64 := none
  last : Option W64 := none
  vwait : Bool := false
  /-- R465: requests held until release, in the order of their arrival -/
  held : List GsReq := []
  deriving DecidableEq, Repr

/-- What the block sends out: messages to the host. -/
inductive Out
  | msix (fn : Option PartId) (vector : BitVec 11)
  /-- R241: a Page Request -/
  | pageRequest (pasid : Option (BitVec 20)) (addr : W64) (index : BitVec 9) (read write last : Bool)
  /-- R245: a memory write that travels as a poisoned TLP -/
  | poisoned (pasid : Option (BitVec 20)) (addr : W64) (len : Nat)
  /-- R314: Unsupported Request -/
  | unsupported
  /-- data of a BAR2 read -/
  | bar2 (bytes : List Byte) (poison : Bool)
  | atsInvalidateDone
  /-- R284: a flit on a port's lanes -/
  | flit (p : PortId) (lanes : List (List Byte))
  /-- R304: a slot of a colony's outbound extension word -/
  | extSlot (c : ColId) (slot : BitVec 536)
  deriving DecidableEq, Repr

/-- R301, R303: a return beat. -/
structure RetBeat where
  data : BitVec 512
  sos : Bool
  eos : Bool
  deriving DecidableEq, Repr

/-- R241: a Page Request Group that waits for an index. -/
structure PrgWait where
  fn : Option PartId
  tile : TileId
  q : BitVec 2
  pasid : Option (BitVec 20)
  pages : List (W64 × Bool × Bool)
  deriving DecidableEq, Repr

/-- The machine's state. -/
structure State where
  /-- the commands that are waiting, first in, first out -/
  pending : List Instr
  /-- R438: the device time stamp -/
  time : W64
  /-- R438: how many nanoseconds a local copy of the time stamp is ahead of the always-on count: spines 0 to 3, tiles at 4 + tile -/
  copies : Sparse Nat
  /-- the model's own: how many steps have taken free values (log 2, DESIGN CHOICE) -/
  fresh : Nat
  /-- the model's own: the value the last register read returned -/
  readData : W32
  /-- what the block has sent to the host -/
  out : List Out
  /-- registers by address -/
  regs : Sparse W32
  /-- CSRs by core × 4,096 + number -/
  csrs : Sparse W32
  dm : Dm
  /-- scratchpad bytes by tile × 2^18 + byte (R199) -/
  spad : Sparse Byte
  /-- cistern page bytes by (tile × 64 + slot) × 65,536 + byte (R72) -/
  cis : Sparse Byte
  /-- sideband bytes by (tile × 64 + slot) × 4,096 + byte -/
  side : Sparse Byte
  /-- HBM by device HBM address (R276) -/
  hbm : Sparse Byte
  /-- host memory as the device has written it, by (PASID + 1, or 0 for none) × 2^64 + address -/
  host : Sparse Byte
  /-- instruction memory halfwords by ((tile × 4 + engine) × 2 + bank) × 8,192 + halfword (R115) -/
  imem : Sparse W16
  /-- instruction memory words written from poison, uncorrectable when fetched, by ((tile × 4 + engine) × 2 + bank) × 4,096 + word (R424) -/
  imemBad : Sparse Bool
  /-- accumulator entries by tile × 16,384 + entry (R156) -/
  acc : Sparse W32
  /-- what the last problem left in an accumulator entry: 0 nothing, 1 FP32, 2 INT32 (R157) -/
  accTy : Sparse (BitVec 2)
  /-- vector lanes by (tile × 32 + register) × 32 + lane (R174) -/
  vreg : Sparse W32
  /-- predicate registers by tile × 8 + number -/
  preg : Sparse W32
  /-- scalar registers by (tile × 4 + engine) × 16 + number (R123) -/
  sreg : Sparse W32
  /-- colony-core memory bytes by register address (R353) -/
  cmem : Sparse Byte
  /-- poison marks (R420): scratchpad lines, accumulator entries, vector lanes, cistern lines, HBM lines -/
  spadPoison : Sparse Bool
  accPoison : Sparse Bool
  vregPoison : Sparse Bool
  cisPoison : Sparse Bool
  hbmPoison : Sparse Bool
  /-- R451: posters by tile × 16 + semaphore -/
  poster : Sparse W32
  /-- engines by tile × 4 + engine -/
  eng : Sparse Eng
  tile : Sparse Tile
  /-- mover queues by tile × 4 + queue; descriptors by tile × 8 + descriptor -/
  movq : Sparse MovQ
  movd : Sparse MovD
  /-- sluice tokens missing from a full bucket, in hundredths of a byte, by tile × 3 + class (R232) -/
  bucket : Sparse Int
  canal : Canal
  /-- rotation sets by tile × 8 + set; halo channels by tile × 4 + channel -/
  rset : Sparse RSet
  halo : Sparse Halo
  core : Sparse Core
  /-- interrupt controllers by hart ID -/
  ctl : Sparse Ctl
  part : Sparse Part
  /-- contexts by partition × 256 + number -/
  ctx : Sparse Ctx
  /-- queues by partition × 1,024 + number -/
  queue : Sparse Queue
  /-- objects and events by partition × 2^24 + index; waiter slots by partition × 2^14 + slot -/
  obj : Sparse Obj
  evt : Sparse Evt
  waiter : Sparse Waiter
  /-- R332: the loaded package's handle by colony -/
  package : Sparse W32
  port : Sparse Port
  /-- R292: requests outstanding over Vulor -/
  vulReqs : List VulReq
  nextTag : BitVec 16
  /-- ingress FIFOs and return FIFOs by port (R301, R303) -/
  ingress : Sparse (List IngressBeat)
  ret : Sparse (List RetBeat)
  /-- R308: probes sent and not answered, by colony and stage -/
  probes : List (ColId × Bool)
  /-- R169: by colony, the tile whose turn at the extension port comes next -/
  extTurn : Sparse (BitVec 4)
  dom : Sparse Dom
  heldWrites : List HeldWrite
  gov : Gov
  chitin : Chitin
  gs : GStop
  /-- R444: shadows by reader: core, then 260 PF, 261 TAP, 262 + p VF p -/
  shadow : Sparse W32
  /-- R241: group indices outstanding: function, index, tile, queue -/
  prg : List (Option PartId × BitVec 9 × TileId × BitVec 2)
  /-- R241: next group index of a function: 0 the PF, p + 1 a VF -/
  prgNext : Sparse (BitVec 9)
  prgWait : List PrgWait
  /-- R316: ATS Invalidate Requests that wait, each with the transfers it waits for: queue, stream, position -/
  atsWait : List (List (Nat × Nat × Pos))
  /-- R314, R392, R405: BAR2 accesses that a reset or a sleeping stack holds -/
  barHeld : List (Req × W64 × Bar2Op)
  deriving DecidableEq, Repr

/-- R16, R216, R254, R310 to R470: the machine right after reset: every table at its defaults (log 4, DESIGN CHOICE). -/
def State.reset : State where
  pending := []
  time := 0
  copies := []
  fresh := 0
  readData := 0
  out := []
  regs := []
  csrs := []
  dm := {}
  spad := []
  cis := []
  side := []
  hbm := []
  host := []
  imem := []
  imemBad := []
  acc := []
  accTy := []
  vreg := []
  preg := []
  sreg := []
  cmem := []
  spadPoison := []
  accPoison := []
  vregPoison := []
  cisPoison := []
  hbmPoison := []
  poster := []
  eng := []
  tile := []
  movq := []
  movd := []
  bucket := []
  canal := {}
  rset := []
  halo := []
  core := []
  ctl := []
  part := []
  ctx := []
  queue := []
  obj := []
  evt := []
  waiter := []
  package := []
  port := []
  vulReqs := []
  nextTag := 0
  ingress := []
  ret := []
  probes := []
  extTurn := []
  dom := []
  heldWrites := []
  gov := {}
  chitin := {}
  gs := {}
  shadow := []
  prg := []
  prgNext := []
  prgWait := []
  atsWait := []
  barHeld := []

end Sys2Proof.Machine
end

