-- ==== Sys2Proof/Machine/Sparse.lean ====
section
/-!
DEFINITION. The one sparse table of the model: a list of (key, value) with strictly rising keys in which no value equals
what an unlisted key reads as. Every memory, register file and table of `State` is one; its default is a function of
the key.
-/
namespace Sys2Proof.Machine

variable {α : Type}

/-- The value at key `k`; `d k` where the table lists nothing. -/
def look (d : Nat → α) : Sparse α → Nat → α
  | [], k => d k
  | (j, v) :: m, k => if j = k then v else look d m k

/-- `m` with `v` entered at `k`, in its place by key. -/
def enter (m : Sparse α) (k : Nat) (v : α) : Sparse α :=
  match m with
  | [] => [(k, v)]
  | (j, w) :: m => if k < j then (k, v) :: (j, w) :: m else if k = j then (k, v) :: m else (j, w) :: enter m k v

/-- `m` without key `k`. -/
def drop (m : Sparse α) (k : Nat) : Sparse α :=
  match m with
  | [] => []
  | (j, w) :: m => if j = k then drop m k else (j, w) :: drop m k

/-- Write: a value that an unlisted key reads as leaves the table without an entry. -/
def put [DecidableEq α] (d : Nat → α) (m : Sparse α) (k : Nat) (v : α) : Sparse α :=
  if v = d k then drop m k else enter m k v

/-- Keys from `lo` on rise strictly, and no entry holds its key's default. -/
def wfFrom [DecidableEq α] (d : Nat → α) (lo : Nat) : Sparse α → Bool
  | [] => true
  | (j, v) :: m => decide (lo ≤ j) && decide (v ≠ d j) && wfFrom d (j + 1) m

/-- The canonical form. -/
def Memory.wf [DecidableEq α] (d : Nat → α) (m : Sparse α) : Bool := wfFrom d 0 m

/-- `m` without the keys that `p` holds of. -/
def dropIf (p : Nat → Bool) (m : Sparse α) : Sparse α :=
  match m with
  | [] => []
  | (j, w) :: m => if p j then dropIf p m else (j, w) :: dropIf p m

/-- `m` with `f` applied at every listed key that `p` holds of; keys that are not listed keep their default. -/
def mapIf [DecidableEq α] (d : Nat → α) (p : Nat → Bool) (f : α → α) (m : Sparse α) : Sparse α :=
  match m with
  | [] => []
  | (j, w) :: m =>
    if p j then (if f w = d j then mapIf d p f m else (j, f w) :: mapIf d p f m) else (j, w) :: mapIf d p f m

/-- `n` consecutive values from `k`. -/
def lookN (d : Nat → α) (m : Sparse α) (k : Nat) : Nat → List α
  | 0 => []
  | n + 1 => look d m k :: lookN d m (k + 1) n

/-- Consecutive writes from `k`. -/
def putL [DecidableEq α] (d : Nat → α) (m : Sparse α) (k : Nat) : List α → Sparse α
  | [] => m
  | v :: vs => putL d (put d m k v) (k + 1) vs

end Sys2Proof.Machine
end

