-- ==== Sys2Proof/Machine/RegMap.lean ====
section
/-!
DEFINITION. The register map: which bits of a register a plain write stores (RW) or clears (W1C), and its value after
device reset. Registers with a behaviour of their own, and those that show a unit's state, are written and read by
`RegWrite.lean` and `ReadReg.lean`; a row stands here for their plainly stored bits only. Bits of no row read 0 and
discard writes (R13, R17, R18).
-/
namespace Sys2Proof.Machine

/-- A run of registers: `count` of them, `stride` bytes apart, from `off`. -/
structure RegRow where
  off : Nat
  stride : Nat := 4
  count : Nat := 1
  rw : W32 := 0
  w1c : W32 := 0
  reset : W32 := 0
  deriving DecidableEq, Repr

/-- Does the row hold the register at offset `o`? -/
def RegRow.has (r : RegRow) (o : Nat) : Bool :=
  decide (r.off ≤ o) && decide ((o - r.off) % r.stride = 0) && decide ((o - r.off) / r.stride < r.count)

/-- R414, Table 16-7. -/
def pwrRows : List RegRow :=
  [{ off := 0x000, rw := 0x7FF }, { off := 0x008, rw := 0xFFFF0F1F }, { off := 0x300, count := 64, rw := 0xFFFFFF }]
/-- Table 18-17 and Table 17-7. -/
def dbgRows : List RegRow :=
  [{ off := 0x104, rw := 0xFFFF003F }, { off := 0x120, rw := 0xFFFF0000 }, { off := 0x124, rw := 0xFFFFFFFF },
   { off := 0x128, rw := 0xFFFF }, { off := 0x140, rw := 0x1FFFFFF }]
/-- R44. -/
def hgtRows : List RegRow := [{ off := 0, count := 64, reset := 3 }]
/-- Table 12-4. -/
def fabRows : List RegRow :=
  [{ off := 0x000, reset := 3 }, { off := 0x004, rw := 0xFFFF }, { off := 0x100, stride := 16, count := 16, rw := 1 }]
/-- R371, Table 14-8. -/
def intRows : List RegRow :=
  [{ off := 0x180, count := 6, rw := 0xFFFFFFFF }, { off := 0x1A0, count := 6, rw := 0xFFFFFFFF },
   { off := 0x200, count := 64, rw := 0xFFFFFFFF }, { off := 0x304, count := 15, rw := 0xFFFF000F },
   { off := 0x400, w1c := 0x100 }, { off := 0x404, rw := 7 }]
/-- Table 16-8. -/
def colpwrRows : List RegRow :=
  [{ off := 0, rw := 3 }, { off := 4, rw := 0xFFFFFFFF }, { off := 8, rw := 0xFFFFFFFF }]
/-- R468, Table 18-15. -/
def obsRows : List RegRow :=
  [{ off := 0xC0, reset := 0x7F800000 }, { off := 0xC4, reset := 0xFF800000 }, { off := 0xE8, rw := 0xF },
   { off := 0xF0, rw := 0xFFFFFFFF }, { off := 0xF4, rw := 0xFFFFFFFF }, { off := 0xF8, rw := 1 }]
/-- The tile block: Tables 3-4, 4-4, 4-9, 5-7 to 5-9, 6-3, 6-6, 6-8, 7-7, 8-4, 9-9, 10-3, 18-14. -/
def tileRows : List RegRow :=
  [{ off := 0x000C, stride := 0x40, count := 4, rw := 8 },
   { off := 0x0100, count := 16, rw := 0xFFFF }, { off := 0x0144, w1c := 0xFFFF }, { off := 0x0180, rw := 0xFFF7 },
   { off := 0x0188, w1c := 1 },
   { off := 0x0200, stride := 0x20, count := 112, rw := 0xFFFFFF }, { off := 0x0204, stride := 0x20, count := 112, rw := 0xFFFFFF },
   { off := 0x0208, stride := 0x20, count := 112, rw := 0xFFFFFF }, { off := 0x020C, stride := 0x20, count := 112, rw := 0xFFFFFF },
   { off := 0x0210, stride := 0x20, count := 112, rw := 0xFFFFFF },
   { off := 0x1000, stride := 16, count := 8, rw := 0xFFF }, { off := 0x1004, stride := 16, count := 8, rw := 0xFFFFFFFF },
   { off := 0x1008, stride := 16, count := 8, rw := 0xFFFF },
   { off := 0x1080, stride := 16, count := 4, rw := 0xFFFFFFFF }, { off := 0x1084, stride := 16, count := 4, rw := 0xFFFFFFF },
   { off := 0x1088, stride := 16, count := 4, rw := 0xFF },
   { off := 0x1100, stride := 8, count := 32, rw := 0x3FFFFF }, { off := 0x1104, stride := 8, count := 32, rw := 0xFFFFFFFF },
   { off := 0x1200, count := 4, rw := 0xF },
   { off := 0x1300, rw := 3 }, { off := 0x1310, stride := 16, count := 7, rw := 0x1FFFFFF },
   { off := 0x1314, stride := 16, count := 7, rw := 0xFFF }, { off := 0x1380, count := 4, rw := 0x1F },
   { off := 0x1400, count := 64, rw := 0xFFFFFFFF },
   { off := 0x1500, count := 128, rw := 0xFFFFFFFF }, { off := 0x1710, count := 4, rw := 0x7F },
   { off := 0x1804, rw := 0xFFFF }, { off := 0x1814, rw := 0xFFFFFF }, { off := 0x1818, rw := 0x7FFFFF },
   { off := 0x1900, stride := 16, count := 16, rw := 0x7FFFFFF }, { off := 0x1904, stride := 16, count := 16, rw := 0xFFFFFFFF },
   { off := 0x1908, stride := 16, count := 16, rw := 0xFFFFFF },
   { off := 0x1BC8, w1c := 0x300 }, { off := 0x1C00, stride := 8, count := 64, rw := 4 },
   { off := 0x1E08, w1c := 1 }, { off := 0x1E70, count := 4, rw := 0x7FFF, w1c := 0x8000 },
   { off := 0x1F00, rw := 0xFFFFFFFF }, { off := 0x1F04, rw := 0xFFFFFFFF }, { off := 0x1F08, w1c := 0x3F }]
/-- R297, Table 11-9. -/
def portRows : List RegRow :=
  [{ off := 0x000, rw := 3 }, { off := 0x040, rw := 0xFFFFFF }, { off := 0x044, rw := 0xFFFFFF }]
/-- The partition window: Tables 4-3, 13-8, 15-8, 18-16, 19-5. -/
def partRows : List RegRow :=
  [{ off := 0x200, reset := 3 }, { off := 0x40C, rw := 0xFFFFFF },
   { off := 0x500, count := 14, rw := 0xFFFFFFFF },
   { off := 0x740, rw := 0xFFFFF000 }, { off := 0x744, rw := 0xFFFFFFFF }, { off := 0x748, rw := 0xFFFF071F },
   { off := 0x750, rw := 0x7FFFFFF },
   { off := 0x800, rw := 0xFFFFF000 }, { off := 0x804, rw := 0xFFFFFFFF }, { off := 0x808, rw := 0xFFF1F },
   { off := 0x80C, rw := 0x800FFFFF }, { off := 0x820, rw := 0xFFFFF000 }, { off := 0x824, rw := 0xFFFFFFFF },
   { off := 0x828, rw := 0x31FFF }, { off := 0x840, count := 4, rw := 0xFFFFFFFF }, { off := 0x850, rw := 0x7FF },
   { off := 0x858, rw := 0xFFFFFFFF }, { off := 0x864, rw := 0xFFFFFFFF }, { off := 0x870, count := 3, rw := 0xFFFFFFFF },
   { off := 0x880, count := 3, rw := 0xFFFFFFFF }, { off := 0x88C, rw := 0xFF01FFFF }, { off := 0x8B8, rw := 0xFFFFFF },
   { off := 0xF00, rw := 0xFFFFFFFC }, { off := 0xF08, w1c := 1 }]

/-- The rows of a block. -/
def rowsOf : Blk → List RegRow
  | .feat => [] | .hgt => hgtRows | .pwr => pwrRows | .dbg => dbgRows | .fab => fabRows | .chi => []
  | .int _ => intRows | .cmem _ => [] | .colpwr _ => colpwrRows | .colrel _ => [] | .obs _ => obsRows
  | .tile _ => tileRows | .port _ => portRows | .spine _ => [] | .part _ => partRows

/-- The row of a register address. -/
def rowAt (a : Nat) : Option RegRow :=
  match locate a with
  | none => none
  | some (b, o) => (rowsOf b).find? (·.has o)

/-- R16: a register's word after device reset. A field marked "img" is 0 until the image is loaded. -/
def resetWord (a : Nat) : W32 :=
  match rowAt a with
  | some r => r.reset
  | none => 0

/-- The stored word of a register. -/
def State.reg (s : State) (a : Nat) : W32 := look resetWord s.regs a

/-- Store a register's word. -/
@[simps] def State.setReg (s : State) (a : Nat) (w : W32) : State := { s with regs := put resetWord s.regs a w }

/-- R13: a plain register write: RW bits take the written bits, W1C bits written 1 clear, other bits stay. -/
def State.plainWrite (s : State) (a : Nat) (w : W32) : State :=
  match rowAt a with
  | none => s
  | some r => let o := s.reg a; s.setReg a ((o &&& ~~~r.rw &&& ~~~(r.w1c &&& w)) ||| (w &&& r.rw))

/-- A field of a stored register. -/
def State.regF (s : State) (a hi lo : Nat) : Nat := fld (s.reg a) hi lo

/-- Replace a field of a stored register. -/
def State.setRegF (s : State) (a hi lo v : Nat) : State := s.setReg a (setFld (s.reg a) hi lo v)

/-- A counter in a register field: saturating increment. -/
def State.incReg (s : State) (a hi lo n : Nat) : State := s.setReg a (incFld (s.reg a) hi lo n)

/-- Two registers as a doubleword. -/
def State.reg64 (s : State) (lo hi : Nat) : W64 := (s.reg hi) ++ (s.reg lo)

end Sys2Proof.Machine
end

