-- ==== Sys2Proof/Machine/Ops.lean ====
section
/-!
DEFINITION. The named reads and writes of every table and memory of the state: one pair for each, and nothing else in
the model touches a table's list.
-/
namespace Sys2Proof.Machine

/-- What byte memories read where nothing is listed (R216; log 4, DESIGN CHOICE). -/
def zeroByte : Nat → Byte := fun _ => 0
/-- The same for words. -/
def zeroWord : Nat → W32 := fun _ => 0
/-- The same for halfwords. -/
def zeroHalf : Nat → W16 := fun _ => 0
/-- No poison mark. -/
def noMark : Nat → Bool := fun _ => false
/-- Table 14-3: a CSR after reset: the timer compares read all ones. -/
def csrReset : Nat → W32 := fun k => if k % 4096 = 0x7C5 ∨ k % 4096 = 0x7C6 then 0xFFFFFFFF else if k % 4096 = 0x7B0 then 0x40000003 else 0
/-- R400: a domain before its start: tile domains, cistern domains, HBM stacks and ports are in their lowest state (log 5, PRESUMED). -/
def domReset : Nat → Dom := fun k =>
  if k = 0 ∨ 95 ≤ k then {} else if k ≤ 64 then { st := 4 } else { st := 2 }


/-- A CSR of a core. -/
def State.csr (s : State) (c : CoreId) (n : Nat) : W32 := look csrReset s.csrs (c.val * 4096 + n)
/-- Write: a CSR of a core. -/
@[simps] def State.setCsr (s : State) (c : CoreId) (n : Nat) (v : W32) : State := { s with csrs := put csrReset s.csrs (c.val * 4096 + n) v }

/-- A scratchpad byte (R199). -/
def State.spadB (s : State) (t : TileId) (a : Nat) : Byte := look zeroByte s.spad (t.toNat * 262144 + a)
/-- Write: a scratchpad byte (R199). -/
@[simps] def State.setSpadB (s : State) (t : TileId) (a : Nat) (v : Byte) : State := { s with spad := put zeroByte s.spad (t.toNat * 262144 + a) v }

/-- A byte of a vault's pages: slot × 65,536 + offset. -/
def State.cisB (s : State) (t : TileId) (a : Nat) : Byte := look zeroByte s.cis (t.toNat * 4194304 + a)
/-- Write: a byte of a vault's pages: slot × 65,536 + offset. -/
@[simps] def State.setCisB (s : State) (t : TileId) (a : Nat) (v : Byte) : State := { s with cis := put zeroByte s.cis (t.toNat * 4194304 + a) v }

/-- A byte of a vault's sidebands: slot × 4,096 + offset. -/
def State.sideB (s : State) (t : TileId) (a : Nat) : Byte := look zeroByte s.side (t.toNat * 262144 + a)
/-- Write: a byte of a vault's sidebands: slot × 4,096 + offset. -/
@[simps] def State.setSideB (s : State) (t : TileId) (a : Nat) (v : Byte) : State := { s with side := put zeroByte s.side (t.toNat * 262144 + a) v }

/-- A byte of HBM. -/
def State.hbmB (s : State) (a : Nat) : Byte := look zeroByte s.hbm (a)
/-- Write: a byte of HBM. -/
@[simps] def State.setHbmB (s : State) (a : Nat) (v : Byte) : State := { s with hbm := put zeroByte s.hbm (a) v }

/-- A halfword of instruction memory. -/
def State.imemH (s : State) (t : TileId) (e : EngId) (b : Bool) (a : Nat) : W16 := look zeroHalf s.imem (((t.toNat * 4 + e.toNat) * 2 + nat01 b) * 8192 + a)
/-- Write: a halfword of instruction memory. -/
@[simps] def State.setImemH (s : State) (t : TileId) (e : EngId) (b : Bool) (a : Nat) (v : W16) : State := { s with imem := put zeroHalf s.imem (((t.toNat * 4 + e.toNat) * 2 + nat01 b) * 8192 + a) v }

/-- Is a word of instruction memory uncorrectable? -/
def State.imemP (s : State) (t : TileId) (e : EngId) (b : Bool) (w : Nat) : Bool := look noMark s.imemBad (((t.toNat * 4 + e.toNat) * 2 + nat01 b) * 4096 + w)
/-- Write: is a word of instruction memory uncorrectable? -/
@[simps] def State.setImemP (s : State) (t : TileId) (e : EngId) (b : Bool) (w : Nat) (v : Bool) : State := { s with imemBad := put noMark s.imemBad (((t.toNat * 4 + e.toNat) * 2 + nat01 b) * 4096 + w) v }

/-- An accumulator entry. -/
def State.accW (s : State) (t : TileId) (i : Nat) : W32 := look zeroWord s.acc (t.toNat * 16384 + i)
/-- Write: an accumulator entry. -/
@[simps] def State.setAccW (s : State) (t : TileId) (i : Nat) (v : W32) : State := { s with acc := put zeroWord s.acc (t.toNat * 16384 + i) v }

/-- A lane of a vector register. -/
def State.vregL (s : State) (t : TileId) (r : Nat) (l : Nat) : W32 := look zeroWord s.vreg ((t.toNat * 32 + r) * 32 + l)
/-- Write: a lane of a vector register. -/
@[simps] def State.setVregL (s : State) (t : TileId) (r : Nat) (l : Nat) (v : W32) : State := { s with vreg := put zeroWord s.vreg ((t.toNat * 32 + r) * 32 + l) v }

/-- A predicate register as it is stored. -/
def State.pregW (s : State) (t : TileId) (r : Nat) : W32 := look zeroWord s.preg (t.toNat * 8 + r)
/-- Write: a predicate register as it is stored. -/
@[simps] def State.setPregW (s : State) (t : TileId) (r : Nat) (v : W32) : State := { s with preg := put zeroWord s.preg (t.toNat * 8 + r) v }

/-- A scalar register as it is stored. -/
def State.sregW (s : State) (t : TileId) (e : EngId) (r : Nat) : W32 := look zeroWord s.sreg ((t.toNat * 4 + e.toNat) * 16 + r)
/-- Write: a scalar register as it is stored. -/
@[simps] def State.setSregW (s : State) (t : TileId) (e : EngId) (r : Nat) (v : W32) : State := { s with sreg := put zeroWord s.sreg ((t.toNat * 4 + e.toNat) * 16 + r) v }

/-- A byte of a colony core's memories, by offset in the colony block. -/
def State.cmemB (s : State) (c : ColId) (a : Nat) : Byte := look zeroByte s.cmem (c.toNat * 98304 + a)
/-- Write: a byte of a colony core's memories, by offset in the colony block. -/
@[simps] def State.setCmemB (s : State) (c : ColId) (a : Nat) (v : Byte) : State := { s with cmem := put zeroByte s.cmem (c.toNat * 98304 + a) v }

/-- The poison mark of a scratchpad line. -/
def State.spadP (s : State) (t : TileId) (l : Nat) : Bool := look noMark s.spadPoison (t.toNat * 4096 + l)
/-- Write: the poison mark of a scratchpad line. -/
@[simps] def State.setSpadP (s : State) (t : TileId) (l : Nat) (v : Bool) : State := { s with spadPoison := put noMark s.spadPoison (t.toNat * 4096 + l) v }

/-- The poison mark of an accumulator entry. -/
def State.accP (s : State) (t : TileId) (i : Nat) : Bool := look noMark s.accPoison (t.toNat * 16384 + i)
/-- Write: the poison mark of an accumulator entry. -/
@[simps] def State.setAccP (s : State) (t : TileId) (i : Nat) (v : Bool) : State := { s with accPoison := put noMark s.accPoison (t.toNat * 16384 + i) v }

/-- The poison mark of a vector lane. -/
def State.vregP (s : State) (t : TileId) (r : Nat) (l : Nat) : Bool := look noMark s.vregPoison ((t.toNat * 32 + r) * 32 + l)
/-- Write: the poison mark of a vector lane. -/
@[simps] def State.setVregP (s : State) (t : TileId) (r : Nat) (l : Nat) (v : Bool) : State := { s with vregPoison := put noMark s.vregPoison ((t.toNat * 32 + r) * 32 + l) v }

/-- The poison mark of a vault line: page line slot × 1,024 + line; sideband line 65,536 + slot × 64 + line. -/
def State.cisP (s : State) (t : TileId) (l : Nat) : Bool := look noMark s.cisPoison (t.toNat * 69632 + l)
/-- Write: the poison mark of a vault line: page line slot × 1,024 + line; sideband line 65,536 + slot × 64 + line. -/
@[simps] def State.setCisP (s : State) (t : TileId) (l : Nat) (v : Bool) : State := { s with cisPoison := put noMark s.cisPoison (t.toNat * 69632 + l) v }

/-- The poison mark of an HBM line. -/
def State.hbmP (s : State) (l : Nat) : Bool := look noMark s.hbmPoison (l)
/-- Write: the poison mark of an HBM line. -/
@[simps] def State.setHbmP (s : State) (l : Nat) (v : Bool) : State := { s with hbmPoison := put noMark s.hbmPoison (l) v }

/-- The last poster of a semaphore (R451). -/
def State.posterW (s : State) (t : TileId) (n : Nat) : W32 := look zeroWord s.poster (t.toNat * 16 + n)
/-- Write: the last poster of a semaphore (R451). -/
@[simps] def State.setPosterW (s : State) (t : TileId) (n : Nat) (v : W32) : State := { s with poster := put zeroWord s.poster (t.toNat * 16 + n) v }

/-- An engine. -/
def State.engAt (s : State) (t : TileId) (e : EngId) : Eng := look (fun _ => {}) s.eng (t.toNat * 4 + e.toNat)
/-- Write: an engine. -/
@[simps] def State.setEng (s : State) (t : TileId) (e : EngId) (v : Eng) : State := { s with eng := put (fun _ => {}) s.eng (t.toNat * 4 + e.toNat) v }

/-- A tile. -/
def State.tileAt (s : State) (t : TileId) : Tile := look (fun _ => {}) s.tile (t.toNat)
/-- Write: a tile. -/
@[simps] def State.setTile (s : State) (t : TileId) (v : Tile) : State := { s with tile := put (fun _ => {}) s.tile (t.toNat) v }

/-- A mover queue. -/
def State.movq_ (s : State) (t : TileId) (q : Nat) : MovQ := look (fun _ => {}) s.movq (t.toNat * 4 + q)
/-- Write: a mover queue. -/
@[simps] def State.setMovq (s : State) (t : TileId) (q : Nat) (v : MovQ) : State := { s with movq := put (fun _ => {}) s.movq (t.toNat * 4 + q) v }

/-- A descriptor's state. -/
def State.movd_ (s : State) (t : TileId) (d : Nat) : MovD := look (fun _ => {}) s.movd (t.toNat * 8 + d)
/-- Write: a descriptor's state. -/
@[simps] def State.setMovd (s : State) (t : TileId) (d : Nat) (v : MovD) : State := { s with movd := put (fun _ => {}) s.movd (t.toNat * 8 + d) v }

/-- Tokens missing from a bucket. -/
def State.bucketOf (s : State) (t : TileId) (k : Nat) : Int := look (fun _ => 0) s.bucket (t.toNat * 3 + k)
/-- Write: tokens missing from a bucket. -/
@[simps] def State.setBucket (s : State) (t : TileId) (k : Nat) (v : Int) : State := { s with bucket := put (fun _ => 0) s.bucket (t.toNat * 3 + k) v }

/-- The tile whose turn at a colony's extension port comes next (R169). -/
def State.turnOf (s : State) (c : ColId) : BitVec 4 := look (fun _ => 0) s.extTurn c.toNat
/-- Write: the tile whose turn at a colony's extension port comes next (R169). -/
@[simps] def State.setTurn (s : State) (c : ColId) (v : BitVec 4) : State := { s with extTurn := put (fun _ => 0) s.extTurn c.toNat v }

/-- A rotation set. -/
def State.rsetAt (s : State) (t : TileId) (k : Nat) : RSet := look (fun _ => {}) s.rset (t.toNat * 8 + k)
/-- Write: a rotation set. -/
@[simps] def State.setRset (s : State) (t : TileId) (k : Nat) (v : RSet) : State := { s with rset := put (fun _ => {}) s.rset (t.toNat * 8 + k) v }

/-- A halo channel. -/
def State.haloAt (s : State) (t : TileId) (h : Nat) : Halo := look (fun _ => {}) s.halo (t.toNat * 4 + h)
/-- Write: a halo channel. -/
@[simps] def State.setHalo (s : State) (t : TileId) (h : Nat) (v : Halo) : State := { s with halo := put (fun _ => {}) s.halo (t.toNat * 4 + h) v }

/-- A control core. -/
def State.coreAt (s : State) (c : CoreId) : Core := look (fun _ => {}) s.core (c.val)
/-- Write: a control core. -/
@[simps] def State.setCore (s : State) (c : CoreId) (v : Core) : State := { s with core := put (fun _ => {}) s.core (c.val) v }

/-- An interrupt controller. -/
def State.ctlAt (s : State) (c : CoreId) : Ctl := look (fun _ => {}) s.ctl (c.val)
/-- Write: an interrupt controller. -/
@[simps] def State.setCtl (s : State) (c : CoreId) (v : Ctl) : State := { s with ctl := put (fun _ => {}) s.ctl (c.val) v }

/-- A partition. -/
def State.partAt (s : State) (p : PartId) : Part := look (fun _ => {}) s.part (p.toNat)
/-- Write: a partition. -/
@[simps] def State.setPart (s : State) (p : PartId) (v : Part) : State := { s with part := put (fun _ => {}) s.part (p.toNat) v }

/-- A context. -/
def State.ctxAt (s : State) (p : PartId) (c : CtxId) : Ctx := look (fun _ => {}) s.ctx (p.toNat * 256 + c.toNat)
/-- Write: a context. -/
@[simps] def State.setCtx (s : State) (p : PartId) (c : CtxId) (v : Ctx) : State := { s with ctx := put (fun _ => {}) s.ctx (p.toNat * 256 + c.toNat) v }

/-- A queue. -/
def State.queueAt (s : State) (p : PartId) (q : QueueId) : Queue := look (fun _ => {}) s.queue (p.toNat * 1024 + q.toNat)
/-- Write: a queue. -/
@[simps] def State.setQueue (s : State) (p : PartId) (q : QueueId) (v : Queue) : State := { s with queue := put (fun _ => {}) s.queue (p.toNat * 1024 + q.toNat) v }

/-- A memory object's entry. -/
def State.objAt (s : State) (p : PartId) (i : Nat) : Obj := look (fun _ => {}) s.obj (p.toNat * 16777216 + i)
/-- Write: a memory object's entry. -/
@[simps] def State.setObj (s : State) (p : PartId) (i : Nat) (v : Obj) : State := { s with obj := put (fun _ => {}) s.obj (p.toNat * 16777216 + i) v }

/-- An event's entry. -/
def State.evtAt (s : State) (p : PartId) (i : Nat) : Evt := look (fun _ => {}) s.evt (p.toNat * 16777216 + i)
/-- Write: an event's entry. -/
@[simps] def State.setEvt (s : State) (p : PartId) (i : Nat) (v : Evt) : State := { s with evt := put (fun _ => {}) s.evt (p.toNat * 16777216 + i) v }

/-- A waiter slot. -/
def State.waiterAt (s : State) (p : PartId) (i : Nat) : Waiter := look (fun _ => {}) s.waiter (p.toNat * 16384 + i)
/-- Write: a waiter slot. -/
@[simps] def State.setWaiter (s : State) (p : PartId) (i : Nat) (v : Waiter) : State := { s with waiter := put (fun _ => {}) s.waiter (p.toNat * 16384 + i) v }

/-- The package loaded in a colony (R332). -/
def State.packageAt (s : State) (c : ColId) : W32 := look zeroWord s.package (c.toNat)
/-- Write: the package loaded in a colony (R332). -/
@[simps] def State.setPackage (s : State) (c : ColId) (v : W32) : State := { s with package := put zeroWord s.package (c.toNat) v }

/-- A Vulor port. -/
def State.portAt (s : State) (p : PortId) : Port := look (fun _ => {}) s.port (p.val)
/-- Write: a Vulor port. -/
@[simps] def State.setPort (s : State) (p : PortId) (v : Port) : State := { s with port := put (fun _ => {}) s.port (p.val) v }

/-- An ingress FIFO. -/
def State.ingressAt (s : State) (q : Nat) : List IngressBeat := look (fun _ => []) s.ingress (q)
/-- Write: an ingress FIFO. -/
@[simps] def State.setIngress (s : State) (q : Nat) (v : List IngressBeat) : State := { s with ingress := put (fun _ => []) s.ingress (q) v }

/-- A return FIFO. -/
def State.retAt (s : State) (q : Nat) : List RetBeat := look (fun _ => []) s.ret (q)
/-- Write: a return FIFO. -/
@[simps] def State.setRet (s : State) (q : Nat) (v : List RetBeat) : State := { s with ret := put (fun _ => []) s.ret (q) v }

/-- A power domain by its ID. -/
def State.domAt (s : State) (d : Nat) : Dom := look domReset s.dom (d)
/-- Write: a power domain by its ID. -/
@[simps] def State.setDom (s : State) (d : Nat) (v : Dom) : State := { s with dom := put domReset s.dom (d) v }

/-- A reader's shadow (R444). -/
def State.shadowAt (s : State) (r : Nat) : W32 := look zeroWord s.shadow (r)
/-- Write: a reader's shadow (R444). -/
@[simps] def State.setShadow (s : State) (r : Nat) (v : W32) : State := { s with shadow := put zeroWord s.shadow (r) v }

/-- Host memory as the device has written it. -/
def hostKey (pasid : Option (BitVec 20)) (a : Nat) : Nat :=
  (match pasid with | none => 0 | some p => p.toNat + 1) * 2 ^ 64 + a % 2 ^ 64

/-- Bytes the device writes to host memory. -/
@[simps] def State.hostWrite (s : State) (pasid : Option (BitVec 20)) (a : Nat) (bs : List Byte) : State :=
  { s with host := putL zeroByte s.host (hostKey pasid a) bs }

/-- Bytes of host memory as the device has written it. -/
def State.hostBytes (s : State) (pasid : Option (BitVec 20)) (a n : Nat) : List Byte := lookN zeroByte s.host (hostKey pasid a) n

/-- R123: s0 reads 0. -/
def State.sR (s : State) (t : TileId) (e : EngId) (r : BitVec 4) : W32 := if r = 0 then 0 else s.sregW t e r.toNat
/-- R123: writes to s0 are discarded. -/
def State.setSR (s : State) (t : TileId) (e : EngId) (r : BitVec 4) (v : W32) : State :=
  if r = 0 then s else s.setSregW t e r.toNat v

/-- Bytes of a scratchpad from byte `a`. -/
def State.spadBytes (s : State) (t : TileId) (a n : Nat) : List Byte := lookN zeroByte s.spad (t.toNat * 262144 + a) n
/-- Write scratchpad bytes; no poison mark changes here. -/
@[simps] def State.setSpadBytes (s : State) (t : TileId) (a : Nat) (bs : List Byte) : State :=
  { s with spad := putL zeroByte s.spad (t.toNat * 262144 + a) bs }
/-- A word of a scratchpad. -/
def State.spadW (s : State) (t : TileId) (a : Nat) : W32 := BitVec.ofNat 32 (leNat (s.spadBytes t a 4))
/-- HBM bytes. -/
def State.hbmBytes (s : State) (a n : Nat) : List Byte := lookN zeroByte s.hbm a n
/-- Write HBM bytes. -/
@[simps] def State.setHbmBytes (s : State) (a : Nat) (bs : List Byte) : State := { s with hbm := putL zeroByte s.hbm a bs }
/-- Page bytes of a slot of a vault. -/
def State.cisBytes (s : State) (t : TileId) (a n : Nat) : List Byte := lookN zeroByte s.cis (t.toNat * 4194304 + a) n
/-- Write page bytes. -/
@[simps] def State.setCisBytes (s : State) (t : TileId) (a : Nat) (bs : List Byte) : State :=
  { s with cis := putL zeroByte s.cis (t.toNat * 4194304 + a) bs }
/-- Sideband bytes. -/
def State.sideBytes (s : State) (t : TileId) (a n : Nat) : List Byte := lookN zeroByte s.side (t.toNat * 262144 + a) n
/-- Write sideband bytes. -/
@[simps] def State.setSideBytes (s : State) (t : TileId) (a : Nat) (bs : List Byte) : State :=
  { s with side := putL zeroByte s.side (t.toNat * 262144 + a) bs }

/-- Apply `f` for each element in order. -/
def each {β : Type} (s : State) (l : List β) (f : State → β → State) : State := l.foldl f s

/-- A message of the block to the host. -/
@[simps] def State.send (s : State) (o : Out) : State := { s with out := s.out ++ [o] }

/-- One fresh free number (log 2, DESIGN CHOICE): the value, and the state that has taken it. -/
def State.draw (s : State) (i : Nat) : Nat := Config.free s.fresh i
/-- The state after a step has taken free values. -/
@[simps] def State.drawn (s : State) : State := { s with fresh := s.fresh + 1 }

/-- R355: a core enters debug mode with the Debug Specification's `cause`; the pc it had reached is not known here, so dpc is free (log 95,
DESIGN CHOICE). -/
def State.enterDebug (s : State) (c : CoreId) (cause : Nat) : State :=
  let k := s.coreAt c
  let d := setFld (setFld (s.csr c 0x7B0) 8 6 cause) 1 0 k.priv.toNat
  (((s.setCsr c 0x7B0 d).setCsr c 0x7B1 (BitVec.ofNat 32 (s.draw (2 ^ 60 + c.val)) &&& 0xFFFFFFFE)).setCore c { k with halted := true, wfi := false }).drawn

/-- Halfwords written from halfword `a` of a bank of instruction memory; a word written whole is correct. -/
def State.putImem (s : State) (t : TileId) (e : EngId) (b : Bool) (a : Nat) (l : List W16) : State :=
  each s l.zipIdx fun s x =>
    let s := s.setImemH t e b (a + x.2) x.1
    if (a + x.2) % 2 = 1 then s.setImemP t e b ((a + x.2) / 2) false else s

/-! ## Poison marks (R421): the data of a poisoned line, entry or lane is unpredictable, so a mark that is set brings free values -/

/-- Free bytes of a line that becomes poison, by the line's place. (log 57, DEDUCED) -/
def State.junk (s : State) (k n : Nat) : List Byte := (List.range n).map fun i => BitVec.ofNat 8 (s.draw (2 ^ 40 + k + i))
/-- R421: the mark of a scratchpad line. -/
def State.markSpad (s : State) (t : TileId) (l : Nat) (b : Bool) : State :=
  let s := s.setSpadP t l b
  if b then (s.setSpadBytes t (64 * l) (s.junk (64 * l) 64)).drawn else s
/-- R421: the mark of an accumulator entry. -/
def State.markAcc (s : State) (t : TileId) (i : Nat) (b : Bool) : State :=
  let s := s.setAccP t i b
  if b then (s.setAccW t i (BitVec.ofNat 32 (s.draw (2 ^ 40 + i)))).drawn else s
/-- R421: the mark of a vector lane. -/
def State.markLane (s : State) (t : TileId) (r l : Nat) (b : Bool) : State :=
  let s := s.setVregP t r l b
  if b then (s.setVregL t r l (BitVec.ofNat 32 (s.draw (2 ^ 40 + 32 * r + l)))).drawn else s
/-- R421: the mark of a vault line: page line slot × 1,024 + line; sideband line 65,536 + slot × 64 + line. -/
def State.markCis (s : State) (v : TileId) (l : Nat) (b : Bool) : State :=
  let s := s.setCisP v l b
  if !b then s
  else if l < 65536 then (s.setCisBytes v (64 * l) (s.junk (64 * l) 64)).drawn
  else (s.setSideBytes v (64 * (l - 65536)) (s.junk (64 * l) 64)).drawn
/-- R421: the mark of an HBM line. -/
def State.markHbm (s : State) (l : Nat) (b : Bool) : State :=
  let s := s.setHbmP l b
  if b then (s.setHbmBytes (64 * l) (s.junk (64 * l) 64)).drawn else s

/-! ## Lines that change while an operation reads them (R204, R205) -/

/-- R205: a tile's scratchpad as it stands. -/
def State.snap (s : State) (t : TileId) : Snap :=
  { mem := s.spad.filter fun x => decide (x.1 / 262144 = t.toNat), bad := s.spadPoison.filter fun x => decide (x.1 / 4096 = t.toNat) }

/-- Lines in which two scratchpads of a tile differ, with repeats. -/
def Snap.differs (o n : Snap) : List Nat :=
  (o.mem.filter fun x => !n.mem.contains x).map (fun x => x.1 / 64) ++ (n.mem.filter fun x => !o.mem.contains x).map (fun x => x.1 / 64)
    ++ (o.bad.filter fun x => !n.bad.contains x).map (·.1) ++ (n.bad.filter fun x => !o.bad.contains x).map (·.1)

/-- R205: the scratchpad as an operation that began at `o` reads it: a line that has changed since then holds, freely, its old or its
new contents. (log 115, DEDUCED) `b`: the first of the free numbers that say which. -/
def State.mixWith (s : State) (b : Nat) (t : TileId) (o : Snap) : State :=
  if o = s.snap t then s else
  each s (o.differs (s.snap t)).eraseDups fun s k =>
    let l := k % 4096
    if s.draw (b + l) % 2 = 0 then s
    else (s.setSpadBytes t (64 * l) ((List.range 64).map fun i => look zeroByte o.mem (64 * k + i))).setSpadP t l (look noMark o.bad k)
/-- The same, for the contents when an operation began. -/
def State.mixed (s : State) (t : TileId) (o : Snap) : State := s.mixWith (2 ^ 50) t o

/-! ## Partitions and places -/

/-- R38: does the partition stand on the colony? -/
def Part.covers (q : Part) (c : ColId) : Bool :=
  match q.cfg with
  | none => false
  | some g => q.loaded && decide (q.cx.toNat ≤ colX c) && decide (colX c < q.cx.toNat + g.width.toNat)
      && decide (q.cy.toNat ≤ colY c) && decide (colY c < q.cy.toNat + g.height.toNat)

/-- The partition a colony belongs to. -/
def State.partOfCol (s : State) (c : ColId) : Option PartId :=
  (s.part.find? fun e => e.2.covers c).map fun e => BitVec.ofNat 6 e.1

/-- The partition a tile belongs to. -/
def State.partOf (s : State) (t : TileId) : Option PartId := s.partOfCol (colonyOf t)

/-- The colonies of a partition. -/
def State.colsOf (s : State) (p : PartId) : List ColId :=
  let q := s.partAt p
  match q.cfg with
  | none => []
  | some g =>
    if q.loaded then
      (List.range g.height.toNat).flatMap fun y => (List.range g.width.toNat).map fun x => colAt (q.cx.toNat + x) (q.cy.toNat + y)
    else []

/-- The tiles of a partition. -/
def State.tilesIn (s : State) (p : PartId) : List TileId := (s.colsOf p).flatMap tilesOfCol

/-- The image's parameters of a loaded partition. -/
def State.pcfg (s : State) (p : PartId) : Option PartCfg := if (s.partAt p).loaded then (s.partAt p).cfg else none

/-- FEAT_PGEOM of a partition (Table 2-2): placed origin, size, relocatable, number; 0 while it is not loaded. -/
def State.pgeom (s : State) (p : PartId) : W32 :=
  let q := s.partAt p
  match q.cfg with
  | none => 0
  | some g => if q.loaded then pack [(0, q.cx.toNat), (4, q.cy.toNat), (8, g.width.toNat), (16, g.height.toNat), (21, nat01 g.reloc), (24, p.toNat)] else 0

/-- The engine of a tile operates only while the tile's domain is in RUN. -/
def State.runs (s : State) (t : TileId) : Bool := decide ((s.domAt (domTile t)).st = 0)

/-! ## Local copies of the time stamp (R438) -/

/-- The copy of a unit is `n` ns ahead of the always-on count. -/
@[simps] def State.setCopy (s : State) (q n : Nat) : State := { s with copies := put (fun _ => 0) s.copies q n }
/-- What the copy of a die's spine reads. -/
def State.spineStamp (s : State) (die : Nat) : W64 := s.time + BitVec.ofNat 64 (look (fun _ => 0) s.copies (die % 4))
/-- R439: what a tile takes its stamps from: its own copy, or its spine's where its clock stands. -/
def State.stamp (s : State) (t : TileId) : W64 :=
  if s.runs t then s.time + BitVec.ofNat 64 (look (fun _ => 0) s.copies (4 + t.toNat)) else s.spineStamp (dieOf t)
/-- R439: the copy that INT_TIME of a core returns: of its colony's tile 0, or of its spine. (log 141, DESIGN CHOICE) -/
def State.coreStamp (s : State) (c : CoreId) : W64 :=
  if c.val < 256 then s.stamp (tileOf (BitVec.ofNat 8 c.val) 0) else s.spineStamp (c.val - 256)
/-- Die of the spine that serves a partition. -/
def State.partDie (s : State) (p : PartId) : Nat := dieOfCol (colAt (s.partAt p).cx.toNat (s.partAt p).cy.toNat)

/-- R411: the clock of a tile's domain, in sixteenths of cycles. -/
def State.edges (s : State) (t : TileId) : Nat := (s.domAt (domTile t)).edges
/-- Fast-clock cycles since the clock of the tile's domain stood at `x` (log 12, DEDUCED). -/
def State.cyclesSince (s : State) (t : TileId) (x : Nat) : Nat := (s.edges t - x) / 16

/-- Device HBM address of a partition HBM address; none beyond the allocation (R276). -/
def State.hbmOf (s : State) (p : PartId) (a n : Nat) : Option Nat :=
  match s.pcfg p with
  | none => none
  | some g => if a + n ≤ g.hbmUnits.toNat * 2 ^ 28 then some ((s.partAt p).hbmBase + a) else none

/-- A tile register's stored word. -/
def State.tr (s : State) (t : TileId) (o : Nat) : W32 := s.reg (tileBase t + o)
/-- Store a tile register. -/
def State.setTr (s : State) (t : TileId) (o : Nat) (w : W32) : State := s.setReg (tileBase t + o) w

/-- R212: the context that a tile's programs run in. -/
def State.ctxOf (s : State) (t : TileId) : CtxId := (s.tileAt t).ctx

/-! ## Domains -/

/-- Populated stacks, ascending. -/
def stackList : List Nat := (List.range 8).filter fun i => Config.stacks.getLsbD i
/-- R276: stack of a device HBM address. -/
def stackOf (a : Nat) : Nat := stackList.getD (a / 4096 % stackList.length) 0
/-- R399: domain IDs. -/
def domHbm (n : Nat) : Nat := 81 + n
def domVul (p : PortId) : Nat := 89 + p.val
def domSpine (q : Nat) : Nat := 96 + q

/-- R405: the domain's gate refuses or holds what arrives. -/
def State.gateShut (s : State) (d : Nat) : Bool := (s.domAt d).gate
/-- The domain serves accesses: its gate is open, and a cistern or a stack is ACTIVE (R108). -/
def State.serves (s : State) (d : Nat) : Bool :=
  !(s.domAt d).gate && (decide (d ≤ 64) || decide ((s.domAt d).st = 0))
/-- R405: the domain takes an access that its mover sent before the gate closed: CLOSING lets what was admitted complete. -/
def State.takes (s : State) (d : Nat) : Bool :=
  let q := s.domAt d
  (!q.gate || (decide (q.phase = 1) && !q.entering)) && (if d ≤ 64 then decide (q.st.toNat ≤ 1) else decide (q.st = 0))
/-- R403, R405: something that waits for the domain asks for its wake. -/
def State.askWake (s : State) (d : Nat) : State :=
  let q := s.domAt d
  if q.st = 0 ∧ !q.gate then s else s.setDom d { q with wakeReq := true }

end Sys2Proof.Machine
end

