-- ==== Sys2Proof/Machine/Report.lean ====
section
/-!
DEFINITION. What every unit reports: trace records (R449 to R452), light counters (R445), interrupt sources (R357,
R358), error records (R367, R368, R370, R432, R433) and notice records (R341 to R343).
-/
namespace Sys2Proof.Machine

/-! ## Light counters -/

/-- Add to a 64-bit counter that wraps, low word at `a`. -/
def State.add64 (s : State) (a n : Nat) : State :=
  let v := (s.reg64 a (a + 4)).toNat + n
  (s.setReg a (BitVec.ofNat 32 v)).setReg (a + 4) (BitVec.ofNat 32 (v >>> 32))

/-- R445: count in light counter `n` of the partition alone: its counters 6 and 7 count other things than the device's. -/
def State.lightP (s : State) (p : Option PartId) (n k : Nat) : State :=
  match p with
  | none => s
  | some p => s.add64 (partBase p + 0x700 + 8 * n) k

/-- R445: count in light counter `n` of the partition and of the device. -/
def State.light (s : State) (p : Option PartId) (n k : Nat) : State :=
  let s := match p with
    | none => s
    | some p => s.add64 (partBase p + 0x700 + 8 * n) k
  s.add64 (dbgBase + 8 * n) k

/-! ## Normal service and identity -/

/-- R459, R460: a global stop is in force over the tile. -/
def State.stoppedOver (s : State) (t : TileId) : Bool :=
  decide (s.gs.st ≠ .running) && (s.gs.device || decide (s.partOf t = some s.gs.part))

/-- R460: is a partition in the stop's scope? -/
def State.partStopped (s : State) (p : PartId) : Bool := decide (s.gs.st ≠ .running) && (s.gs.device || decide (s.gs.part = p))

/-- R441: normal service, as far as it is a partition's. -/
def State.service (s : State) (p : PartId) : Bool := decide (s.chitin.st = 1) && !(s.partAt p).resetting && !s.partStopped p

/-- R441: normal service at a tile. -/
def State.normal (s : State) (t : TileId) : Bool :=
  decide (s.chitin.st = 1) && !(s.stoppedOver t)
    && (match s.partOf t with | none => true | some p => !(s.partAt p).resetting)
    && bit (s.reg (obsBase t + 0xF8)) 0 && !bit (s.reg (obsBase t + 0xF8)) 1

/-- R441: layer and operator that a record of the tile carries. -/
def State.identity (s : State) (t : TileId) : W32 := if s.normal t then s.reg (obsBase t + 0xF4) else 0

/-! ## Trace -/

/-- R449: level the partition traces at; 0 writes no record. -/
def State.traceLevel (s : State) (p : PartId) : Nat :=
  let w := s.reg (partBase p + 0x748)
  if bit w 10 then fld w 9 8 else 0

/-- Table 18-6: the level a record type needs. -/
def traceNeeds (ty : Nat) : Nat := if ty < 0x10 then 1 else 2

/-- R441, R450: a record of a tile. -/
def State.tileRec (s : State) (t : TileId) (p : PartId) (ty unit place info : Nat) : TraceRec :=
  let idm := s.normal t && decide (ty ≠ 7)
  { ty := BitVec.ofNat 8 ty, unit := BitVec.ofNat 4 unit, idm := idm, tile := t, ctx := (s.tileAt t).ctx, ctxV := (s.tileAt t).owned,
    part := p, time := s.stamp t,
    place := if idm then BitVec.ofNat 64 ((s.reg (obsBase t + 0xF4)).toNat + (s.reg (obsBase t + 0xF0)).toNat * 2 ^ 32)
      else BitVec.ofNat 64 place,
    info := BitVec.ofNat 64 info }

/-- R450, R452: a record made at a tile enters its FIFO, or is counted lost. -/
def State.trace (s : State) (t : TileId) (ty unit place info : Nat) : State :=
  match s.partOf t with
  | none => s
  | some p =>
    if s.traceLevel p < traceNeeds ty then s else
    let tl := s.tileAt t
    if tl.fifo.length < 32 then s.setTile t { tl with fifo := tl.fifo ++ [s.tileRec t p ty unit place info] }
    else (s.setTile t { tl with fifoLost := tl.fifoLost + 1 }).incReg (obsBase t + 0xFC) 15 0 1

/-- R450, R452: a record of a unit outside tiles goes to its partition's sink. -/
def State.traceUnitAt (s : State) (p : PartId) (ty unit place info : Nat) (ctx : Option CtxId) (time : W64) : State :=
  if s.traceLevel p < traceNeeds ty then s else
  let q := s.partAt p
  let r : TraceRec :=
    { ty := BitVec.ofNat 8 ty, unit := BitVec.ofNat 4 unit, idm := false, tile := 0, ctx := ctx.getD 0, ctxV := ctx.isSome,
      part := p, time := time, place := BitVec.ofNat 64 place, info := BitVec.ofNat 64 info }
  s.setPart p { q with sink := q.sink ++ [r] }

/-- The same, of now. -/
def State.traceUnit (s : State) (p : PartId) (ty unit place info : Nat) (ctx : Option CtxId) : State :=
  s.traceUnitAt p ty unit place info ctx (s.spineStamp (s.partDie p))

/-! ## Interrupt sources -/

/-- R359, R360, R368: pending bit of a source. -/
def State.srcPending (s : State) (c : CoreId) (src : Nat) : Bool :=
  if src = 0 then false
  else if src ≤ 5 then (s.ctlAt c).fifo.any fun r => decide (r.sev.toNat = src)
  else if src < 256 then bit (s.reg (intBase c + 0x140 + 4 * (src / 32))) (src % 32)
  else if src < 448 then bit (s.reg (intBase c + 0x1A0 + 4 * (src / 32 - 8))) (src % 32)
  else false

/-- R364: sources that have become pending enter the order of their groups; group 0 is never moderated. -/
def State.ordered (s : State) (c : CoreId) (l : List Nat) : State :=
  let k := s.ctlAt c
  let l := l.filter fun j => decide (32 ≤ j)
  if l.isEmpty then s else s.setCtl c { k with order := (k.order.filter fun j => !l.contains j) ++ l }

/-- R357, R358: an event raises a source: its pending bit is set. Sources 1 to 5 follow the error FIFO instead. -/
def State.raise (s : State) (c : CoreId) (src : Nat) : State :=
  let a := if src < 256 then intBase c + 0x140 + 4 * (src / 32) else intBase c + 0x1A0 + 4 * (src / 32 - 8)
  (if s.srcPending c src then s else s.ordered c [src]).setReg a (setBit (s.reg a) (src % 32) true)

/-- Raise a source of a tile at its colony's controller: `base + t` (Table 14-5). -/
def State.raiseTile (s : State) (t : TileId) (base : Nat) : State := s.raise (coreOfCol (colonyOf t)) (base + indexOf t)

/-- R359: enable bit of a source; sources 3, 4 and 5 are always enabled. -/
def State.srcEnabled (s : State) (c : CoreId) (src : Nat) : Bool :=
  if src = 0 then false
  else if src = 3 ∨ src = 4 ∨ src = 5 then true
  else if src < 256 then bit (s.reg (intBase c + 0x100 + 4 * (src / 32))) (src % 32)
  else if src < 448 then bit (s.reg (intBase c + 0x180 + 4 * (src / 32 - 8))) (src % 32)
  else false

/-- R361, Table 14-6: priority of a source. -/
def State.srcPrio (s : State) (c : CoreId) (src : Nat) : Nat :=
  match src with
  | 1 => 4 | 2 => 8 | 3 => 12 | 4 => 14 | 5 => 15
  | _ => let v := fld (s.reg (intBase c + 0x200 + 4 * (src / 8))) (4 * (src % 8) + 3) (4 * (src % 8))
         if 13 < v then 13 else v

/-- R364: the source's group is held by moderation. -/
def State.moderated (s : State) (c : CoreId) (src : Nat) : Bool :=
  let g := src / 32
  let w := s.reg (intBase c + 0x300 + 4 * g)
  decide (g ≠ 0) && decide (2 ≤ fld w 3 0) && decide (1 ≤ fld w 31 16)
    && !(s.coreAt c).wfi && !(s.ctlAt c).modExpired.getLsbD g
    && decide (((List.range 32).filter fun j => s.srcPending c (32 * g + j) && s.srcEnabled c (32 * g + j)).length < fld w 3 0)

/-- R361: a source is eligible. -/
def State.eligible (s : State) (c : CoreId) (src : Nat) : Bool :=
  let pr := s.srcPrio c src
  s.srcPending c src && s.srcEnabled c src && decide (pr ≠ 0) && decide (fld (s.csr c 0x7C1) 3 0 < pr)
    && decide (fld (s.csr c 0x7C2) 3 0 < pr) && !s.moderated c src

/-- R361: the presented source: highest priority, lowest number among equals; 0 where none is eligible. -/
def State.presented (s : State) (c : CoreId) : Nat :=
  (List.range 448).foldl (fun b k => if s.eligible c k && (decide (b = 0) || decide (s.srcPrio c b < s.srcPrio c k)) then k else b) 0

/-! ## Error records -/

/-- Table 17-5. -/
inductive ErrUnit | spad | acc | imem | regs | cis | hbm | can | fur | core | head | weevil | chitin | vul
  deriving DecidableEq, Repr

/-- Table 17-5: the code of a unit. -/
def ErrUnit.code : ErrUnit → Byte
  | .spad => 1 | .acc => 2 | .imem => 3 | .regs => 4 | .cis => 5 | .hbm => 6 | .can => 7 | .fur => 8
  | .core => 9 | .head => 10 | .weevil => 11 | .chitin => 12 | .vul => 13

/-- R432: an error record of a tile unit. -/
def State.tileErr (s : State) (t : TileId) (sev : Nat) (u : ErrUnit) (cause eng addr syn place : Nat) : ErrRec :=
  let tl := s.tileAt t
  let id := s.identity t
  { sev := BitVec.ofNat 3 sev, unit := u.code, cause := BitVec.ofNat 8 cause, rep := 0, ctx := tl.ctx, ctxV := tl.owned,
    part := (s.partOf t).getD 0, partV := (s.partOf t).isSome, tile := t, eng := BitVec.ofNat 2 eng,
    addr := BitVec.ofNat 64 addr, time := s.stamp t, syndrome := BitVec.ofNat 16 syn, place := BitVec.ofNat 8 place,
    layer := id.extractLsb' 0 16, operator := id.extractLsb' 16 16 }

/-- R432: an error record of a unit that is not a tile's. -/
def State.unitErr (s : State) (p : Option PartId) (sev : Nat) (u : ErrUnit) (cause addr syn place : Nat) : ErrRec :=
  { sev := BitVec.ofNat 3 sev, unit := u.code, cause := BitVec.ofNat 8 cause, rep := 0, ctx := 0, ctxV := false,
    part := p.getD 0, partV := p.isSome, tile := 0, eng := 0, addr := BitVec.ofNat 64 addr, time := s.time,
    syndrome := BitVec.ofNat 16 syn, place := BitVec.ofNat 8 place, layer := 0, operator := 0 }

/-- R368: depth of a controller's FIFO. -/
def errDepth (c : CoreId) : Nat := if c.val < 256 then 8 else 32

/-- R433: the arriving record is an occurrence of this one. -/
def ErrRec.same (a b : ErrRec) : Bool :=
  decide (a.sev = b.sev) && decide (a.unit = b.unit) && decide (a.cause = b.cause) && decide (a.tile = b.tile)
    && decide (a.addr = b.addr)

/-- R433: the newest record of the severity, merged with the arriving one; none where it does not match. Newest last. -/
def mergeErr (r : ErrRec) (l : List ErrRec) : Option (List ErrRec) :=
  match l with
  | [] => none
  | x :: l =>
    match mergeErr r l with
    | some l' => some (x :: l')
    | none =>
      if l.any (fun y => decide (y.sev = r.sev)) then none
      else if x.same r then some ({ x with rep := BitVec.ofNat 7 (satAdd 127 x.rep.toNat 1) } :: l)
      else none

/-- R370: the list without the newest record of severity `v`. -/
def dropNewest (v : BitVec 3) (l : List ErrRec) : List ErrRec :=
  match l with
  | [] => []
  | x :: l => if x.sev = v && !(l.any fun y => decide (y.sev = v)) then l else x :: dropNewest v l

/-- R370: lowest severity the FIFO holds. -/
def lowestSev (l : List ErrRec) : Nat := l.foldl (fun m r => min m r.sev.toNat) 7

/-- R368, R370, R433: a record arrives at a controller. -/
def State.arriveErr (s : State) (c : CoreId) (r : ErrRec) : State :=
  let k := s.ctlAt c
  match mergeErr r k.fifo with
  | some l => s.setCtl c { k with fifo := l }
  | none =>
    if k.fifo.length < errDepth c then s.setCtl c { k with fifo := k.fifo ++ [r] }
    else
      let a := intBase c + 0x400
      let s := (s.setReg a (setBit (s.reg a) 8 true)).incReg a 31 16 1
      if lowestSev k.fifo < r.sev.toNat then
        s.setCtl c { k with fifo := dropNewest (BitVec.ofNat 3 (lowestSev k.fifo)) k.fifo ++ [r] }
      else s

/-! ## Notice records -/

/-- R342: records held by the ring. -/
def Ctx.inRing (x : Ctx) : Nat := (x.nwrite - x.nread).toNat

/-- R342: the ring is full. -/
def Ctx.full (x : Ctx) : Bool := decide (x.inRing = 2 ^ x.nlog2.toNat)

/-- R342: the records on their way fill the ring, so the context's queues dispatch nothing further. -/
def Ctx.noticeWait (x : Ctx) : Bool := decide (2 ^ x.nlog2.toNat ≤ x.inRing + x.waiting.length)

/-- R342: places that the ring has left. -/
def Ctx.room (x : Ctx) : Nat := 2 ^ x.nlog2.toNat - x.inRing
/-- R342: FENCE and ERROR records that wait because the ring has no place for them. -/
def Ctx.waitCount (x : Ctx) : Nat := ((x.waiting.drop x.room).filter fun m => decide (m.ty = 3) || decide (m.ty = 4)).length

/-- R325, R342: a record enters the line of records to write, or is dropped and counted. NOTICE_RECORD_WRITE writes it. -/
def State.notice (s : State) (p : PartId) (c : CtxId) (n : Notice) : State :=
  let x := s.ctxAt p c
  if x.st = .free then s
  else if x.room ≤ x.waiting.length ∧ (x.st = .dying ∨ ((n.ty = 3 ∨ n.ty = 4) ∧ 16 ≤ x.waitCount)) then
    s.setCtx p c { x with lostRecs := BitVec.ofNat 16 (satAdd 0xFFFF x.lostRecs.toNat 1) }
  else s.setCtx p c { x with waiting := x.waiting ++ [n] }

/-- R341: a record with every field 0 but type, status, context and time. -/
def State.blankNotice (s : State) (p : PartId) (ty : Byte) (status : Byte) (c : CtxId) (irq : Bool) : Notice :=
  { ty := ty, status := status, queue := 0, ctx := c, tag := 0, layer := 0, operator := 0, seq := 0, time := s.spineStamp (s.partDie p),
    place := 0, addr := 0, parts := 0, irq := irq }

end Sys2Proof.Machine
end

