-- ==== Sys2Proof/Machine/VulSend.lean ====
section
/-!
DEFINITION. Vulor messages on their way (R284 to R291): their slots, the torus that they are routed over, flits, and sending
with credits and the replay buffer.
-/
namespace Sys2Proof.Machine

/-! ## Slots (Table 11-7) -/

/-- Codes of Table 11-8. -/
def msgCode : MsgType → Nat
  | .write => 1 | .read => 2 | .signal => 3 | .ack => 8 | .readData => 9 | .nack => 10 | .time => 16 | .stop => 17
/-- The type of a code. -/
def msgOf (c : Nat) : Option MsgType :=
  match c with
  | 1 => some .write | 2 => some .read | 3 => some .signal | 8 => some .ack | 9 => some .readData | 10 => some .nack
  | 16 => some .time | 17 => some .stop | _ => none
/-- Has the message data slots? -/
def hasData (t : MsgType) : Bool := decide (t = .write) || decide (t = .readData)
/-- Slots of a message. -/
def msgSlots (t : MsgType) (lenM1 : Nat) : Nat := if hasData t then 1 + (lenM1 + 1 + 31) / 32 else 1
/-- Class of a message: 0 CTRL, 1 REQ, 3 RSP; channel 1 of a class is one more. -/
def msgClass : MsgType → Nat
  | .write => 1 | .read => 1 | .signal => 1 | .ack => 3 | .readData => 3 | .nack => 3 | .time => 0 | .stop => 0

/-- The header slot. -/
def hdrSlot (m : Msg) : BitVec 256 :=
  BitVec.ofNat 256 (msgCode m.ty + m.status.toNat * 2 ^ 8 + m.dst.toNat * 2 ^ 16 + m.src.toNat * 2 ^ 34 + m.mcount.toNat * 2 ^ 52
    + m.mdir.toNat * 2 ^ 58 + m.group.toNat * 2 ^ 64 + m.tag.toNat * 2 ^ 80 + m.lenM1.toNat * 2 ^ 96 + m.raddr.toNat * 2 ^ 128
    + m.value.toNat * 2 ^ 192)
/-- A header slot read; none for a null slot or a type of no message. -/
def readHdr (b : BitVec 256) : Option Msg :=
  let w := b.toNat
  (msgOf (bits w 7 0)).map fun t =>
    { ty := t, status := BitVec.ofNat 8 (bits w 15 8), dst := BitVec.ofNat 18 (bits w 33 16), src := BitVec.ofNat 18 (bits w 51 34),
      mcount := BitVec.ofNat 6 (bits w 57 52), mdir := BitVec.ofNat 3 (bits w 60 58), group := BitVec.ofNat 16 (bits w 79 64),
      tag := BitVec.ofNat 16 (bits w 95 80), lenM1 := BitVec.ofNat 12 (bits w 107 96), raddr := BitVec.ofNat 64 (bits w 191 128),
      value := BitVec.ofNat 64 (bits w 255 192), data := [] }
/-- Data slots of 32 bytes. -/
def dataSlots : Nat → List Byte → List (BitVec 256)
  | 0, _ => []
  | n + 1, bs => BitVec.ofNat 256 (leNat (bs.take 32)) :: dataSlots n (bs.drop 32)
/-- A message's slots. -/
def msgToSlots (m : Msg) : List (BitVec 256) := hdrSlot m :: dataSlots (msgSlots m.ty m.lenM1.toNat - 1) m.data
/-- A whole message from its slots. -/
def slotsToMsg : List (BitVec 256) → Option Msg
  | [] => none
  | h :: l => (readHdr h).map fun m => { m with data := (l.flatMap fun b => natLe 32 b.toNat).take (m.lenM1.toNat + 1) }

/-! ## The torus (R289, R290) -/

/-- VUL_DEVID. -/
def State.devId (s : State) : BitVec 18 := (s.reg (portBase 0 + 0x100)).extractLsb' 0 18
/-- Coordinate of a device ID on an axis. -/
def devCoord (d : BitVec 18) (axis : Nat) : Nat := bits d.toNat (6 * axis + 5) (6 * axis)
/-- Size of an axis. -/
def State.axisSize (s : State) (axis : Nat) : Nat := bits (s.reg (portBase 0 + 0x104)).toNat (6 * axis + 5) (6 * axis) + 1
/-- A device ID with a coordinate replaced. -/
def setCoord (d : BitVec 18) (axis c : Nat) : BitVec 18 :=
  BitVec.ofNat 18 (d.toNat - devCoord d axis * 2 ^ (6 * axis) + (c % 64) * 2 ^ (6 * axis))
/-- Port of an axis and direction: 0 plus, 1 minus. -/
def axisPort (axis dir : Nat) : PortId := ⟨(2 * axis + dir) % 6, Nat.mod_lt _ (by decide)⟩
/-- Device `k` steps from `d` along a direction of R221. -/
def State.stepDev (s : State) (d : BitVec 18) (dir k : Nat) : BitVec 18 :=
  let a := dir / 2; let n := s.axisSize a; let c := devCoord d a
  setCoord d a ((if dir % 2 = 0 then c + k else c + n - k % n) % n)

/-- The six ports. -/
def allPorts : List PortId := [0, 1, 2, 3, 4, 5]

/-- Where a message goes next. -/
inductive Hop
  | here
  | port (p : PortId) (ch1 : Bool)
  | noRoute
  deriving DecidableEq, Repr

/-- R290: the next hop to device `d`; `came`: the axis and channel it arrived on. -/
def State.hop (s : State) (d : BitVec 18) (came : Option (Nat × Bool)) : Nat → Hop
  | 0 => .here
  | k + 1 =>
    let a := 2 - k
    let n := s.axisSize a; let o := devCoord s.devId a
    let f := (devCoord d a % n + n - o % n) % n
    if f = 0 then s.hop d came k
    else
      let dir := if f ≤ n - f then 0 else 1
      let g := if dir = 0 then f else n - f
      let p := axisPort a dir
      let q := s.portAt p
      if q.st ≠ .active then .noRoute
      else if g < q.span.toNat then .noRoute
      else
        let c := devCoord q.peer a
        let wraps := if dir = 0 then decide (c < o) else decide (o < c)
        .port p (wraps || decide (came = some (a, true)))
/-- R290: the next hop, axes in the order x, y, z. (log 68, DEDUCED) -/
def State.route (s : State) (d : BitVec 18) (came : Option (Nat × Bool)) : Hop := s.hop d came 3

/-! ## Flits (R284, R288) -/

/-- Table 11-6: codes of the flit types. -/
def flitCode : FlitType → Nat
  | .data => 0 | .idle => 1 | .leave => 2 | .key => 3
/-- Fields of a flit header (Table 11-6). -/
def flitSeq (f : Flit) : W64 := f.hdr.extractLsb' 0 64
def flitAck (f : Flit) : BitVec 24 := f.hdr.extractLsb' 64 24
def flitAckV (f : Flit) : Bool := f.hdr.getLsbD 88
def flitNak (f : Flit) : Bool := f.hdr.getLsbD 89
def flitCvc (f : Flit) : Nat := (f.hdr.extractLsb' 90 3).toNat
def flitCredits (f : Flit) : Nat := (f.hdr.extractLsb' 93 13).toNat
def flitEpoch (f : Flit) : Bool := f.hdr.getLsbD 106
/-- Its type; none for a reserved value. -/
def flitType (f : Flit) : Option FlitType :=
  match (f.hdr.extractLsb' 112 4).toNat with
  | 0 => some .data | 1 => some .idle | 2 => some .leave | 3 => some .key | _ => none
/-- A flit header of the fields given. -/
def flitHdr (seq : W64) (ack : BitVec 24) (ackV nak : Bool) (cvc credits : Nat) (epoch : Bool) (ty : FlitType) : BitVec 128 :=
  BitVec.ofNat 128 (seq.toNat + ack.toNat * 2 ^ 64 + nat01 ackV * 2 ^ 88 + nat01 nak * 2 ^ 89 + cvc % 8 * 2 ^ 90 + credits % 8192 * 2 ^ 93
    + nat01 epoch * 2 ^ 106 + flitCode ty * 2 ^ 112)

/-- Every second byte of a list, from the first. -/
def everySecond : List Byte → List Byte
  | [] => []
  | [b] => [b]
  | b :: _ :: l => b :: everySecond l
/-- The first `n` bytes of a list, with zeros where it ends before. -/
def fit (n : Nat) (l : List Byte) : List Byte := (List.range n).map fun i => l.getD i 0
/-- R288: the message area encrypted, and the tag after it. -/
def sealArea (key : BitVec 256) (iv : BitVec 96) (h area : List Byte) : List Byte :=
  fit 224 (Config.gcm key iv h area).1 ++ natLe 16 (Config.gcm key iv h area).2.toNat
/-- R284: the check bytes of a codeword. -/
def rsBytes (l : List Byte) : List Byte := natLe 8 (Config.rsCheck l).toNat
/-- R284: the check bytes of a flit's two codewords: its body's even bytes and its odd bytes. -/
def checkBytes (body : List Byte) : List Byte := rsBytes (everySecond body) ++ rsBytes (everySecond (body.drop 1))
/-- Table 11-5: the 272 bytes of a flit: header, message area, tag and the check bytes of both codewords. All but KEY are encrypted (R288). -/
def flitBytes (f : Flit) (key : BitVec 256) (salt : W32) : List Byte :=
  let h := natLe 16 f.hdr.toNat
  let area := f.slots.flatMap fun b => natLe 32 b.toNat
  let body := if flitType f = some .key then h ++ area ++ natLe 16 0 else h ++ sealArea key (flitSeq f ++ salt) h area
  body ++ checkBytes body
/-- R284: lanes of a width: byte i travels on lane i mod width. -/
def lanesOf (w : Nat) (l : List Byte) : List (List Byte) :=
  (List.range w).map fun k => (l.zipIdx.filter fun x => decide (x.2 % w = k)).map (·.1)
/-- Lanes that a width code uses. -/
def laneCount (w : BitVec 2) : Nat := if w = 3 then 8 else 4

/-! ## Sending (R285 to R288) -/

/-- A flit of this port's transmit stream. -/
def Port.flit (q : Port) (ty : FlitType) (slots : List (BitVec 256)) : Flit :=
  let v := (q.freed.findIdx? fun n => decide (n ≠ 0)).getD 0
  { hdr := flitHdr q.txSeq (BitVec.ofNat 24 (q.rxNext.toNat + 2 ^ 24 - 1)) (decide (q.rxNext ≠ 0)) q.nakDue v (min 8191 (q.freed.getD v 0)) q.epoch ty,
    slots := slots ++ List.replicate (7 - slots.length) 0 }
/-- R286, R288: the port may start a new flit: there is room in its replay buffer, and the key of the flit's epoch has been derived. -/
def Port.maySend (q : Port) : Bool := decide (q.replay.length < 2048) && decide (q.txSeq.toNat / 2 ^ 32 ≤ q.epochNo)
/-- The port once the flit has left: it stands in the replay buffer, and the credits and the nak it carries are sent. -/
def Port.push (q : Port) (ty : FlitType) (slots : List (BitVec 256)) : Port :=
  let v := (q.freed.findIdx? fun n => decide (n ≠ 0)).getD 0
  { q with replay := q.replay ++ [(q.txSeq, flitBytes (q.flit ty slots) q.txKey q.txSalt)], txSeq := q.txSeq + 1, nakDue := false,
           freed := q.freed.set v (q.freed.getD v 0 - min 8191 (q.freed.getD v 0)) }
/-- Bytes go out on a port's lanes. -/
def State.transmit (s : State) (p : PortId) (l : List Byte) : State := s.send (.flit p (lanesOf (laneCount (s.portAt p).width) l))
/-- A port sends a flit. -/
def State.sendFlit (s : State) (p : PortId) (ty : FlitType) (slots : List (BitVec 256)) : State :=
  let q := s.portAt p
  (s.setPort p (q.push ty slots)).transmit p (flitBytes (q.flit ty slots) q.txKey q.txSalt)
/-- R284: an IDLE flit, of an ACTIVE port that may start one. -/
def State.sendIdle (s : State) (p : PortId) : State :=
  if (s.portAt p).st = .active ∧ (s.portAt p).maySend then s.sendFlit p .idle [] else s
/-- Seven slots to a flit. -/
def State.sendSlots (s : State) (p : PortId) : Nat → List (BitVec 256) → State
  | 0, _ => s
  | n + 1, l => if l.isEmpty then s else (s.sendFlit p .data (l.take 7)).sendSlots p n (l.drop 7)
/-- R281, R285, R287: the message that leaves next: of those to be resent, or else of all, and of those that are first of their channel with credits for all their slots, a CONTROL message, else the
first that came. (log 80, DEDUCED) -/
def Port.nextMsg (q : Port) : Option (Nat × BitVec 3 × Msg) :=
  let w := if q.resend = 0 then q.txWait else q.txWait.take q.resend
  let l := w.zipIdx.filter fun x => ((q.txWait.take x.2).all fun y => decide (y.1 ≠ x.1.1)) &&
    decide (msgSlots x.1.2.ty x.1.2.lenM1.toNat ≤ q.credits.getD x.1.1.toNat 0)
  ((l.find? fun x => decide (x.1.1 = 0)).orElse fun _ => l.head?).map fun x => (x.2, x.1)
/-- R286, R287, R294: waiting messages leave while credits and the replay buffer allow; a TIME message takes the stamp of the cycle it leaves in. -/
def State.pump (s : State) (p : PortId) : Nat → State
  | 0 => s
  | k + 1 =>
    let q := s.portAt p
    match q.nextMsg with
    | none => s
    | some (i, vc, m) =>
      let m := if m.ty = .time then { m with value := s.spineStamp (dieOfPort p) } else m
      let sl := msgToSlots m
      let n := (sl.length + 6) / 7
      if q.st ≠ .active ∨ q.leaving ∨ 2048 < q.replay.length + n ∨ q.epochNo < (q.txSeq.toNat + n - 1) / 2 ^ 32 then s
      else
        let q := { q with txWait := q.txWait.eraseIdx i, resend := q.resend - 1, credits := q.credits.set vc.toNat (q.credits.getD vc.toNat 0 - sl.length) }
        let s := (s.setPort p q).sendSlots p n sl
        (s.setPort p { s.portAt p with sent := (s.portAt p).sent ++ [((s.portAt p).txSeq - 1, vc, m)] }).pump p k
/-- A message waits to be sent on a port and channel. -/
def State.emit (s : State) (p : PortId) (vc : Nat) (m : Msg) : State :=
  let q := s.portAt p
  (s.setPort p { q with txWait := q.txWait ++ [(BitVec.ofNat 3 vc, m)] }).pump p (q.txWait.length + 1)

/-! ## Where a request leads (R291, R292) -/

/-- The partitions that are loaded. -/
def State.loadedParts (s : State) : List PartId := (s.part.filter fun e => e.2.loaded).map fun e => BitVec.ofNat 6 e.1

/-- R35, R45: the partition is in TIMELINE mode, as the image has it, placed or not. -/
def State.timelineMode (s : State) (p : PartId) : Bool := (s.partAt p).cfg.any fun g => g.fence

/-- R292: the partition of a group. -/
def State.groupPart (s : State) (g : BitVec 16) : Option PartId :=
  if g = 0 then none else s.loadedParts.find? fun p => (s.pcfg p).any fun c => decide (c.group = g)

/-- Where a remote address leads. -/
inductive Place
  | hbm (p : PartId) (a : Nat)
  | tile (t : TileId) (b : Nat)
  deriving DecidableEq, Repr

/-- R292 step 2: the place of `n` bytes at a remote address in a partition. -/
def State.remotePlace (s : State) (p : PartId) (a : W64) (n : Nat) : Option Place :=
  let w := a.toNat
  match bits w 63 60 with
  | 0 => if bits w 59 40 ≠ 0 then none else (s.hbmOf p (bits w 39 0) n).map fun d => .hbm p d
  | 1 =>
    let x := 4 * (s.partAt p).cx.toNat + bits w 23 18; let y := 4 * (s.partAt p).cy.toNat + bits w 29 24
    if bits w 59 30 ≠ 0 ∨ 64 ≤ x ∨ 64 ≤ y ∨ 262144 < bits w 17 0 + n then none
    else if s.partOf (tileXY x y) = some p then some (.tile (tileXY x y) (bits w 17 0)) else none
  | _ => none

/-- R291, R292: the place a request names, or the NACK status it is answered with. A partition in EVENT mode exchanges no fence (R35): a SIGNAL for
it is answered ADDR. (log 124, DEDUCED) -/
def State.reqPlace (s : State) (m : Msg) : Except Nat (PartId × Place) :=
  match s.groupPart m.group with
  | none => .error 2
  | some p =>
    let n := if m.ty = .signal then 8 else m.lenM1.toNat + 1
    match s.remotePlace p m.raddr n with
    | none => .error 3
    | some (.tile t b) => if m.ty = .signal then .error 3 else .ok (p, .tile t b)
    | some (.hbm q a) => if m.ty = .signal ∧ (m.raddr.toNat % 8 ≠ 0 ∨ (s.pcfg p).all fun c => !c.fence) then .error 3 else .ok (p, .hbm q a)

/-- A new tag. -/
def State.newTag (s : State) : State × BitVec 16 := ({ s with nextTag := s.nextTag + 1 }, s.nextTag)

/-- R337: the SIGNAL of a remote timeline. -/
def State.signalMsg (s : State) (g : BitVec 16) (o : Obj) (tag : BitVec 16) (v : W64) : Msg :=
  { ty := .signal, status := 0, dst := o.dev, src := s.devId, mcount := 0, mdir := 0, group := g, tag := tag, lenM1 := 0, raddr := o.addr,
    value := v, data := [] }
/-- R33: a partition's Vulor group. -/
def State.vulGroup (s : State) (p : PartId) : BitVec 16 := match s.pcfg p with | none => 0 | some c => c.group

end Sys2Proof.Machine
end

