-- ==== Sys2Proof/Machine/Loss.lean ====
section
/-!
DEFINITION. Handles, fences and their waiters (R317 to R321, R335 to R340), completion of commands (R334, R339), engines
stopped under R114 and the reload that follows, the loss of a context (R324, R480), and the automatic effects of errors (R366, R367, R424).
-/
namespace Sys2Proof.Machine

/-! ## Handles -/

/-- R317: index of a handle. -/
def hIdx (h : W32) : Nat := fld h 23 0
/-- R317: generation of a handle. -/
def hGen (h : W32) : Byte := h.extractLsb' 24 8
/-- R317: a handle of an index and a generation. -/
def mkHandle (i : Nat) (g : Byte) : W32 := BitVec.ofNat 32 (g.toNat * 2 ^ 24 + i)
/-- R317: generations run from 1 to 255 and wrap to 1. -/
def nextGen (g : Byte) : Byte := if g = 255 then 1 else g + 1

/-- R318: capacity of the object table. -/
def State.objCap (s : State) (p : PartId) : Nat := s.regF (partBase p + 0x8A8) 23 0
/-- R33: event objects of a partition. -/
def State.evtCap (s : State) (p : PartId) : Nat := match s.pcfg p with | none => 0 | some g => g.events.toNat

/-- Why a handle does not resolve. -/
inductive HErr | bad | stale
  deriving DecidableEq, Repr

/-- R321: resolve a memory-object handle for a command of sequence `seq` (none: no sequence) in a context. -/
def State.objResolve (s : State) (p : PartId) (c : CtxId) (h : W32) (kinds : List (BitVec 2)) (seq : Option W64) :
    Except HErr Obj :=
  let i := hIdx h
  if s.objCap p ≤ i then .error .bad else
  let o := s.objAt p i
  if o.gen ≠ hGen h then .error .stale
  else if o.st = .free then .error .bad
  else if o.st = .freeing ∧ (seq.all fun q => decide (o.freeSeq < q)) then .error .stale
  else if o.kind ∉ kinds ∨ ¬(o.shared ∨ o.owner = some c) then .error .bad
  else .ok o

/-- R321, R335: resolve an event handle; every context of the partition may wait on it. -/
def State.evtResolve (s : State) (p : PartId) (h : W32) : Except HErr Evt :=
  let i := hIdx h
  if s.evtCap p ≤ i then .error .bad else
  let e := s.evtAt p i
  if e.gen ≠ hGen h then .error .stale
  else if e.live then .ok e else .error .bad

/-! ## Timelines and events -/

/-- R336: a timeline's doubleword. -/
def State.tlRead (s : State) (p : PartId) (a : W64) : W64 :=
  match s.hbmOf p a.toNat 8 with
  | none => 0
  | some d => BitVec.ofNat 64 (leNat (s.hbmBytes d 8))

/-- R336: the atomic update: the value rises to the maximum, the error bit is or-ed. -/
def tlMax (o v : W64) : W64 :=
  let lo := max (o.toNat % 2 ^ 63) (v.toNat % 2 ^ 63)
  BitVec.ofNat 64 (lo + (if o.msb || v.msb then 2 ^ 63 else 0))

/-- R336: a wait on value `w` against a timeline's word: none while unsatisfied, else whether it carries the error. -/
def tlTest (o w : W64) : Option Bool :=
  if o.msb then some true else if w.toNat ≤ o.toNat % 2 ^ 63 then some false else none

/-- R405: the stack of a timeline's word whose gate is closed. -/
def State.tlShut (s : State) (p : PartId) (a : W64) : Option Nat :=
  match s.hbmOf p a.toNat 8 with
  | none => none
  | some d => if s.serves (domHbm (stackOf d)) then none else some (domHbm (stackOf d))

/-- R335, R336: has the fence a waiter watches satisfied its wait? A look at a word behind a closed gate is held (R405). -/
def State.waitTest (s : State) (p : PartId) (tl : Bool) (h : W32) (v : W64) : Option Bool :=
  if tl then
    let o := s.objAt p (hIdx h)
    if o.gen = hGen h ∧ o.st ≠ .free ∧ o.kind = 3 ∧ (s.tlShut p o.addr).isNone then tlTest (s.tlRead p o.addr) v else none
  else
    let e := s.evtAt p (hIdx h)
    if e.gen = hGen h ∧ e.live ∧ e.signalled then some e.error else none

/-- R405: a wait on a timeline asks for the wake of the stack where its word stands. -/
def State.waitWake (s : State) (p : PartId) (tl : Bool) (h : W32) : State :=
  match if tl then s.tlShut p (s.objAt p (hIdx h)).addr else none with
  | some d => s.askWake d
  | none => s

/-- R338: does waiter `w` watch the fence: an event by its index, a timeline by its word's address? -/
def State.watches (s : State) (p : PartId) (w : Waiter) (tl : Bool) (key : Nat) : Bool :=
  w.armed && decide (w.tl = tl) &&
    (if tl then decide ((s.objAt p (hIdx w.handle)).addr.toNat = key) else decide (hIdx w.handle = key))

/-- R338: those of a partition's slots `sel` whose wait is satisfied become due. -/
def State.retest (s : State) (p : PartId) (sel : Waiter → Bool) : State :=
  each s (s.waiter.filter fun e => decide (e.1 / 16384 = p.toNat) && sel e.2) fun s e =>
    match s.waitTest p e.2.tl e.2.handle e.2.val with
    | some b => s.setWaiter p (e.1 % 16384) { e.2 with due := true, err := e.2.err || b }
    | none => s

/-- R338: after a device-side update of a fence, the watching slots whose wait is satisfied become due. -/
def State.wake (s : State) (p : PartId) (tl : Bool) (key : Nat) : State := s.retest p fun w => s.watches p w tl key

/-- R336: a device-side update of a timeline word of the partition; behind a closed gate it is held and asks for the wake (R405). -/
def State.tlApply (s : State) (p : PartId) (a v : W64) : State :=
  match s.hbmOf p a.toNat 8 with
  | none => s
  | some d =>
    if !s.serves (domHbm (stackOf d)) then
      ({ s with heldWrites := s.heldWrites ++ [.tlWord p a v] } : State).askWake (domHbm (stackOf d))
    else (s.setHbmBytes d (natLe 8 (tlMax (s.tlRead p a) v).toNat)).wake p true a.toNat

/-- R335: signal an event, with or without its error flag. -/
def State.evtSet (s : State) (p : PartId) (i : Nat) (err : Bool) : State :=
  let e := s.evtAt p i
  (s.setEvt p i { e with signalled := true, error := e.error || err }).wake p false i

/-- R339, R340: apply a signal by handle; a handle that no longer resolves is lost. -/
def State.signal (s : State) (p : PartId) (tl : Bool) (h : W32) (v : W64) (err : Bool) : State :=
  if tl then
    let o := s.objAt p (hIdx h)
    if o.gen = hGen h ∧ o.st ≠ .free ∧ o.kind = 3 ∧ o.remote = false then
      s.tlApply p o.addr (if err then v ||| 0x8000000000000000 else v)
    else s
  else
    let e := s.evtAt p (hIdx h)
    if e.gen = hGen h ∧ e.live then s.evtSet p (hIdx h) err else s

/-- R340, R337: force-signal a remote timeline: a SIGNAL of error bit alone goes to its device; a partition in EVENT
mode exchanges no fence (R35). The context is no longer ACTIVE, so no answer
can lose it, and one that finds no route has no effect. (log 65, DEDUCED) -/
def State.forceRemote (s : State) (p : PartId) (c : CtxId) (o : Obj) : State :=
  if s.vulGroup p = 0 ∨ !s.timelineMode p then s else
  let (s, tag) := s.newTag
  let m := s.signalMsg (s.vulGroup p) o tag 0x8000000000000000
  match s.route m.dst none with
  | .here => match s.reqPlace m with
    | .ok (q, _) => s.tlApply q (m.raddr &&& 0xFFFFFFFFFF) m.value
    | .error _ => s
  | .port i ch =>
    let r : VulReq := { tag := tag, ty := .signal, tile := 0, charge := false, q := 0, part := p, ctx := c, parts := 1 }
    ({ s with vulReqs := s.vulReqs ++ [r] } : State).emit i (1 + nat01 ch) m
  | .noRoute => s

/-- R340: force-signal every event and timeline that a context owns. -/
def State.forceSignal (s : State) (p : PartId) (c : CtxId) : State :=
  let s := each s (s.evt.filter fun e => decide (e.1 / 16777216 = p.toNat) && e.2.live && decide (e.2.owner = some c)) fun s e =>
    s.evtSet p (e.1 % 16777216) true
  each s (s.obj.filter fun e => decide (e.1 / 16777216 = p.toNat) && decide (e.2.st ≠ .free) && decide (e.2.kind = 3)
      && decide (e.2.owner = some c)) fun s e =>
    if e.2.remote then s.forceRemote p c e.2 else s.tlApply p e.2.addr 0x8000000000000000

/-! ## Waiter slots -/

/-- R338: a slot disarms. -/
def State.disarm (s : State) (p : PartId) (i : Nat) : State :=
  s.setWaiter p i { s.waiterAt p i with armed := false, due := false, err := false }

/-- R325: a slot is released: disarmed, its generation advanced. (log 90, DEDUCED) -/
def State.freeSlot (s : State) (p : PartId) (i : Nat) : State := s.setWaiter p i { gen := nextGen (s.waiterAt p i).gen }

/-! ## Completion of commands -/

/-- Has the command completed (its signal may be outstanding, R339)? -/
def Cmd.isDone (c : Cmd) : Bool := match c.st with | .done _ => true | _ => false
/-- R327: dispatched and not completed. -/
def Cmd.isRunning (c : Cmd) : Bool := match c.st with | .staging => true | .running => true | _ => false
/-- Fetched and not dispatched. -/
def Cmd.isFetched (c : Cmd) : Bool := decide (c.st = .fetched)

/-- Enter an item in a list ordered by sequence, after its equals. -/
def bySeq {α : Type} (key : α → Nat) (x : α) : List α → List α
  | [] => [x]
  | y :: l => if key x < key y then x :: y :: l else y :: bySeq key x l

/-- The queues of a partition. -/
def State.queuesOf (s : State) (p : PartId) : List (QueueId × Queue) :=
  (s.queue.filter fun e => decide (e.1 / 1024 = p.toNat)).map fun e => (BitVec.ofNat 10 e.1, e.2)

/-- Waiter slots of a partition. -/
def State.slotCap (s : State) (p : PartId) : Nat := match s.pcfg p with | none => 0 | some g => g.waiters.toNat

/-- The command of a queue that dispatches next. -/
def Queue.next (q : Queue) : Option Cmd := q.cmds.find? (·.isFetched)

/-- A queue with its next command replaced. -/
def Queue.setNext (q : Queue) (m : Cmd) : Queue :=
  let rec go : List Cmd → List Cmd
    | [] => []
    | x :: l => if x.isFetched then m :: l else x :: go l
  { q with cmds := go q.cmds }

/-- R338: the next command of a queue looks at its fence, and takes the lowest free slot while it must wait. -/
def State.takeWait (s : State) (p : PartId) (q : QueueId) : State :=
  let Q := s.queueAt p q
  match Q.next with
  | none => if Q.wsWait then s.setQueue p q { Q with wsWait := false } else s
  | some m =>
    if m.wait = 0 ∨ m.waitOk ∨ m.slot.isSome ∨ (s.ctxAt p Q.ctx).st ≠ .active then
      (if Q.wsWait then s.setQueue p q { Q with wsWait := false } else s)
    else match s.waitTest p m.waitTl m.wait m.waitVal with
      | some b => s.setQueue p q { Q.setNext { m with waitOk := true, waitErr := b } with wsWait := false }
      | none =>
        let s := s.waitWake p m.waitTl m.wait
        match firstBelow (s.slotCap p) fun i => !(s.waiterAt p i).armed with
        | none => s.setQueue p q { Q with wsWait := true }
        | some i =>
          let w := s.waiterAt p i
          let s := s.setWaiter p i { w with armed := true, handle := m.wait, tl := m.waitTl, val := m.waitVal, owner := Q.ctx, tgt := .command q }
          s.setQueue p q { Q.setNext { m with slot := some (BitVec.ofNat 14 i) } with wsWait := false }

/-- The same for every queue of a partition. -/
def State.takeWaits (s : State) (p : PartId) : State := each s (s.queuesOf p) fun s e => s.takeWait p e.1

/-- R341, R441: the COMPLETION or LOSS record of a command. -/
def State.cmdNotice (s : State) (p : PartId) (ty : Byte) (q : QueueId) (c : CtxId) (m : Cmd) (status : Byte) : Notice :=
  { s.blankNotice p ty status c (m.irq && decide (ty = 1)) with
    queue := q, tag := m.tag, seq := m.seq
    layer := if s.service p then m.layer else 0
    operator := if s.service p then m.operator else 0 }

/-- A command after it may have completed: it stays listed while its signal is to be applied. -/
def Cmd.after (m : Cmd) : Option Byte → Option Cmd
  | none => some m
  | some st => if m.signal = 0 then none else some { m with st := .done st, slot := none }

/-- Complete, in sequence order, every command of the partition to which `sel` gives a status: its slots free, its
notice record enters the line, and its signal stays to be applied by COMMAND_SIGNAL_APPLY (R334, R339). -/
def State.complete (s : State) (p : PartId) (sel : QueueId → Queue → Cmd → Option Byte) : State :=
  let chosen := fun (q : QueueId) (Q : Queue) (m : Cmd) => if m.isDone then none else sel q Q m
  let hits := ((s.queuesOf p).flatMap fun e => e.2.cmds.filterMap fun m => (chosen e.1 e.2 m).map fun st => (e.1, e.2.ctx, m, st)).foldl
    (fun l x => bySeq (fun y => y.2.2.1.seq.toNat) x l) []
  let s := each s (s.queuesOf p) fun s e =>
    s.setQueue p e.1 { e.2 with cmds := e.2.cmds.filterMap fun m => m.after (chosen e.1 e.2 m) }
  each s hits fun s x =>
    let m := x.2.2.1
    let s := match m.slot with | none => s | some i => s.disarm p i.toNat
    let s := if m.isRunning ∧ m.launch.isSome then
        s.setPart p { s.partAt p with stages := (s.partAt p).stages.filter (· ≠ m.stage) } else s
    if m.notice then s.notice p x.2.1 (s.cmdNotice p 1 x.1 x.2.1 m x.2.2.2) else s

/-- R333: the colonies of a LAUNCH's rectangle. -/
def State.launchCols (s : State) (p : PartId) (b : LaunchBody) : List ColId :=
  let q := s.partAt p
  (List.range (b.rhM1.toNat + 1)).flatMap fun y => (List.range (b.rwM1.toNat + 1)).map fun x =>
    colAt (q.cx.toNat + b.rx.toNat + x) (q.cy.toNat + b.ry.toNat + y)

/-- R324: which command a fault charges. -/
inductive Culprit
  | none
  | tile (t : TileId)
  | cmd (q : QueueId) (m : Cmd)
  deriving DecidableEq, Repr

/-- Is the command the one the fault charges? -/
def State.charged (s : State) (p : PartId) (w : Culprit) (q : QueueId) (m : Cmd) : Bool :=
  match w with
  | .none => false
  | .cmd q' m' => decide (q = q') && decide (m = m')
  | .tile t => m.launch.any fun b => (s.launchCols p b).contains (colonyOf t)

/-! ## Engines stopped -/

/-- R123, R114: s1 to s15 of an engine become 0. -/
def State.clearScalars (s : State) (t : TileId) (e : EngId) : State :=
  let k := (t.toNat * 4 + e.toNat) * 16
  { s with sreg := dropIf (fun j => decide (k < j) && decide (j < k + 16)) s.sreg }

/-- R88, R102: the WEI engine leaves its word: a list-mode WEIR.GATHER whose entries still resolve is not issued any more. -/
def State.dropWalk (s : State) (t : TileId) (e : EngId) : State :=
  if e = 3 then s.setTile t { s.tileAt t with walk := none, weirFrom := 0 } else s

/-- R114: an engine goes to IDLE: loop unit and pending start clear, scalar registers 0. -/
def State.stopEngine (s : State) (t : TileId) (e : EngId) : State :=
  let g := s.engAt t e
  ((s.dropWalk t e).setEng t e
    { g with st := .idle, pending := none, loops := [], ending := false, fence := none, waitUnit := false,
             waits := [], stepping := false, skipBreak := false, gstop := false }).clearScalars t e

/-- The four engines. -/
def engines : List EngId := [0, 1, 2, 3]

/-- R443: the eight counters of a tile are copied to a latch. -/
def State.latchCounters (s : State) (t : TileId) (off : Nat) : State :=
  each s (List.range 8) fun s n =>
    let a := obsBase t + 8 * n
    (s.setReg (a + off) (s.reg a)).setReg (a + off + 4) (s.reg (a + 4))

/-- R443: an end event. -/
def State.windowEnd (s : State) (t : TileId) : State :=
  let s := s.latchCounters t 0x80
  s.setTile t { s.tileAt t with inwin := false }

/-- R334: a tile has nothing of a program left: its engines are IDLE with no start held, and no descriptor is ARMED or RUNNING. -/
def State.tileDone (s : State) (t : TileId) : Bool :=
  (engines.all fun e => decide ((s.engAt t e).st = .idle) && (s.engAt t e).held.isEmpty)
    && ((List.range 8).all fun d => let v := s.movd_ t d; !v.armed && !v.running)
    && !s.heldWrites.any fun h => match h with | .start u _ _ => decide (u = t) | _ => false

/-- R443: the window that a LAUNCH opened closes at the tile once the tile meets R334. -/
def State.closeWindow (s : State) (t : TileId) : State :=
  if !(s.tileAt t).launched ∨ !s.tileDone t then s else
  (s.setTile t { s.tileAt t with launched := false }).windowEnd t

/-- R113, R142: a tile has nothing outstanding: no unit holds an issued operation and no local post is pending. -/
def State.quiesced (s : State) (t : TileId) : Bool :=
  let tl := s.tileAt t
  tl.mxq.isEmpty && tl.drq.isEmpty && tl.wei.isEmpty
    && (List.range 4).all (fun q => (s.movq_ t q).inflight.isEmpty)
    && engines.all fun e => (s.engAt t e).pend.isEmpty

/-- R379: does a rectangle of a partition hold the tile? -/
def State.inRect (s : State) (p : PartId) (r : TileRect) (t : TileId) : Bool :=
  let q := s.partAt p
  let x := tileX t; let y := tileY t; let ox := 4 * q.cx.toNat + r.x0.toNat; let oy := 4 * q.cy.toNat + r.y0.toNat
  decide (ox ≤ x) && decide (x ≤ ox + r.wM1.toNat) && decide (oy ≤ y) && decide (y ≤ oy + r.hM1.toNat)

/-- The last value that pairs give an offset. -/
def lastOf (l : List (W32 × W32)) (o : Nat) (d : W32) : W32 :=
  l.foldl (fun v x => if x.1.toNat = o then x.2 else v) d

/-- R16: the image's value of a tile register; 0 where no section writes it. -/
def State.imgTile (s : State) (t : TileId) (o : Nat) : W32 :=
  match s.chitin.image, s.partOf t with
  | some m, some p => m.sections.foldl (fun v x => match x with
      | .regsTile q r l => if q = p ∧ s.inRect p r t then lastOf l o v else v
      | _ => v) 0
  | _, _ => 0

/-- R114, R148: semaphores and address generators take the image's values. -/
def State.reloadTile (s : State) (t : TileId) : State :=
  let s := each s (List.range 16) fun s n => (s.setTr t (0x100 + 4 * n) (s.imgTile t (0x100 + 4 * n))).setPosterW t n 0
  each s (List.range 112) fun s g => each s (List.range 5) fun s l =>
    let o := 0x200 + 0x20 * g + 4 * l
    s.setTr t o (s.imgTile t o)

/-- R114: the reload, once every admitted operation of the tile has completed. -/
def State.settle (s : State) (t : TileId) : State :=
  if (s.tileAt t).reloadDue && s.quiesced t then
    let s := s.reloadTile t
    s.setTile t { s.tileAt t with reloadDue := false }
  else s

/-- The engine has faulted; a halt may stand over the fault (R464). -/
def Eng.isFaulted (g : Eng) : Bool := decide (g.st = .faulted) || (decide (g.st = .halted) && decide (g.before = .faulted))

/-- R324 step 1: every engine of the tile that has not faulted stops under R114. -/
def State.stopTile (s : State) (t : TileId) (all : Bool) : State :=
  let s := s.setTile t { s.tileAt t with launched := false }
  if engines.all fun e => decide ((s.engAt t e).st = .idle) || (!all && (s.engAt t e).isFaulted) then s else
  let s := each s engines fun s e => if !all && (s.engAt t e).isFaulted then s else s.stopEngine t e
  (s.setTile t { s.tileAt t with reloadDue := true }).settle t

/-! ## Loss of a context -/

/-- R341: where a LOSS record places the fault: tile, engine, mover queue, descriptor. -/
def lossPlace (t : TileId) (e q d : Nat) : Nat := t.toNat + e * 2 ^ 12 + q * 2 ^ 14 + d * 2 ^ 16

/-- R324, R480: a fault loses its context: steps 1 to 5 in order. A context already LOST or DYING stays as it is; of a
number the headgate holds FREE only the tiles' steps act. -/
def State.loseCtx (s : State) (p : PartId) (c : CtxId) (code : Nat) (w : Culprit) (place addr : Nat) (parts : W64) : State :=
  let x := s.ctxAt p c
  if x.st = .lost ∨ x.st = .dying then s else
  let b := BitVec.ofNat 8 code
  let s := if x.st = .active then (s.setCtx p c { x with st := .lost, code := b }).lightP (some p) 7 1 else s
  let s := each s (s.tilesIn p) fun s t => if s.ctxOf t = c then s.stopTile t false else s
  if x.st ≠ .active then s else
  let s := each s (s.queuesOf p) fun s e => if e.2.ctx = c ∧ e.2.isOpen then s.setQueue p e.1 { e.2 with stopped := true } else s
  let blame := ((s.queuesOf p).flatMap fun e => e.2.cmds.map fun m => (e.1, e.2.ctx, m)).find? fun y =>
    decide (y.2.1 = c) && y.2.2.isRunning && s.charged p w y.1 y.2.2
  let s0 := s
  let s := s.complete p fun q Q m =>
    if Q.ctx = c ∧ m.isRunning then some (if s0.charged p w q m then b else 3) else none
  let s := s.complete p fun _ Q m => if Q.ctx = c ∧ m.isFetched then some 3 else none
  let s := s.forceSignal p c
  let n := match blame with
    | none => s.blankNotice p 2 b c false
    | some y => s.cmdNotice p 2 y.1 c y.2.2 b
  let s := s.takeWaits p
  s.notice p c { n with place := BitVec.ofNat 64 place, addr := BitVec.ofNat 64 addr, parts := parts }

/-- R480: a fault of a tile unit loses the context that TIL_SPOWN names while owned is 1. -/
def State.loseAt (s : State) (t : TileId) (code e q d addr : Nat) (parts : W64) : State :=
  match s.partOf t, (s.tileAt t).owned with
  | some p, true => s.loseCtx p (s.ctxOf t) code (.tile t) (lossPlace t e q d) addr parts
  | _, _ => s

/-- R145, R480: an engine faults, at the word at `pc`. -/
def State.faultAtPc (s : State) (t : TileId) (e : EngId) (pc : BitVec 14) (code : Nat) : State :=
  let g := s.engAt t e
  let s := (s.dropWalk t e).setEng t e { g with st := .faulted, code := BitVec.ofNat 8 code, faultPc := pc, fence := none, ending := false }
  let s := s.trace t 0x06 e.toNat pc.toNat code
  (s.raiseTile t 32).loseAt t code e.toNat 0 0 0 0

/-- R145, R480: an engine faults at its word. -/
def State.engFault (s : State) (t : TileId) (e : EngId) (code : Nat) : State := s.faultAtPc t e (s.engAt t e).pc code

/-! ## Effects of errors -/

/-- The contexts of a partition that can be lost: those the headgate holds, and those that tiles' programs run in. -/
def State.losable (s : State) (p : PartId) : List CtxId :=
  let a := (s.ctx.filter fun e => decide (e.1 / 256 = p.toNat) && decide (e.2.st = .active)).map fun e => (BitVec.ofNat 8 e.1 : CtxId)
  let b := (s.tilesIn p).filterMap fun t => if (s.tileAt t).owned then some (s.ctxOf t) else none
  a ++ (b.filter fun c => !a.contains c).eraseDups

/-- R366: every context of a partition faults. -/
def State.loseAll (s : State) (p : PartId) (code : Nat) : State :=
  each s (s.losable p) fun s c => s.loseCtx p c code .none 0 0 0

/-- R343, R366: a function-level ERROR record goes into the ring of context 0 when it exists, and is counted there
otherwise. (log 66, DESIGN CHOICE) -/
def State.errorNotice (s : State) (p : PartId) (sev : Nat) : State :=
  let x := s.ctxAt p 0
  if x.st = .free then s.setCtx p 0 { x with lostRecs := BitVec.ofNat 16 (satAdd 0xFFFF x.lostRecs.toNat 1) }
  else s.notice p 0 (s.blankNotice p 4 (BitVec.ofNat 8 sev) 0 true)

/-- R366: the automatic effect of a severity. -/
def State.escalate (s : State) (r : ErrRec) : State :=
  match r.sev.toNat with
  | 3 => if r.partV ∧ r.ctxV then
      s.loseCtx r.part r.ctx 0x21 (.tile r.tile) (lossPlace r.tile r.eng.toNat 0 0) r.addr.toNat 0 else s
  | 4 => if r.partV then (s.loseAll r.part 0x21).errorNotice r.part 4 else s
  | 5 =>
    let s := each s s.loadedParts fun s p => s.loseAll p 0x21
    match s.loadedParts.find? fun p => (s.ctxAt p 0).byPf with
    | some p => s.errorNotice p 5
    | none => s
  | _ => s

/-- R445, Table 14-6: the light counter a severity is counted in; a DEVICE record affects every loaded partition. -/
def State.countErr (s : State) (r : ErrRec) : State :=
  if r.sev = 5 then (each s s.loadedParts fun s p => s.lightP (some p) 5 1).light none 5 1
  else s.light (if r.partV then some r.part else none) (match r.sev.toNat with | 1 => 3 | 2 => 4 | _ => 5) 1

/-- R366, R367: an error of a tile or its vault is recorded at the colony's core, and from PARTITION up at the die's
head core too; its automatic effect takes place whether or not the record is kept. -/
def State.errAt (s : State) (t : TileId) (r : ErrRec) : State :=
  let s := s.arriveErr (coreOfCol (colonyOf t)) r
  let s := if 4 ≤ r.sev.toNat then s.arriveErr (headCore (dieOf t)) r else s
  (s.countErr r).escalate r

/-- R367: any other error is recorded at the head core of the detecting unit's die. -/
def State.errHead (s : State) (die : Nat) (r : ErrRec) : State :=
  let r := { r with time := s.spineStamp die }
  ((s.arriveErr (headCore die) r).countErr r).escalate r

/-- R400: a tile's memories are in use: its domain is in RUN or IDLE. -/
def State.memsUp (s : State) (t : TileId) : Bool := decide ((s.domAt (domTile t)).st.toNat ≤ 1)

/-- R432, R434: an error found at a tile: counted in the register at `o`, and recorded. -/
def State.wvErr (s : State) (t : TileId) (o : Nat) (unc : Bool) (u : ErrUnit) (addr : Nat) (syn : BitVec 16) (place : Byte) : State :=
  let s := if unc then s.incReg (tileBase t + o) 31 16 1 else s.incReg (tileBase t + o) 15 0 1
  s.errAt t (s.tileErr t (if unc then 2 else 1) u (if unc then 2 else 1) 0 addr syn.toNat place.toNat)

/-- R424: severity where poison stops: CONTEXT, or PARTITION where no context owns the tile. -/
def State.stopSev (s : State) (t : TileId) : Nat := if (s.tileAt t).owned then 3 else 4

/-- R424: poison met by the word at `pc`: the engine halts there, and the error is recorded. -/
def State.poisonAtPc (s : State) (t : TileId) (e : EngId) (pc : BitVec 14) (u : ErrUnit) (cause addr : Nat) : State :=
  let g := s.engAt t e
  let s := (s.dropWalk t e).setEng t e { g with st := .faulted, code := 0x21, faultPc := pc, fence := none, ending := false }
  let s := s.trace t 0x06 e.toNat pc.toNat 0x21
  s.errAt t (s.tileErr t (s.stopSev t) u cause e.toNat addr 0 0)

/-- R424: poison met at an engine's word. -/
def State.poisonStop (s : State) (t : TileId) (e : EngId) (u : ErrUnit) (cause addr : Nat) : State :=
  s.poisonAtPc t e (s.engAt t e).pc u cause addr

end Sys2Proof.Machine
end

