-- ==== Sys2Proof/Machine/Sem.lean ====
section
/-!
DEFINITION. Tile semaphores (R136 to R142), and the stochastic-rounding generator (R60, R62).
-/
namespace Sys2Proof.Machine

/-! ## The generator -/

/-- R60: one step of the generator's state. -/
def xorshift (g : W64) : W64 :=
  let g := g ^^^ (g <<< 13)
  let g := g ^^^ (g >>> 7)
  g ^^^ (g <<< 17)

/-- R60: the next 16-bit value, and the tile after it. -/
def Tile.nextRand (tl : Tile) : W16 × Tile :=
  match tl.genLeft with
  | v :: l => (v, { tl with genLeft := l })
  | [] =>
    let g := xorshift tl.gen
    (g.extractLsb' 0 16, { tl with gen := g, genLeft := [g.extractLsb' 16 16, g.extractLsb' 32 16, g.extractLsb' 48 16] })

/-- R60: a load of the state discards the values not yet consumed. -/
def Tile.loadGen (tl : Tile) (g : W64) : Tile := { tl with gen := g, genLeft := [], reseed := none }

/-- R62: a software seed of 0 loads this constant. -/
def softSeed (v : W64) : W64 := if v = 0 then 0x9E3779B97F4A7C15 else v

/-! ## Semaphores -/

/-- R136: value of a semaphore. -/
def State.semVal (s : State) (t : TileId) (n : SemId) : Nat := fld (s.tr t (0x100 + 4 * n.toNat)) 15 0
/-- R137: what waits ask of a semaphore together. -/
def needOf (l : List (SemId × Byte)) (n : SemId) : Nat := l.foldl (fun a x => if x.1 = n then a + x.2.toNat else a) 0
/-- R146: the first of a word's waits that is not satisfied, in slot order. -/
def State.unmet (s : State) (t : TileId) (l : List (SemId × Byte)) : Option (SemId × Byte) :=
  l.find? fun x => decide (s.semVal t x.1 < needOf l x.1)
/-- Set a semaphore's value. -/
def State.setSem (s : State) (t : TileId) (n : SemId) (v : Nat) : State :=
  s.setTr t (0x100 + 4 * n.toNat) (BitVec.ofNat 32 (v % 65536))

/-- R451: code of a poster: kind and id. -/
def posterCode (kind id : Nat) : W32 := BitVec.ofNat 32 (kind + id * 16)

/-- R139, R140: a post takes effect; true where it overflowed. -/
def State.addSem (s : State) (t : TileId) (n : SemId) (k : Nat) (who : W32) : State × Bool :=
  let v := s.semVal t n + k
  let s := s.setPosterW t n.toNat who
  if v ≤ 65535 then (s.setSem t n v, false)
  else (((s.setSem t n 65535).setTr t 0x144 (setBit (s.tr t 0x144) n.toNat true)), true)

/-- R140: a contributing engine faults its context with SEM_OVERFLOW; an engine with no program stays IDLE. -/
def State.semOverflow (s : State) (t : TileId) (e : EngId) : State :=
  if (s.engAt t e).st = .idle then s.loseAt t 0x3D e.toNat 0 0 0 0 else s.engFault t e 0x3D

/-- R138, R140: a post of an engine of tile `src`. -/
def State.post (s : State) (t : TileId) (n : SemId) (k : Nat) (who : W32) (src : TileId) (e : EngId) : State :=
  match s.addSem t n k who with
  | (s, false) => s
  | (s, true) => s.semOverflow src e

/-- R138: the semaphore increment of an operation that carries one. -/
def State.opPost (s : State) (t : TileId) (sigEn : Bool) (n : SemId) (e : EngId) (q : Nat) : State :=
  if sigEn then s.post t n 1 (posterCode 3 (e.toNat + 4 * q)) t e else s

/-! ## Operations of an engine -/

/-- R141: number of the oldest operation of the engine that has not completed; none where nothing is outstanding.
MXE: problems and drains; VXE: none, its instructions complete in their word's step; MOV: armings and streams; WEI:
weir operations. -/
def State.oldest (s : State) (t : TileId) (e : EngId) : Option Nat :=
  let tl := s.tileAt t
  let l : List Nat := match e.toNat with
    | 0 => tl.mxq.map (fun o => o.seq) ++ tl.drq.map (fun o => o.seq)
    | 1 => []
    | 2 => (List.range 4).flatMap (fun q => ((s.movq_ t q).arms ++ (s.movq_ t q).streams.map (fun x => x.arm)).filterMap (fun a => a.seq))
        ++ (List.range 8).filterMap (fun d => (s.movd_ t d).pending.bind (fun a => a.seq))
    | _ => tl.wei.map (fun o => o.seq)
  l.foldl (fun m x => match m with | none => some x | some y => some (min x y)) none

/-- R141: every operation numbered below `q` has completed. -/
def State.doneBelow (s : State) (t : TileId) (e : EngId) (q : Nat) : Bool :=
  match s.oldest t e with
  | none => true
  | some m => decide (q ≤ m)

end Sys2Proof.Machine
end

