-- ==== Sys2Proof/Machine/MapOps.lean ====
section
/-!
DEFINITION. Where an address leads: HBM stacks and power domains (R276, R400, R405), page classes (R74, R75), cistern
tags (R82, R83), and the resolution of logical page numbers through the context map and its caches (R76 to R79).
-/
namespace Sys2Proof.Machine

/-! ## Sensors (R409) -/

/-- A number put into a rising list. -/
def insertN (a : Nat) : List Nat → List Nat
  | [] => [a]
  | b :: l => if a < b then a :: b :: l else if a = b then b :: l else b :: insertN a l

/-- R409, R416: the sensor of the register at `a` reads `c`: a thermal trip, and THERMTRIP_N low with it, ends when every sensor reads below 95 °C. -/
def State.sensed (s : State) (a : Nat) (c : Byte) : State :=
  let l := if 95 ≤ c.toNat then insertN a s.gov.warm else s.gov.warm.filter fun b => decide (b ≠ a)
  { s with gov := { s.gov with warm := l, trip := s.gov.trip && !l.isEmpty } }

/-! ## Partition HBM -/

/-- R33: bytes of a partition's allocation. -/
def State.alloc (s : State) (p : PartId) : Nat := match s.pcfg p with | none => 0 | some g => g.hbmUnits.toNat * 2 ^ 28
/-- `n` bytes of partition HBM as a number. -/
def State.phbm (s : State) (p : PartId) (a n : Nat) : Nat := leNat (s.hbmBytes ((s.partAt p).hbmBase + a) n)
/-- Poison mark of the line of a partition HBM address. -/
def State.phbmP (s : State) (p : PartId) (a : Nat) : Bool := s.hbmP (((s.partAt p).hbmBase + a) / 64)

/-! ## Classes (R74, R75) -/

/-- Element format of a class; SIG64 is 15. -/
def clsFmt (w : W32) : EFmt := ⟨fld w 3 0, bit w 4⟩
/-- Row elements. -/
def clsElems (w : W32) : Nat := fld w 23 8
/-- Bits of an element. -/
def clsBits (w : W32) : Nat := if fld w 3 0 = 15 then 64 else (clsFmt w).bits
/-- R74: row_bytes, rows_per_page, blocks_per_row. -/
def rowBytes (w : W32) : Nat := clsElems w * clsBits w / 8
def rowsPerPage (w : W32) : Nat := min 8192 (65536 / rowBytes w)
def blocksPerRow (w : W32) : Nat := if (clsFmt w).isMx then clsElems w / 32 else 0
/-- Table 4-1: a usable class. -/
def clsUsable (w : W32) : Bool :=
  let f := fld w 3 0; let n := clsElems w
  bit w 5 && decide (fld w 7 6 = 0) && decide (fld w 31 24 = 0) && (decide (f ≤ 10) || decide (f = 15))
    && (!bit w 4 || EFmt.hasVar f) && decide (1 ≤ n) && decide (rowBytes w ≤ 65536)
    && (!(clsFmt w).isMx || decide (n % 32 = 0)) && (decide (f ≠ 7) || decide (n % 2 = 0)) && (decide (f ≠ 15) || decide (n = 1))

/-! ## Tags (R82, R83) -/

/-- Offset of a slot's tag. -/
def tagOff (sl : Nat) : Nat := 0x1C00 + 8 * sl
/-- A slot's tag word. -/
def State.tag (s : State) (v : TileId) (sl : Nat) : W32 := s.tr v (tagOff sl)
/-- Its LPN. -/
def State.tagLpn (s : State) (v : TileId) (sl : Nat) : Nat := fld (s.tr v (tagOff sl + 4)) 23 0
def tagValid (w : W32) : Bool := bit w 0
def tagBusy (w : W32) : Bool := bit w 1
def tagPin (w : W32) : Bool := bit w 2
def tagCtx (w : W32) : Nat := fld w 15 8
def tagAge (w : W32) : Nat := fld w 23 16
/-- Set or clear a slot's busy bit. -/
def State.setBusy (s : State) (v : TileId) (sl : Nat) (b : Bool) : State := s.setTr v (tagOff sl) (setBit (s.tag v sl) 1 b)
/-- R82: the tag of an emptied slot: valid, pin, context, LPN and age clear. -/
def State.clearTag (s : State) (v : TileId) (sl : Nat) : State := (s.setTr v (tagOff sl) 0).setTr v (tagOff sl + 4) 0
/-- R84: the tag of a filled slot; pin as software has it. -/
def State.fillTag (s : State) (v : TileId) (sl : Nat) (c : CtxId) (lpn : Lpn) : State :=
  let pin := tagPin (s.tag v sl)
  (s.setTr v (tagOff sl) (BitVec.ofNat 32 (1 + 4 * nat01 pin + c.toNat * 256))).setTr v (tagOff sl + 4) (BitVec.ofNat 32 lpn.toNat)
/-- R86: an access sets the slot's age to 0, and marks the vault accessed (R404). -/
def State.touch (s : State) (v : TileId) (sl : Nat) : State :=
  (s.setTr v (tagOff sl) (setFld (s.tag v sl) 23 16 0)).setTile v { s.tileAt v with lastCisAccess := s.time }
/-- R109, R214: zero a slot's page and sideband with their poison. -/
def State.zeroSlot (s : State) (v : TileId) (sl : Nat) : State :=
  let p := v.toNat * 4194304 + sl * 65536; let q := v.toNat * 262144 + sl * 4096; let l := v.toNat * 69632
  { s with
    cis := dropIf (fun k => decide (p ≤ k) && decide (k < p + 65536)) s.cis
    side := dropIf (fun k => decide (q ≤ k) && decide (k < q + 4096)) s.side
    cisPoison := dropIf (fun k => (decide (l + sl * 1024 ≤ k) && decide (k < l + sl * 1024 + 1024))
      || (decide (l + 65536 + sl * 64 ≤ k) && decide (k < l + 65536 + sl * 64 + 64))) s.cisPoison }

/-! ## The context map -/

/-- How a resolution ends (R78). -/
inductive MapRes
  | page (p : PageAt)
  | stop (reason : Nat)
  | fault
  /-- R424, R432: a map structure read is poisoned, at a device HBM address -/
  | poison (addr : Nat)
  /-- R405: the walk reads a stack whose gate is closed: it is held until that domain serves -/
  | held (dom : Nat)
  deriving DecidableEq, Repr

/-- R79: a map cache's entry. -/
def Part.cached (q : Part) (t : TileId) (u : MapUnit) (kind : Nat) (c : CtxId) (i : Nat) : Option Nat :=
  (q.mapCache.find? fun e => decide (e.tile = t) && decide (e.unit = u) && decide (e.kind = kind) && decide (e.ctx = c)
    && decide (e.index = i)).map fun e => e.value.toNat

/-- Is the entry of the cache named? -/
def MapEntry.of (e : MapEntry) (t : TileId) (u : MapUnit) : Bool := decide (e.tile = t) && decide (e.unit = u)

/-- The list without the `n`th entry of a cache. -/
def evict (t : TileId) (u : MapUnit) : Nat → List MapEntry → List MapEntry
  | _, [] => []
  | n, e :: l => if e.of t u then (if n = 0 then l else e :: evict t u (n - 1) l) else e :: evict t u n l

/-- R79: an entry enters a cache of 128 entries; which one a full cache drops is free. -/
def State.cacheIn (s : State) (p : PartId) (e : MapEntry) : State :=
  let q := s.partAt p
  if (q.cached e.tile e.unit e.kind e.ctx e.index).isSome then s else
  let full := decide (128 ≤ (q.mapCache.filter (·.of e.tile e.unit)).length)
  let l := if full then evict e.tile e.unit (s.draw 0 % 128) q.mapCache else q.mapCache
  let s := s.setPart p { q with mapCache := e :: l }
  if full then s.drawn else s

/-- R405: the stack of a partition HBM address, where it takes no access. -/
def State.phbmShut (s : State) (p : PartId) (a : Nat) : Option Nat :=
  let d := domHbm (stackOf ((s.partAt p).hbmBase + a))
  if s.serves d then none else some d

/-- A doubleword of a map structure: from the cache, else from HBM, where a closed gate holds it (R405) and poison stops. -/
def State.mapRead (s : State) (p : PartId) (t : TileId) (u : MapUnit) (kind : Nat) (c : CtxId) (i a : Nat) : Except MapRes Nat :=
  match (s.partAt p).cached t u kind c i with
  | some v => .ok v
  | none =>
    match s.phbmShut p a with
    | some d => .error (.held d)
    | none => if s.phbmP p a then .error (.poison ((s.partAt p).hbmBase + a)) else .ok (s.phbm p a 8)

/-- R78: a header of a context's map: class table, directory, sideband, limit. -/
structure MapHdr where
  root : Nat
  dir : Nat
  side : Nat
  limit : Nat
  deriving DecidableEq, Repr

/-- R76, R78: the header of a context. The step reads the root table and the header. -/
def State.mapHeader (s : State) (p : PartId) (t : TileId) (u : MapUnit) (c : CtxId) : State × Except MapRes MapHdr :=
  let al := s.alloc p
  let tab := (s.reg64 (partBase p + 0x400) (partBase p + 0x404)).toNat
  if tab % 2048 ≠ 0 ∨ al < tab + 2048 then (s, .error .fault) else
  match s.mapRead p t u 0 c 0 (tab + 8 * c.toNat) with
  | .error r => (s, .error r)
  | .ok root =>
    let s := if root = 0 then s else s.cacheIn p { tile := t, unit := u, kind := 0, ctx := c, index := 0, value := BitVec.ofNat 64 root }
    if root = 0 ∨ root % 128 ≠ 0 ∨ al < root + 128 then (s, .error .fault)
    else match s.phbmShut p root with
    | some d => (s, .error (.held d))
    | none =>
    if s.phbmP p root then (s, .error (.poison ((s.partAt p).hbmBase + root)))
    else if s.phbmP p (root + 64) then (s, .error (.poison ((s.partAt p).hbmBase + root + 64)))
    else
      let h : MapHdr := { root := root, dir := s.phbm p (root + 0x40) 8, side := s.phbm p (root + 0x48) 8, limit := s.phbm p (root + 0x50) 4 }
      if h.dir % 32768 ≠ 0 ∨ al < h.dir + 32768 ∨ h.side % 4096 ≠ 0 then (s, .error .fault) else (s, .ok h)

/-- Class entry `i` of a map header. -/
def State.mapClass (s : State) (p : PartId) (h : MapHdr) (i : Nat) : W32 := BitVec.ofNat 32 (s.phbm p (h.root + 4 * i) 4)

/-- R78: what a leaf entry leads to. -/
def State.leafTo (s : State) (p : PartId) (c : CtxId) (lpn : Lpn) (h : MapHdr) (e : Nat) (weir : Bool) : MapRes :=
  let loc := bits e 1 0
  if bits e 7 6 ≠ 0 ∨ bits e 31 26 ≠ 0 ∨ bits e 63 55 ≠ 0 then .fault
  else if loc = 0 then .stop 0
  else if loc = 3 then .stop 2
  else
    let al := s.alloc p
    let ci := bits e 5 2
    let w := s.mapClass p h ci
    let fr := bits e 54 32
    let pg : PageAt := { inCistern := decide (loc = 1), tile := BitVec.ofNat 12 (bits e 19 8), slot := BitVec.ofNat 6 (bits e 25 20),
                         frame := BitVec.ofNat 23 fr, cls := BitVec.ofNat 4 ci, clsWord := w }
    if !clsUsable w ∨ al < fr * 65536 + 65536 ∨ al < h.side + fr * 4096 + 4096 then .fault
    else if loc = 1 then
      let g := s.tag pg.tile pg.slot.toNat
      if s.partOf pg.tile ≠ some p ∨ !tagValid g ∨ tagCtx g ≠ c.toNat ∨ s.tagLpn pg.tile pg.slot.toNat ≠ lpn.toNat then .fault
      else if tagBusy g then .stop 2
      else .page pg
    else if weir then .stop 1
    else .page pg

/-- R81: a map cache holds an entry that differs from the one in HBM now. -/
def State.mapStale (s : State) (p : PartId) (t : TileId) (u : MapUnit) (kind : Nat) (c : CtxId) (i a : Nat) : Bool :=
  ((s.partAt p).cached t u kind c i).any fun v => decide (v ≠ s.phbm p a 8)

/-- R81: the page is in a cistern, or on its way there, so an entry that still names its frame is stale. -/
def State.promoted (s : State) (p : PartId) (c : CtxId) (lpn : Lpn) : Bool :=
  (s.tilesIn p).any fun v =>
    (s.tileAt v).pageop.any (fun o => decide (o.ctx = c) && decide (o.lpn = lpn))
      || (List.range 64).any fun i => tagValid (s.tag v i) && decide (tagCtx (s.tag v i) = c.toNat) && decide (s.tagLpn v i = lpn.toNat)

/-- R81: a page reached over stale entries. -/
def MapRes.markStale (b : Bool) : MapRes → MapRes
  | .page g => .page { g with stale := b }
  | r => r

/-- R78: resolve an LPN for a unit of a tile. -/
def State.resolve (s : State) (p : PartId) (t : TileId) (u : MapUnit) (c : CtxId) (lpn : Lpn) : State × MapRes :=
  let old := s.mapStale p t u 0 c 0 ((s.reg64 (partBase p + 0x400) (partBase p + 0x404)).toNat + 8 * c.toNat)
  match s.mapHeader p t u c with
  | (s, .error r) => (s, r)
  | (s, .ok h) =>
    if h.limit ≤ lpn.toNat then (s, .fault) else
    let i := lpn.toNat / 4096
    match s.mapRead p t u 1 c i (h.dir + 8 * i) with
    | .error r => (s, r)
    | .ok d =>
      if d % 2 = 0 then (s, .stop 0) else
      let old := old || s.mapStale p t u 1 c i (h.dir + 8 * i)
      let s := s.cacheIn p { tile := t, unit := u, kind := 1, ctx := c, index := i, value := BitVec.ofNat 64 d }
      let leaf := d / 32768 * 32768
      if bits d 14 1 ≠ 0 ∨ s.alloc p < leaf + 32768 then (s, .fault) else
      match s.mapRead p t u 2 c lpn.toNat (leaf + 8 * (lpn.toNat % 4096)) with
      | .error r => (s, r)
      | .ok e =>
        let old := old || s.mapStale p t u 2 c lpn.toNat (leaf + 8 * (lpn.toNat % 4096))
        let s := if bits e 1 0 = 1 ∨ bits e 1 0 = 2 then
            s.cacheIn p { tile := t, unit := u, kind := 2, ctx := c, index := lpn.toNat, value := BitVec.ofNat 64 e } else s
        (s, (s.leafTo p c lpn h e (decide (u = .weir))).markStale (old || (decide (bits e 1 0 = 2) && s.promoted p c lpn)))

/-- R76: sideband address of an HBM frame in a context's map. -/
def State.frameSide (s : State) (p : PartId) (t : TileId) (u : MapUnit) (c : CtxId) (f : BitVec 23) : Nat :=
  let root := ((s.partAt p).cached t u 0 c 0).getD (s.phbm p ((s.reg64 (partBase p + 0x400) (partBase p + 0x404)).toNat + 8 * c.toNat) 8)
  s.phbm p (root + 0x48) 8 + f.toNat * 4096

/-! ## Bytes and poison -/

/-- Poison of any line among `n` bytes of a vault's pages from byte `a` (slot × 65,536 + offset). -/
def State.cisBad (s : State) (v : TileId) (a n : Nat) : Bool :=
  (List.range ((a % 64 + n + 63) / 64)).any fun i => s.cisP v (a / 64 + i)
/-- The same of its sidebands (slot × 4,096 + offset). -/
def State.sideBad (s : State) (v : TileId) (a n : Nat) : Bool :=
  (List.range ((a % 64 + n + 63) / 64)).any fun i => s.cisP v (65536 + a / 64 + i)
/-- The same of HBM. -/
def State.hbmBad (s : State) (a n : Nat) : Bool :=
  (List.range ((a % 64 + n + 63) / 64)).any fun i => s.hbmP (a / 64 + i)

/-- R421: marks of the lines that `n` written bytes from `b` touch: whole lines take the mark, parts set it only, and leave a poisoned
line poisoned. -/
def markLines (s : State) (b n : Nat) (bad : Bool) (is : State → Nat → Bool) (set : State → Nat → Bool → State) : State :=
  each s (List.range ((b % 64 + n + 63) / 64)) fun s i =>
    let l := b / 64 + i
    let whole := decide (b ≤ 64 * l) && decide (64 * l + 64 ≤ b + n)
    if whole then set s l bad else if bad || is s l then set s l true else s

/-- Write page bytes with their poison. -/
def State.putCis (s : State) (v : TileId) (a : Nat) (bs : List Byte) (bad : Bool) : State :=
  markLines (s.setCisBytes v a bs) a bs.length bad (fun s l => s.cisP v l) fun s l b => s.markCis v l b
/-- Write sideband bytes with their poison. -/
def State.putSide (s : State) (v : TileId) (a : Nat) (bs : List Byte) (bad : Bool) : State :=
  markLines (s.setSideBytes v a bs) a bs.length bad (fun s l => s.cisP v (65536 + l)) fun s l b => s.markCis v (65536 + l) b
/-- Write HBM bytes with their poison. -/
def State.putHbm (s : State) (a : Nat) (bs : List Byte) (bad : Bool) : State :=
  markLines (s.setHbmBytes a bs) a bs.length bad (fun s l => s.hbmP l) fun s l b => s.markHbm l b
/-- Write scratchpad bytes with their poison. -/
def State.putSpad (s : State) (t : TileId) (a : Nat) (bs : List Byte) (bad : Bool) : State :=
  markLines (s.setSpadBytes t a bs) a bs.length bad (fun s l => s.spadP t l) fun s l b => s.markSpad t l b
/-- Poison among scratchpad bytes. -/
def State.spadBad (s : State) (t : TileId) (a n : Nat) : Bool :=
  (List.range ((a % 64 + n + 63) / 64)).any fun i => s.spadP t (a / 64 + i)

end Sys2Proof.Machine
end

