-- ==== Sys2Proof/Machine/ScalarOps.lean ====
section
/-!
DEFINITION. What a scalar instruction does (R123 to R143): it reads `pre`, the state before its word issued, and writes
`cur`, the state the word's other slots have already changed (R127).
-/
namespace Sys2Proof.Machine

/-- What a slot's checks before issue find. -/
inductive Verdict
  /-- the slot can issue -/
  | ok
  /-- the word waits on a unit (R121) -/
  | wait
  /-- the word faults (R145) -/
  | fault (code : Nat)
  /-- poison stops here (R424) -/
  | poison (u : ErrUnit) (addr : Nat)
  /-- the word stops as the slot's unit states: what happens in place of the issue -/
  | stop (act : State → State)

/-- R178: the ports and uses that the rules of pairing name (R176). -/
inductive SlotUse | plain | ld | st | tap | lw | sw
  deriving DecidableEq, Repr

/-- What the issue of a word needs to know of one of its slots. -/
structure SlotOp where
  /-- R120: the slot holds a legal instruction -/
  legal : Bool := true
  /-- checks before issue, at the state before the word -/
  check : State → Verdict := fun _ => .ok
  /-- effect: from the state before the word, on the state its other slots have changed -/
  apply : State → State → State := fun _ cur => cur
  /-- R137: a SEM.WAIT's semaphore and count -/
  need : Option (SemId × Byte) := none
  /-- R125, R129: where control goes when it is not the next word: from the state before the word -/
  goto : State → Option Nat := fun _ => none
  /-- R129, R130: the last word of a body that LP.BEGIN skips: from the state before the word -/
  skip : State → Option Nat := fun _ => none
  /-- registers written: scalar 1 to 15, vector 32 + r, predicate 64 + r (R127, R176) -/
  writes : List Nat := []
  use : SlotUse := .plain
  /-- R127: a branch, LP.BEGIN, SC.END or SC.FENCE -/
  ctl : Bool := false
  /-- R131: must not stand in a loop's last word -/
  noLast : Bool := false
  /-- R125: offset of a branch's target -/
  jump : Option Int := none
  /-- R129: offset of an LP.BEGIN's last word -/
  body : Option Nat := none
  /-- Table 10-3: what a loader checks at the tile beyond legality, at the generator's offsets -/
  load : State → Bool := fun _ => true
  /-- the generator it names; 0 none -/
  ag : Nat := 0
  /-- R134: the generator that it sets, with the channel, the word and the register -/
  gset : Option (Nat × Nat × Nat × Nat) := none
  /-- R124: what it puts into its scalar register, of constants in the registers it reads -/
  value : (Nat → Option W32) → Option W32 := fun _ => none
  /-- R129: the register that counts an LP.BEGIN -/
  cnt : Nat := 0

/-- A scalar register as a written register; s0 is none (R127). -/
def wrS (d : BitVec 4) : List Nat := if d = 0 then [] else [d.toNat]

/-- R199, R215: does a tile's quarantine hold an access to bytes [a, a + n) of its scratchpad? -/
def State.quarHeld (s : State) (t : TileId) (a n : Nat) : Bool :=
  (s.tileAt t).quar.isSome && decide (64 * s.regF (tileBase t + 0x1E00) 27 16 < a + n)

/-! ## Operands -/

/-- R133: offset of channel `c` of generator `g`: base and, for each active loop, index times increment. -/
def State.agOffset (s : State) (t : TileId) (e : EngId) (g c : Nat) : Int :=
  if g = 0 then 0 else
  let a := 0x200 + e.toNat * 0x380 + ((g - 1) * 4 + c) * 0x20
  let word := fun l => sx 24 (fld (s.tr t (a + 4 * l)) 23 0)
  ((s.engAt t e).loops.zipIdx.foldl (fun v x => v + (x.1.index.toNat : Int) * word (x.2 + 1)) (word 0))

/-- R133: a field of `n` bits with its offset; none where the sum, taken in 32-bit two's complement as an unsigned
value, lies outside the field. -/
def agField (n : Nat) (field : Nat) (off : Int) : Option Nat :=
  let v := (BitVec.ofInt 32 ((field : Int) + off)).toNat
  if v < 2 ^ n then some v else none

/-- R126: byte address of a scalar scratchpad access; none where it is misaligned or out of range. -/
def scAddr (a : W32) (imm : W16) : Option Nat :=
  let v := (a + imm.signExtend 32).toNat
  if v % 4 = 0 ∧ v < 262144 then some v else none

/-- R125: a branch target; none outside the bank. -/
def branchTo (p : Nat) (off : W16) : Option Nat :=
  let v := (p : Int) + off.toInt
  if 0 ≤ v ∧ v < 8192 then some v.toNat else none

/-- R125, R131: verdict of a taken branch from `p`; a target outside the bank is tested first. (log 132, DESIGN CHOICE) -/
def State.branchCheck (s : State) (t : TileId) (e : EngId) (p : Nat) (off : W16) : Verdict :=
  match branchTo p off with
  | none => .fault 0x39
  | some q =>
    match (s.engAt t e).loops.getLast? with
    | none => .ok
    | some l => if l.first.toNat ≤ q ∧ q ≤ l.last.toNat then .ok else .fault 0x3A

/-- R129: verdict of LP.BEGIN at `p` in a word of `w` halfwords. -/
def State.loopCheck (s : State) (t : TileId) (e : EngId) (p w : Nat) (a : BitVec 4) (end_ : Nat) : Verdict :=
  let ls := (s.engAt t e).loops
  if 1048575 < (s.sR t e a).toNat then .fault 0x3B
  else if ls.length = 4 then .fault 0x3A
  else if end_ < w then .fault 0x3A
  else match ls.getLast? with
    | none => .ok
    | some l => if l.last.toNat < p + end_ then .fault 0x3A else .ok

/-- R126, R215, R424: verdict of SC.LW. -/
def State.lwCheck (s : State) (t : TileId) (e : EngId) (a : BitVec 4) (imm : W16) : Verdict :=
  match scAddr (s.sR t e a) imm with
  | none => .fault 0x3B
  | some v => if s.quarHeld t v 4 then .wait else if s.spadP t (v / 64) then .poison .spad v else .ok

/-- R126, R215: verdict of SC.SW. -/
def State.swCheck (s : State) (t : TileId) (e : EngId) (a : BitVec 4) (imm : W16) : Verdict :=
  match scAddr (s.sR t e a) imm with
  | none => .fault 0x3B
  | some v => if s.quarHeld t v 4 then .wait else .ok

/-- R142: the target of SEM.RPOST; none outside the partition. -/
def State.rpostTo (s : State) (t : TileId) (a : W32) : Option TileId :=
  if 4095 < a.toNat then none else
  let d : TileId := BitVec.ofNat 12 a.toNat
  match s.partOf t with
  | none => none
  | some p => if s.partOf d = some p then some d else none

/-- R143: may the tile's program signal the event? Only its owner's programs may (R335). -/
def State.evtCheck (s : State) (t : TileId) (h : W32) : Verdict :=
  match s.partOf t with
  | none => .fault 0x3E
  | some p => match s.evtResolve p h with
    | .ok e => if e.owner = some (s.ctxOf t) then .ok else .fault 0x3E
    | .error _ => .fault 0x3E

/-- R143, R320, R321: the sequence with which a tile's program resolves a handle: that of the LAUNCH that runs there; none for a program that no
LAUNCH runs. (log 113, DEDUCED) -/
def State.launchSeq (s : State) (p : PartId) (t : TileId) : Option W64 :=
  ((s.queuesOf p).flatMap fun e => if e.2.ctx = s.ctxOf t then
      (e.2.cmds.filter fun m => m.isRunning && m.launch.any fun b => (s.launchCols p b).contains (colonyOf t)).map (·.seq) else []).foldl
    (fun x q => match x with | none => some q | some y => some (if q.toNat < y.toNat then q else y)) none

/-- R143, R47: may the tile's program signal the timeline? -/
def State.tlCheck (s : State) (t : TileId) (h : W32) : Verdict :=
  match s.partOf t with
  | none => .fault 0x3E
  | some p =>
    let timeline := match s.pcfg p with | none => false | some g => g.fence
    if !timeline || ((s.ctxAt p (s.ctxOf t)).fa1 && decide ((s.ctxAt p (s.ctxOf t)).st ≠ .free)) then .fault 0x3E else
    match s.objResolve p (s.ctxOf t) h [3] (s.launchSeq p t) with
    | .ok _ => .ok
    | .error _ => .fault 0x3E

/-! ## Effects -/

/-- Write a scalar register computed from `pre`. -/
def State.scR (cur : State) (t : TileId) (e : EngId) (d : BitVec 4) (v : W32) : State := cur.setSR t e d v

/-- R124: SC.SLT and SC.SLTU write 1 or 0. -/
def flagW (b : Bool) : W32 := if b then 1 else 0

/-- R124: SC.LIH: bits [31:20] are replaced, the rest kept. -/
def lih (o : W32) (imm : BitVec 20) : W32 := (imm.extractLsb' 0 12 ++ o.extractLsb' 0 20 : BitVec 32)

/-- R124: SC.RDIX: index of the loop at a depth, 0 if none. -/
def State.rdix (s : State) (t : TileId) (e : EngId) (depth : Nat) : W32 :=
  match (s.engAt t e).loops[depth]? with
  | none => 0
  | some l => BitVec.ofNat 32 l.index.toNat

/-- R124, R126: SC.SW: a partly written line keeps its poison mark (R421). -/
def State.scStore (cur : State) (t : TileId) (a : Nat) (v : W32) : State := cur.setSpadBytes t a (natLe 4 v.toNat)

/-- R129, R130: LP.BEGIN enters its loop; a count of 0 enters none. -/
def State.loopEnter (cur : State) (t : TileId) (e : EngId) (p w end_ cnt : Nat) : State :=
  if cnt = 0 then cur
  else
    let g := cur.engAt t e
    cur.setEng t e { g with loops := g.loops ++ [{ first := BitVec.ofNat 14 (p + w), last := BitVec.ofNat 14 (p + end_),
                                                    remaining := BitVec.ofNat 20 cnt, index := 0 }] }

/-- R134: AG.SET: word `w` of a channel takes the low 24 bits. -/
def State.agSetOp (cur : State) (t : TileId) (e : EngId) (g c w : Nat) (v : W32) : State :=
  cur.setTr t (0x200 + e.toNat * 0x380 + ((g - 1) * 4 + c) * 0x20 + 4 * w) (v &&& 0xFFFFFF)

/-- R141: a post or signal waits for every operation issued before it or in its word. -/
def State.pendOp (cur : State) (t : TileId) (e : EngId) (k : PendKind) : State :=
  let g := cur.engAt t e
  cur.setEng t e { g with pend := g.pend ++ [{ seq := g.seq, kind := k }] }

/-- R113: SC.END stops fetching. -/
def State.endOp (cur : State) (t : TileId) (e : EngId) : State :=
  cur.setEng t e { cur.engAt t e with ending := true }

/-- R141: SC.FENCE: no further word issues until everything issued so far has completed. -/
def State.fenceOp (cur : State) (t : TileId) (e : EngId) : State :=
  let g := cur.engAt t e
  cur.setEng t e { g with fence := some g.seq }

end Sys2Proof.Machine
end

