-- ==== Sys2Proof/Machine/MxOps.lean ====
section
/-!
DEFINITION. The matrix engine, the drain and the flume (R149 to R172): checks, queues, what a problem and a drain
compute, and the tensor statistics and digest of a drain (R447, R448).
-/
namespace Sys2Proof
open Machine

/-! ## Slots -/

/-- Table 3-2: a pairing of formats. -/
def pairing (a b : Nat) : Bool :=
  (decide (a ≤ 1) && decide (b ≤ 1)) || (decide (a ∈ [3, 4, 6]) && decide (b ∈ [3, 4, 6])) || (decide (a = 5) && decide (b = 5))
    || (decide (a = 2) && decide (b = 2)) || (decide (a = 7) && decide (b = 7)) || (decide (a ∈ [8, 9]) && decide (b ∈ [8, 9]))
/-- R151. -/
def MxF.legal (f : MxF) : Bool :=
  pairing f.fa.toNat f.fb.toNat && (!f.va || EFmt.hasVar f.fa.toNat) && (!f.vb || EFmt.hasVar f.fb.toNat)
/-- R55, R56: a numeric control field is legal for a target. -/
def ncLegal (nc : BitVec 3) (f : Nat) : Bool :=
  match nc.toNat % 4 with
  | 3 => false
  | 2 => decide (f ∈ [0, 1, 3, 4, 5, 6])
  | _ => true
/-- R161. -/
def DrF.legal (f : DrF) : Bool :=
  decide (f.ofmt.toNat ≤ 10) && (!f.ovar || EFmt.hasVar f.ofmt.toNat)
    && (!f.hws || (EFmt.mk f.ofmt.toNat f.ovar).isMx) && ncLegal f.nc f.ofmt.toNat
/-- Table 6-1: kt of a pairing. -/
def MxF.kt (f : MxF) : Nat :=
  if 8 ≤ f.fa.toNat then 16 else if (f.fa = 6 ∧ f.fb = 6) ∨ f.fa = 7 then 64 else 32
/-- Table 3-2: group size. -/
def MxF.gsize (f : MxF) : Nat := if 8 ≤ f.fa.toNat then 16 else 32
/-- Operand formats. -/
def MxF.fmtA (f : MxF) : EFmt := ⟨f.fa.toNat, f.va⟩
def MxF.fmtB (f : MxF) : EFmt := ⟨f.fb.toNat, f.vb⟩
/-- R154: N and the number of sub-tiles along K. -/
def MxF.n (f : MxF) : Nat := 16 * (f.nM1.toNat + 1)
def MxF.kblk (f : MxF) : Nat := f.ktM1.toNat + 1
/-- K. -/
def MxF.k (f : MxF) : Nat := f.kt * f.kblk
/-- R54: does the pairing accumulate in INT32? -/
def MxF.isInt (f : MxF) : Bool := decide (f.fa = 2) || decide (f.fa = 7)
/-- R149: lines of B in a sub-tile. -/
def MxF.wl (f : MxF) : Nat := 16 * f.kt * f.fmtB.bits / 512
/-- R154: rows of a problem, read at issue; none beyond the plan. -/
def rowsAt (s : Machine.State) (t : TileId) (rm : BitVec 4) (plan : Nat) : Option Nat :=
  let m := if rm = 0 then plan else (s.sR t 0 rm).toNat
  if plan < m then none else some m
/-- R150, R133: the slot with its generator's offsets applied; none where a field leaves its range. -/
def MxF.offset (f : MxF) (s : Machine.State) (t : TileId) : Option MxF := do
  let a ← agField 12 f.a.toNat (s.agOffset t 0 f.ag.toNat 0)
  let b ← agField 12 f.b.toNat (s.agOffset t 0 f.ag.toNat 1)
  let c ← agField 10 f.c.toNat (s.agOffset t 0 f.ag.toNat 2)
  pure { f with a := BitVec.ofNat 12 a, b := BitVec.ofNat 12 b, c := BitVec.ofNat 10 c }
/-- R442: the counter of a pairing's MACs. -/
def MxF.counter (f : MxF) : Nat := if 8 ≤ f.fa.toNat then 2 else if f.kt = 64 then 1 else 0

end Sys2Proof

namespace Sys2Proof.Machine

/-! ## Tile counters and numeric status -/

/-- R442: tile counter `n`, 48 bits, saturating. -/
def State.tcnt (s : State) (t : TileId) (n k : Nat) : State :=
  let a := obsBase t + 8 * n
  let v := min (2 ^ 48 - 1) ((s.reg64 a (a + 4)).toNat + k)
  (s.setReg a (BitVec.ofNat 32 v)).setReg (a + 4) (BitVec.ofNat 32 (v >>> 32))

/-- R61: set TIL_NUMSTAT bits. -/
def State.numStat (s : State) (t : TileId) (bits : Nat) : State :=
  if bits = 0 then s else s.setTr t 0x1F08 (s.tr t 0x1F08 ||| BitVec.ofNat 32 bits)

/-! ## Load and compute phases (R206 to R208) -/

/-- Lines of `n` bytes from byte `a`. -/
def linesOfBytes (a n : Nat) : List Nat := (List.range ((a % 64 + n + 63) / 64)).map fun i => a / 64 + i

/-- R201, R208: inbound accesses to the lines given while compute accesses of the tile are under way. In how many cycles both were granted, and in
how many a bank deferred a request, is a matter of timing: free counts. (log 60, DESIGN CHOICE) -/
def State.overlapAt (s : State) (t : TileId) (lines : List Nat) : State :=
  if lines.isEmpty then s else
  let n := s.draw (2 ^ 53) % (lines.length + 1)
  let m := s.tr t 0x1E08
  let s := (s.incReg (tileBase t + 0x1E0C) 15 0 n).incReg (tileBase t + 0x1E10) 15 0 (s.draw (2 ^ 53 + 2) % 65536)
  let s := if n = 0 ∨ bit m 0 then s else s.setTr t 0x1E08 (BitVec.ofNat 32 (1 + lines.getD (s.draw (2 ^ 53 + 1) % lines.length) 0 % 4096 * 65536))
  s.drawn

/-- R206, R208: an inbound access meets the compute accesses of the MXE and its drain. -/
def State.inboundLines (s : State) (t : TileId) (lines : List Nat) : State :=
  if (s.tileAt t).mxq.any (·.running) || (s.tileAt t).drq.any (·.running) then s.overlapAt t lines else s

/-! ## Legality (R151, R161) -/

/-! ## MX.PROB: geometry and checks -/

/-- R154, R158: checks of an MX slot at issue. -/
def State.mxCheck (s : State) (t : TileId) (f : MxF) : Verdict :=
  if !f.legal then .fault 0x38 else
  match f.offset s t with
  | none => .fault 0x3C
  | some _ =>
    match rowsAt s t f.rm (f.mM1.toNat + 1) with
    | none => .fault 0x58
    | some _ => if 2 ≤ (s.tileAt t).mxq.length then .wait else .ok

/-- R153, R154: an issued MX.PROB enters the queue with its set latched. -/
def State.mxIssue (pre cur : State) (t : TileId) (f : MxF) : State :=
  match f.offset pre t, rowsAt pre t f.rm (f.mM1.toNat + 1) with
  | some g, some m =>
    let e := cur.engAt t 0
    let o := 0x1000 + 16 * f.pset.toNat
    let op : MxOp := { seq := e.seq, f := g, rows := m, setRow := pre.tr t o, setScl := pre.tr t (o + 4),
                       setMsk := pre.tr t (o + 8), running := false, since := 0, pc := (pre.engAt t 0).pc }
    let tl := cur.tileAt t
    (cur.setTile t { tl with mxq := tl.mxq ++ [op] }).setEng t 0 { e with seq := e.seq + 1 }
  | _, _ => cur

/-- R156: an entry span. -/
def MxOp.span (o : MxOp) : Nat × Nat := (16 * o.f.c.toNat, o.rows * o.f.n)

/-- Do two spans share an entry? -/
def overlap (x y : Nat × Nat) : Bool := x.2 != 0 && y.2 != 0 && decide (x.1 < y.1 + y.2) && decide (y.1 < x.1 + x.2)

/-- Lines [a, a + n), given as signed numbers, lie within 0 to 4,095. -/
def linesOk (a : Int) (n : Nat) : Bool := decide (n = 0) || (decide (0 ≤ a) && decide (a + n ≤ 4096))

/-- Lines that `n` bytes from a byte address `b` touch, from line `b / 64`. -/
def byteLines (b : Int) (n : Nat) : Bool :=
  decide (n = 0) || (decide (0 ≤ b) && decide (b + n ≤ 262144))

/-- R152, R156, R172: start checks of a problem; 0 where it may start. B's lines are named for a problem of no rows too (log 102, DEDUCED). Of several
that fail the first tested gives the code. (log 132, DESIGN CHOICE) -/
def MxOp.startFault (o : MxOp) : Nat :=
  let f := o.f
  let pitch := fld o.setRow 11 0
  let rowLines := (f.k * f.fmtA.bits + 511) / 512
  let a : Int := f.a.toNat; let b : Int := f.b.toNat
  if pitch = 0 ∨ pitch < rowLines then 0x42
  else if !((decide (o.rows = 0) || linesOk a ((o.rows - 1) * pitch + rowLines))
      && linesOk b (f.n / 16 * f.kblk * f.wl)
      && (!f.fmtA.isMx || byteLines ((a + sx 16 (fld o.setScl 15 0)) * 64) (o.rows * (f.k / 32)))
      && (!f.fmtB.isMx || byteLines ((b + sx 16 (fld o.setScl 31 16)) * 64) (f.n / 16 * f.kblk * 16 * (f.kt / 32)))
      && (!f.msk || linesOk (a + sx 16 (fld o.setMsk 15 0)) ((o.rows + 511) / 512))) then 0x40
  else if 16384 < o.span.1 + o.span.2 then 0x41
  else 0

/-! ## MX.PROB: results -/

/-- Take element `n mod length` out of a list. -/
def takeOut {α : Type} (n : Nat) (l : List α) : List α := ((l.drop (n % l.length)).take 1)
/-- The list without that element. -/
def leaveOut {α : Type} (n : Nat) (l : List α) : List α := l.eraseIdx (n % l.length)

/-- R53, R70: an order of a list that a free number picks; every order is some number's. -/
def shuffle {α : Type} : Nat → Nat → List α → List α
  | 0, _, l => l
  | k + 1, n, l => takeOut n l ++ shuffle k (n / l.length) (leaveOut n l)

/-- R152: mask bit of a row. -/
def State.maskBit (s : State) (t : TileId) (line : Int) (m : Nat) : Bool :=
  bit (s.spadW t (64 * line.toNat + 4 * (m / 32))) (m % 32)

/-- R155: the rows a problem selects. -/
def MxOp.sel (o : MxOp) (s : State) (t : TileId) : List Nat :=
  (List.range o.rows).filter fun m => !o.f.msk || s.maskBit t (o.f.a.toNat + sx 16 (fld o.setMsk 15 0)) m

/-- Any poisoned line among `n` bytes from byte `b` (R423). -/
def State.poisoned (s : State) (t : TileId) (b n : Nat) : Bool :=
  (List.range ((b % 64 + n + 63) / 64)).any fun i => s.spadP t (b / 64 + i)

/-- R152: bytes where a row's group of A, or a column's group of B, stands. -/
def MxOp.aByte (o : MxOp) (m k : Nat) : Nat :=
  (o.f.a.toNat + m * fld o.setRow 11 0) * 64 + k * o.f.fmtA.bits / 8
def MxOp.bByte (o : MxOp) (nb kb j g : Nat) : Nat :=
  (o.f.b.toNat + (nb * o.f.kblk + kb) * o.f.wl) * 64 + (j * o.f.kt + g * o.f.gsize) * o.f.fmtB.bits / 8
/-- R152: bytes where the scales of those groups stand. -/
def MxOp.aScale (o : MxOp) (m kb g : Nat) : Nat :=
  (((o.f.a.toNat : Int) + sx 16 (fld o.setScl 15 0)) * 64).toNat + m * (o.f.k / 32) + kb * (o.f.kt / 32) + g
def MxOp.bScale (o : MxOp) (nb kb j g : Nat) : Nat :=
  (((o.f.b.toNat : Int) + sx 16 (fld o.setScl 31 16)) * 64).toNat + ((nb * o.f.kblk + kb) * 16 + j) * (o.f.kt / 32) + g

/-- R53: the exact sum of products of one group with its scales, and whether it carries poison. -/
def MxOp.group (o : MxOp) (s : State) (t : TileId) (m nb j kb g : Nat) : Fp × Bool :=
  let f := o.f
  let na := f.gsize * f.fmtA.bits / 8; let nbb := f.gsize * f.fmtB.bits / 8
  let pa := o.aByte m (kb * f.kt + g * f.gsize); let pb := o.bByte nb kb j g
  let xa := s.spadBytes t pa na; let xb := s.spadBytes t pb nbb
  let sum := (List.range f.gsize).foldl (fun v i =>
    Fp.add v (Fp.mul (f.fmtA.decode (elemAt xa f.fmtA.bits i)) (f.fmtB.decode (elemAt xb f.fmtB.bits i)))) (.fin true 0 0)
  let sa := o.aScale m kb g; let sb := o.bScale nb kb j g
  let sum := if f.fmtA.isMx then applyScale (s.spadB t sa).toNat sum else sum
  let sum := if f.fmtB.isMx then applyScale (s.spadB t sb).toNat sum else sum
  (sum, s.poisoned t pa na || s.poisoned t pb nbb
    || (f.fmtA.isMx && s.spadP t (sa / 64)) || (f.fmtB.isMx && s.spadP t (sb / 64)))

/-- R53: group sums enter an FP32 accumulator, each with one rounding; `init` none: the first replaces the entry. -/
def accFp (init : Option Nat) (l : List Fp) : Nat × Nat :=
  match l, init with
  | [], none => (0, 0)
  | [], some v => (v, 0)
  | p :: ps, i =>
    let r := match i with
      | none => f32.nearest p
      | some v => f32.nearest (Fp.add (f32.decode v) p)
    ps.foldl (fun b q => let r := f32.nearest (Fp.add (f32.decode b.1) q); (r.code, b.2 ||| r.stat)) (r.code, r.stat)

/-- R54: products enter an INT32 accumulator that clamps; true where it clamped. -/
def accInt (init : Int) (l : List Int) : Int × Bool :=
  l.foldl (fun b x =>
    let v := b.1 + x
    if v < intMin 32 then (intMin 32, true) else if intMax 32 < v then (intMax 32, true) else (v, b.2)) (init, false)

/-- R154, R157: an accumulator entry read as one type; where the last problem left the other, the value is free. (log 134, DEDUCED) -/
def State.accAs (s : State) (t : TileId) (e : Nat) (int : Bool) : W32 :=
  let ty := look (fun _ => 0) s.accTy (t.toNat * 16384 + e)
  if ty ≠ 0 ∧ decide (ty = 2) ≠ int then BitVec.ofNat 32 (s.draw (e + 2 ^ 20)) else s.accW t e

/-- R154: one entry of C: value, status bits, poison. `free` picks the order of accumulation (R53, R70), and where that
order saturates, the value itself (R54). -/
def MxOp.entry (o : MxOp) (s : State) (t : TileId) (m nb j : Nat) (free free2 : Nat) : Nat × Nat × Bool :=
  let f := o.f
  let e := 16 * f.c.toNat + m * f.n + 16 * nb + j
  let gs := (List.range f.kblk).flatMap fun kb => (List.range (f.kt / f.gsize)).map fun g => o.group s t m nb j kb g
  let bad := gs.any (·.2) || (f.acc && s.accP t e)
  let ordered := shuffle gs.length free gs
  if f.isInt then
    let init : Int := if f.acc then (s.accAs t e true).toInt else 0
    let (v, clamped) := accInt init (ordered.map fun x => x.1.dy.at 0)
    if clamped then (free2 % 2 ^ 32, 8, bad) else ((BitVec.ofInt 32 v).toNat, 0, bad)
  else
    let (v, st) := accFp (if f.acc then some (s.accAs t e false).toNat else none) (ordered.map (·.1))
    (v, st, bad)

/-- R154: every selected row's entries are written. `v` is the state that the operands are read in (R205). -/
def MxOp.result (o : MxOp) (s v : State) (t : TileId) : State :=
  let f := o.f
  let ids := (o.sel v t).flatMap fun m => (List.range f.n).map fun k => (m, k)
  let s' := each s ids fun cur x =>
    let e := 16 * f.c.toNat + x.1 * f.n + x.2
    let (v, st, bad) := o.entry v t x.1 (x.2 / 16) (x.2 % 16) (s.draw (2 * e)) (s.draw (2 * e + 1))
    let cur := ((cur.setAccW t e (BitVec.ofNat 32 v)).markAcc t e bad).numStat t (if bad then 0 else st)
    { cur with accTy := put (fun _ => 0) cur.accTy (t.toNat * 16384 + e) (if f.isInt then 2 else 1) }
  s'.drawn

/-- R442: rows of the running problem pass sub-tiles in a period that passes as a step: free many of those left. (log 136, DEDUCED) -/
def State.mxPass (s : State) (t : TileId) : State :=
  match (s.tileAt t).mxq with
  | [] => s
  | o :: l =>
    let unit := 16 * o.f.kt
    let left := (o.sel s t).length * o.f.n * o.f.k - o.counted
    let n := unit * (s.draw (2 ^ 61 + t.toNat) % (left / unit + 1))
    if !o.running ∨ !s.runs t ∨ n = 0 then s
    else (s.tcnt t o.f.counter n).setTile t { s.tileAt t with mxq := { o with counted := o.counted + n } :: l }

/-! ## The flume -/

/-- R166: kind of a stage. -/
def stKind (st : W32 × W32) : Nat := fld st.1 3 0

/-- R167: the stages of a chain. -/
def State.chainOf (s : State) (t : TileId) (h : Nat) : List (W32 × W32) :=
  (List.range (fld (s.tr t (0x1200 + 4 * h)) 3 0)).map fun k =>
    (s.tr t (0x1100 + 0x40 * h + 8 * k), s.tr t (0x1104 + 0x40 * h + 8 * k))

/-- R168: chain consistency against the partition's parameters. -/
def State.chainOk (s : State) (t : TileId) (ch : List (W32 × W32)) : Bool :=
  let (stages, fab) := match (s.partOf t).bind s.pcfg with
    | none => (0, 0)
    | some g => (g.stages.toNat, g.fabStages.toNat)
  let fs := (ch.filter fun st => decide (stKind st = 12)).map fun st => fld st.1 5 5
  decide (ch.length ≤ stages) && decide (fs.length ≤ fab) && decide fs.Nodup && fs.all (fun f => decide (f < fab))
    && ch.all fun st => decide (stKind st ≤ 12)

/-- Bytes of a stage operand's element. -/
def stWidth (st : W32 × W32) : Nat := if bit st.1 4 then 2 else 4

/-- R166: byte address of a stage operand of element (m, n), for kinds 1 to 3. -/
def DrOp.operandByte (o : DrOp) (st : W32 × W32) (m n : Nat) : Int :=
  let addr := fld st.1 21 6
  if stKind st = 3 then ((o.f.dst.toNat : Int) + sx 16 addr) * 64 + (m * fld o.shape 31 20 * 64 + n * stWidth st : Nat)
  else ((addr : Int) + o.vofs.toInt) * 64 + (n * stWidth st : Nat)

/-- N of a drain. -/
def DrOp.n (o : DrOp) : Nat := 16 * (fld o.shape 19 12 + 1)
/-- Output format. -/
def DrOp.fmt (o : DrOp) : EFmt := ⟨o.f.ofmt.toNat, o.f.ovar⟩
/-- R156: the entry span. -/
def DrOp.span (o : DrOp) : Nat × Nat := (16 * o.f.c.toNat, o.rows * o.n)
/-- R160: the mask line. -/
def DrOp.maskLine (o : DrOp) : Int := (fld o.aux 11 0 : Int) + o.mskOfs.toInt
/-- R163: byte of output row `m`, and of its scale bytes. -/
def DrOp.rowByte (o : DrOp) (m : Nat) : Nat := (o.f.dst.toNat + m * fld o.shape 31 20) * 64
def DrOp.scaleByte (o : DrOp) (m : Nat) : Int :=
  ((o.f.dst.toNat : Int) + sx 16 (fld o.aux 27 12)) * 64 + (m * (o.n / 32) : Nat)

/-- R168, R172: lines a stage operand occupies. -/
def DrOp.stageLinesOk (o : DrOp) (st : W32 × W32) : Bool :=
  match stKind st with
  | 1 => byteLines (o.operandByte st 0 0) (o.n * stWidth st)
  | 2 => byteLines (o.operandByte st 0 0) (o.n * stWidth st)
  | 3 => decide (o.rows = 0) || byteLines (o.operandByte st 0 0) ((o.rows - 1) * fld o.shape 31 20 * 64 + o.n * stWidth st)
  | _ => true

/-- R160, R163, R168, R172: start checks of a drain; 0 where it may start. A drain of no rows still names its mask line and its
column vectors (log 102, DEDUCED), and a scale field of 0xFF is refused whatever uses it (log 100, DEDUCED). Of several that fail the first tested
gives the code. (log 132, DESIGN CHOICE) -/
def DrOp.startFault (o : DrOp) (s : State) (t : TileId) : Nat :=
  let rowBytes := (o.n * o.fmt.bits + 7) / 8
  if !s.chainOk t o.chain then 0x43
  else if fld o.shape 31 20 = 0 ∨ (o.fmt.isMx ∧ fld o.shape 19 12 % 2 = 0) ∨ fld o.sws 7 0 = 0xFF then 0x42
  else if !((decide (o.rows = 0) || byteLines (o.rowByte 0) ((o.rows - 1) * fld o.shape 31 20 * 64 + rowBytes))
      && (!o.fmt.isMx || byteLines (o.scaleByte 0) (o.rows * (o.n / 32)))
      && (!o.f.msk || linesOk o.maskLine (max 1 ((o.rows + 511) / 512)))
      && o.chain.all o.stageLinesOk) then 0x40
  else if 16384 < o.span.1 + o.span.2 then 0x41
  else 0

/-- An FP32 or BF16 operand of a stage, with its poison. -/
def State.stOperand (s : State) (t : TileId) (st : W32 × W32) (b : Int) : Fp × Bool :=
  let a := b.toNat
  let v := leNat (s.spadBytes t a (stWidth st))
  (if bit st.1 4 then bf16.decode v else f32.decode v, s.spadP t (a / 64))

/-- R166: GELU, SILU, SIGMOID and TANH of a finite number in FP64. -/
def refStage (kind : Nat) (x : Dy) : Dy :=
  match kind with
  | 8 =>
    let c1 : Dy := ⟨3426888095, -32⟩      -- 0.797884561 to 32 fractional bits
    let c2 : Dy := ⟨192049463, -32⟩       -- 0.044715 to 32 fractional bits
    let u := c1.mul (x.add (c2.mul (x.mul (x.mul x))))
    -- (1 + tanh u) ÷ 2 is the sigmoid of 2u
    toF64 (x.mul (sigmDy ⟨u.m, u.e + 1⟩))
  | 9 => toF64 (x.mul (sigmDy x))
  | 10 => refSigm x
  | _ => refTanh x

/-- R166, R65: what the functions give at infinities: GELU and SILU of −∞ are 0 × ∞, NaN under R65 (log 99, DEDUCED); the others have
limits. -/
def stageInf (kind : Nat) (neg : Bool) : Fp :=
  match kind with
  | 8 => if neg then .nan else .inf false
  | 9 => if neg then .nan else .inf false
  | 10 => if neg then .fin false 0 0 else .fin false 1 0
  | _ => .fin neg 1 0

/-- R166: one stage other than FABRIC on a value: result with its status. -/
def DrOp.stage (o : DrOp) (s : State) (t : TileId) (st : W32 × W32) (m n : Nat) (x : W32) (free : Nat) : Res × Bool :=
  let v := fp x
  let imm := fp st.2
  match stKind st with
  | 1 => let (y, b) := s.stOperand t st (o.operandByte st m n); (f32.add v y, b)
  | 2 => let (y, b) := s.stOperand t st (o.operandByte st m n); (f32.nearest (v.mul y), b)
  | 3 => let (y, b) := s.stOperand t st (o.operandByte st m n); (f32.add v y, b)
  | 4 => (f32.nearest (v.mul imm), false)
  | 5 => (f32.add v imm, false)
  | 6 => (f32.nearest (v.max imm), false)
  | 7 => (f32.nearest (v.min imm), false)
  | 0 => ({ code := x.toNat }, false)
  | k =>
    match v with
    | .nan => ({ code := f32.canonNan, nan := true }, false)
    | .inf neg => (f32.nearest (stageInf k neg), false)
    | w =>
      let r := refStage k w.dy
      (pickNz (decide (k = 10) || decide (w.dy.m ≠ 0)) r (ulps (if k ≤ 9 then 3 else 2) r (some (-23))) free, false)

/-- Chains run from stage `k` to the next FABRIC stage or the end; a poisoned value sets no status (R423). Answers the stage reached. -/
def DrOp.runStages (o : DrOp) (s : State) (t : TileId) (m n free : Nat) :
    List (W32 × W32) → Nat → (W32 × Bool) × Nat → (W32 × Bool) × Nat × Nat
  | [], k, x => (x.1, x.2, k)
  | st :: r, k, x =>
    if stKind st = 12 then (x.1, x.2, k)
    else
      let (y, b) := o.stage s t st m n x.1.1 (s.draw (free * 8 + k))
      o.runStages s t m n free r (k + 1) ((BitVec.ofNat 32 y.code, x.1.2 || b), x.2 ||| if x.1.2 || b then 0 else y.stat)

/-- A beat moves from its stage to the next FABRIC stage or the end. -/
def DrOp.advance (o : DrOp) (s : State) (t : TileId) (b : Beat) : Beat × Nat :=
  let rs := b.vals.zipIdx.map fun x =>
    o.runStages s t b.row (b.col + x.2) (b.row * 4096 + b.col + x.2) (o.chain.drop b.stage) b.stage (x.1, 0)
  let stage := match rs.head? with | none => o.chain.length | some r => r.2.2
  ({ b with vals := rs.map (·.1), stage := stage, sent := false }, rs.foldl (fun a r => a ||| r.2.1) 0)

/-- R157, R163: an accumulator entry as the drain reads it; a type that disagrees reads a free value. -/
def DrOp.readEntry (o : DrOp) (s : State) (t : TileId) (e : Nat) : W32 × Bool :=
  let w := s.accAs t e o.f.ityp
  (if o.f.ityp then BitVec.ofNat 32 (f32.nearest (.fin (w.toInt < 0) w.toInt.natAbs 0)).code else w, s.accP t e)

/-- Rows a drain selects. -/
def DrOp.sel (o : DrOp) (s : State) (t : TileId) : List Nat :=
  (List.range o.rows).filter fun m => !o.f.msk || s.maskBit t o.maskLine m

/-- R163: the drain's reads: beats of 16 values for every selected row, in element order. -/
def DrOp.beatsOf (o : DrOp) (s : State) (t : TileId) : List Beat :=
  (o.sel s t).flatMap fun m => (List.range (o.n / 16)).map fun i =>
    { row := m, col := 16 * i, stage := 0, sent := false,
      vals := (List.range 16).map fun j => o.readEntry s t (16 * o.f.c.toNat + m * o.n + 16 * i + j) }

/-- R163, R157: with clr, each drained entry is set to 0 after it is read; its type stays as the last MX.PROB left it. -/
def DrOp.clear (o : DrOp) (s cur : State) (t : TileId) : State :=
  if !o.f.clr then cur else
  each cur ((o.sel s t).flatMap fun m => (List.range o.n).map fun k => 16 * o.f.c.toNat + m * o.n + k) fun c e =>
    (c.setAccW t e 0).markAcc t e false

/-! ## The drain's output -/

/-- `n` generator values and the tile after them. -/
def Tile.rands : Nat → Tile → List Nat × Tile
  | 0, tl => ([], tl)
  | n + 1, tl => let (v, tl) := tl.nextRand; let (l, tl) := tl.rands n; (v.toNat :: l, tl)

/-- R421: write bytes over the scratchpad with their poison: whole lines take the mark, parts set it only. -/
def State.putPoison (s : State) (t : TileId) (b n : Nat) (bad : Bool) : State :=
  each s (List.range ((b % 64 + n + 63) / 64)) fun s i =>
    let l := b / 64 + i
    let whole := decide (b ≤ 64 * l) && decide (64 * l + 64 ≤ b + n)
    if whole then s.markSpad t l bad else if bad || s.spadP t l then s.markSpad t l true else s

/-- A row's output: data bytes, scale bytes, status, and for each block of 32 whether it carries poison; such a block sets no status (R423). A
value that passes unchanged sets no inf (log 101, DEDUCED). -/
def DrOp.rowOut (o : DrOp) (vals : List (W32 × Bool)) (gs : List Nat) : List Byte × List Byte × Nat × List Bool × List Nat :=
  let f := o.fmt
  let blocks := (List.range ((vals.length + 31) / 32)).map fun i => (vals.drop (32 * i)).take 32
  let r := rndOf o.f.nc; let sat := satOf o.f.nc
  let out := blocks.foldl (fun (a : List Nat × List Byte × Nat × List Bool × List Nat) b =>
    let xs := b.map fun x => fp x.1
    let bad := b.any (·.2)
    if f.isMx then
      let (sc, cs, st, gs) := mxBlock f r sat (if o.f.hws then none else some (fld o.sws 7 0)) xs a.2.2.2.2
      (a.1 ++ cs, a.2.1 ++ [BitVec.ofNat 8 sc], a.2.2.1 ||| (if bad then 0 else st), a.2.2.2.1 ++ [bad], gs)
    else if f.num = 10 then (a.1 ++ xs.zipWith (fun x y => if x.isNan then f32.canonNan else y.1.toNat) b, a.2.1, a.2.2.1 ||| (if !bad && xs.any (·.isNan) then 1 else 0), a.2.2.2.1 ++ [bad], a.2.2.2.2)
    else
      let (cs, st, gs) := convAll f r sat 0 xs a.2.2.2.2
      (a.1 ++ cs, a.2.1, a.2.2.1 ||| (if bad then 0 else st), a.2.2.2.1 ++ [bad], gs)) ([], [], 0, [], gs)
  (packElems f.bits out.1, out.2.1, out.2.2.1, out.2.2.2.1, out.2.2.2.2)

/-- How many generator values a row draws. -/
def DrOp.rowDraws (o : DrOp) (vals : List (W32 × Bool)) : Nat :=
  let f := o.fmt; let r := rndOf o.f.nc
  if f.isMx then
    ((List.range ((vals.length + 31) / 32)).map fun i =>
      let xs := ((vals.drop (32 * i)).take 32).map fun x => fp x.1
      match hwScale f xs with
      | none => 0
      | some e => drawCount f r (if o.f.hws then e else (fld o.sws 7 0 : Int) - 127) xs).foldl (· + ·) 0
  else if f.num = 10 then 0 else drawCount f r 0 (vals.map fun x => fp x.1)

/-- R448: CRC-64 over bytes. -/
def crcBit (c : W64) (b : Bool) : W64 := if c.msb != b then (c <<< 1) ^^^ 0x42F0E1EBA9EA3693 else c <<< 1
def crc64 (c : W64) (bs : List Byte) : W64 :=
  bs.foldl (fun c b => [7, 6, 5, 4, 3, 2, 1, 0].foldl (fun c i => crcBit c (b.getLsbD i)) c) c

/-- R447: one value in the tensor statistics, the sum apart. -/
def State.statValue (s : State) (t : TileId) (x : W32 × Bool) : State :=
  let o := obsBase t
  if x.2 then s.incReg (o + 0xD4) 15 0 1 else
  let s := s.setReg (o + 0xCC) (BitVec.ofNat 32 (satAdd 0xFFFFFFFF (s.reg (o + 0xCC)).toNat 1))
  let v := fp x.1
  let s := if v.isInf then s.incReg (o + 0xD0) 31 16 1 else s
  if v.isNan then s.incReg (o + 0xD0) 15 0 1
  else
    let s := s.setReg (o + 0xC0) (BitVec.ofNat 32 (f32.nearest ((fp (s.reg (o + 0xC0))).min v)).code)
    s.setReg (o + 0xC4) (BitVec.ofNat 32 (f32.nearest ((fp (s.reg (o + 0xC4))).max v)).code)

/-- R447: the sum takes the values that wait, up to those of drains behind one that still runs. -/
def State.sumFlush (s : State) (t : TileId) : State :=
  let tl := s.tileAt t
  let ahead := (tl.drq.filter fun o => o.running && o.stat).map (·.seq)
  let due := tl.sums.filter fun x => ahead.all fun q => decide (x.1 ≤ q)
  if due.isEmpty then s else
  let s := s.setTile t { tl with sums := tl.sums.filter fun x => ahead.any fun q => decide (q < x.1) }
  each s due fun s x =>
    let a := obsBase t + 0xC8
    s.setReg a (BitVec.ofNat 32 (f32.add (fp (s.reg a)) (fp x.2)).code)

/-- R447, R448: a drained row's values and bytes in the statistics and the digest; its values join the sum in DR.WRITE order. -/
def State.statRow (s : State) (t : TileId) (seq : Nat) (vals : List (W32 × Bool)) (data scales : List Byte) (bad : Bool) : State :=
  let s := each s vals fun s x => s.statValue t x
  let tl := s.tileAt t
  let s := (s.setTile t { tl with sums := (vals.filter (!·.2)).foldl (fun l x => bySeq (·.1) (seq, x.1) l) tl.sums }).sumFlush t
  let o := obsBase t
  let c := if bad then BitVec.ofNat 64 (s.draw (2 ^ 45)) else crc64 (s.reg64 (o + 0xE0) (o + 0xE4)) (data ++ scales)
  (s.setReg (o + 0xE0) (c.extractLsb' 0 32)).setReg (o + 0xE4) (c.extractLsb' 32 32)

/-- R163: write one output row. -/
def DrOp.writeRow (o : DrOp) (s : State) (t : TileId) (m : Nat) (vals : List (W32 × Bool)) : State :=
  let tl := s.tileAt t
  let (gs, tl') := tl.rands (o.rowDraws vals)
  let (data, scales, st, bads, _) := o.rowOut vals gs
  let s := (s.setTile t tl').numStat t st
  let s := s.setSpadBytes t (o.rowByte m) data
  let blockBytes := 32 * o.fmt.bits / 8
  let s := each s bads.zipIdx fun s b => s.putPoison t (o.rowByte m + b.2 * blockBytes) (min blockBytes (data.length - b.2 * blockBytes)) b.1
  let s := if o.fmt.isMx then
      let s := s.setSpadBytes t (o.scaleByte m).toNat scales
      -- R423: the scale byte of a poisoned block
      each (s.putPoison t (o.scaleByte m).toNat scales.length false) bads.zipIdx fun s b =>
        if o.f.hws && b.1 then s.putPoison t ((o.scaleByte m).toNat + b.2) 1 true else s
    else s
  if o.stat then s.statRow t o.seq vals data scales (vals.any (·.2)) else s

/-- Does a beat have no FABRIC stage before it? -/
def DrOp.passed (o : DrOp) (b : Beat) : Bool := (o.chain.drop b.stage).all fun st => decide (stKind st ≠ 12)

/-- The rows a drain selected, ascending. -/
def DrOp.rowsSel (o : DrOp) : List Nat := (List.range o.rows).filter fun m => o.beats.any fun b => decide (b.row = m)
/-- Those not yet written. -/
def DrOp.rowsLeft (o : DrOp) : List Nat := o.rowsSel.filter fun m => decide (o.wrote ≤ m)
/-- The beats of a row. -/
def DrOp.beatsIn (o : DrOp) (m : Nat) : List Beat := o.beats.filter fun b => decide (b.row = m)
/-- Those of the rows left that can be written now: in row order, up to the first that waits for a FABRIC stage. -/
def DrOp.rowsDue (o : DrOp) : List Nat := o.rowsLeft.takeWhile fun m => (o.beatsIn m).all o.passed

/-- R163: a row passes what is left of its chain and is written. The first state takes the row; the second, in which stage operands are read
(R205), takes it too, since a later row reads behind it. -/
def DrOp.finishRow (o : DrOp) (t : TileId) (x : State × State) (m : Nat) : State × State :=
  let rs := (o.beatsIn m).map (o.advance x.2 t)
  let vals := rs.flatMap (·.1.vals)
  let st := rs.foldl (fun a r => a ||| r.2) 0
  (o.writeRow (x.1.numStat t st) t m vals, o.writeRow (x.2.numStat t st) t m vals)

/-- R163, R165: rows are finished in ascending order. -/
def DrOp.finish (o : DrOp) (s v : State) (t : TileId) (rows : List Nat) : State := (rows.foldl (o.finishRow t) (s, v)).1

/-- All values can pass the chain. -/
def DrOp.ready (o : DrOp) : Bool := o.running && o.beats.all o.passed

end Sys2Proof.Machine
end

