-- ==== Sys2Proof/Machine/VulOps.lean ====
section
/-!
DEFINITION. What a Vulor request does at its destination and an answer at its source (R290 to R296, R337).
-/
namespace Sys2Proof.Machine

/-! ## Answers at the source (R292, R293, R337) -/

/-- The transfer of a tag. -/
def State.mapXfer (s : State) (t : TileId) (q : Nat) (tag : BitVec 16) (f : Xfer → Xfer) : State :=
  let m := s.movq_ t q
  s.setMovq t q { m with inflight := m.inflight.map fun x => if x.tag = some tag then f x else x }

/-- One part's answer: `ok` with data for a read; a failure of a SIGNAL faults its context with REMOTE_ERROR. -/
def State.vulAnswer (s : State) (tag : BitVec 16) (part : Nat) (ok : Bool) (data : Option (List Byte)) (bad : Bool) : State :=
  match s.vulReqs.find? fun r => decide (r.tag = tag) with
  | none => s
  | some r =>
    let drop := fun (s : State) => { s with vulReqs := s.vulReqs.filter fun x => decide (x.tag ≠ tag) }
    if r.ty = .signal then
      let s := drop s
      if ok then s else s.loseCtx r.part r.ctx 0x54 (if r.charge then .tile r.tile else .none) (if r.charge then lossPlace r.tile 0 0 0 else 0) 0 0
    else
      let b : W64 := BitVec.ofNat 64 (2 ^ part)
      let s := s.mapXfer r.tile r.q.toNat tag fun x =>
        { x with okParts := if ok then x.okParts ||| b else x.okParts, failParts := if ok then x.failParts else x.failParts ||| b,
                 data := data.or x.data, poison := x.poison || bad }
      let all := 2 ^ r.parts - 1
      if (s.movq_ r.tile r.q.toNat).inflight.any fun x => decide (x.tag = some tag) && decide ((x.okParts ||| x.failParts).toNat % 2 ^ r.parts ≠ all)
      then s else drop s

/-! ## Routing (R290) -/

/-- An ACK or NACK of a part. -/
def State.reply (s : State) (m : Msg) (part : Nat) (nack : Option Nat) : Msg :=
  { ty := if nack.isSome then .nack else .ack, status := BitVec.ofNat 8 (nack.getD 0), dst := m.src, src := s.devId, mcount := 0,
    mdir := 0, group := m.group, tag := m.tag, lenM1 := 0, raddr := 0, value := BitVec.ofNat 64 part, data := [] }

/-- A response at its source. -/
def State.takeReply (s : State) (m : Msg) : State :=
  match m.ty with
  | .ack => s.vulAnswer m.tag (bits m.value.toNat 5 0) true none false
  | .nack => s.vulAnswer m.tag (bits m.value.toNat 5 0) false none false
  | .readData => s.vulAnswer m.tag 0 true (some m.data) (decide (m.status = 5))
  | _ => s

/-- A response travels to its source; one that finds no route is lost. -/
def State.sendReply (s : State) (m : Msg) (came : Option (Nat × Bool)) : State :=
  match s.route m.dst came with
  | .here => s.takeReply m
  | .port p c => s.emit p (3 + nat01 c) m
  | .noRoute => s

/-! ## Requests at their destination (R292, R293) -/

/-- The domain a place lies in, and whether it holds the access: R215, R392, R403, R405. -/
def Place.dom : Place → Nat
  | .hbm _ a => domHbm (stackOf a)
  | .tile t _ => domTile t
def State.placeHeld (s : State) (x : Place) (n : Nat) : Bool :=
  !s.serves x.dom || (match x with
    | .hbm p _ => (s.partAt p).resetting
    | .tile t b => s.quarHeld t b n || !s.runs t || (match s.partOf t with | some p => (s.partAt p).resetting | none => false))

/-- Write at a place; one in a scratchpad is an inbound access (R206). -/
def State.placeWrite (s : State) (x : Place) (bs : List Byte) (bad : Bool) : State :=
  match x with
  | .hbm _ a => s.putHbm a bs bad
  | .tile t b => (s.putSpad t b bs bad).inboundLines t (linesOfBytes b bs.length)
/-- Read at a place: bytes and poison. -/
def State.placeRead (s : State) (x : Place) (n : Nat) : List Byte × Bool :=
  match x with
  | .hbm _ a => (s.hbmBytes a n, s.hbmBad a n)
  | .tile t b => (s.spadBytes t b n, s.spadBad t b n)

/-- Is the request held where it arrives? -/
def State.reqHeld (s : State) (m : Msg) : Bool :=
  match s.reqPlace m with
  | .error _ => false
  | .ok (_, x) => s.placeHeld x (if m.ty = .signal then 8 else m.lenM1.toNat + 1)

/-! ### Parts of a multicast (R296)

A WRITE keeps the device of part 0 as its dst from part to part, for R296 changes its mcount alone; a part knows its number by its steps from
there (log 30, DEDUCED). -/

/-- Steps from one coordinate to another along a direction of R221. -/
def State.stepsTo (s : State) (dir : Nat) (d e : BitVec 18) : Nat :=
  let a := dir / 2; let n := s.axisSize a
  if dir % 2 = 0 then (devCoord e a % n + n - devCoord d a % n) % n else (devCoord d a % n + n - devCoord e a % n) % n

/-- Do two devices lie on one ring of the axis? -/
def State.inLine (axis : Nat) (d e : BitVec 18) : Bool := (List.range 3).all fun b => decide (b = axis) || decide (devCoord d b = devCoord e b)

/-- R290: does the way of a WRITE from its source to part 0 lead along mdir through this device, before part 0? -/
def State.onWay (s : State) (m : Msg) : Bool :=
  let a := m.mdir.toNat / 2; let n := s.axisSize a
  let f := s.stepsTo (2 * a) m.src m.dst
  decide ((if f ≤ n - f then 0 else 1) = m.mdir.toNat % 2)
    && ((List.range 3).all fun b => decide (b = a) || decide (devCoord s.devId b = devCoord (if b < a then m.dst else m.src) b))
    && decide (s.stepsTo m.mdir.toNat m.src s.devId < s.stepsTo m.mdir.toNat m.src m.dst)

/-- R296: the part of a request that this device is, as it came in on a port. -/
def State.partHere (s : State) (port : Option PortId) (m : Msg) : Option Nat :=
  let dir := m.mdir.toNat; let j := s.stepsTo dir m.dst s.devId
  if m.dst = s.devId then some 0
  else if m.ty = .write ∧ dir < 6 ∧ State.inLine (dir / 2) m.dst s.devId ∧ port = some (axisPort (dir / 2) (1 - dir % 2))
      ∧ j + m.mcount.toNat < s.axisSize (dir / 2) ∧ !(s.onWay m && decide (1 ≤ s.stepsTo dir m.src s.devId)) then some j
  else none

/-- The part that a request held at a port sets out for: the peer, where it goes on from part to part, and else part 0. -/
def State.partOut (s : State) (p : PortId) (m : Msg) : Nat :=
  let dir := m.mdir.toNat
  if m.ty = .write ∧ dir < 6 ∧ p = axisPort (dir / 2) (dir % 2) ∧ State.inLine (dir / 2) m.dst s.devId ∧ !s.onWay m then
    s.stepsTo dir m.dst (s.portAt p).peer
  else 0

/-- R292 step 3 and 4: what a request does here, and its answer, which starts on channel 0 of its class (R290). -/
def State.serve (s : State) (m : Msg) (port : Option PortId) (part : Nat) : State :=
  match s.reqPlace m with
  | .error e => s.sendReply (s.reply m part (some e)) none
  | .ok (p, x) =>
    match m.ty with
    | .write => (s.placeWrite x m.data false).sendReply (s.reply m part none) none
    | .read =>
      let n := m.lenM1.toNat + 1
      let (bs, bad) := s.placeRead x n
      s.sendReply { s.reply m 0 none with ty := .readData, status := if bad then 5 else 0, lenM1 := m.lenM1, data := bs, value := 0 } none
    | .signal =>
      let seen := match port with
        | none => false
        | some q => (s.portAt q).signals.contains (m.src, m.tag)
      let s := if seen then s else
        let s := s.tlApply p (m.raddr &&& 0xFFFFFFFFFF) m.value
        match port with
        | none => s
        | some q => s.setPort q { s.portAt q with signals := ((m.src, m.tag) :: (s.portAt q).signals).take 256 }
      s.sendReply (s.reply m 0 none) none
    | _ => s

/-- R296: a multicast WRITE goes on from part `j` to the next: to the peer along mdir, or to this device itself; a part that is neither lies in a
bypassed gap, or has no route, and is answered NO_ROUTE in its place. -/
def State.forward (s : State) (m : Msg) (port : Option PortId) (came : Option (Nat × Bool)) (j : Nat) : Nat → State
  | 0 => s
  | k + 1 =>
    if m.mcount = 0 then s else
    let dir := m.mdir.toNat
    let d := s.stepDev m.dst dir (j + 1)
    let m' := { m with mcount := m.mcount - 1 }
    let p := axisPort (dir / 2) (dir % 2)
    let q := s.portAt p
    if d = s.devId then (s.serve m' port (j + 1)).forward m' port came (j + 1) k
    else if q.st = .active ∧ q.peer = d ∧ State.inLine (dir / 2) d s.devId then
      let o := devCoord s.devId (dir / 2); let c := devCoord d (dir / 2)
      s.emit p (1 + nat01 ((if dir % 2 = 0 then decide (c < o) else decide (o < c)) || decide (came = some (dir / 2, true)))) m'
    else (s.sendReply (s.reply m' (j + 1) (some 1)) none).forward m' port came (j + 1) k

/-- R290: a request of this device sets out: it is served here, sent on a port, or answered NO_ROUTE at once. -/
def State.sendReq (s : State) (m : Msg) : State :=
  match s.route m.dst none with
  | .here => (s.serve m none 0).forward m none none 0 64
  | .port p c => s.emit p (1 + nat01 c) m
  | .noRoute => (s.vulAnswer m.tag 0 false none false).forward m none none 0 64

/-- R337: a signal of a context on a remote timeline sends a SIGNAL; a partition with group 0 (R292) or in EVENT mode (R35) sends nothing. `t`: the tile whose
program signalled; none where the headgate did. (log 65, DEDUCED) -/
def State.sendSignalFor (s : State) (t : Option TileId) (c : CtxId) (p : PartId) (o : Obj) (v : W64) : State :=
  if s.vulGroup p = 0 ∨ !s.timelineMode p then s else
  let (s, tag) := s.newTag
  let r : VulReq := { tag := tag, ty := .signal, tile := t.getD 0, charge := t.isSome, q := 0, part := p, ctx := c, parts := 1 }
  let s := { s with vulReqs := s.vulReqs ++ [r] }
  s.sendReq (s.signalMsg (s.vulGroup p) o tag v)

/-- R337: TL.SIG on a remote timeline. -/
def State.sendSignal (s : State) (t : TileId) (p : PartId) (o : Obj) (v : W64) : State := s.sendSignalFor (some t) (s.ctxOf t) p o v

end Sys2Proof.Machine
end

