-- ==== Sys2Proof/Machine/Canal.lean ====
section
/-!
DEFINITION. The canal (R268 to R275, R299): routers with a buffer for each class and input, routes, arbitration, beats and their errors, the
marker of a global stop, and the packets that units send over it. What a packet carries is in its `load`; its beats move one link a cycle.
-/
namespace Sys2Proof.Machine

/-! ## Routes (R268, R269, R275)

Inputs and outputs of a router: 0 its tile, 1 east, 2 west, 3 north, 4 south, 5 the spine of an outer row. -/

/-- R275: the router of spine `q` that serves column `x`: the outer row of its die, with the column clamped into the die's range. -/
def attach (q : BitVec 2) (x : Nat) : TileId :=
  let lo := 32 * (q.toNat % 2)
  tileXY (min (lo + 31) (max lo x)) (if q.toNat < 2 then 0 else 63)
/-- The column of a node; a spine has none of its own. -/
def CanNode.col : CanNode → Nat
  | .tile t => tileX t
  | .spine _ => 0
/-- The router at which a packet enters. -/
def CanPkt.entry (p : CanPkt) : TileId := match p.src with | .tile t => t | .spine q => attach q p.dst.col
/-- Its input there. -/
def CanPkt.port (p : CanPkt) : Nat := match p.src with | .tile _ => 0 | .spine _ => 5
/-- The router at which it leaves, and its output there. -/
def CanPkt.exit (p : CanPkt) : TileId × Nat := match p.dst with | .tile t => (t, 0) | .spine q => (attach q p.src.col, 5)
/-- R269: the output a packet takes at a router: along the row to the destination column, then along the column. -/
def CanPkt.outAt (p : CanPkt) (r : TileId) : Nat :=
  let (d, o) := p.exit
  if tileX r < tileX d then 1 else if tileX d < tileX r then 2 else if tileY d < tileY r then 3 else if tileY r < tileY d then 4 else o
/-- The router a link leads to, and its input there. -/
def linkTo (r : TileId) (o : Nat) : TileId × Nat :=
  match o with
  | 1 => (tileXY (tileX r + 1) (tileY r), 2) | 2 => (tileXY (tileX r - 1) (tileY r), 1)
  | 3 => (tileXY (tileX r) (tileY r - 1), 4) | _ => (tileXY (tileX r) (tileY r + 1), 3)
/-- R268: the links of a router: none leads beyond the grid's edge. -/
def linksOf (r : TileId) : List Nat :=
  (if tileX r < 63 then [1] else []) ++ (if 0 < tileX r then [2] else []) ++ (if 0 < tileY r then [3] else []) ++ (if tileY r < 63 then [4] else [])
/-- R268: a bridge link. -/
def isBridge (r : TileId) (o : Nat) : Bool :=
  (decide (o = 1) && decide (tileX r = 31)) || (decide (o = 2) && decide (tileX r = 32)) || (decide (o = 3) && decide (tileY r = 32))
    || (decide (o = 4) && decide (tileY r = 31))

/-! ## Buffers and outputs (R271) -/

/-- Table 11-1: number of a class. -/
def CanClass.code : CanClass → Nat
  | .control => 0 | .trace => 1 | .response => 2 | .request => 3
/-- The beats that stand in a router's buffer of class `k` behind input `i`. -/
def Canal.buf (c : Canal) (r : TileId) (k i : Nat) : List CanBeat := look (fun _ => []) c.bufs ((r.toNat * 4 + k) * 6 + i)
/-- Write a buffer. -/
def Canal.setBuf (c : Canal) (r : TileId) (k i : Nat) (l : List CanBeat) : Canal := { c with bufs := put (fun _ => []) c.bufs ((r.toNat * 4 + k) * 6 + i) l }
/-- What an output of a router keeps for class `k`. -/
def Canal.out (c : Canal) (r : TileId) (o k : Nat) : CanOut := look (fun _ => {}) c.outs ((r.toNat * 6 + o) * 4 + k)
/-- Write it. -/
def Canal.setOut (c : Canal) (r : TileId) (o k : Nat) (v : CanOut) : Canal := { c with outs := put (fun _ => {}) c.outs ((r.toNat * 6 + o) * 4 + k) v }
/-- A packet under way. -/
def Canal.pkt (c : Canal) (n : Nat) : Option CanPkt := (c.pkts.find? fun x => decide (x.1 = n)).map (·.2)

/-- The beat at the front of a buffer, where it goes to output `o`. -/
def Canal.wants (c : Canal) (r : TileId) (k o i : Nat) : Option CanBeat :=
  (c.buf r k i).head?.filter fun b => (c.pkt b.pkt).any fun p => decide (p.outAt r = o)
/-- R271: the input that class `k` serves at an output: that of the packet in progress, else the next in turn with a header. -/
def Canal.server (c : Canal) (r : TileId) (o k : Nat) : Option Nat :=
  let u := c.out r o k
  match u.owner with
  | some i => if (c.wants r k o i).isSome then some i else none
  | none => ((List.range 6).map fun j => (u.next + j) % 6).find? fun i => (c.wants r k o i).any (·.head)
/-- R271: a credit for the buffer at the other end of a link. How many beats a buffer holds the spec does not say. (log 122, DESIGN CHOICE) -/
def Canal.credit (c : Canal) (r : TileId) (o k : Nat) : Bool :=
  if o = 0 ∨ o = 5 then true else
  match c.buf (linkTo r o).1 k (linkTo r o).2 with
  | [] => true
  | l => decide (l.length < Config.canalBuffer k)
/-- R272: the largest trace share of any partition. -/
def State.traceMax (s : State) : Nat := (s.part.map fun e => match e.2.cfg with | some g => g.tracePct.toNat | none => 0).foldl max 0
/-- R272: the share of a link in percent: the partition's of its sending router, else the largest of any. -/
def State.traceShare (s : State) (r : TileId) : Nat :=
  match (s.partOf r).bind s.pcfg with
  | some g => g.tracePct.toNat
  | none => s.traceMax
/-- R272: TRACE is within its share of a link over the last 1,024 cycles. -/
def State.traceMay (s : State) (r : TileId) (o : Nat) : Bool :=
  let n := ((s.canal.out r o 1).used.filter fun x => decide (s.canal.cycle < x + 1024)).length
  decide ((n + 1) * 100 ≤ s.traceShare r * 1024)
/-- R271: what an output serves in a cycle: class and input. -/
def State.canalPick (s : State) (r : TileId) (o : Nat) : Option (Nat × Nat) :=
  let c := s.canal
  let of_ := fun (k : Nat) => if c.credit r o k then (c.server r o k).map fun i => (k, i) else none
  let aged := fun (k : Nat) => (of_ k).filter fun x => (c.wants r k o x.2).any fun b => decide (b.since + 64 ≤ c.cycle)
  [of_ 0, aged 2, aged 3, (of_ 1).filter fun _ => s.traceMay r o, of_ 2, of_ 3].findSome? id

/-! ## Sending -/

/-- R269: a packet's beats: its header and up to 64 of data. -/
def beatsOfPkt (n data : Nat) (at_ : Nat) : List CanBeat :=
  (List.range (data + 1)).map fun i => { pkt := n, head := decide (i = 0), last := decide (i = data), bad := false, since := at_ }
/-- A packet enters the canal at its source. -/
def State.inject (s : State) (p : CanPkt) : State :=
  let c := s.canal
  let k := p.cls.code
  let c : Canal := { c with next := c.next + 1, pkts := c.pkts ++ [(c.next, p)] }
  { s with canal := c.setBuf p.entry k p.port (c.buf p.entry k p.port ++ beatsOfPkt s.canal.next p.data c.cycle) }
/-- `n` data beats with a load, cut into packets of at most 64; the last carries the load, the others `part`. -/
def State.injectCut (s : State) (p : CanPkt) (part : CanLoad) : Nat → State
  | 0 => s.inject p
  | n + 1 => if p.data ≤ 64 then s.inject p
      else (s.inject { p with data := 64, load := part }).injectCut { p with data := p.data - 64 } part n

/-! ## Arrival -/

/-- The operation of tile `t` with a number, issued or walking its list. -/
def Tile.weirOp (tl : Tile) (q : Nat) : Option WeirOp :=
  match tl.wei.find? fun o => decide (o.seq = q) with
  | some o => some o
  | none => tl.walk.filter fun o => decide (o.seq = q)

/-- Replace it. -/
def Tile.setWeirOp (tl : Tile) (o : WeirOp) : Tile :=
  { tl with wei := tl.wei.map fun x => if x.seq = o.seq then o else x, walk := tl.walk.map fun x => if x.seq = o.seq then o else x }

/-- R274: lines of an operation's src and aux arrive poisoned. -/
def State.weirHurt (s : State) (t : TileId) (q : Nat) (bad : Bool) : State :=
  match (s.tileAt t).weirOp q with
  | some o => if bad then s.setTile t ((s.tileAt t).setWeirOp { o with hurt := true }) else s
  | none => s

/-- The transfer that a load names changes. -/
def State.mapFlight (s : State) (t : TileId) (q stream : Nat) (pos : Pos) (f : Xfer → Xfer) : State :=
  let m := s.movq_ t q
  if m.inflight.any fun x => decide (x.stream = stream) && decide (x.pos = pos) then
    s.setMovq t q { m with inflight := m.inflight.map fun x => if x.stream = stream ∧ x.pos = pos then f x else x }
  else s

/-- R269, R274: a packet's last beat has left the canal: its load arrives. A request of a mover is answered. -/
def State.canalArrive (s : State) (p : CanPkt) : State :=
  match p.load with
  | .post x t => s.setTile t { s.tileAt t with rposts := (s.tileAt t).rposts ++ [x] }
  | .xfer t q st pos false n =>
    let s := if p.bad then s.mapFlight t q st pos fun x => { x with hurt := true } else s
    s.inject { cls := .response, src := p.dst, dst := p.src, data := n, load := .xfer t q st pos true 0, bad := false }
  | .xfer t q st pos true _ => s.mapFlight t q st pos fun x => { x with legs := x.legs - 1, hurt := x.hurt || p.bad }
  | .weir v t n =>
    let s := s.weirHurt t n p.bad
    s.setTile v { s.tileAt v with weirArrived := (s.tileAt v).weirArrived ++ [(t, n)] }
  | .weirData t n => s.weirHurt t n p.bad
  | .traces g l => s.setPart g { s.partAt g with sink := (s.partAt g).sink ++ l }
  | _ => s

/-- A beat leaves the canal at an output to a tile or a spine. -/
def State.beatOut (s : State) (b : CanBeat) : State :=
  let c := s.canal
  match c.pkt b.pkt with
  | none => s
  | some p =>
    let p := { p with bad := p.bad || b.bad }
    if b.last then ({ s with canal := { c with pkts := c.pkts.filter fun x => decide (x.1 ≠ b.pkt) } } : State).canalArrive p
    else { s with canal := { c with pkts := c.pkts.map fun x => if x.1 = b.pkt then (b.pkt, p) else x } }

/-! ## Errors on links (R274, R299, R425) -/

/-- What a link makes of a beat: nothing, one bit corrected, an uncorrectable error. -/
inductive LinkErr | none | corrected | poisoned
  deriving DecidableEq, Repr

/-- The outcome of a beat on a link: free. (log 123, DESIGN CHOICE) -/
def State.linkErr (s : State) (j : Nat) : LinkErr :=
  match s.draw (2 ^ 55 + j) % 2 ^ 20 with
  | 0 => .corrected | 1 => .poisoned | _ => .none

/-- R274, R299, R425, R426: an error on a link of a router is counted at its die's spine; one that is not corrected is recorded. -/
def State.linkCount (s : State) (r : TileId) (u : ErrUnit) (e : LinkErr) : State :=
  let a := spineBase (dieOf r) + 8
  match e with
  | .none => s
  | .corrected => s.incReg a 15 0 1
  | .poisoned => (s.incReg a 31 16 1).errAt r (s.tileErr r 2 u 2 0 0 0 0)

/-! ## A cycle -/

/-- A beat moves: class `k`, from input `i` to output `o` of a router. `err`: what its link makes of it. -/
def State.beatMove (s : State) (r : TileId) (o k i : Nat) (err : LinkErr) : State :=
  let c := s.canal
  match c.buf r k i with
  | [] => s
  | b :: l =>
    let u := c.out r o k
    let u : CanOut :=
      { owner := if b.last then none else some i, next := if b.head then (i + 1) % 6 else u.next,
        used := if k = 1 then (u.used.filter fun x => decide (c.cycle < x + 1024)) ++ [c.cycle] else u.used }
    let c := (c.setBuf r k i l).setOut r o k u
    let b := { b with bad := b.bad || decide (err = .poisoned), since := c.cycle + 1 }
    let s : State := { s with canal := c }
    let s := if o = 0 ∨ o = 5 then s.beatOut b
             else let n := linkTo r o
               { s with canal := c.setBuf n.1 k n.2 (c.buf n.1 k n.2 ++ [b]) }
    s.linkCount r .can err

/-- R460: routers that hold the marker and have not forwarded it send it on all their links, and to nothing else in this cycle (R273). -/
def Canal.flood (c : Canal) : Canal :=
  let l := (c.front.flatMap fun r => (linksOf r).map fun o => (linkTo r o).1).eraseDups.filter fun r => !c.marks.contains r
  { c with marks := c.marks ++ l, front := l }

/-- R299: a beat waits at a bridge link output of a die in the cycle whose moves are given. -/
def State.bridgeWaits (s : State) (rs : List TileId) (mv : List (TileId × Nat × Nat × Nat)) : List Nat :=
  ((rs.flatMap fun r => ((linksOf r).filter fun o => isBridge r o && ((List.range 24).any fun x =>
      (s.canal.wants r (x / 6) o (x % 6)).isSome && !mv.contains (r, o, x / 6, x % 6))).map fun _ => dieOf r)).eraseDups

/-- R273: a router that the marker of a stop in progress has reached sends its tile nothing before the marker, which STOP_MARKER_ARRIVAL brings. -/
def State.linkHeld (s : State) (r : TileId) : Bool :=
  s.canal.marks.contains r && decide (s.gs.st = .stopping) && s.stoppedOver r && !(s.tileAt r).marker

/-- Routers that hold beats. -/
def Canal.busy (c : Canal) : List TileId := (c.bufs.map fun e => (BitVec.ofNat 12 (e.1 / 24) : TileId)).eraseDups
/-- What moves in a cycle: router, output, class and input. -/
def State.canalMoves (s : State) : List (TileId × Nat × Nat × Nat) :=
  s.canal.busy.flatMap fun r =>
    ((List.range 6).filter fun o => (!s.canal.front.contains r || decide (o = 5)) && !(decide (o = 0) && s.linkHeld r)).filterMap fun o =>
      (s.canalPick r o).map fun x => (r, o, x.1, x.2)
/-- Nothing will move: no marker is on its way, and what stands in buffers waits for no share of a link. -/
def State.canalStill (s : State) : Bool :=
  s.canal.front.isEmpty && s.canalMoves.isEmpty && s.canal.bufs.all fun e => decide (e.1 / 6 % 4 ≠ 1)

/-- One cycle of the fast clock at every router. `noisy`: its beats take free errors. -/
def State.canalCycle (s : State) (noisy : Bool) : State :=
  let c := s.canal
  if c.bufs.isEmpty ∧ c.front.isEmpty then s else
  let rs := c.busy
  let mv := s.canalMoves
  let w := s.bridgeWaits rs mv
  let s := each s mv.zipIdx fun s y => s.beatMove y.1.1 y.1.2.1 y.1.2.2.1 y.1.2.2.2 (if noisy then s.linkErr y.2 else .none)
  let s := each s w fun s d => s.incReg (spineBase d + 4) 15 0 1
  let s : State := { s with canal := { s.canal.flood with cycle := s.canal.cycle + 1 } }
  if noisy then s.drawn else s

/-- `n` cycles, or fewer where nothing is under way. -/
def State.canalRun : Nat → State → State
  | 0, s => s
  | n + 1, s => if s.canal.bufs.isEmpty ∧ s.canal.front.isEmpty then s else State.canalRun n (s.canalCycle true)

/-- The cycles that pass, at most `n`, before `want` holds. -/
def State.canalUntil (want : State → Bool) : Nat → State → State
  | 0, s => s
  | n + 1, s => if want s ∨ s.canalStill then s else State.canalUntil want n (s.canalCycle false)

/-- What a command waits for arrives: the cycles that the canal takes for it pass before the command, with no error on a link.
(log 122, DESIGN CHOICE) -/
def State.bring (s : State) (want : State → Bool) : State :=
  if want s then s else State.canalUntil want (2 ^ 18 * (1 + ((s.canal.bufs.map fun e => e.2.length).foldl (· + ·) 0))) s

/-! ## What units send -/

/-- R142, R229: a post sets out to a tile. -/
def State.sendPost (s : State) (t d : TileId) (x : RPost) : State :=
  s.inject { cls := .control, src := .tile t, dst := .tile d, data := 0, load := .post x d, bad := false }

/-- A post is on its way to the tile. -/
def State.postComes (s : State) (t : TileId) : Bool :=
  s.canal.pkts.any fun x => match x.2.load with | .post _ d => decide (d = t) | _ => false

/-- R142: the next post for a tile reaches it. -/
def State.bringPost (s : State) (t : TileId) : State := s.bring fun s => !(s.tileAt t).rposts.isEmpty || !s.postComes t

/-- Packets cross the canal at once. -/
def State.cross (s : State) (l : List CanPkt) : State :=
  let n := s.canal.next
  (each s l fun s p => s.inject p).bring fun s => !s.canal.pkts.any fun x => decide (n ≤ x.1) && decide (x.1 < n + l.length)

end Sys2Proof.Machine
end

