-- ==== Sys2Proof/Machine/MovOps.lean ====
section
/-!
DEFINITION. The mover (R219 to R249): descriptors and their checks, arming and queues, the positions of a stream's
transfers, admission under the sluice, retirement, stops and faults; and the load port of instruction memory (R116).
-/
namespace Sys2Proof.Machine

/-! ## Instruction memory (R115, R116) -/

/-- R116: is a bank of an engine writable? -/
def State.imemOpen (s : State) (t : TileId) (e : EngId) (bank : Bool) : Bool :=
  let g := s.engAt t e
  decide (g.bank ≠ bank) || decide (g.st = .idle)

/-- R116: a dropped write. -/
def State.imemDrop (s : State) (t : TileId) : State :=
  (s.setTr t 0x188 (setBit (s.tr t 0x188) 0 true)).incReg (tileBase t + 0x188) 31 16 1

/-- R116: a word arrives at the load port. -/
def State.imemWord (s : State) (t : TileId) (e : EngId) (bank : Bool) (word : Nat) (v : W32) : State :=
  if s.imemOpen t e bank then
    s.putImem t e bank (2 * word) [v.extractLsb' 0 16, v.extractLsb' 16 16]
  else s.imemDrop t

/-- Replace one byte of a halfword. -/
def putHalf (h : W16) (hi : Bool) (b : Byte) : W16 := if hi then b ++ h.extractLsb' 0 8 else h.extractLsb' 8 8 ++ b

/-- Bytes of instruction memory from byte `a` of a bank. -/
def State.imemBytesAt (s : State) (t : TileId) (e : EngId) (bank : Bool) (a n : Nat) : List Byte :=
  (List.range n).map fun i => let h := s.imemH t e bank ((a + i) / 2); if (a + i) % 2 = 1 then h.extractLsb' 8 8 else h.extractLsb' 0 8

/-- R224: bytes of a stream arrive at instruction memory; a word that is dropped is counted at its last byte. -/
def State.imemBytes (s : State) (t : TileId) (e : EngId) (bank : Bool) (a : Nat) : List Byte → State
  | [] => s
  | b :: bs =>
    let s := if s.imemOpen t e bank then s.setImemH t e bank (a / 2) (putHalf (s.imemH t e bank (a / 2)) (decide (a % 2 = 1)) b)
             else if a % 4 = 3 then s.imemDrop t else s
    s.imemBytes t e bank (a + 1) bs

/-- R245, R420: instruction memory has no poison mark: a word that takes bytes of a poisoned transfer holds bits that no code corrects, until it is
written whole again. (log 119, DEDUCED) -/
def State.imemSpoil (s : State) (t : TileId) (e : EngId) (bank : Bool) (a n : Nat) (bad : Bool) : State :=
  if !s.imemOpen t e bank then s else
  each s (List.range ((a % 4 + n + 3) / 4)) fun s i =>
    let w := a / 4 + i
    if bad then s.setImemP t e bank w true
    else if a ≤ 4 * w ∧ 4 * w + 4 ≤ a + n then s.setImemP t e bank w false else s

/-! ## Descriptors (Tables 9-1, 9-2) -/

/-- A descriptor's fields. -/
structure DescV where
  far : Nat
  space : Nat
  out : Bool
  msk : Bool
  inv : Bool
  q : Nat
  imem : Bool
  eng : Nat
  bank : Bool
  target : W32
  run : Nat
  lpitch : Nat
  c1 : Nat
  c2 : Nat
  c3 : Nat
  c4 : Nat
  s1 : Int
  s2 : Int
  s3 : Int
  s4 : Int
  mline : Nat
  deriving DecidableEq, Repr

/-- Table 9-1. -/
def descOf (w : List W32) : DescV :=
  let g := fun i => w.getD i 0
  { far := (g 0).toNat + (g 1).toNat * 2 ^ 32, space := fld (g 2) 3 0, out := bit (g 2) 4, msk := bit (g 2) 5, inv := bit (g 2) 6,
    q := fld (g 2) 8 7, imem := bit (g 2) 9, eng := fld (g 2) 11 10, bank := bit (g 2) 12, target := g 3,
    run := fld (g 4) 15 0 + 1, lpitch := fld (g 4) 31 16, c1 := fld (g 5) 15 0, c2 := fld (g 5) 31 16, c3 := fld (g 6) 15 0,
    c4 := fld (g 6) 31 16, s1 := (g 7).toInt, s2 := (g 8).toInt, s3 := (g 9).toInt, s4 := (g 10).toInt, mline := fld (g 11) 11 0 }

/-- R220, R221: reserved fields are 0, the space is listed, and a FABRIC stream has no far side pattern. -/
def descOk (w : List W32) : Bool :=
  let d := descOf w
  let g := fun i => w.getD i 0
  let used : W32 := match d.space with | 0 => 0x3FFFF | 4 => 0x1FFFFF | 5 => 0x7FFFFFF | 6 => 0xF | _ => 0
  decide (fld (g 2) 31 13 = 0) && decide (fld (g 11) 31 12 = 0) && (w.drop 12).all (· == 0) && decide (d.space ≤ 6)
    && decide (d.target &&& ~~~used = 0) && (decide (d.space ≠ 5) || decide (fld d.target 26 24 ≤ 5))
    && (decide (d.space ≠ 1) || decide (d.far < 2 ^ 40)) && (decide (d.space ≠ 2) || decide (d.far < 2 ^ 36))
    && (decide (d.space ≠ 6) || (decide (d.far = 0) && decide (d.s1 = 0) && decide (d.s2 = 0) && decide (d.s3 = 0) && decide (d.s4 = 0)))

/-- Local pitch. -/
def DescV.lp (d : DescV) : Nat := if d.lpitch = 0 then d.run else d.lpitch
/-- Table 9-2: the unit. -/
def DescV.unit (d : DescV) : Nat :=
  match d.space with | 1 => 256 | 2 => 256 | 3 => 512 | 5 => 4096 | _ => 64
/-- Places of the target rectangle, row-major (R244). -/
def DescV.rect (d : DescV) : List (Nat × Nat) :=
  (List.range (fld d.target 17 15 + 1)).flatMap fun j => (List.range (fld d.target 14 12 + 1)).map fun i =>
    (fld d.target 5 0 + i, fld d.target 11 6 + j)
/-- The target tiles. -/
def DescV.tiles (d : DescV) : List TileId := d.rect.map fun p => tileXY p.1 p.2
/-- R244: parts. -/
def DescV.parts (d : DescV) : Nat :=
  match d.space with | 0 => d.rect.length | 5 => fld d.target 23 18 + 1 | _ => 1
/-- R221: the class that pays: 0 read, 1 write, 2 remote. -/
def DescV.cls (d : DescV) (t : TileId) : Nat :=
  if d.space = 5 ∨ (d.space = 0 ∧ d.rect ≠ [(tileX t, tileY t)]) then 2 else nat01 d.out
/-- R222: rows that the pattern names. -/
def DescV.count (d : DescV) (n1 : Nat) : Nat := n1 * d.c2 * d.c3 * d.c4
/-- R223: lowest and highest far byte. -/
def DescV.extent (d : DescV) (n1 : Nat) : Int × Int :=
  let sp := fun (c : Nat) (x : Int) => (c : Int) * x - x
  let l := [sp n1 d.s1, sp d.c2 d.s2, sp d.c3 d.s3, sp d.c4 d.s4]
  (l.foldl (fun a x => a + min 0 x) (d.far : Int), l.foldl (fun a x => a + max 0 x) (d.far : Int) + (d.run : Int) - 1)

/-- A share of FEAT_PSPLIT. -/
def State.share (s : State) (t : TileId) (k : Nat) : Nat :=
  match (s.partOf t).bind s.pcfg with
  | none => 0
  | some c => match k with | 0 => c.rd.toNat | 1 => c.wr.toNat | _ => c.rm.toNat

/-- R220 to R225, R233, R236, R243, R244, R296: the fault a stream's start meets; 0 for none. `w` is the descriptor as it stands; `d` has the
generator's offsets applied. -/
def State.startFault (s : State) (t : TileId) (p : PartId) (a : Arm) (w : List W32) (d : DescV) (n1 : Nat) : Nat :=
  let n := d.count n1
  let last := a.line.toNat * 64 + (n - 1) * d.lp + d.run
  let e := d.extent n1
  let al := s.alloc p
  if !descOk w then 0x50
  else if d.lpitch ≠ 0 ∧ d.lpitch < d.run then 0x50
  else if a.rsig ∧ ¬(d.space = 0 ∧ d.out) then 0x50
  else if d.imem ∧ (d.out ∨ d.lpitch ≠ 0 ∨ d.run % 4 ≠ 0) then 0x50
  else if d.c1 < n1 then 0x58
  else if n ≠ 0 ∧ (if d.imem then 16384 else 262144) < last then 0x50
  else if d.msk ∧ 4096 < d.mline + (n1 + 511) / 512 then 0x50
  else if d.space = 0 ∧ !d.out ∧ 1 < d.rect.length then 0x50
  else if d.space = 0 ∧ d.rect.any (fun x => decide (64 ≤ x.1) || decide (64 ≤ x.2) || decide (s.partOf (tileXY x.1 x.2) ≠ some p)) then 0x52
  else if d.space = 6 ∧ !((s.pcfg p).any fun c => c.ingress.getLsbD (fld d.target 3 0)) then 0x52
  else if d.space = 5 ∧ 1 < d.parts ∧ (!d.out ∨ s.axisSize (fld d.target 26 24 / 2) < d.parts) then 0x52
  else if d.cls t = 2 ∧ s.share t 2 = 0 then 0x52
  else if n = 0 then 0
  else
    let lim : Option Nat := match d.space with | 0 => some 262144 | 1 => some (2 ^ 40) | 2 => some (2 ^ 36) | 3 => some al | _ => none
    match lim with
    | none => 0
    | some l => if e.1 < 0 ∨ (l : Int) ≤ e.2 then 0x51 else 0

/-- Table 10-3: what the loader checks of every descriptor at its planned rows, whether an instruction names it or not: R220, R224, and that its
mask's lines, its run of local lines from line 0 and its target tile's lines lie within 0 to 4,095 (R223). -/
def descFits (w : List W32) : Bool :=
  let d := descOf w
  let n := d.count d.c1
  let x := d.extent d.c1
  descOk w && (!d.imem || (!d.out && decide (d.lpitch = 0) && decide (d.run % 4 = 0)))
    && (decide (n = 0) || (decide ((n - 1) * d.lp + d.run ≤ if d.imem then 16384 else 262144)
      && (!d.msk || decide (d.mline + (d.c1 + 511) / 512 ≤ 4096))
      && (decide (d.space ≠ 0) || (decide (0 ≤ x.1) && decide (x.2 < 262144)))))

/-! ## Positions (R222, R230) -/

/-- The descriptor of a started stream. -/
def Stream.d (x : Stream) : DescV := descOf x.words
/-- Is row `i1` selected? -/
def Stream.sel (x : Stream) (i : Nat) : Bool := !x.d.msk || (x.mask.getD i false != x.d.inv)
/-- The first selected row at or after `i`. -/
def Stream.rowFrom (x : Stream) (i : Nat) : Option Nat := firstBelow x.n1 fun j => decide (i ≤ j) && x.sel j
/-- The first transfer. -/
def Stream.first (x : Stream) : Option Pos :=
  if x.d.count x.n1 = 0 then none else (x.rowFrom 0).map fun i => { i1 := i }
/-- Far address of a position, wrapping. -/
def Stream.farAt (x : Stream) (p : Pos) : W64 :=
  let d := x.d
  BitVec.ofInt 64 ((d.far : Int) + p.i1 * d.s1 + p.i2 * d.s2 + p.i3 * d.s3 + p.i4 * d.s4 + p.off)
/-- Length of the transfer at a position. -/
def Stream.lenAt (x : Stream) (p : Pos) : Nat :=
  let u := x.d.unit
  min (x.d.run - p.off) (u - (x.farAt p).toNat % u)
/-- Local byte of a position. -/
def Stream.locAt (x : Stream) (p : Pos) : Nat :=
  let d := x.d
  x.arm.line.toNat * 64 + (((p.i4 * d.c3 + p.i3) * d.c2 + p.i2) * x.n1 + p.i1) * d.lp + p.off
/-- The transfer after a position. -/
def Stream.after (x : Stream) (p : Pos) : Option Pos :=
  let d := x.d
  if p.off + x.lenAt p < d.run then some { p with off := p.off + x.lenAt p }
  else match x.rowFrom (p.i1 + 1) with
    | some i => some { p with i1 := i, off := 0 }
    | none =>
      let i := (x.rowFrom 0).getD 0
      if p.i2 + 1 < d.c2 then some { p with i1 := i, i2 := p.i2 + 1, off := 0 }
      else if p.i3 + 1 < d.c3 then some { p with i1 := i, i2 := 0, i3 := p.i3 + 1, off := 0 }
      else if p.i4 + 1 < d.c4 then some { p with i1 := i, i2 := 0, i3 := 0, i4 := p.i4 + 1, off := 0 }
      else none
/-- All transfers from a position on. -/
def Stream.rest (x : Stream) : Nat → Option Pos → List Pos
  | 0, _ => []
  | _, none => []
  | n + 1, some p => p :: x.rest n (x.after p)

/-! ## Arming (R225 to R227) -/

/-- The words of a descriptor. -/
def State.descWords (s : State) (t : TileId) (d : Nat) : List W32 :=
  (List.range 16).map fun i => s.tr t (0x1500 + 0x40 * d + 4 * i)

/-- R226: an arming enters the tail of its queue. (log 81, DEDUCED) -/
def State.enterQueue (s : State) (t : TileId) (a : Arm) : State :=
  let q := (descOf (s.descWords t a.desc.toNat)).q
  let m := s.movq_ t q
  let s := s.setMovq t q { m with arms := m.arms ++ [a] }
  s.setMovd t a.desc.toNat { s.movd_ t a.desc.toNat with armed := true }

/-- R226: the three outcomes of an arming. -/
def State.arm (s : State) (t : TileId) (a : Arm) : State :=
  let v := s.movd_ t a.desc.toNat
  if !v.armed ∧ !v.running then s.enterQueue t a
  else if v.pending.isNone then s.setMovd t a.desc.toNat { v with pending := some a }
  else s.setMovd t a.desc.toNat { v with rearmOverrun := true, overrunCnt := BitVec.ofNat 16 (satAdd 0xFFFF v.overrunCnt.toNat 1) }

/-- R225, R246: no descriptor is armed or running, and no pending slot is full. -/
def State.moverIdle (s : State) (t : TileId) : Bool :=
  (List.range 8).all fun d => let v := s.movd_ t d; !v.armed && !v.running && v.pending.isNone

/-! ## Faults (R243, R244) -/

/-- R243: the MOV engine at a mover fault: at its word boundary it is FAULTED; an IDLE engine stays IDLE. -/
def State.movEngineFault (s : State) (t : TileId) (code : Nat) : State :=
  let g := s.engAt t 2
  match g.st with
  | .idle => s
  | .halted => s.setEng t 2 { g with before := .faulted, code := BitVec.ofNat 8 code, faultPc := g.pc, ending := false, fence := none }
  | _ => s.setEng t 2 { g with st := .faulted, code := BitVec.ofNat 8 code, faultPc := g.pc, ending := false, fence := none }

/-- What a free byte is: one of step `k`'s free values. -/
def State.freeByte (s : State) (k : Nat) : Byte := BitVec.ofNat 8 (s.draw k)
def State.freeBytes (s : State) (k n : Nat) : List Byte := (List.range n).map fun i => s.freeByte (k + i)

/-- The transfer of a position, before it is admitted. -/
def Stream.xfer (x : Stream) (i : Nat) (p : Pos) : Xfer :=
  { stream := i, pos := p, far := x.farAt p, loc := x.locAt p, len := x.lenAt p, page := none, data := none, poison := false,
    tag := none, okParts := 0, failParts := 0, refused := false, lost := [] }

/-- R221: page number and offset of a CISTERN or SIDEBAND far address. -/
def pageFar (space : Nat) (far : W64) : Lpn × Nat :=
  if space = 1 then (far.extractLsb' 16 24, far.toNat % 65536) else (far.extractLsb' 12 24, far.toNat % 4096)

/-- Resolve the page of a CISTERN or SIDEBAND transfer. -/
def State.xferPage (s : State) (t : TileId) (d : DescV) (f : Xfer) : State × Option MapRes :=
  if d.space = 1 ∨ d.space = 2 then
    match s.partOf t with
    | none => (s, none)
    | some p => let r := s.resolve p t .mover (s.ctxOf t) (pageFar d.space f.far).1; (r.1, some r.2)
  else (s, none)

/-- The device HBM address of an HBM, CISTERN or SIDEBAND transfer in HBM. -/
def State.xferHbm (s : State) (t : TileId) (d : DescV) (f : Xfer) : Option Nat :=
  match s.partOf t with
  | none => none
  | some p =>
    match d.space, f.page with
    | 3, _ => s.hbmOf p f.far.toNat f.len
    | 1, some g => s.hbmOf p (g.frame.toNat * 65536 + f.far.toNat % 65536) f.len
    | 2, some g => s.hbmOf p (s.frameSide p t .mover (s.ctxOf t) g.frame + f.far.toNat % 4096) f.len
    | _, _ => none

/-- Slot byte of a transfer to a cistern page or its sideband. -/
def slotByte (space : Nat) (g : PageAt) (far : W64) : Nat :=
  if space = 1 then g.slot.toNat * 65536 + far.toNat % 65536 else g.slot.toNat * 4096 + far.toNat % 4096

/-- R243: the destination of a transfer that a fault leaves unpredictable: it takes free values. (log 76, DEDUCED) -/
def State.scramble (s : State) (t : TileId) (x : Stream) (f : Xfer) (k : Nat) : State :=
  let d := x.d
  let bs := s.freeBytes k f.len
  if !d.out then
    if d.imem then each s (List.range f.len) fun s i =>
      let b := f.loc + i; let e := BitVec.ofNat 2 d.eng
      if s.imemOpen t e d.bank then s.setImemH t e d.bank (b / 2) (putHalf (s.imemH t e d.bank (b / 2)) (decide (b % 2 = 1)) (bs.getD i 0))
      else s
    else s.setSpadBytes t f.loc bs
  else match d.space with
    | 0 => each s d.tiles fun s g => s.setSpadBytes g f.far.toNat bs
    | 4 => s.hostWrite (if bit d.target 20 then some (d.target.extractLsb' 0 20) else none) f.far.toNat bs
    | 5 => s
    | 6 => s
    | _ =>
      let (s, f) := match f.page, s.xferPage t d f with
        | none, (s, some (.page g)) => (s, { f with page := some g })
        | _, _ => (s, f)
      match f.page, s.xferHbm t d f with
      | none, some h => s.setHbmBytes h bs
      | none, none => s
      | some g, h =>
        if g.inCistern then
          if d.space = 1 then s.setCisBytes g.tile (slotByte 1 g f.far) bs else s.setSideBytes g.tile (slotByte 2 g f.far) bs
        else match h with | some h => s.setHbmBytes h bs | none => s

/-- R243, R244: what MOV_FAULT records. -/
structure MFault where
  code : Nat
  q : Nat
  desc : Nat
  parts : Nat
  mask : W64
  addr : Nat
  deriving DecidableEq, Repr

/-- R243: a fault of a queue is recorded, raised and loses the context. `i`: the number of the stream that faults, where it had started: its
admitted transfers do not complete; those of other streams do. -/
def State.movFault (s : State) (t : TileId) (i : Option Nat) (f : MFault) : State :=
  let m := s.movq_ t f.q
  let s := s.setMovq t f.q { m with
    faulted := true, code := BitVec.ofNat 8 f.code, why := none, stop := { m.stop with valid := false }
    inflight := m.inflight.filter fun x => decide (some x.stream ≠ i)
    streams := m.streams.zipIdx.map fun x => if some (m.base + x.2) = i then { x.1 with failed := true, next := none } else x.1 }
  let s := s.setTr t 0x1754 (BitVec.ofNat 32 (f.code % 256 + f.q * 2 ^ 8 + f.desc * 2 ^ 10 + f.parts % 128 * 2 ^ 16 + 2 ^ 31))
  let s := s.setTr t 0x1758 (f.mask.extractLsb' 0 32)
  let s := s.setTr t 0x175C (f.mask.extractLsb' 32 32)
  let s := s.setTr t 0x1760 (BitVec.ofNat 32 f.addr)
  let s := s.setTr t 0x1764 (BitVec.ofNat 32 (f.addr / 2 ^ 32))
  let s := (s.trace t 0x06 2 f.addr f.code).raiseTile t 80
  let s := s.movEngineFault t f.code
  s.loseAt t f.code 2 f.q f.desc f.addr f.mask

/-- R243: a fault in mid-stream: what the stream had not completed is unpredictable at its destination. -/
def State.midFault (s : State) (t : TileId) (i : Nat) (x : Stream) (from_ : Option Pos) (f : MFault) : State :=
  let l := x.rest (x.d.count x.n1 * (x.d.run + 1)) from_
  let fl := (s.movq_ t f.q).inflight.filter fun h => decide (h.stream = i)
  let s := each s l.zipIdx fun s y =>
    match fl.find? fun h => decide (h.pos = y.1) with
    | some h => if h.done then s else s.scramble t x h (5000 * y.2)
    | none => s.scramble t x (x.xfer i y.1) (5000 * y.2)
  s.drawn.movFault t (some i) f

/-- R424: poison that halts a queue. -/
def State.movPoison (s : State) (t : TileId) (q : Nat) (u : ErrUnit) (addr : Nat) : State :=
  let m := s.movq_ t q
  let s := s.setMovq t q { m with faulted := true, code := 0x21 }
  s.errAt t (s.tileErr t (s.stopSev t) u 3 q addr 0 0)

/-! ## Completion (R226, R229) -/

/-- R229: the posts of a completed stream. -/
def State.streamPosts (s : State) (t : TileId) (q : Nat) (x : Stream) : State :=
  let a := x.arm
  let s := if a.rsig then each s x.d.tiles fun s g =>
      s.sendPost t g { sem := a.sem, n := 1, src := t, eng := 2 }
    else s
  s.opPost t a.sigEn a.sem 2 q

/-- R226, R229: a stream completes: its pending arming enters its queue, and it posts. -/
def State.streamDone (s : State) (t : TileId) (q : Nat) (x : Stream) : State :=
  let a := x.arm
  if x.dead then s.streamPosts t q x else
  let s := s.trace t 0x14 2 x.d.far (a.desc.toNat + q * 8 + x.bytes % 2 ^ 32 * 2 ^ 32)
  let v := s.movd_ t a.desc.toNat
  let s := s.setMovd t a.desc.toNat { v with running := false, pending := none }
  let s := match v.pending with
    | none => s
    | some b => s.enterQueue t b
  s.streamPosts t q x

/-- R228: streams of a queue complete in arming order. -/
def State.completeStreams (s : State) (t : TileId) (q : Nat) : Nat → State
  | 0 => s
  | k + 1 =>
    let m := s.movq_ t q
    match m.streams with
    | [] => s
    | x :: l =>
      if x.next.isSome ∨ x.failed ∨ m.inflight.any (fun f => decide (f.stream = m.base)) then s
      else ((s.setMovq t q { m with streams := l, base := m.base + 1 }).streamDone t q x).completeStreams t q k

/-- Complete what can complete, and reload what waited for it (R114). -/
def State.finishQueue (s : State) (t : TileId) (q : Nat) : State :=
  ((s.completeStreams t q (s.movq_ t q).streams.length).settle t).closeWindow t

/-! ## The start of a stream (R219, R222, R228, R236) -/

/-- R222: the mask bits of a stream. -/
def State.readMask (s : State) (t : TileId) (mline n1 : Nat) : List Bool :=
  (List.range n1).map fun i => (s.spadB t (mline * 64 + i / 8)).getLsbD (i % 8)

/-- R228, R242: the queue runs. -/
def MovQ.runs (m : MovQ) : Bool := !m.faulted && !m.stop.valid && m.why.isNone && !m.gstop

/-- STREAM_START. `y`: the state that its mask is read in (R205). -/
def State.startStream (s y : State) (t : TileId) (q : Nat) : State :=
  let m := s.movq_ t q
  match m.arms, s.partOf t with
  | a :: l, some p =>
    if !m.runs ∨ !s.runs t ∨ m.streams.any (fun x => x.next.isSome) then s else
    let w := s.descWords t a.desc.toNat
    let d := descOf w
    let n1 := a.n1.getD d.c1
    let far := (d.far : Int) + a.farOfs.toInt
    let ml := (d.mline : Int) + a.mlineOfs.toInt
    let w := w.set 0 (BitVec.ofInt 32 far)
    let w := w.set 1 (BitVec.ofInt 32 (far / 2 ^ 32))
    let w := w.set 11 (setFld (w.getD 11 0) 11 0 (ml % 4096).toNat)
    let d' := descOf w
    let bad := if far < 0 ∨ 2 ^ 64 ≤ far ∨ ml < 0 ∨ 4096 ≤ ml then 0x3C else s.startFault t p a (s.descWords t a.desc.toNat) d' n1
    let v := s.movd_ t a.desc.toNat
    let started := (s.setMovq t q { m with arms := l }).setMovd t a.desc.toNat { v with armed := false, running := true }
    if bad ≠ 0 then
      started.movFault t none { code := bad, q := q, desc := a.desc.toNat, parts := min 64 (max 1 d'.parts), mask := 0, addr := far.toNat }
    else if d'.msk ∧ s.quarHeld t (d'.mline * 64) ((n1 + 7) / 8) then s
    else if d'.msk ∧ y.spadBad t (d'.mline * 64) ((n1 + 7) / 8) then s.movPoison t q .spad (d'.mline * 64)
    else
      let x : Stream := { arm := a, words := w, n1 := n1, mask := if d'.msk then y.readMask t d'.mline n1 else [],
                          next := none, parts := d'.parts, bytes := 0, fabStarted := false }
      let x := { x with next := x.first }
      let m := started.movq_ t q
      (started.setMovq t q { m with streams := m.streams ++ [x] }).finishQueue t q
  | _, _ => s

/-! ## Admission (R230 to R233) -/

/-- The next transfer of a queue: its stream, the stream's number, and its position. -/
def MovQ.upcoming (m : MovQ) : Option (Nat × Stream × Pos) :=
  m.streams.zipIdx.findSome? fun x => x.1.next.map fun p => (m.base + x.2, x.1, p)

/-- R231: the limit of a queue. -/
def State.outLimit (s : State) (t : TileId) (q : Nat) : Nat := fld (s.tr t (0x1710 + 4 * q)) 6 0

/-- R232: tokens of a bucket, in hundredths of a byte. -/
def State.tokens (s : State) (t : TileId) (k : Nat) : Int := (fld (s.tr t 0x1708) 19 8 * 6400 : Nat) - s.bucketOf t k
/-- R231, R232: the bucket holds more than 0 tokens. A token is a byte, and a bucket that never falls below 1 − U held a whole one. (log 138, DEDUCED) -/
def State.hasToken (s : State) (t : TileId) (k : Nat) : Bool := decide (100 ≤ s.tokens t k)
/-- Charge a bucket `n` bytes. -/
def State.charge (s : State) (t : TileId) (k n : Nat) : State := s.setBucket t k (s.bucketOf t k + (100 * n : Nat))

/-- The power domains of a transfer's far side, with the kind and number that a BANK_OFF record names (R240). -/
def State.farDoms (s : State) (t : TileId) (d : DescV) (f : Xfer) : List (Nat × Nat × Nat) :=
  match d.space with
  | 0 => d.tiles.map fun g => (domTile g, 0, domTile g - 1)
  | 3 => match (s.partOf t).bind fun p => s.hbmOf p f.far.toNat f.len with
    | some h => [(domHbm (stackOf h), 2, stackOf h)]
    | none => []
  | _ => match f.page with
    | none => []
    | some g =>
      if g.inCistern then [(domCis g.tile, 1, domCis g.tile - 65)]
      else
        let h := match s.partOf t with
          | none => 0
          | some p => (s.partAt p).hbmBase +
              (if d.space = 1 then g.frame.toNat * 65536 + f.far.toNat % 65536
               else s.frameSide p t .mover (s.ctxOf t) g.frame + f.far.toNat % 4096)
        [(domHbm (stackOf h), 2, stackOf h)]

/-- A far side whose gate is shut. -/
def State.shutDom (s : State) (t : TileId) (d : DescV) (f : Xfer) : Option (Nat × Nat × Nat) :=
  (s.farDoms t d f).find? fun x => s.gateShut x.1

/-- R296, R292: the message of a VULOR transfer. -/
def State.vulMsg (s : State) (t : TileId) (x : Stream) (f : Xfer) (tag : BitVec 16) (data : List Byte) : Msg :=
  let d := x.d
  { ty := if d.out then .write else .read, status := 0, dst := d.target.extractLsb' 0 18, src := s.devId,
    mcount := if d.out then d.target.extractLsb' 18 6 else 0, mdir := d.target.extractLsb' 24 3,
    group := match (s.partOf t).bind s.pcfg with | none => 0 | some c => c.group, tag := tag, lenM1 := BitVec.ofNat 12 (f.len - 1),
    raddr := f.far, value := 0, data := data }

/-- Bytes R302 of a FABRIC transfer. -/
def beatBytes (b : BitVec 512) : List Byte := natLe 64 b.toNat
/-- R302: beats an aligning stream skips. -/
def skipToSof : List IngressBeat → List IngressBeat
  | [] => []
  | b :: l => if b.sof then b :: l else skipToSof l

/-- R235, R269, R275: what a transfer's packets go to: other tiles, or the spine of a stack, of the host port or of the Vulor port that its request
leaves by. The request's message leaves that port at the admission (log 122, DESIGN CHOICE). A FABRIC transfer crosses no canal. -/
def State.farNodes (s : State) (t : TileId) (d : DescV) (f : Xfer) : List CanNode :=
  let stack := fun (h : Option Nat) => (h.map fun a => CanNode.spine (BitVec.ofNat 2 (stackOf a / 2))).toList
  match d.space, f.page with
  | 0, _ => (d.tiles.filter fun g => decide (g ≠ t)).map .tile
  | 4, _ => [.spine 0]
  | 5, _ => match s.route (d.target.extractLsb' 0 18) none with | .port p _ => [.spine (BitVec.ofNat 2 (dieOfPort p))] | _ => []
  | 6, _ => []
  | _, some g => if g.inCistern then (if g.tile = t then [] else [.tile g.tile]) else stack (s.xferHbm t d f)
  | _, none => stack (s.xferHbm t d f)

/-- R269, R271: the requests of an admitted transfer set out, each with the data it brings; the answers bring the data it reads. -/
def State.sendXfer (s : State) (t : TileId) (q i : Nat) (d : DescV) (f : Xfer) : State :=
  let n := (f.len + 63) / 64
  each s (s.farNodes t d f) fun s g =>
    s.inject { cls := .request, src := .tile t, dst := g, data := if d.out then n else 0,
               load := .xfer t q i f.pos false (if d.out then 0 else n), bad := false }

/-- Enter an admitted transfer: the stream's next moves on, the bucket pays U tokens, and the next queue's turn comes (R230 to R232). -/
def State.enterXfer (s : State) (t : TileId) (q i : Nat) (x : Stream) (f : Xfer) : State :=
  let m := s.movq_ t q
  let x := { x with next := x.after f.pos, fabStarted := true }
  let d := x.d
  let f := { f with old := if d.out then (s.spadBytes t f.loc f.len, s.spadBad t f.loc f.len)
                           else if d.space = 0 then (s.spadBytes (d.tiles.headD 0) f.far.toNat f.len, s.spadBad (d.tiles.headD 0) f.far.toNat f.len)
                           else ([], false)
                    legs := (s.farNodes t d f).length }
  let s := s.setTile t { s.tileAt t with movTurn := BitVec.ofNat 2 (q + 1) }
  ((s.setMovq t q { m with inflight := m.inflight ++ [f], streams := m.streams.set (i - m.base) x }).charge t (x.d.cls t) x.d.unit).sendXfer t q i d f

/-- A mover fault that a transfer of a started stream meets. -/
def State.xferFault (s : State) (t : TileId) (q : Nat) (x : Stream) (f : Xfer) (code : Nat) (mask : W64) : State :=
  let first := ((s.movq_ t q).inflight.find? fun g => decide (g.stream = f.stream) && !g.done).map fun g => g.pos
  s.midFault t f.stream x (some (first.getD f.pos)) { code := code, q := q, desc := x.arm.desc.toNat, parts := x.parts, mask := mask, addr := f.far.toNat }

/-- R302, R303: admission of a FABRIC transfer. -/
def State.admitFabric (s : State) (t : TileId) (q i : Nat) (x : Stream) (f : Xfer) : State :=
  let port := fld x.d.target 3 0
  if bit (s.reg fabBase) 0 then s
  else if x.d.out then
    let l := s.retAt port
    if 512 ≤ l.length then s else
    let b : RetBeat := { data := BitVec.ofNat 512 (leNat (s.spadBytes t f.loc f.len)), sos := !x.fabStarted, eos := (x.after f.pos).isNone }
    (s.setRet port (l ++ [b])).enterXfer t q i x f
  else
    let align := bit (s.reg (fabBase + 0x100 + 16 * port)) 0 && !x.fabStarted
    let l := s.ingressAt port
    match if align then skipToSof l else l with
    | [] => if align then s.setIngress port [] else s
    | b :: l => (s.setIngress port l).enterXfer t q i x { f with data := some ((beatBytes b.data).take f.len) }

/-- R292, R296: admission of a VULOR transfer: its request sets out. -/
def State.admitVulor (s : State) (t : TileId) (q i : Nat) (x : Stream) (f : Xfer) : State :=
  let (s, tag) := s.newTag
  let msg := s.vulMsg t x f tag (if x.d.out then s.spadBytes t f.loc f.len else [])
  if s.route msg.dst none = .here ∧ s.reqHeld msg then s else
  match (s.partOf t).bind s.pcfg with
  | none => s
  | some c =>
    if c.group = 0 then s.xferFault t q x f 0x54 0 else
    let r : VulReq := { tag := tag, ty := msg.ty, tile := t, q := BitVec.ofNat 2 q, part := (s.partOf t).getD 0, ctx := s.ctxOf t, parts := x.parts }
    let s := { s with vulReqs := s.vulReqs ++ [r] }
    (s.enterXfer t q i x { f with tag := some tag }).sendReq msg

/-- R215, R392: the transfer's lines lie in a working region under QUARANTINE, or its partition resets: it is not admitted
until that ends. -/
def State.xferWaits (s : State) (t : TileId) (d : DescV) (f : Xfer) : Bool :=
  (match s.partOf t with | none => true | some p => (s.partAt p).resetting)
    || (!d.imem && s.quarHeld t f.loc f.len) || (decide (d.space = 0) && d.tiles.any fun g => s.quarHeld g f.far.toNat f.len)

/-- R231: the queue's next transfer stands below its limit, with tokens in its bucket, and nothing holds it. -/
def State.mayAdmit (s : State) (t : TileId) (q : Nat) : Bool :=
  let m := s.movq_ t q
  m.upcoming.any fun u =>
    let d := u.2.1.d
    m.runs && s.runs t && decide (m.inflight.length < s.outLimit t q) && s.hasToken t (d.cls t) && !s.xferWaits t d (u.2.1.xfer u.1 u.2.2)

/-- R231: the queue has a transfer that the tile could admit now. Whether the host's translation or a link's credits let one be admitted its
command alone says, so such a transfer of another queue does not take its turn. (log 118, DEDUCED) -/
def State.admissible (s : State) (t : TileId) (q : Nat) : Bool :=
  s.mayAdmit t q && (s.movq_ t q).upcoming.any fun u =>
    let d := u.2.1.d
    let f := u.2.1.xfer u.1 u.2.2
    match d.space with
    | 4 => false
    | 5 => false
    | 6 => !bit (s.reg fabBase) 0 && (if d.out then decide ((s.retAt (fld d.target 3 0)).length < 512) else !(s.ingressAt (fld d.target 3 0)).isEmpty)
    | _ => match (s.xferPage t d f).2 with
      | some (.page g) => (s.farDoms t d { f with page := some g }).all fun z => s.serves z.1
      | some _ => false
      | none => (s.farDoms t d f).all fun z => s.serves z.1

/-- R231: no other queue whose turn comes before has an admissible transfer. -/
def State.turnComes (s : State) (t : TileId) (q : Nat) : Bool :=
  (((List.range 4).map fun i => ((s.tileAt t).movTurn.toNat + i) % 4).takeWhile fun i => decide (i ≠ q)).all fun i => !s.admissible t i

/-- TRANSFER_ADMIT. -/
def State.admitNext (s : State) (t : TileId) (q : Nat) (x : Xlat) : State :=
  let m := s.movq_ t q
  match m.upcoming with
  | none => s
  | some (i, y, p) =>
    let d := y.d
    let f := y.xfer i p
    if !s.mayAdmit t q ∨ !s.turnComes t q then s else
    match d.space with
    | 6 => s.admitFabric t q i y f
    | 5 => s.admitVulor t q i y f
    | 4 => match x with
      | .ok => s.enterXfer t q i y f
      | .refused => s.xferFault t q y f 0x53 0
      | _ => s
    | _ =>
      match s.xferPage t d f with
      | (s, some .fault) => s.xferFault t q y f 0x30 0
      | (s, some (.poison a)) => s.movPoison t q .hbm a
      | (s, some (.stop _)) => s
      | (s, some (.held z)) => s.askWake z
      | (s, some (.page g)) =>
        let f := { f with page := some g }
        if (s.farDoms t d f).all (fun z => s.serves z.1) then s.enterXfer t q i y f
        else each s (s.farDoms t d f) fun s z => if s.gateShut z.1 then s else s.askWake z.1
      | (s, none) =>
        if (s.farDoms t d f).all (fun z => s.serves z.1) then s.enterXfer t q i y f
        else each s (s.farDoms t d f) fun s z => if s.gateShut z.1 then s else s.askWake z.1

/-! ## Retirement (R228, R229, R245) -/

/-- R228: where a transfer writes: memory and first byte, once for each target. -/
def Xfer.dests (t : TileId) (d : DescV) (f : Xfer) : List (Nat × Nat) :=
  if !d.out then (if d.imem then [(8 + 2 * d.eng + nat01 d.bank, f.loc)] else [(0, t.toNat * 262144 + f.loc)])
  else match d.space with
    | 0 => d.tiles.map fun g => (0, g.toNat * 262144 + f.far.toNat)
    | 4 => [(4, (if bit d.target 20 then fld d.target 19 0 + 1 else 0) * 2 ^ 64 + f.far.toNat)]
    | 5 => []
    | 6 => []
    | k => [(k, f.far.toNat)]

/-- R228: bytes of a later transfer, by number, that an earlier one writes too. -/
def sharedBytes (a b : List (Nat × Nat)) (m n : Nat) : List Nat :=
  (List.range n).filter fun i => a.any fun x => b.any fun y => decide (x.1 = y.1) && decide (x.2 ≤ y.2 + i) && decide (y.2 + i < x.2 + m)

/-- R228: where streams in flight of one queue write the same byte, it holds either one's data: of the shared bytes of a
later transfer, free ones have been written before this transfer's. (log 77, DEDUCED) -/
def State.race (s : State) (t : TileId) (q : Nat) (x : Stream) (f : Xfer) : State :=
  let m := s.movq_ t q
  let hit := fun (g : Xfer) =>
    if g.stream = f.stream ∨ g.done then [] else
    match m.streams[g.stream - m.base]? with
    | none => []
    | some y => sharedBytes (f.dests t x.d) (g.dests t y.d) f.len g.len
  if m.inflight.all fun g => (hit g).isEmpty then s else
  let l := m.inflight.map fun g => { g with lost := g.lost ++ (hit g).filter fun i => decide (s.draw (1 + g.loc + i) % 2 = 1) }
  (s.setMovq t q { m with inflight := l }).drawn

/-- The bytes that a write with overtaken bytes stores: those keep what stands there. -/
def keepLost (lost : List Nat) (old new : List Byte) : List Byte :=
  if lost.isEmpty then new else new.zipIdx.map fun x => if lost.contains x.2 then old.getD x.2 x.1 else x.1

/-- R205: bytes read from byte `a` of a scratchpad, of which some have changed since the transfer was admitted: each line is old or new. -/
def State.mixBytes (s : State) (a : Nat) (old new : List Byte × Bool) : List Byte × Bool :=
  if old = new then new else
  let pick := fun (l : Nat) => decide (s.draw (2 ^ 51 + l) % 2 = 1)
  (new.1.zipIdx.map fun x => if pick ((a + x.2) / 64) then old.1.getD x.2 x.1 else x.1,
    if old.2 = new.2 then new.2 else pick (a / 64))

/-- Direction in: what the far side gives. A page that stale map entries led to gives unpredictable frame contents (R81; log 120). -/
def State.farRead (s : State) (t : TileId) (d : DescV) (f : Xfer) (r : HostResp) : List Byte × Bool :=
  match d.space, f.page, f.data with
  | 0, _, _ => let g := d.tiles.headD 0; s.mixBytes f.far.toNat f.old (s.spadBytes g f.far.toNat f.len, s.spadBad g f.far.toNat f.len)
  | 4, _, _ => match r with | .data bs => ((bs ++ List.replicate f.len 0).take f.len, false) | .error => ([], false)
  | 5, _, some bs => ((bs ++ List.replicate f.len 0).take f.len, f.poison)
  | 6, _, some bs => (bs, false)
  | _, some g, _ =>
    if g.inCistern then
      let b := slotByte d.space g f.far
      if d.space = 1 then (s.cisBytes g.tile b f.len, s.cisBad g.tile b f.len) else (s.sideBytes g.tile b f.len, s.sideBad g.tile b f.len)
    else if g.stale then (s.freeBytes (2 ^ 54) f.len, false)
    else match s.xferHbm t d f with
      | some h => (s.hbmBytes h f.len, s.hbmBad h f.len)
      | none => ([], false)
  | _, none, _ => match s.xferHbm t d f with
      | some h => (s.hbmBytes h f.len, s.hbmBad h f.len)
      | none => ([], false)

/-- Direction out: the far side takes the data. -/
def State.farWrite (s : State) (t : TileId) (d : DescV) (f : Xfer) (bs : List Byte) (bad : Bool) : State :=
  match d.space, f.page with
  | 0, _ => each s d.tiles fun s g => s.putSpad g f.far.toNat (keepLost f.lost (s.spadBytes g f.far.toNat f.len) bs) bad
  | 4, _ =>
    let pasid := if bit d.target 20 then some (d.target.extractLsb' 0 20) else none
    let s := s.hostWrite pasid f.far.toNat (keepLost f.lost (s.hostBytes pasid f.far.toNat f.len) bs)
    if bad then s.send (.poisoned pasid f.far f.len) else s
  | 5, _ => s
  | 6, _ => s
  | _, some g =>
    if g.inCistern then
      let b := slotByte d.space g f.far
      if d.space = 1 then s.putCis g.tile b (keepLost f.lost (s.cisBytes g.tile b f.len) bs) bad
      else s.putSide g.tile b (keepLost f.lost (s.sideBytes g.tile b f.len) bs) bad
    else match s.xferHbm t d f with
      | some h => s.putHbm h (keepLost f.lost (s.hbmBytes h f.len) bs) bad
      | none => s
  | _, none => match s.xferHbm t d f with
      | some h => s.putHbm h (keepLost f.lost (s.hbmBytes h f.len) bs) bad
      | none => s

/-- Move a transfer's data; `y` is the state in which it reads a scratchpad (R205). What an inbound transfer writes meets the compute accesses of
its tile (R208). -/
def State.moveData (s y : State) (t : TileId) (x : Stream) (f : Xfer) (r : HostResp) : State :=
  let d := x.d
  let s := match f.page with
    | some g => if g.inCistern then s.touch g.tile g.slot.toNat else s
    | none => s
  if d.out then
    let (bs, bad) := y.mixBytes f.loc f.old (y.spadBytes t f.loc f.len, y.spadBad t f.loc f.len)
    let s := (s.farWrite t d f bs (bad || f.hurt)).drawn
    if d.space = 0 then each s d.tiles fun s g => s.inboundLines g (linesOfBytes f.far.toNat f.len) else s
  else
    let (bs, bad) := y.farRead t d f r
    let bad := bad || f.hurt
    let s := s.drawn
    let e : EngId := BitVec.ofNat 2 d.eng
    if d.imem then
      (s.imemBytes t e d.bank f.loc (keepLost f.lost (s.imemBytesAt t e d.bank f.loc f.len) bs)).imemSpoil t e d.bank f.loc f.len bad
    else (s.putSpad t f.loc (keepLost f.lost (s.spadBytes t f.loc f.len) bs) bad).inboundLines t (linesOfBytes f.loc f.len)

/-- Is the transfer held where it stands? A domain takes what it admitted before its gate closed while CLOSING lasts (R405); a tile
domain takes transfers in RUN and IDLE, others in ACTIVE. -/
def State.xferHeld (s : State) (t : TileId) (d : DescV) (f : Xfer) : Bool :=
  (s.farDoms t d f).any fun z => !s.takes z.1

/-- R244, R292: what the parts of a VULOR transfer have answered: none while some have not. -/
def Xfer.answered (f : Xfer) (x : Stream) : Option Bool :=
  let all := 2 ^ x.parts - 1
  if (f.okParts ||| f.failParts).toNat % 2 ^ x.parts ≠ all then none else some (decide (f.failParts = 0))

/-- R244: parts that completed every transfer admitted before the fault. -/
def State.goodParts (s : State) (t : TileId) (q : Nat) (f : Xfer) : W64 :=
  ((s.movq_ t q).inflight.filter fun g => decide (g.stream = f.stream)).foldl (fun m g => m &&& g.okParts) 0xFFFFFFFFFFFFFFFF

/-- R228: transfers at the front of a queue that have completed retire. -/
def State.popDone (s : State) (t : TileId) (q : Nat) : Nat → State
  | 0 => s
  | n + 1 =>
    let m := s.movq_ t q
    match m.inflight with
    | [] => s
    | f :: l =>
      if f.done then
        (s.setMovq t q { m with
          inflight := l
          streams := m.streams.zipIdx.map fun x => if m.base + x.2 = f.stream then { x.1 with bytes := x.1.bytes + f.len } else x.1 }).popDone t q n
      else s

/-- The admitted transfer that retires next: the first that has been neither refused nor completed. -/
def MovQ.retiring (m : MovQ) : Option Xfer := m.inflight.find? fun f => !f.refused && !f.done

/-- R269: its answers reach the tile. -/
def State.bringXfer (s : State) (t : TileId) (q : Nat) : State := s.bring fun s => (s.movq_ t q).retiring.all fun f => decide (f.legs = 0)

/-- R206, R208: scratchpad lines of a tile that mover transfers under way write. -/
def State.arriving (s : State) (t : TileId) : List Nat :=
  s.movq.flatMap fun e => e.2.inflight.flatMap fun f =>
    if f.refused ∨ f.done then [] else
    match e.2.streams[f.stream - e.2.base]? with
    | none => []
    | some x =>
      let d := x.d
      if !d.out then (if e.1 / 4 = t.toNat ∧ !d.imem then linesOfBytes f.loc f.len else [])
      else if d.space = 0 ∧ t ∈ d.tiles then linesOfBytes f.far.toNat f.len else []

/-! ## Stops (R237 to R242) -/

/-- R238: the function whose context a tile runs (R241): none for the PF. -/
def State.fnOf (s : State) (t : TileId) : Option PartId :=
  match s.partOf t with
  | none => none
  | some p => let x := s.ctxAt p (s.ctxOf t); if x.st = .free ∨ x.byPf then none else some p

/-- R241: pages, each once, with the read and the write permission that the refused transfers need there. -/
def addPage (l : List (W64 × Bool × Bool)) (y : W64 × Bool × Bool) : List (W64 × Bool × Bool) :=
  if l.any (fun x => decide (x.1 = y.1)) then l.map fun x => if x.1 = y.1 then (x.1, x.2.1 || y.2.1, x.2.2 || y.2.2) else x else l ++ [y]

/-- The page of a HOST address. -/
def hostPage (a : W64) : W64 := a &&& ~~~0xFFF

/-- R241: the reason that a missing translation gives. -/
def xlatReason : Xlat → Option Nat
  | .notPresent => some 0
  | .noPermission => some 1
  | _ => none

/-- A queue stops: it admits nothing further. The first refusal is the record's; a later HOST one adds its page. -/
def MovQ.addWhy (m : MovQ) (w : StopWhy) : MovQ :=
  match m.why with
  | none => { m with why := some w }
  | some v => { m with why := some { v with pages := w.pages.foldl addPage v.pages } }

/-- BANK_OFF of a shut domain. -/
def bankOff (z : Nat × Nat × Nat) : StopWhy :=
  { code := 0x11, reason := 0, kind := BitVec.ofNat 2 z.2.1, dom := BitVec.ofNat 8 z.2.2, pages := [] }

/-- A refusal that a HOST transfer meets. -/
def hostWhy (d : DescV) (f : Xfer) (reason : Nat) : StopWhy :=
  { code := 0x12, reason := BitVec.ofNat 3 reason, kind := 0, dom := 0, pages := [(hostPage f.far, !d.out, d.out)] }

/-- Why an admitted transfer is refused. -/
def State.flightWhy (s : State) (t : TileId) (d : DescV) (f : Xfer) (x : Xlat) : Option StopWhy :=
  if f.refused ∨ f.done then none
  else match s.shutDom t d f with
    | some z => some (bankOff z)
    | none => if d.space = 4 then (xlatReason x).map (hostWhy d f) else none

/-- Why the next transfer stops. -/
def State.nextWhy (s : State) (t : TileId) (d : DescV) (f : Xfer) (x : Xlat) : State × Option StopWhy :=
  match s.xferPage t d f with
  | (s, some (.stop r)) => (s, some { code := 0x10, reason := BitVec.ofNat 3 r, kind := 0, dom := 0, pages := [] })
  | (s, some (.page g)) => (s, (s.shutDom t d { f with page := some g }).map bankOff)
  | (s, _) => match s.shutDom t d f with
    | some z => (s, some (bankOff z))
    | none => (s, if d.space = 4 then (xlatReason x).map (hostWhy d f) else none)

/-- TRANSFER_REFUSED: an admitted transfer that arrives at a shut gate or finds no translation, else the next one. -/
def State.refuse (s : State) (t : TileId) (q : Nat) (x : Xlat) : State :=
  let m := s.movq_ t q
  let streamOf := fun (f : Xfer) => m.streams[f.stream - m.base]?
  if m.faulted ∨ m.stop.valid then s else
  match m.inflight.findSome? fun f => (streamOf f).bind fun y => (s.flightWhy t y.d f x).map fun w => (f, w) with
  | some (f, w) =>
    let l := m.inflight.map fun g => if g.stream = f.stream ∧ g.pos = f.pos then { g with refused := true } else g
    s.setMovq t q ({ m with inflight := l }.addWhy w)
  | none =>
    match m.upcoming with
    | none => s
    | some (i, y, p) =>
      if !m.runs ∨ !s.runs t ∨ s.outLimit t q ≤ m.inflight.length ∨ !s.hasToken t (y.d.cls t) then s else
      match s.nextWhy t y.d (y.xfer i p) x with
      | (s, none) => s
      | (s, some w) => s.setMovq t q (m.addWhy w)

/-- R238: the MOV engine at a stop. -/
def State.movEngineStop (s : State) (t : TileId) (code : Nat) : State :=
  let g := s.engAt t 2
  match g.st with
  | .run => s.setEng t 2 { g with st := .stopped, code := BitVec.ofNat 8 code }
  | .wait => s.setEng t 2 { g with st := .stopped, code := BitVec.ofNat 8 code, waitUnit := false, waits := [] }
  | .halted => if g.before = .run ∨ g.before = .wait then s.setEng t 2 { g with before := .stopped, code := BitVec.ofNat 8 code } else s
  | _ => s

/-- R241: the next free group index of a function; none while all 512 are outstanding. -/
def State.prgIndex (s : State) (fn : Option PartId) : Option (BitVec 9) :=
  let k := match fn with | none => 0 | some p => p.toNat + 1
  let n := look (fun _ => (0 : BitVec 9)) s.prgNext k
  ((List.range 512).map fun i => n + BitVec.ofNat 9 i).find? fun i => !(s.prg.any fun g => decide (g.1 = fn) && decide (g.2.1 = i))

/-- R241: a group sets out, or waits for an index. -/
def State.sendPrg (s : State) (w : PrgWait) : State :=
  match s.prgIndex w.fn with
  | none => { s with prgWait := s.prgWait ++ [w] }
  | some i =>
    let k := match w.fn with | none => 0 | some p => p.toNat + 1
    let nx := put (fun _ => (0 : BitVec 9)) s.prgNext k (i + 1)
    let s := { s with prg := s.prg ++ [(w.fn, i, w.tile, w.q)], prgNext := nx }
    let m := s.movq_ w.tile w.q.toNat
    let s := s.setMovq w.tile w.q.toNat { m with stop := { m.stop with prgi := i } }
    let n := w.pages.length
    each s w.pages.zipIdx fun s x => s.send (.pageRequest w.pasid x.1.1 i x.1.2.1 x.1.2.2 (decide (x.2 + 1 = n)))

/-- Rewind a queue to a position: later streams run from their starts, and so does one whose position is its first transfer: a FABRIC stream
begins anew there (R302, R303). -/
def rewind (base i : Nat) (p : Pos) (l : List Stream) : List Stream :=
  l.zipIdx.map fun x =>
    if base + x.2 < i then x.1
    else if base + x.2 = i then { x.1 with next := some p, fabStarted := x.1.fabStarted && decide (x.1.first ≠ some p) }
    else { x.1 with next := x.1.first, fabStarted := false }

/-- MOVER_STOP_RECORD. -/
def State.stopRecord (s : State) (t : TileId) (q : Nat) : State :=
  let m := s.movq_ t q
  match m.why with
  | none => s
  | some w =>
    if m.inflight.any (fun f => !f.refused && !f.done) then s else
    let at_ : Option (Nat × Pos) := match m.inflight with
      | f :: _ => some (f.stream, f.pos)
      | [] => m.upcoming.map fun x => (x.1, x.2.2)
    match at_ with
    | none => s.setMovq t q { m with why := none }
    | some (i, p) =>
      match m.streams[i - m.base]? with
      | none => s
      | some x =>
        let far := x.farAt p
        let r : MovStop :=
          { code := w.code, reason := w.reason, desc := x.arm.desc, prg := BitVec.ofNat 2 (nat01 (decide (w.code = 0x12))), valid := true, addr := far,
            i1 := BitVec.ofNat 16 p.i1, i2 := BitVec.ofNat 16 p.i2, i3 := BitVec.ofNat 16 p.i3, i4 := BitVec.ofNat 16 p.i4,
            off := BitVec.ofNat 16 p.off, dom := w.dom, kind := w.kind, prgi := 0 }
        let s := s.setMovq t q { m with inflight := [], streams := rewind m.base i p m.streams, why := none, stop := r, code := w.code }
        let s := s.incReg (tileBase t + 0x1704) 31 16 1
        let s := s.lightP (s.partOf t) 6 1
        let s := (s.trace t 0x04 2 far.toNat (w.code.toNat + w.reason.toNat * 256 + q * 2 ^ 11)).movEngineStop t w.code.toNat
        let s := if w.code = 0x12 then
            s.sendPrg { fn := s.fnOf t, tile := t, q := BitVec.ofNat 2 q,
                        pasid := if bit x.d.target 20 then some (x.d.target.extractLsb' 0 20) else none, pages := w.pages }
          else s
        s.raiseTile t 64

/-- PRG_RESPONSE. -/
def State.prgAnswer (s : State) (fn : Option PartId) (i : BitVec 9) (ok : Bool) : State :=
  match s.prg.find? fun g => decide (g.1 = fn) && decide (g.2.1 = i) with
  | none => s
  | some g =>
    let t := g.2.2.1; let q := g.2.2.2.toNat
    let s : State := { s with prg := s.prg.filter fun x => !(decide (x.1 = fn) && decide (x.2.1 = i)) }
    let m := s.movq_ t q
    let s := if m.stop.prg = 1 ∧ m.stop.prgi = i then
        (s.setMovq t q { m with stop := { m.stop with prg := if ok then 2 else 3 } }).raiseTile t 64
      else s
    match s.prgWait.find? fun w => decide (w.fn = fn) with
    | none => s
    | some w => { s with prgWait := s.prgWait.erase w }.sendPrg w

/-- R242: the MOV engine returns to RUN once no queue of the tile holds a valid record. -/
def State.movEngineGo (s : State) (t : TileId) : State :=
  if (List.range 4).any fun q => (s.movq_ t q).stop.valid then s else
  let g := s.engAt t 2
  match g.st with
  | .stopped => s.setEng t 2 { g with st := .run }
  | .halted => if g.before = .stopped then s.setEng t 2 { g with before := .run } else s
  | _ => s

/-- MOVER_STOP_RESUME. -/
def State.movResume (s : State) (t : TileId) (q : Nat) : State :=
  let m := s.movq_ t q
  if !m.stop.valid ∨ m.stop.prg = 1 then s else
  let s := s.setMovq t q { m with stop := { m.stop with valid := false } }
  (s.trace t 0x05 2 m.stop.addr.toNat (m.stop.code.toNat + m.stop.reason.toNat * 256 + q * 2 ^ 11)).movEngineGo t

/-- MOVER_STOP_FAULT. -/
def State.movStopFault (s : State) (t : TileId) (q : Nat) (code : Byte) : State :=
  let m := s.movq_ t q
  if !m.stop.valid then s else
  let c := code.toNat
  let c := if 0x20 ≤ c ∧ c ≤ 0x7F then c else if m.stop.code = 0x10 then 0x34 else 0x56
  match m.streams.zipIdx.find? fun x => x.1.next.isSome with
  | none => s.movFault t none { code := c, q := q, desc := m.stop.desc.toNat, parts := 1, mask := 0, addr := m.stop.addr.toNat }
  | some (x, i) => s.midFault t (m.base + i) x x.next { code := c, q := q, desc := m.stop.desc.toNat, parts := x.parts, mask := 0, addr := m.stop.addr.toNat }

/-! ## Kill (R248) -/

/-- R248, R114: a context kill clears every queue, pending slot and stop record; admitted transfers complete, and a stream
with every transfer admitted posts when they have. -/
def State.killMover (s : State) (t : TileId) : State :=
  let s := s.setTile t { s.tileAt t with launched := false }
  let s := each s (List.range 4) fun s q =>
    let m := s.movq_ t q
    let l := m.streams.zipIdx.map fun x =>
      let posts := x.1.next.isNone && !x.1.failed && !m.inflight.any fun f => f.refused && decide (f.stream = m.base + x.2)
      { x.1 with next := none, dead := true, failed := false,
                 arm := { x.1.arm with sigEn := x.1.arm.sigEn && posts, rsig := x.1.arm.rsig && posts, seq := none } }
    let s := s.setMovq t q { m with arms := [], streams := l, why := none, faulted := false, gstop := m.gstop,
                                    inflight := m.inflight.filter fun f => !f.refused, stop := { m.stop with valid := false } }
    (s.popDone t q m.inflight.length).finishQueue t q
  each s (List.range 8) fun s d => s.setMovd t d { s.movd_ t d with armed := false, running := false, pending := none }

/-! ## Registers (R231) -/

/-- R231: a write of MOV_Qq_CFG. -/
def State.queueCfg (s : State) (t : TileId) (q : Nat) (w : W32) : State :=
  let m := s.movq_ t q
  let n := fld w 6 0
  if bit w 8 then s.setMovq t q { m with cfgRefused := false }
  else if !m.arms.isEmpty ∨ !m.streams.isEmpty ∨ n = 0 ∨ 64 < n then s.setMovq t q { m with cfgRefused := true }
  else s.setTr t (0x1710 + 4 * q) (BitVec.ofNat 32 n)

end Sys2Proof.Machine
end

