-- ==== Sys2Proof/Machine/Ring.lean ====
section
/-!
DEFINITION. Rings, rotation sets and where their slivers stand (R250 to R254): what the furrow unit, the clock, QUARANTINE and the power
controller read of them.
-/
namespace Sys2Proof.Machine

/-! ## Rings and sets -/

/-- R250: the tiles of a tile's ring, by position. -/
def State.ring (s : State) (t : TileId) : List TileId :=
  match s.partOf t with
  | none => []
  | some p =>
    match s.pcfg p with
    | none => []
    | some g => (List.range (4 * g.width.toNat)).map fun i => tileXY (4 * (s.partAt p).cx.toNat + i) (tileY t)

/-- R250: the successor of a tile. -/
def State.succTile (s : State) (t : TileId) : TileId :=
  let l := s.ring t
  if l.contains (tileXY (tileX t + 1) (tileY t)) ∧ tileX t + 1 < 64 then tileXY (tileX t + 1) (tileY t) else l.headD t

/-- R250: the predecessor of a tile. -/
def State.predTile (s : State) (t : TileId) : TileId := ((s.ring t).find? fun u => decide (s.succTile u = t)).getD t

/-- Offsets of a set's registers. -/
def setOff (k : Nat) : Nat := 0x1B00 + 16 * k
/-- R252: a set's fields at a tile. -/
def State.setEn (s : State) (t : TileId) (k : Nat) : Bool := bit (s.tr t (setOff k + 8)) 8
def State.setLines (s : State) (t : TileId) (k : Nat) : Nat := fld (s.tr t (setOff k)) 23 12
def State.setGsem (s : State) (t : TileId) (k : Nat) : SemId := (s.tr t (setOff k + 8)).extractLsb' 0 4
def State.setAsem (s : State) (t : TileId) (k : Nat) : SemId := (s.tr t (setOff k + 8)).extractLsb' 4 4
/-- R209: phase group of a tile. -/
def groupOf (t : TileId) : Nat := (tileX t + tileY t) % 2
/-- R252: resting group of a seat. -/
def State.restGroup (s : State) (t : TileId) (k seat : Nat) : Nat :=
  let w := s.tr t (setOff k + 8)
  if bit w 9 then (fld w 10 10 + seat) % 2 else fld w 10 10
/-- R252: does the current seat rest on the tile's group? -/
def State.rests (s : State) (t : TileId) (k : Nat) : Bool := decide (s.restGroup t k (s.rsetAt t k).seat.toNat = groupOf t)
/-- R253: the tile holds a sliver. -/
def State.holding (s : State) (t : TileId) (k : Nat) : Bool :=
  s.setEn t k && ((decide ((s.rsetAt t k).count.toNat % 2 = 0)) == s.rests t k)
/-- R252: first line of the tile's location for the current seat. -/
def State.setLoc (s : State) (t : TileId) (k : Nat) : Nat :=
  let seat := (s.rsetAt t k).seat.toNat
  if s.rests t k then
    let n := ((List.range seat).filter fun x => decide (s.restGroup t k x = groupOf t)).length
    fld (s.tr t (setOff k)) 11 0 + n * fld (s.tr t (setOff k + 4)) 11 0
  else fld (s.tr t (setOff k + 8)) 23 12

/-- Offset of a channel's registers. -/
def haloOff (h : Nat) : Nat := 0x1B80 + 16 * h
/-- R260: the neighbouring tile of a channel, inside the partition. -/
def State.haloTo (s : State) (t : TileId) (h : Nat) : Option TileId :=
  let x := tileX t; let y := tileY t
  let u : Option TileId := match fld (s.tr t (haloOff h)) 25 24 with
    | 0 => if x + 1 < 64 then some (tileXY (x + 1) y) else none
    | 1 => if 0 < x then some (tileXY (x - 1) y) else none
    | 2 => if 0 < y then some (tileXY x (y - 1)) else none
    | _ => if y + 1 < 64 then some (tileXY x (y + 1)) else none
  u.filter fun v => (s.partOf t).isSome && decide (s.partOf v = s.partOf t)

/-! ## Hops under way (R254) -/

/-- R254: lines that a departure has read: they stand at the successor, or in its landing buffer. -/
def RSet.read (r : RSet) : List Nat := r.landed ++ r.buf.map (·.1)

/-- R254: lines of a receiver's location that may be written: all where it holds no sliver there; where it holds one, those that its own
departure has read; none while the sliver that arrived stands behind a departure still under way. -/
def State.freeLines (s : State) (u : TileId) (k : Nat) : List Nat :=
  let r := s.rsetAt u k
  if r.early then []
  else if !s.holding u k then List.range (s.setLines u k)
  else if r.departing then r.read else []

/-- R258: does a hop of the tile's ring stand partial? -/
def State.hopPartial (s : State) (t : TileId) : Bool := (s.ring t).any fun u => (List.range 8).any fun k => (s.rsetAt u k).departing

/-- R254: lines that the landing buffer of a tile, 16 deep, has room for. -/
def State.landRoom (s : State) (u : TileId) : Nat :=
  16 - ((List.range 8).map fun k => (s.rsetAt (s.predTile u) k).buf.length).foldl (· + ·) 0

/-- R254: lines of a departure of set `k` that have neither landed nor been read, and cannot land yet. -/
def State.stuckLines (s : State) (t : TileId) (k : Nat) : List Nat :=
  let u := s.succTile t
  let r := s.rsetAt t k
  let may := if s.runs u then s.freeLines u k else []
  (List.range (s.setLines t k)).filter fun j => !r.read.contains j && !may.contains j

/-- R215, R260: an end of a send that was in QUARANTINE when it began still holds it: arrivals at the neighbour, or reads at the sender. -/
def State.haloHeld (s : State) (t u : TileId) (h : Nat) : Bool :=
  let n := 64 * fld (s.tr t (haloOff h)) 23 12
  s.quarHeld u (64 * fld (s.tr t (haloOff h + 4)) 11 0) n || s.quarHeld t (64 * fld (s.tr t (haloOff h)) 11 0) n

/-- R254, R263: arriving lines wait at a tile: rotation lines in its landing buffer, or those of a halo send that a QUARANTINE or the tile's
domain holds. The sender whose lines they are. (log 60, DESIGN CHOICE) -/
def State.waitsFrom (s : State) (u : TileId) : Option TileId :=
  let p := s.predTile u
  if (List.range 8).any fun k => !(s.rsetAt p k).buf.isEmpty then some p
  else (s.halo.find? fun e =>
    let v : TileId := BitVec.ofNat 12 (e.1 / 4); let h := e.1 % 4
    e.2.busy && decide (s.haloTo v h = some u) && decide (e.2.landed.length < fld (s.tr v (haloOff h)) 23 12) && (!s.runs u || s.haloHeld v u h)).map
      fun e => BitVec.ofNat 12 (e.1 / 4)

/-- R479: contexts that the QUARANTINE ends as a kill of: its own, or the incoming one killed meanwhile. -/
def Tile.killEnds (tl : Tile) : Option CtxId :=
  match tl.quar with
  | some .kill => some tl.ctx
  | some (.handover c) => if tl.quarWait.contains c then some c else none
  | none => none

end Sys2Proof.Machine
end

