-- ==== Sys2Proof/Machine/Clock.lean ====
section
/-!
DEFINITION. The passing of time: the device time stamp (R438), and what every clock edge adds to the sluices' buckets (R232) to the
tiles' wait counters (R442) and to the furrows' (R263).
-/
namespace Sys2Proof.Machine

/-- Fast-clock edges of a tile in `k` always-on periods of 40 ns: 90 each at 2.25 GHz, n sixteenths of that under the governor (R411);
none while the domain's clock stands. -/
def State.fastEdges (s : State) (t : TileId) (k : Nat) : Nat :=
  let d := s.domAt (domTile t)
  if s.runs t then (d.edges + 90 * k * d.n.toNat) / 16 - d.edges / 16 else 0

/-- The clock of a tile domain in RUN goes on. -/
def State.runClock (s : State) (d : Nat) (k : Nat) : State :=
  let q := s.domAt d
  if 1 ≤ d ∧ d ≤ 64 ∧ q.st = 0 then s.setDom d { q with edges := q.edges + 90 * k * q.n.toNat } else s

/-- R232: a bucket gains for `k` always-on periods; the table holds the tokens it lacks. -/
def State.refill (s : State) (b : Nat) (k : Nat) : State :=
  let t : TileId := BitVec.ofNat 12 (b / 3)
  let gain := fld (s.tr t 0x170C) 6 0 * s.share t (b % 3) * s.fastEdges t k
  s.setBucket t (b % 3) (max 0 (s.bucketOf t (b % 3) - gain))

/-- R442, R451: counter 7, and the wait under way, count the cycles of an engine in WAIT. -/
def State.countWait (s : State) (i : Nat) (k : Nat) : State :=
  let t : TileId := BitVec.ofNat 12 (i / 4); let e : EngId := BitVec.ofNat 2 i
  let g := s.engAt t e
  let s := if s.runs t then s.setEng t e { g with waited := g.waited.map (· + 90 * k * (s.domAt (domTile t)).n.toNat) } else s
  s.tcnt t 7 (s.fastEdges t k)

/-- R254: in a period that passes as a step the lines of a departure that cannot land fill what room the landing buffer of their receiver has. -/
def State.fillBuf (s : State) (e : Nat) : State :=
  let t : TileId := BitVec.ofNat 12 (e / 8); let k := e % 8
  let r := s.rsetAt t k
  if !r.departing ∨ !s.runs t then s else
  let l := (s.stuckLines t k).take (s.landRoom (s.succTile t))
  if l.isEmpty then s else
  s.setRset t k { r with buf := r.buf ++ l.map fun j => (j, s.spadBytes t (64 * (s.setLoc t k + j)) 64, s.spadP t (s.setLoc t k + j)) }

/-- R254, R263: FUR_STAT.land_wait of a tile counts the cycles that arriving lines wait there, in its fast clock, or where that stands in the
sender's. (log 60, DESIGN CHOICE) -/
def State.landWait (s : State) (u : TileId) (k : Nat) : State :=
  match s.waitsFrom u with
  | none => s
  | some v => s.incReg (tileBase u + 0x1BC8) 31 16 (s.fastEdges (if s.runs u then u else v) k)

/-- Tiles that rotation lines or halo lines are on their way to. -/
def State.receivers (s : State) : List TileId :=
  ((s.rset.filter fun e => e.2.departing).map fun e => s.succTile (BitVec.ofNat 12 (e.1 / 8))).eraseDups
    ++ (s.halo.filterMap fun e => if e.2.busy then s.haloTo (BitVec.ofNat 12 (e.1 / 4)) (e.1 % 4) else none).filter fun u =>
      !(s.rset.any fun e => e.2.departing && decide (s.succTile (BitVec.ofNat 12 (e.1 / 8)) = u))

/-- R274, R278: a line of a rotation hop under way that stands at the successor or in its landing buffer takes a free outcome on its link.
(log 123, DESIGN CHOICE) -/
def State.furrowNoise (s : State) (e : Nat) : State :=
  let t : TileId := BitVec.ofNat 12 (e / 8); let k := e % 8
  let r := s.rsetAt t k
  let x := s.linkErr e
  match r.read[s.draw (2 ^ 56 + e) % r.read.length]? with
  | none => s
  | some j =>
    if x = .none then s else
    let u := s.succTile t
    let s := if x ≠ .poisoned then s
      else if r.landed.contains j then s.markSpad u (s.setLoc u k + j) true
      else s.setRset t k { r with buf := r.buf.map fun y => if y.1 = j then (y.1, y.2.1, true) else y }
    s.linkCount u .fur x

/-- The same of a line of a halo send. -/
def State.haloNoise (s : State) (e : Nat) : State :=
  let t : TileId := BitVec.ofNat 12 (e / 4); let h := e % 4
  let r := s.haloAt t h
  let x := s.linkErr (2 ^ 20 + e)
  match r.landed[s.draw (2 ^ 57 + e) % r.landed.length]?, s.haloTo t h with
  | some j, some u =>
    if x = .none then s else
    (if x = .poisoned then s.markSpad u (fld (s.tr t (haloOff h + 4)) 11 0 + j) true else s).linkCount u .fur x
  | _, _ => s

/-- Furrow beats under way in a period that passes as a step. -/
def State.furrowErrs (s : State) : State :=
  let l := (s.rset.filter fun e => !e.2.read.isEmpty).map (·.1)
  let h := (s.halo.filter fun e => !e.2.landed.isEmpty).map (·.1)
  if l.isEmpty ∧ h.isEmpty then s else
  (each (each s l fun s e => s.furrowNoise e) h fun s e => s.haloNoise e).drawn

/-- `k` periods of the always-on clock pass. -/
def State.elapse (s : State) (k : Nat) : State :=
  let s := each s (s.bucket.map (·.1)) fun s b => s.refill b k
  let s := each s ((s.eng.filter fun e => decide (e.2.st = .wait)).map (·.1)) fun s e => s.countWait e k
  let s := each s ((s.rset.filter fun e => e.2.departing).map (·.1)) fun s e => s.fillBuf e
  let s := each s s.receivers.eraseDups fun s u => s.landWait u k
  let s := (State.canalRun (90 * k) s).furrowErrs
  let s := each s (s.dom.map (·.1)) fun s d => s.runClock d k
  let s := each s (s.copies.map (·.1)) fun s q => s.setCopy q (look (fun _ => 0) s.copies q - 40 * k)
  { s with time := s.time + BitVec.ofNat 64 (40 * k) }

/-- A time has come: the always-on clock has reached it (log 32, DESIGN CHOICE). -/
def State.reach (s : State) (x : W64) : State :=
  if s.time.toNat < x.toNat then s.elapse ((x.toNat - s.time.toNat + 39) / 40) else s

end Sys2Proof.Machine
end

