-- ==== Sys2Proof/Machine/VxOps.lean ====
section
/-!
DEFINITION. The vector engine's instructions (R173 to R197): registers and packings, arithmetic, predicates, conversion,
reductions, the scan, taps, small matrices, and scratchpad access. Each reads `pre`, the state before its word, and
writes `cur` (R177). Its results are complete with its word; the pipes' cycles are outside the model.
-/
namespace Sys2Proof.Machine

/-! ## Registers -/

/-- R174: a predicate register; p0 reads all ones. -/
def State.pval (s : State) (t : TileId) (p : Nat) : W32 := if p = 0 then 0xFFFFFFFF else s.pregW t p
/-- R174: a write of p0 is discarded. -/
def State.setPval (s : State) (t : TileId) (p : Nat) (v : W32) : State := if p = 0 then s else s.setPregW t p v

/-- A lane as an instruction reads it, with its poison; a poisoned lane's bits are free (R421). -/
def State.vl (s : State) (t : TileId) (r l : Nat) : W32 × Bool :=
  if s.vregP t r l then (BitVec.ofNat 32 (s.draw (2 ^ 32 + (t.toNat * 32 + r) * 32 + l)), true) else (s.vregL t r l, false)
/-- The 32 lanes of a register. -/
def State.vls (s : State) (t : TileId) (r : Nat) : List (W32 × Bool) := (List.range 32).map (s.vl t r)

/-- A lane's result: bits, poison, status. -/
structure Lane where
  v : W32
  bad : Bool
  st : Nat
  deriving DecidableEq, Repr

/-- A lane from a result. -/
def Res.lane (r : Res) (bad : Bool) : Lane := { v := BitVec.ofNat 32 r.code, bad := bad, st := r.stat }
/-- A lane that is moved. -/
def moved (x : W32 × Bool) : Lane := { v := x.1, bad := x.2, st := 0 }

/-- Status of the lanes written; poison sets none (R423). -/
def statOf (mask : W32) (out : List Lane) : Nat :=
  out.zipIdx.foldl (fun a x => if mask.getLsbD x.2 && !x.1.bad then a ||| x.1.st else a) 0

/-- R181: write the lanes of a register whose predicate bit is 1. -/
def State.putLanes (cur : State) (t : TileId) (r : Nat) (mask : W32) (out : List Lane) : State :=
  (each cur out.zipIdx fun s x =>
    if mask.getLsbD x.2 then (s.setVregL t r x.2 x.1.v).markLane t r x.2 x.1.bad else s).numStat t (statOf mask out)

/-! ## Packings (Table 7-1) -/

/-- Width of an element. -/
def pkW (pk : Nat) : Nat := 32 / 2 ^ pk
/-- Elements of a lane. -/
def laneEls (pk : Nat) (v : W32) : List Nat := (List.range (2 ^ pk)).map fun j => v.toNat / 2 ^ (pkW pk * j) % 2 ^ pkW pk
/-- A lane of elements. -/
def packLane (pk : Nat) (l : List Nat) : W32 :=
  BitVec.ofNat 32 (l.zipIdx.foldl (fun a x => a + x.1 % 2 ^ pkW pk * 2 ^ (pkW pk * x.2)) 0)
/-- Floating-point format of a packing, by VXE_MODE. -/
def State.pkFmt (s : State) (t : TileId) (pk : Nat) : Fmt :=
  match pk with
  | 0 => f32
  | 1 => if bit (s.tr t 0x1300) 0 then f16 else bf16
  | _ => if bit (s.tr t 0x1300) 1 then e5m2 else e4m3

/-- A lane operation by elements. -/
def laneOp (pk : Nat) (g : Nat → Nat → Nat → Res) (a b c : W32 × Bool) : Lane :=
  let rs := ((laneEls pk a.1).zip ((laneEls pk b.1).zip (laneEls pk c.1))).map fun x => g x.1 x.2.1 x.2.2
  { v := packLane pk (rs.map (·.code)), bad := a.2 || b.2 || c.2, st := rs.foldl (fun s r => s ||| r.stat) 0 }

/-- An elementwise instruction of `n` sources. -/
def State.vxElem (pre cur : State) (t : TileId) (f : VxV) (pk n : Nat) (g : Nat → Nat → Nat → Res) : State :=
  let src := fun k (r : BitVec 5) i => if k < n then pre.vl t r.toNat i else (0, false)
  cur.putLanes t f.vd.toNat (pre.pval t f.p.toNat)
    ((List.range 32).map fun i => laneOp pk g (src 0 f.va i) (src 1 f.vb i) (src 2 f.vc i))

/-- A floating-point instruction: exact, then one rounding (R186). -/
def State.vxFp (pre cur : State) (t : TileId) (f : VxV) (n : Nat) (g : Fp → Fp → Fp → Fp) : State :=
  let fm := pre.pkFmt t f.pk.toNat
  pre.vxElem cur t f f.pk.toNat n fun a b c => fm.nearest (g (fm.decode a) (fm.decode b) (fm.decode c))

/-- An integer instruction, wrapping (R186): `g` gets the width. -/
def State.vxInt (pre cur : State) (t : TileId) (f : VxV) (g : Nat → Nat → Nat → Nat) : State :=
  pre.vxElem cur t f f.pk.toNat 2 fun a b _ => { code := g (pkW f.pk.toNat) a b % 2 ^ pkW f.pk.toNat }

/-! ## Legality of the fields of format V (R180, R181) -/

/-- pk at most `m`, and the fields an operation does not use are 0. -/
def vLegal (f : VxV) (m : Nat) (useB useC useP : Bool) : Bool :=
  decide (f.pk.toNat ≤ m) && (useB || decide (f.vb = 0)) && (useC || decide (f.vc = 0)) && (useP || decide (f.p = 0))

/-- A slot that writes one vector register. -/
def vxSlot (f : VxV) (legal : Bool) (apply : State → State → State) : SlotOp :=
  { legal := legal, apply := apply, writes := [32 + f.vd.toNat] }

/-! ## Moves, selection and predicates -/

/-- A lane-by-lane move under the predicate. -/
def State.vxMove (pre cur : State) (t : TileId) (f : VxV) (g : Nat → Lane) : State :=
  cur.putLanes t f.vd.toNat (pre.pval t f.p.toNat) ((List.range 32).map g)

/-- R187, Table 7-6: a comparison; none of LT, LE, GT, GE, EQ holds of a NaN. -/
def cmpFp (cond : Nat) (x y : Fp) : Bool :=
  if x.isNan || y.isNan then decide (cond = 1) || decide (cond = 6)
  else
    let eq := match x, y with
      | .inf a, .inf b => decide (a = b)
      | .fin _ _ _, .fin _ _ _ => x.dy.le y.dy && y.dy.le x.dy
      | _, _ => false
    let lt := !eq && x.leq y
    match cond with
    | 0 => eq | 1 => !eq | 2 => lt | 3 => lt || eq | 4 => !lt && !eq | 5 => !lt | _ => false

/-- The same over integers. -/
def cmpInt (cond : Nat) (x y : Int) : Bool :=
  match cond with
  | 0 => decide (x = y) | 1 => decide (x ≠ y) | 2 => decide (x < y) | 3 => decide (x ≤ y) | 4 => decide (y < x)
  | 5 => decide (y ≤ x) | _ => false

/-- R187: VX.CMP. -/
def State.vxCmpOp (pre cur : State) (t : TileId) (f : VxV) : State :=
  let mask := pre.pval t f.p.toNat
  let cond := f.vc.toNat % 8; let ty := f.vc.toNat / 8
  let test := fun i =>
    let a := pre.vl t f.va.toNat i; let b := pre.vl t f.vb.toNat i
    match ty with
    | 0 => cmpFp cond (fp a.1) (fp b.1)
    | 1 => cmpInt cond a.1.toInt b.1.toInt
    | _ => cmpInt cond a.1.toNat b.1.toNat
  let nan := (List.range 32).any fun i =>
    let a := pre.vl t f.va.toNat i; let b := pre.vl t f.vb.toNat i
    mask.getLsbD i && decide (ty = 0) && !a.2 && !b.2 && ((fp a.1).isNan || (fp b.1).isNan)
  let v := (List.range 32).foldl (fun a i => if mask.getLsbD i && test i then a + 2 ^ i else a) 0
  (cur.setPval t (f.vd.toNat % 8) (BitVec.ofNat 32 v)).numStat t (nat01 nan)

/-- R187: VX.PLOG. -/
def State.vxPlogOp (pre cur : State) (t : TileId) (f : VxV) : State :=
  let a := pre.pval t (f.va.toNat % 8); let b := pre.pval t (f.vb.toNat % 8)
  let v := match f.vc.toNat with
    | 0 => a &&& b | 1 => a ||| b | 2 => a ^^^ b | 3 => a &&& ~~~b | _ => ~~~a
  cur.setPval t (f.vd.toNat % 8) v

/-! ## Conversion (R188) -/

/-- Width of a conversion code; 0 for a code of no format. -/
def cvtW (c : Nat) : Nat :=
  match c with
  | 0 => 8 | 1 => 8 | 2 => 8 | 8 => 16 | 9 => 16 | 10 => 32 | 11 => 32 | _ => 0
/-- Value of a code's element. -/
def cvtDec (c v : Nat) : Fp :=
  match c with
  | 0 => e4m3.decode v | 1 => e5m2.decode v | 8 => bf16.decode v | 9 => f16.decode v | 10 => f32.decode v
  | _ => let i := sx (cvtW c) v; .fin (decide (i < 0)) i.natAbs 0
/-- Format of a floating-point code. -/
def cvtFmt (c : Nat) : Fmt := match c with | 0 => e4m3 | 1 => e5m2 | 8 => bf16 | 9 => f16 | _ => f32
/-- Registers read and written. -/
def VxCspan (f : VxC) : Nat × Nat :=
  let a := cvtW f.src.toNat; let b := cvtW f.dst.toNat
  (if b < a then a / b else 1, if a < b then b / a else 1)
/-- R188: legality of VX.CVT. -/
def cvtLegal (f : VxC) : Bool :=
  let (ns, nd) := VxCspan f
  let a := f.va.toNat; let d := f.vd.toNat
  decide (cvtW f.src.toNat ≠ 0) && decide (cvtW f.dst.toNat ≠ 0) && decide (f.src ≠ f.dst)
    && (match f.nc.toNat % 4 with | 3 => false | 2 => decide (f.dst.toNat ≤ 1) | _ => true)
    && decide (a % ns = 0) && decide (d % nd = 0)
    && ((decide (a = d) && decide (ns = nd)) || decide (a + ns ≤ d) || decide (d + nd ≤ a))

/-- Convert elements in order, drawing where SR needs a value. Table 3-5 has no FP32 and no INT32 column: FP32 follows its BF16 and FP16 column
(an infinity with sat gives the largest finite number and fp_sat), INT32 its integer column (NaN gives 0) (log 106, DESIGN CHOICE). -/
def cvtAll (dst : Nat) (r : Rnd) (sat : Bool) : List Fp → List Nat → List Res
  | [], _ => []
  | x :: xs, gs =>
    if dst = 2 ∨ dst = 11 then toInt (cvtW dst) 0 r x 0 :: cvtAll dst r sat xs gs
    else
      let d := decide (r = .sr) && (match x with | .fin _ m e => (cvtFmt dst).inexact m e | _ => false)
      (cvtFmt dst).convert r sat x (if d then gs.headD 0 else 0) :: cvtAll dst r sat xs (if d then gs.drop 1 else gs)

/-- R188: VX.CVT converts every element of its source span; predicate bit i governs lane i of every register written. -/
def State.vxCvtOp (pre cur : State) (t : TileId) (f : VxC) : State :=
  let (ns, nd) := VxCspan f
  let src := f.src.toNat; let dst := f.dst.toNat
  let r := rndOf f.nc; let sat := satOf f.nc
  let pkS := 32 / cvtW src; let pkD := 32 / cvtW dst
  let lanes := (List.range ns).flatMap fun k => pre.vls t (f.va.toNat + k)
  let els := lanes.flatMap fun x => (laneEls (Nat.log2 pkS) x.1).map fun c => (cvtDec src c, x.2)
  let need := if r = .sr then (els.filter fun x => match x.1 with | .fin _ m e => (cvtFmt dst).inexact m e | _ => false).length else 0
  let (gs, tl) := (cur.tileAt t).rands need
  let cur := if need = 0 then cur else cur.setTile t tl
  let rs := (cvtAll dst r sat (els.map (·.1)) gs).zip (els.map (·.2))
  let cur := cur.numStat t (rs.foldl (fun a x => if x.2 then a else a ||| x.1.stat) 0)
  let mask := pre.pval t f.p.toNat
  each cur (List.range nd) fun s k =>
    s.putLanes t (f.vd.toNat + k) mask ((List.range 32).map fun i =>
      let es := (rs.drop ((k * 32 + i) * pkD)).take pkD
      { v := packLane (Nat.log2 pkD) (es.map (·.1.code)), bad := es.any (·.2), st := 0 })

/-! ## Transcendentals (R189, R190) -/

/-- A result the spec does not state. -/
def freeRes (free : Nat) : Res := codeRes (free % 2 ^ 32) true
/-- A NaN and an infinity. -/
def nanRes : Res := { code := f32.canonNan, nan := true }
def infRes (neg : Bool) : Res := { code := f32.infCode neg, inf := true }

/-- R190: a TU function of one operand: NaN gives NaN; an infinity is not stated; else `g`. -/
def tu1 (g : Bool → Nat → Int → Nat → Res) (a : Nat) (free : Nat) : Res :=
  match f32.decode a with
  | .nan => nanRes
  | .inf _ => freeRes free
  | .fin n m e => g n m e free

/-- R190: LOG, LOG2 and SQRT of a negative value give NaN, −∞ among them. -/
def tuDom (g : Bool → Nat → Int → Nat → Res) (a : Nat) (free : Nat) : Res :=
  if f32.decode a = .inf true then nanRes else tu1 g a free

/-- The number of a decoded magnitude. -/
def dyOf (n : Bool) (m : Nat) (e : Int) : Dy := ⟨if n then -(m : Int) else m, e⟩

/-- 2 ulp about a reference. -/
def within2 (ref : Dy) (free : Nat) : Res := pickRes ref (ulps 2 ref none) free
def within1 (ref : Dy) (free : Nat) : Res := pickRes ref (ulps 1 ref none) free

def tuExp (n : Bool) (m : Nat) (e : Int) (free : Nat) : Res := let r := refExp (dyOf n m e); pickNz true r (ulps 2 r none) free
def tuExp2 (n : Bool) (m : Nat) (e : Int) (free : Nat) : Res := let r := refExp2 (dyOf n m e); pickNz true r (ulps 2 r none) free
def tuLog (n : Bool) (m : Nat) (e : Int) (free : Nat) : Res :=
  if m = 0 then infRes true else if n then nanRes else within2 (refLog ⟨m, e⟩) free
def tuLog2 (n : Bool) (m : Nat) (e : Int) (free : Nat) : Res :=
  if m = 0 then infRes true else if n then nanRes else within2 (refLog2 ⟨m, e⟩) free
def tuRcp (n : Bool) (m : Nat) (e : Int) (free : Nat) : Res :=
  if m = 0 then infRes n else within1 (refDiv ⟨1, 0⟩ (dyOf n m e)) free
/-- RSQ of a negative number and of −0 is not stated. -/
def tuRsq (n : Bool) (m : Nat) (e : Int) (free : Nat) : Res :=
  if m = 0 ∧ n = false then infRes false else if n then freeRes free
  else within1 (refDiv ⟨1, 0⟩ (sqrtDy m e)) free
/-- SQRT is rounded once (R189: 0.5 ulp). -/
def tuSqrt (n : Bool) (m : Nat) (e : Int) (_free : Nat) : Res :=
  if m = 0 then { code := f32.signed n 0 } else if n then nanRes else f32.ofDy (sqrtDy m e) false
def tuTanh (n : Bool) (m : Nat) (e : Int) (free : Nat) : Res :=
  let r := refTanh (dyOf n m e); pickNz (decide (m ≠ 0)) r (ulps 2 r (some (-23))) free
def tuSigm (n : Bool) (m : Nat) (e : Int) (free : Nat) : Res :=
  let r := refSigm (dyOf n m e); pickNz true r (ulps 2 r (some (-23))) free

/-- π to 120 fractional bits. -/
def piDy : Dy := ⟨0x3243F6A8885A308D313198A2E037073, -120⟩

/-- R190: outside |x| ≤ π: a finite value from −1 to 1. -/
def tuTrig (ref : Dy → Dy) (n : Bool) (m : Nat) (e : Int) (free : Nat) : Res :=
  if (⟨m, e⟩ : Dy).le piDy then pickRes (ref (dyOf n m e)) (Dy.pow2 (-22)) free
  else codeRes (free % 2 * 2 ^ 31 + free / 2 % 0x3F800001) true

/-- SIN and COS of an infinity too return a value from −1 to 1. -/
def tuSinCos (ref : Dy → Dy) (a : Nat) (free : Nat) : Res :=
  match f32.decode a with
  | .nan => nanRes
  | .inf _ => codeRes (free % 2 * 2 ^ 31 + free / 2 % 0x3F800001) true
  | .fin n m e => tuTrig ref n m e free

/-- R190: VX.DIV; 0 ÷ 0 and infinite operands are not stated, but for a nonzero value by ±0. -/
def tuDiv (a b : Nat) (free : Nat) : Res :=
  match f32.decode a, f32.decode b with
  | .nan, _ => nanRes
  | _, .nan => nanRes
  | .fin n m e, .fin k l g =>
    if l = 0 then (if m = 0 then freeRes free else infRes (n != k))
    else if m = 0 then { code := f32.signed (n != k) 0 }
    else within1 (refDiv (dyOf n m e) (dyOf k l g)) free
  | .inf n, .fin k l _ => if l = 0 then infRes (n != k) else freeRes free
  | _, _ => freeRes free

/-- A TU instruction: one free number for each lane. -/
def State.vxTu (pre cur : State) (t : TileId) (f : VxV) (n : Nat) (g : Nat → Nat → Nat → Res) : State :=
  let b := fun i => if n = 2 then pre.vl t f.vb.toNat i else (0, false)
  (cur.putLanes t f.vd.toNat (pre.pval t f.p.toNat) ((List.range 32).map fun i =>
    let a := pre.vl t f.va.toNat i
    (g a.1.toNat (b i).1.toNat (pre.draw (2 ^ 21 + i))).lane (a.2 || (b i).2))).drawn

/-! ## Reductions (R191) -/

/-- The elements taking part: FP32 value, or none for an absent one. -/
def State.redEls (pre : State) (t : TileId) (f : VxV) : List (Option Nat) :=
  let fm := pre.pkFmt t f.pk.toNat
  let mask := pre.pval t f.p.toNat
  (pre.vls t f.va.toNat).zipIdx.flatMap fun x =>
    (laneEls f.pk.toNat x.1.1).map fun c => if mask.getLsbD x.2 then some (f32.nearest (fm.decode c)).code else none
/-- A poisoned lane takes part. -/
def State.redBad (pre : State) (t : TileId) (f : VxV) : Bool :=
  (pre.vls t f.va.toNat).zipIdx.any fun x => x.1.2 && (pre.pval t f.p.toNat).getLsbD x.2

/-- One level of the tree. -/
def treeLevel : List (Option (Nat × Nat)) → List (Option (Nat × Nat))
  | a :: b :: l =>
    (match a, b with
      | some x, some y => let r := f32.add (f32.decode x.1) (f32.decode y.1); some (r.code, x.2 ||| y.2 ||| r.stat)
      | some x, none => some x
      | none, y => y) :: treeLevel l
  | l => l
/-- The root. -/
def treeRoot : Nat → List (Option (Nat × Nat)) → Option (Nat × Nat)
  | 0, l => l.head?.join
  | k + 1, l => treeRoot k (treeLevel l)
/-- R191: the sum by the fixed tree; a NaN is written canonical (R65). A subnormal that passes unchanged sets no status. (log 137, DESIGN CHOICE) -/
def redSum (l : List (Option Nat)) : Option Res :=
  (treeRoot 6 (l.map fun x => x.map fun c => (c, 0))).map fun x =>
    let r := f32.nearest (f32.decode x.1)
    { r with nan := r.nan || decide (x.2 % 2 = 1), inf := r.inf || decide (x.2 / 2 % 2 = 1), uflow := decide (x.2 / 32 % 2 = 1) }

/-- R191: the extreme of the elements with its lowest index; the first NaN wins. A subnormal that passes unchanged sets no status. (log 137,
DESIGN CHOICE) -/
def redExt (mx : Bool) (l : List (Option Nat)) : Nat × Nat × Nat :=
  let els := l.zipIdx.filterMap fun x => x.1.map fun c => (c, x.2)
  match els.find? fun x => (f32.decode x.1).isNan with
  | some x => (f32.canonNan, x.2, 1)
  | none =>
    match els with
    | [] => (if mx then 0xFF800000 else 0x7F800000, 0xFFFFFFFF, 0)
    | x :: l =>
      let b := l.foldl (fun b y =>
        let u := f32.decode b.1; let v := f32.decode y.1
        if (if mx then !(v.leq u) else !(u.leq v)) then y else b) x
      (b.1, b.2, if (f32.decode b.1).isInf then 2 else 0)

/-- R191: VX.RSUM and VX.RSUMA. -/
def State.vxSumOp (pre cur : State) (t : TileId) (f : VxV) (acc : Bool) : State :=
  let d := f.vd.toNat; let old := pre.vl t d 0
  match redSum (pre.redEls t f) with
  | none => if acc then cur else cur.putLanes t d 1 [{ v := 0, bad := false, st := 0 }]
  | some r =>
    if acc then
      let q := f32.add (fp old.1) (f32.decode r.code)
      cur.putLanes t d 1 [{ v := BitVec.ofNat 32 q.code, bad := old.2 || pre.redBad t f, st := r.stat ||| q.stat }]
    else cur.putLanes t d 1 [r.lane (pre.redBad t f)]
/-- R191: VX.RMAX and VX.RMIN. -/
def State.vxExtOp (pre cur : State) (t : TileId) (f : VxV) (mx : Bool) : State :=
  let (v, i, st) := redExt mx (pre.redEls t f)
  let bad := pre.redBad t f
  cur.putLanes t f.vd.toNat 3 [{ v := BitVec.ofNat 32 v, bad := bad, st := st }, { v := BitVec.ofNat 32 i, bad := bad, st := 0 }]

/-! ## The scan (R192) -/

/-- A lane of the scan: F, A, B, poison, status. -/
structure ScanL where
  f : Bool
  a : Nat
  b : Nat
  bad : Bool
  st : Nat
  deriving DecidableEq, Repr

/-- a × b + c, one rounding. -/
def fma (a b c : Nat) : Res := f32.nearest (((f32.decode a).mul (f32.decode b)).add (f32.decode c))

/-- One level at distance `d`. -/
def scanLevel (d : Nat) (l : List ScanL) : List ScanL :=
  l.zipIdx.map fun x =>
    if d ≤ x.2 ∧ x.1.f = false then
      match l[x.2 - d]? with
      | none => x.1
      | some y =>
        let a := f32.nearest ((f32.decode x.1.a).mul (f32.decode y.a))
        let b := fma x.1.a y.b x.1.b
        { f := y.f, a := a.code, b := b.code, bad := x.1.bad || y.bad, st := x.1.st ||| y.st ||| a.stat ||| b.stat }
    else x.1

/-- R192: VX.SCAN writes every lane. -/
def State.vxScanOp (pre cur : State) (t : TileId) (f : VxV) : State :=
  let seg : W32 := if f.p = 0 then 0 else pre.pval t f.p.toNat
  let l0 := (List.range 32).map fun i =>
    let a := pre.vl t f.va.toNat i; let b := pre.vl t f.vb.toNat i
    ({ f := seg.getLsbD i, a := a.1.toNat, b := b.1.toNat, bad := a.2 || b.2, st := 0 } : ScanL)
  let l := [1, 2, 4, 8, 16].foldl (fun l d => scanLevel d l) l0
  let c := pre.vl t f.vc.toNat 31
  cur.putLanes t f.vd.toNat 0xFFFFFFFF (l.map fun x =>
    let r := fma x.a (if x.f then 0 else c.1.toNat) x.b
    { v := BitVec.ofNat 32 r.code, bad := x.bad || (!x.f && c.2), st := x.st ||| r.stat })

/-! ## Circular buffers and scratchpad access (R182 to R185) -/

/-- Base and length of a buffer; none where it is inconsistent. -/
def State.cbuf (s : State) (t : TileId) (cb : Nat) : Option (Nat × Nat) :=
  let w := s.tr t (0x1300 + 16 * cb)
  let base := fld w 11 0; let len := fld w 24 12
  if 1 ≤ len ∧ len ≤ 4096 ∧ base + len ≤ 4096 then some (base, len) else none

/-- R197: a VXE fault with its record. -/
def vxFault (t : TileId) (code lane cause cb : Nat) : Verdict :=
  .stop fun s => (s.setTr t 0x1308 (BitVec.ofNat 32 (lane + cause * 32 + cb * 256))).engFault t 1 code

/-- The lines of an M-format access: `n` of them, generator channel `ch`. -/
def State.vxLines (s : State) (t : TileId) (f : VxM) (n ch : Nat) : Except Verdict (List Nat) :=
  match agField 12 f.line.toNat (s.agOffset t 1 f.ag.toNat ch) with
  | none => .error (.fault 0x3C)
  | some l =>
    if f.cb = 0 then
      if 4096 < l + n then .error (vxFault t 0x48 0 0 0) else .ok ((List.range n).map (l + ·))
    else match s.cbuf t f.cb.toNat with
      | none => .error (vxFault t 0x49 0 2 f.cb.toNat)
      | some (base, len) => .ok ((List.range n).map fun j => base + (l + j) % len)

/-- R215: any of the lines held by QUARANTINE? -/
def State.linesHeld (s : State) (t : TileId) (ls : List Nat) : Bool := ls.any fun l => s.quarHeld t (64 * l) 64

/-- Verdict of an M-format access. -/
def State.vxMCheck (s : State) (t : TileId) (f : VxM) (n ch : Nat) : Verdict :=
  match s.vxLines t f n ch with
  | .error v => v
  | .ok ls => if s.linesHeld t ls then .wait else .ok

/-- A line's sixteen words, with its poison mark. -/
def State.lineWords (s : State) (t : TileId) (l : Nat) : List (W32 × Bool) :=
  (List.range 16).map fun k => (s.spadW t (64 * l + 4 * k), s.spadP t l)

/-- R182: a load: whole lines read, lanes from `lo` on written under the predicate. -/
def State.vxLoad (pre cur : State) (t : TileId) (f : VxM) (n lo : Nat) : State :=
  match pre.vxLines t f n 0 with
  | .error _ => cur
  | .ok ls =>
    let ws := ls.flatMap (pre.lineWords t)
    let mask := pre.pval t f.p.toNat
    each cur ws.zipIdx fun s x =>
      let i := lo + x.2
      if mask.getLsbD i then (s.setVregL t f.v.toNat i x.1.1).markLane t f.v.toNat i x.1.2 else s

/-- R182, R421: words stored to a line; `ws` gives the words written. -/
def State.storeLine (cur : State) (t : TileId) (l : Nat) (ws : List (Option (W32 × Bool))) : State :=
  let s := each cur ws.zipIdx fun s x => match x.1 with
    | none => s
    | some w => s.setSpadBytes t (64 * l + 4 * x.2) (natLe 4 w.1.toNat)
  let bad := ws.any fun w => w.any (·.2)
  if ws.all Option.isSome && decide (ws.length = 16) then s.markSpad t l bad
  else if bad || s.spadP t l then s.markSpad t l true else s

/-- R182: a store of lanes from `lo` on. -/
def State.vxStore (pre cur : State) (t : TileId) (f : VxM) (n lo : Nat) : State :=
  match pre.vxLines t f n 1 with
  | .error _ => cur
  | .ok ls =>
    let mask := pre.pval t f.p.toNat
    each cur ls.zipIdx fun s x => s.storeLine t x.1 ((List.range 16).map fun k =>
      let i := lo + 16 * x.2 + k
      if mask.getLsbD i then some (pre.vl t f.v.toNat i) else none)

/-- R185: word address of a lane. -/
def State.vxWord (s : State) (t : TileId) (f : VxG) (i : Nat) : Nat := f.line.toNat * 16 + (s.vl t f.vi.toNat i).1.toNat
/-- Lanes taking part. -/
def State.vxTaking (s : State) (t : TileId) (f : VxG) : List Nat := (List.range 32).filter fun i => (s.pval t f.p.toNat).getLsbD i
/-- R185: verdict of a gather or scatter. -/
def State.vxGCheck (s : State) (t : TileId) (f : VxG) : Verdict :=
  match (s.vxTaking t f).find? fun i => decide (65535 < s.vxWord t f i) with
  | some i => vxFault t 0x48 i 1 0
  | none => if s.linesHeld t ((s.vxTaking t f).map fun i => s.vxWord t f i / 16) then .wait else .ok
/-- R185: VX.GATH. -/
def State.vxGather (pre cur : State) (t : TileId) (f : VxG) : State :=
  each cur (pre.vxTaking t f) fun s i =>
    let w := pre.vxWord t f i
    (s.setVregL t f.v.toNat i (pre.spadW t (4 * w))).markLane t f.v.toNat i
      (pre.spadP t (w / 16) || (pre.vl t f.vi.toNat i).2)
/-- R185: VX.SCAT: on equal words the highest lane stays. -/
def State.vxScatter (pre cur : State) (t : TileId) (f : VxG) : State :=
  each cur (pre.vxTaking t f) fun s i =>
    let w := pre.vxWord t f i
    let x := pre.vl t f.v.toNat i
    s.storeLine t (w / 16) ((List.range 16).map fun k => if k = w % 16 then some (x.1, x.2 || (pre.vl t f.vi.toNat i).2) else none)

/-! ## Tap with move (R193, R194) -/

/-- Base, frames, head and taps of a VX.TAPMV. -/
def State.tapArgs (s : State) (t : TileId) (f : VxV) : Except Verdict (Nat × Nat × Nat × Nat) :=
  let cb := f.vb.toNat % 8
  match s.cbuf t cb with
  | none => .error (vxFault t 0x49 0 2 cb)
  | some (base, len) =>
    let head := fld (s.tr t (0x1304 + 16 * cb)) 11 0
    let n := fld (s.tr t (0x1380 + 4 * (f.vb.toNat / 8))) 4 0
    if len % 2 ≠ 0 ∨ len / 2 ≤ head then .error (vxFault t 0x49 0 2 cb)
    else if n = 0 ∨ 16 < n ∨ len / 2 < n then .error (vxFault t 0x49 0 3 cb)
    else .ok (base, len / 2, head, n)

/-- Verdict. -/
def State.tapCheck (s : State) (t : TileId) (f : VxV) : Verdict :=
  match s.tapArgs t f with
  | .error v => v
  | .ok (base, r, _, _) => if s.linesHeld t ((List.range (2 * r)).map (base + ·)) then .wait else .ok

/-- R193: VX.TAPMV. -/
def State.vxTapOp (pre cur : State) (t : TileId) (f : VxV) : State :=
  match pre.tapArgs t f with
  | .error _ => cur
  | .ok (base, r, head, n) =>
    let a := pre.vls t f.va.toNat
    let h := fun k => (pre.tr t (0x1400 + 0x40 * (f.vb.toNat / 8) + 4 * k)).toNat
    let word := fun k i =>
      if k = 0 then a.getD i (0, false)
      else
        let l := base + 2 * ((head + r - k) % r) + i / 16
        (pre.spadW t (64 * l + 4 * (i % 16)), pre.spadP t l)
    let out := (List.range 32).map fun i =>
      let z := (List.range n).reverse.foldl (fun (b : Nat × Nat × Bool) k =>
        let x := word k i
        let q := fma (h k) x.1.toNat b.1
        (q.code, b.2.1 ||| q.stat, b.2.2 || x.2)) (0, 0, false)
      ({ v := BitVec.ofNat 32 z.1, bad := z.2.2, st := z.2.1 } : Lane)
    let cur := cur.storeLine t (base + 2 * head) ((a.take 16).map some)
    let cur := cur.storeLine t (base + 2 * head + 1) ((a.drop 16).map some)
    let cur := cur.putLanes t f.vd.toNat (pre.pval t f.p.toNat) out
    cur.setTr t (0x1304 + 16 * (f.vb.toNat % 8)) (BitVec.ofNat 32 ((head + 1) % r))

/-! ## Small matrices (R195, R196) -/

/-- k − 1 stands in bits [30:27]. -/
def matK (f : VxV) : Nat := f.p.toNat + 8 * (f.pk.toNat % 2) + 1
/-- Registers of a matrix. -/
def matN (f : VxV) : Nat := (matK f + 1) / 2
/-- Spans of `n` registers share one. -/
def spanHit (n a b : Nat) : Bool := decide (a < b + n) && decide (b < a + n)
/-- R195: legality of VX.MM, VX.MMBT and VX.MMAT. -/
def mmLegal (f : VxV) : Bool :=
  let n := matN f; let d := f.vd.toNat; let a := f.va.toNat; let b := f.vb.toNat; let c := f.vc.toNat
  decide (f.pk.toNat < 2) && decide (d + n ≤ 32) && decide (a + n ≤ 32) && decide (b + n ≤ 32)
    && (decide (c = 31) || (decide (c + n ≤ 32) && (decide (c = d) || !spanHit n c d)))
    && !spanHit n d a && !spanHit n d b
/-- R195: legality of VX.CHOL and VX.CHSV. -/
def cholLegal (f : VxV) : Bool :=
  decide (f.pk.toNat < 2) && decide (f.va = 0) && decide (f.vb = 0) && decide (f.vc = 0) && decide (f.vd.toNat + matN f ≤ 32)
def chsvLegal (f : VxV) : Bool :=
  decide (f.pk.toNat < 2) && decide (f.vc = 0) && decide (f.va.toNat + matN f ≤ 32)
    && !(decide (f.va.toNat ≤ f.vd.toNat) && decide (f.vd.toNat < f.va.toNat + matN f))

/-- Element (i, j) of the matrix at a register. -/
def State.mat (s : State) (t : TileId) (base i j : Nat) : W32 × Bool := s.vl t (base + i / 2) (16 * (i % 2) + j)

/-- Write a matrix: `g i j` inside the block, zero outside, over every lane of its registers. -/
def State.putMat (cur : State) (t : TileId) (d n k : Nat) (g : Nat → Nat → Lane) : State :=
  each cur (List.range n) fun s r => s.putLanes t (d + r) 0xFFFFFFFF ((List.range 32).map fun l =>
    let i := 2 * r + l / 16; let j := l % 16
    if i < k ∧ j < k then g i j else { v := 0, bad := false, st := 0 })

/-- 1.01 × c × u × x. -/
def uBound (c : Nat) (x : Dy) : Dy := x.scale (101 * c) (100 * 2 ^ 24)

/-- R71: in some order of accumulation the terms of one sign (their sum `x`, off by the bound at most) reach past the largest FP32 number. -/
def mayOverflow (x bound : Dy) : Bool := !((x.add bound).lt ⟨2 ^ 25 - 1, 103⟩)

/-- R65, R68, R71: a sum of terms within its bound; a sum of −0 alone is −0 (log 137, DESIGN CHOICE). Where the order of accumulation decides whether an intermediate overflows, the outcome
is the bounded result, or the infinity of a sign whose terms alone can overflow, or NaN where both signs' can. -/
def sumRes (terms : List Fp) (bound : Dy) (free : Nat) : Res :=
  let x := terms.foldl Fp.add (.fin true 0 0)
  if terms.any fun y => y.isNan || y.isInf then f32.nearest x
  else if x.dy.m = 0 ∧ bound.m = 0 then f32.nearest x
  else
    let up := mayOverflow (Dy.sum ((terms.filter fun y => !y.isNeg).map fun y => y.dy)) bound
    let down := mayOverflow (Dy.sum ((terms.filter fun y => y.isNeg).map fun y => y.dy.abs)) bound
    let outs := (if up then [infRes false] else []) ++ (if down then [infRes true] else []) ++ (if up && down then [nanRes] else [])
    let k := outs.length + 1
    outs.getD (free % k) (pickRes (toF64 x.dy) bound (free / k))

/-- R195: D = A × B + C with A and B as their forms read them. -/
def State.vxMmOp (pre cur : State) (t : TileId) (f : VxV) (ta tb : Bool) : State :=
  let k := matK f
  let a := fun i l => if ta then pre.mat t f.va.toNat l i else pre.mat t f.va.toNat i l
  let b := fun l j => if tb then pre.mat t f.vb.toNat j l else pre.mat t f.vb.toNat l j
  (cur.putMat t f.vd.toNat (matN f) k fun i j =>
    let ps := (List.range k).map fun l => (fp (a i l).1).mul (fp (b l j).1)
    let c := if f.vc = 31 then (0, false) else pre.mat t f.vc.toNat i j
    let bad := (List.range k).any (fun l => (a i l).2 || (b l j).2) || c.2
    let terms := if f.vc = 31 then ps else ps ++ [fp c.1]
    (sumRes terms (uBound k (Dy.sum (ps.map fun y => y.dy.abs))) (pre.draw (16 * i + j))).lane bad).drawn

/-- An FP32 code from the places between two bounds, taken by the free number; `near` where no number lies between. -/
def pickBetween (lo hi near : Dy) (free : Nat) : Nat :=
  let a := ordCeil lo; let b := ordFloor hi
  if b < a then (f32.ofDy near false).code else ofOrd (a + ((free % (b - a + 1).toNat : Nat) : Int))

/-- √x, none below 0. -/
def sqrtOf (x : Dy) : Dy := if x.m ≤ 0 then Dy.zero else sqrtDy x.m.natAbs x.e

/-- R69, R189: Table 3-6 bounds VX.CHOL and VX.CHSV together, by 1.01 × 3k × u. Of it the factor takes (k + 1) × u, what one rounding of
each of its entries needs, and the solve what is left (log 105, DESIGN CHOICE). -/
def cholBound (k : Nat) (x : Dy) : Dy := x.scale (k + 1) (2 ^ 24)
def chsvBound (k : Nat) (x : Dy) : Dy := x.scale (203 * k - 100) (100 * 2 ^ 24)

/-- What is left of element (i, j) of A, read from its lower triangle (log 137, DESIGN CHOICE), below the columns `l` of L, with the sum of the
magnitudes it stands for. -/
def cholRest (a : Nat → Nat → Nat) (l : List (List Res)) (i j : Nat) : Fp × Dy :=
  let ps := (List.range j).map fun m => (f32.decode ((l.getD m []).getD i { code := 0 }).code).mul (f32.decode ((l.getD m []).getD j { code := 0 }).code)
  let x := ps.foldl (fun v p => v.add p.negate) (f32.decode (a i j))
  (x, (Dy.sum (ps.map fun y => y.dy.abs)).add x.dy.abs)

/-- The root of a pivot; none where the pivot is not greater than 0, or NaN. Where the bound reaches across 0 either may hold. -/
def cholPivot (k : Nat) (a : Nat → Nat → Nat) (l : List (List Res)) (j free : Nat) : Option Res :=
  match cholRest a l j j with
  | (.fin _ m e, s) =>
    let x := dyOf (cholRest a l j j).1.isNeg m e
    let b := cholBound k s
    let lo := x.add b.neg; let hi := x.add b
    if hi.m ≤ 0 ∨ (lo.m ≤ 0 ∧ free % 2 = 0) then none
    else
      let c := codeRes (pickBetween (sqrtOf lo) (sqrtOf hi) (sqrtOf x) (free / 2)) (decide (x.m ≠ 0))
      if c.code = 0 then none else some c
  | (.inf false, _) => some (infRes false)
  | _ => none

/-- An entry of L below its pivot's root. -/
def cholEntry (k : Nat) (a : Nat → Nat → Nat) (l : List (List Res)) (d : Nat) (i j free : Nat) : Res :=
  let (x, s) := cholRest a l i j
  match x, f32.decode d with
  | .fin _ _ _, .fin _ m e => pickRes (refDiv x.dy ⟨m, e⟩) (cholBound k (refDiv s ⟨m, e⟩)) free
  | .nan, _ => nanRes
  | _, _ => freeRes free

/-- R195, R196: the lower factor column by column; once a pivot is not greater than 0 every later column is NaN. -/
def cholCols (k : Nat) (a : Nat → Nat → Nat) (free : Nat → Nat) : Nat → Nat → Bool → List (List Res) → List (List Res)
  | 0, _, _, l => l
  | n + 1, j, dead, l =>
    let d := if dead then none else cholPivot k a l j (free (1024 + j))
    let col := (List.range k).map fun i =>
      if i < j then { code := 0 } else match d with
        | none => nanRes
        | some q => if i = j then q else cholEntry k a l q.code i j (free (16 * i + j))
    cholCols k a free n (j + 1) d.isNone (l ++ [col])

/-- R195: VX.CHOL: the factor in place; a poisoned element poisons all of it. -/
def State.vxCholOp (pre cur : State) (t : TileId) (f : VxV) : State :=
  let k := matK f; let d := f.vd.toNat
  let l := cholCols k (fun i j => (pre.mat t d i j).1.toNat) pre.draw k 0 false []
  let bad := (List.range k).any fun i => (List.range k).any fun j => (pre.mat t d i j).2
  (cur.putMat t d (matN f) k fun i j => ((l.getD j []).getD i { code := 0 }).lane bad).drawn

/-- L y = b from the first unknown on, in FP64. -/
def refDown (l : Nat → Nat → Dy) (b : Nat → Dy) : Nat → List Dy → List Dy
  | 0, y => y
  | n + 1, y =>
    let i := y.length
    refDown l b n (y ++ [refDiv ((b i).add (Dy.sum (y.zipIdx.map fun x => ((l i x.2).mul x.1).neg))) (l i i)])
/-- Lᵀ x = y from the last unknown down, in FP64; `x` holds the unknowns after. -/
def refUp (l : Nat → Nat → Dy) (y : Nat → Dy) : Nat → List Dy → List Dy
  | 0, x => x
  | n + 1, x => refUp l y n (refDiv ((y n).add (Dy.sum (x.zipIdx.map fun z => ((l (n + 1 + z.2) n).mul z.1).neg))) (l n n) :: x)

/-- Component i of M x, where M = L Lᵀ, both with magnitudes where `mag` holds. -/
def lltRow (k : Nat) (l : Nat → Nat → Dy) (x : Nat → Dy) (mag : Bool) (i : Nat) : Dy :=
  let h := fun (d : Dy) => if mag then d.abs else d
  let z := (List.range k).map fun m => Dy.sum ((List.range k).map fun j => if m ≤ j then (h (l j m)).mul (h (x j)) else Dy.zero)
  Dy.sum ((List.range (i + 1)).map fun m => (h (l i m)).mul (z.getD m Dy.zero))

/-- R69: x solves (L Lᵀ + ΔA) x = b for some ΔA within the solve's share: |b − L Lᵀ x| is within it of |L| |Lᵀ| |x|, row by row. -/
def solves (k : Nat) (l : Nat → Nat → Dy) (b x : Nat → Dy) : Bool :=
  (List.range k).all fun i => (((b i).add (lltRow k l x false i).neg).abs).le (chsvBound k (lltRow k l x true i))

/-- R195, R69: a right-hand side's solution: the free codes where they lie within the bound, else the nearest to the reference's. A NaN among
the operands makes every unknown NaN (R65); what an infinity or a zero on the diagonal gives is not stated (log 98, DESIGN CHOICE). -/
def solveCol (k : Nat) (l : Nat → Nat → Nat) (b : Nat → Nat) (free : Nat → Nat) : List Res :=
  let ls := (List.range k).flatMap fun i => (List.range (i + 1)).map fun j => f32.decode (l i j)
  let bs := (List.range k).map fun i => f32.decode (b i)
  if (ls ++ bs).any Fp.isNan then (List.range k).map fun _ => nanRes
  else if (ls ++ bs).any Fp.isInf ∨ (List.range k).any (fun i => decide ((f32.decode (l i i)).dy.m = 0)) then (List.range k).map fun i => freeRes (free i)
  else
    let dl := fun i j => (f32.decode (l i j)).dy
    let db := fun i => (f32.decode (b i)).dy
    let y := refDown dl db k []
    let x := refUp dl (fun i => y.getD i Dy.zero) k []
    let c := fun i => free i % 2 ^ 32
    if (List.range k).all (fun i => !(f32.decode (c i)).isNan && !(f32.decode (c i)).isInf) && solves k dl db (fun i => (f32.decode (c i)).dy)
    then (List.range k).map fun i => codeRes (c i) (decide ((x.getD i Dy.zero).m ≠ 0))
    else x.map fun v => f32.ofDy v false

/-- R195: VX.CHSV: two right-hand sides in lanes 0 and 16 on; every other lane 0. -/
def State.vxChsvOp (pre cur : State) (t : TileId) (f : VxV) : State :=
  let k := matK f
  let l := fun i j => (pre.mat t f.va.toNat i j).1.toNat
  let badL := (List.range k).any fun i => (List.range (i + 1)).any fun j => (pre.mat t f.va.toNat i j).2
  let side := fun h =>
    let x := solveCol k l (fun i => (pre.vl t f.vb.toNat (16 * h + i)).1.toNat) fun i => pre.draw (64 * h + i)
    let bad := badL || (List.range k).any fun i => (pre.vl t f.vb.toNat (16 * h + i)).2
    (List.range 16).map fun i => if i < k then (x.getD i { code := 0 }).lane bad else ({ v := 0, bad := false, st := 0 } : Lane)
  (cur.putLanes t f.vd.toNat 0xFFFFFFFF (side 0 ++ side 1)).drawn

end Sys2Proof.Machine
end

