-- ==== Sys2Proof/Machine/WeirOps.lean ====
section
/-!
DEFINITION. The weir (R88 to R105): parameter sets, what a weir instruction checks when its page resolves, what each
operation writes, list-mode WEIR.GATHER entry by entry, and the stop record.
-/
namespace Sys2Proof

open Machine

/-- R90, R133: the generator's offsets on lpn, row_first, src and dst; none where a field leaves its range. -/
def WeirF.offset (f : WeirF) (s : Machine.State) (t : TileId) : Option WeirF := do
  let o := fun c => s.agOffset t 3 f.ag.toNat c
  let l ← agField 24 f.lpn.toNat (o 0)
  let r ← agField 13 f.rowFirst.toNat (o 1)
  let a ← agField 12 f.src.toNat (o 2)
  let d ← agField 12 f.dst.toNat (o 3)
  pure { f with lpn := BitVec.ofNat 24 l, rowFirst := BitVec.ofNat 13 r, src := BitVec.ofNat 12 a, dst := BitVec.ofNat 12 d }

/-- Rows of an operation. -/
def WeirF.rows (f : WeirF) : Nat := f.rowCntM1.toNat + 1
/-- Format field of imm (Table 4-8). -/
def WeirF.fmt (f : WeirF) : Nat := bits f.imm.toNat 3 0
/-- WEIR.GATHER's list flag; WEIR.TOPK's k and merge. -/
def WeirF.list (f : WeirF) : Bool := f.imm.getLsbD 8
def WeirF.k (f : WeirF) : Nat := bits f.imm.toNat 6 0
def WeirF.merge (f : WeirF) : Bool := f.imm.getLsbD 7

/-- A format code that a class can have (Table 4-1). -/
def clsCode (n : Nat) : Bool := decide (n ≤ 10) || decide (n = 15)

/-- R91, Table 4-8: legality. -/
def WeirF.legal (f : WeirF) (k : WeirKind) : Bool :=
  match k with
  | .nop => decide (f.nc = 0) && decide (f.imm = 0)
  | .score => decide (f.nc = 0) && decide (f.imm = 0)
  | .attend => decide (f.nc = 0) && decide (f.imm = 0)
  | .topk => decide (f.nc = 0) && decide (1 ≤ f.k) && decide (f.k ≤ 64) && decide (f.imm.toNat < 256)
  | .append => decide (f.nc.toNat % 4 ≠ 3) && clsCode f.fmt && decide (f.imm.toNat < 16)
  | .reuse => decide (f.nc = 0) && decide (bits f.imm.toNat 7 6 = 0) && decide (f.imm.toNat < 1024)
  | .gather => decide (f.nc.toNat % 4 < 2) && clsCode f.fmt && decide (bits f.imm.toNat 7 4 = 0) && decide (f.imm.toNat < 512)

end Sys2Proof

namespace Sys2Proof.Machine

/-! ## Parameter sets (R92) -/

def wpQfmt (c : W32) : Nat := fld c 7 4
def wpH (c : W32) : Nat := fld c 12 8
def wpKvh (c : W32) : Nat := fld c 17 13
def wpHdim (c : W32) : Nat := 32 * fld c 22 18
def wpNq (c : W32) : Nat := fld c 26 23

/-- R92: what the loader checks of a set: fields in range, qfmt listed, H a multiple of kvh. -/
def wpSane (c : W32) : Bool :=
  let h := wpH c; let k := wpKvh c; let b := fld c 22 18; let n := wpNq c
  (decide (wpQfmt c = 8) || decide (wpQfmt c = 9) || decide (wpQfmt c = 10)) && decide (1 ≤ h) && decide (h ≤ 16) && decide (1 ≤ k)
    && decide (k ≤ 16) && decide (1 ≤ b) && decide (b ≤ 16) && decide (1 ≤ n) && decide (n ≤ 8) && decide (h % k = 0)

/-- R92: the set is consistent for a class. -/
def wpOk (c w : W32) : Bool := wpSane c && decide (clsElems w = wpKvh c * wpHdim c)

/-- Lines that `n` bytes take from a line boundary. -/
def linesOf (n : Nat) : Nat := (n + 63) / 64

/-- Bytes of a row of a class in a format. -/
def rowIn (w : W32) (fmt : Nat) : Nat := clsElems w * (if fmt = 15 then 64 else (EFmt.mk fmt false).bits) / 8

/-- R89, R93 to R98: lines of src, aux and dst. -/
def weirLines (k : WeirKind) (f : WeirF) (c w : W32) : Nat × Nat × Nat :=
  let nh := wpNq c * wpH c
  let q := linesOf (nh * wpHdim c * (EFmt.mk (wpQfmt c) false).bits / 8)
  let scales := if f.fmt = fld w 3 0 then linesOf (f.rows * blocksPerRow w) else 0
  match k with
  | .nop => (0, 0, 0)
  | .score => (q, 0, nh * linesOf (4 * f.rows))
  | .attend => (q, 0, nh * linesOf (4 * (2 + wpHdim c)))
  | .topk => let d := nh * ((f.k + 3) / 4); (q, if f.merge then d else 0, d)
  | .append => (f.rows * linesOf (rowIn w f.fmt), scales, 0)
  | .reuse => (linesOf (8 * f.rows), 1, linesOf (4 * ((f.rows + 31) / 32)))
  | .gather => (0, if f.list then linesOf (16 * f.rows) else 0, f.rows * linesOf (rowIn w f.fmt) + scales)

/-- R89: no region passes line 4,095. -/
def weirRegions (k : WeirKind) (f : WeirF) (c w : W32) : Bool :=
  let (a, b, d) := weirLines k f c w
  let ok := fun (base : BitVec 12) n => decide (n = 0) || decide (base.toNat + n ≤ 4096)
  ok f.src a && ok f.aux b && ok f.dst d

/-- R89: scratchpad lines that an operation writes. -/
def WeirOp.lands (o : WeirOp) : List Nat :=
  let (_, b, d) := weirLines o.kind o.f o.cfg o.page.clsWord
  ((List.range d).map (o.f.dst.toNat + ·)) ++ (if o.kind = .reuse then (List.range b).map (o.f.aux.toNat + ·) else [])

/-! ## Stops (R102 to R104) -/

/-- R102, R103: the WEI engine halts; the record names the page. -/
def State.weirStopAt (s : State) (t : TileId) (reason : Nat) (lpn : Lpn) (c : CtxId) (entry : Nat) : State :=
  let g := s.engAt t 3
  let s := s.setEng t 3 { g with st := .stopped, code := 0x10, waitUnit := false, waits := [] }
  let tl := s.tileAt t
  let s := s.setTile t { tl with
    wstop := { code := 0x10, reason := BitVec.ofNat 3 reason, valid := true, lpn := lpn, ctx := c, entry := BitVec.ofNat 13 entry }
    walk := none, weirFrom := entry }
  let s := (s.incReg (tileBase t + 0x1A10) 15 0 1).lightP (s.partOf t) 6 1
  (s.trace t 0x04 3 lpn.toNat (0x10 + reason * 256)).raiseTile t 48

/-- WEIR_STOP_RESUME: the engine reissues its word. -/
def State.weirResume (s : State) (t : TileId) : State :=
  let tl := s.tileAt t
  if !tl.wstop.valid then s else
  let s := s.setTile t { tl with wstop := { tl.wstop with valid := false } }
  let s := s.trace t 0x05 3 tl.wstop.lpn.toNat (0x10 + tl.wstop.reason.toNat * 256)
  let g := s.engAt t 3
  match g.st with
  | .stopped => s.setEng t 3 { g with st := .run }
  | .halted => if g.before = .stopped then s.setEng t 3 { g with before := .run } else s
  | _ => s

/-- WEIR_STOP_FAULT. -/
def State.weirStopFault (s : State) (t : TileId) (code : Byte) : State :=
  let tl := s.tileAt t
  if !tl.wstop.valid then s else
  let s := s.setTile t { tl with wstop := { tl.wstop with valid := false }, weirFrom := 0 }
  let c := code.toNat
  s.engFault t 3 (if 0x20 ≤ c ∧ c ≤ 0x7F then c else 0x34)

/-- R104: a kill clears the record; issued operations complete. -/
def State.killWeir (s : State) (t : TileId) : State :=
  let tl := s.tileAt t
  s.setTile t { tl with wstop := { tl.wstop with valid := false }, walk := none, weirFrom := 0 }

/-! ## Issue (R78, R88 to R92, R94, R235) -/

/-- No page. -/
def noPage : PageAt := { inCistern := false, tile := 0, slot := 0, frame := 0, cls := 0, clsWord := 0 }

/-- R405: a map walk of the weir is held at a closed gate, which it asks to open: its word waits on the unit. -/
def State.weirHold (s : State) (t : TileId) (d : Nat) : State :=
  (s.askWake d).setEng t 3 { s.engAt t 3 with st := .wait, waitUnit := true, waits := [] }

/-- R78: a page for the weir, or why there is none. -/
def State.weirPage (s : State) (p : PartId) (t : TileId) (lpn : Lpn) (entry : Nat) : State × Except Verdict PageAt :=
  let c := s.ctxOf t
  match s.resolve p t .weir c lpn with
  | (s, .page g) => (s, .ok g)
  | (s, .fault) => (s, .error (.fault 0x30))
  | (s, .stop r) => (s, .error (.stop fun s => s.weirStopAt t r lpn c entry))
  | (s, .poison a) => (s, .error (.poison .hbm a))
  | (s, .held d) => (s, .error (.stop fun s => s.weirHold t d))

/-- R94: the value page's LPN; none where the sum leaves 24 bits. -/
def valueLpn (lpn : Lpn) (ofs : W32) : Option Lpn :=
  let v := (lpn.toNat : Int) + sx 24 (fld ofs 23 0)
  if 0 ≤ v ∧ v < 2 ^ 24 then some (BitVec.ofInt 24 v) else none

/-- Table 4-8, R91, R92, R94, R99: the fault that the resolved page gives; 0 for none. Which code is given where several checks fail the spec
leaves open, and it names no fault for a format code of WEIR.APPEND or WEIR.GATHER that is neither 8 nor 10 nor the page's own: class, then
set, limit, SR, rows and regions are tested, and such a code is CLASS_MISMATCH (log 110, DESIGN CHOICE). -/
def weirFault (k : WeirKind) (f : WeirF) (c : W32) (g v : PageAt) : Nat :=
  let w := g.clsWord; let fm := fld w 3 0
  let scored := decide (k = .score) || decide (k = .attend) || decide (k = .topk)
  if scored && (decide (g.cls.toNat ≠ fld c 3 0) || decide (fm = 15)) then 0x32
  else if decide (k = .attend) && decide (v.cls ≠ g.cls) then 0x32
  else if decide (k = .reuse) && decide (fm ≠ 15) then 0x32
  else if (decide (k = .append) || decide (k = .gather)) && decide (f.fmt ≠ fm) && (decide (fm = 15) || (decide (f.fmt ≠ 8) && decide (f.fmt ≠ 10))) then 0x32
  else if scored && !wpOk c w then 0x33
  else if (decide (k = .attend) || decide (k = .topk)) && decide (8192 < wpNq c * wpH c * f.rows) then 0x33
  else if decide (k = .append) && decide (f.fmt ≠ fm) && !ncLegal f.nc fm then 0x33
  else if rowsPerPage w ≤ f.rowFirst.toNat + f.rowCntM1.toNat then 0x31
  else if !weirRegions k f c w then 0x33
  else 0

/-- R235: lines that cross the canal. -/
def weirCharge (k : WeirKind) (f : WeirF) (c : W32) (t : TileId) (g v : PageAt) : Nat :=
  let (a, b, d) := weirLines k f c g.clsWord
  let n := if g.tile = t then 0 else a + b + d
  let rb := rowBytes g.clsWord
  let first := f.rowFirst.toNat * rb
  n + if decide (k = .attend) && decide (v.tile ≠ g.tile) then (first % 64 + f.rows * rb + 63) / 64 else 0

/-- R92: the operation with its set latched. -/
def State.weirOpOf (s : State) (t : TileId) (k : WeirKind) (f : WeirF) (g v : PageAt) : WeirOp :=
  let o := 0x1900 + 16 * f.pset.toNat
  { seq := (s.engAt t 3).seq, kind := k, f := f, cfg := s.tr t o, scale := s.tr t (o + 4), vofs := s.tr t (o + 8), ctx := s.ctxOf t,
    page := g, vpage := v, entry := 0, accepted := false, done := false, since := s.edges t }

/-- R97: a list-mode WEIR.GATHER before its entries: its class resolves. -/
def State.weirList (s : State) (t : TileId) (p : PartId) (f : WeirF) : State × Except Verdict WeirOp :=
  let c := s.tr t (0x1900 + 16 * f.pset.toNat)
  match s.mapHeader p t .weir (s.ctxOf t) with
  | (s, .error (.poison a)) => (s, .error (.poison .hbm a))
  | (s, .error (.held d)) => (s, .error (.stop fun s => s.weirHold t d))
  | (s, .error _) => (s, .error (.fault 0x30))
  | (s, .ok h) =>
    let w := s.mapClass p h (fld c 3 0)
    let fm := fld w 3 0
    if !clsUsable w then (s, .error (.fault 0x30))
    else if f.fmt ≠ fm ∧ (fm = 15 ∨ (f.fmt ≠ 8 ∧ f.fmt ≠ 10)) then (s, .error (.fault 0x32))
    else if !wpOk c w then (s, .error (.fault 0x33))
    else if !weirRegions .gather f c w then (s, .error (.fault 0x33))
    else (s, .ok { s.weirOpOf t .gather f { noPage with clsWord := w, cls := BitVec.ofNat 4 (fld c 3 0) } noPage with
                   entry := (s.tileAt t).weirFrom })

/-- Everything that is checked before a weir instruction issues, and the operation. The key page is resolved before the value page's LPN is
computed: which comes first the spec leaves open (log 112, DESIGN CHOICE). -/
def State.weirPlan (s : State) (t : TileId) (k : WeirKind) (f0 : WeirF) : State × Except Verdict WeirOp :=
  match f0.offset s t, s.partOf t with
  | none, _ => (s, .error (.fault 0x3C))
  | _, none => (s, .error (.fault 0x30))
  | some f, some p =>
    if k = .gather ∧ f.list then s.weirList t p f else
    match s.weirPage p t f.lpn 0 with
    | (s, .error v) => (s, .error v)
    | (s, .ok g) =>
      let c := s.tr t (0x1900 + 16 * f.pset.toNat)
      let (s, rv) : State × Except Verdict PageAt :=
        if k = .attend then match valueLpn f.lpn (s.tr t (0x1908 + 16 * f.pset.toNat)) with
          | none => (s, .error (.fault 0x30))
          | some l => s.weirPage p t l 0
        else (s, .ok noPage)
      match rv with
      | .error v => (s, .error v)
      | .ok v =>
        let bad := weirFault k f c g v
        let remote := decide (g.tile ≠ t) || (decide (k = .attend) && decide (v.tile ≠ t))
        if bad ≠ 0 then (s, .error (.fault bad))
        else if remote && decide (s.share t 2 = 0) then (s, .error (.fault 0x33))
        else if remote && !s.hasToken t 2 then (s, .error .wait)
        else (s, .ok (s.weirOpOf t k f g v))

/-- Is the word's operation a list-mode WEIR.GATHER whose entries have all resolved? -/
def Tile.walked (tl : Tile) : Bool := match tl.walk with | none => false | some o => decide (o.f.rows ≤ o.entry)

/-- R97, R102: a list-mode WEIR.GATHER begins: its word waits while the weir resolves the entries. -/
def State.weirBegin (s : State) (t : TileId) (o : WeirOp) : State :=
  let tl := s.tileAt t
  let s := s.setTile t { tl with walk := some o, weirArrived := tl.weirArrived ++ [(t, o.seq)] }
  let g := s.engAt t 3
  s.setEng t 3 { g with st := .wait, waitUnit := true, waits := [] }

/-- R88, R121: verdict of a WEI slot. -/
def State.weirCheck (s : State) (t : TileId) (k : WeirKind) (f : WeirF) : Verdict :=
  let tl := s.tileAt t
  if tl.walked then .ok
  else if tl.walk.isSome then .wait
  else if 4 ≤ tl.wei.length then .wait
  else match s.weirPlan t k f with
    | (_, .error (.stop act)) => .stop fun s => act (s.weirPlan t k f).1
    | (_, .error v) => v
    | (_, .ok o) => if k = .gather ∧ o.f.list then .stop fun s => (s.weirPlan t k f).1.weirBegin t o else .ok

/-- R88, R269, R271: an operation goes to the weir of its page's vault: over the canal, with its src and aux lines, where that is another tile's. -/
def State.weirSend (s : State) (t : TileId) (o : WeirOp) : State :=
  let v := o.page.tile
  if v = t then s.setTile v { s.tileAt v with weirArrived := (s.tileAt v).weirArrived ++ [(t, o.seq)] }
  else
    let (a, b, _) := weirLines o.kind o.f o.cfg o.page.clsWord
    s.injectCut { cls := .request, src := .tile t, dst := .tile v, data := a + b, load := .weir v t o.seq, bad := false } (.weirData t o.seq) (a + b)

/-- R88, R235: a weir instruction issues: its operation is sent to its weir (log 109, DESIGN CHOICE), and its tile's remote bucket pays. -/
def State.weirIssue (cur : State) (t : TileId) (k : WeirKind) (f : WeirF) : State :=
  let g := cur.engAt t 3
  match (cur.tileAt t).walk with
  | some o =>
    let tl := cur.tileAt t
    (cur.setTile t { tl with wei := tl.wei ++ [{ o with done := true }], walk := none, weirFrom := 0 }).setEng t 3 { g with seq := g.seq + 1 }
  | none =>
    match cur.weirPlan t k f with
    | (s, .ok o) =>
      let tl := s.tileAt t
      let s := (s.setTile t { tl with wei := tl.wei ++ [o], weirFrom := 0 }).setEng t 3 { g with seq := g.seq + 1 }
      let s := s.weirSend t o
      s.charge t 2 (64 * weirCharge k o.f o.cfg t o.page o.vpage)
    | (s, .error _) => s

/-- Table 4-8: a WEIR.NOP at the front of the issued operations completes. -/
def State.weirNops (s : State) (t : TileId) : Nat → State
  | 0 => s
  | n + 1 =>
    let tl := s.tileAt t
    match tl.wei with
    | o :: l => if o.kind = .nop then
        ((s.setTile t { tl with wei := l }).opPost t o.f.sigEn o.f.sem 3 0).weirNops t n else s
    | [] => s

/-- WEIR.NOP issues: with sig_en it holds a place. -/
def State.weirNopIssue (cur : State) (t : TileId) (sigEn : Bool) (sem : SemId) : State :=
  if !sigEn then cur else
  let g := cur.engAt t 3
  let f : WeirF := { nc := 0, sigEn := sigEn, pset := 0, lpn := 0, rowFirst := 0, rowCntM1 := 0, src := 0, dst := 0, aux := 0,
                     sem := sem, ag := 0, imm := 0 }
  let tl := cur.tileAt t
  let o := cur.weirOpOf t .nop f noPage noPage
  ((cur.setTile t { tl with wei := tl.wei ++ [o] }).setEng t 3 { g with seq := g.seq + 1 }).weirNops t (tl.wei.length + 1)

/-! ## Rows, queries and scores -/

/-- Bytes of row `r` of a page in a cistern. -/
def State.rowOf (s : State) (g : PageAt) (r : Nat) : List Byte :=
  s.cisBytes g.tile (g.slot.toNat * 65536 + r * rowBytes g.clsWord) (rowBytes g.clsWord)

/-- Elements [j, j + n) of row `r`, decoded exactly with their scales. -/
def State.rowEls (s : State) (g : PageAt) (r j n : Nat) : List Fp :=
  let w := g.clsWord; let f := clsFmt w
  let bs := s.rowOf g r
  (List.range n).map fun i =>
    let x := f.decode (elemAt bs f.bits (j + i))
    if f.isMx then applyScale (s.sideB g.tile (g.slot.toNat * 4096 + r * blocksPerRow w + (j + i) / 32)).toNat x else x

/-- Poison among them. -/
def State.rowElsBad (s : State) (g : PageAt) (r j n : Nat) : Bool :=
  let w := g.clsWord; let f := clsFmt w; let a := j * clsBits w / 8
  s.cisBad g.tile (g.slot.toNat * 65536 + r * rowBytes w + a) (n * clsBits w / 8)
    || (f.isMx && s.sideBad g.tile (g.slot.toNat * 4096 + r * blocksPerRow w + j / 32) ((n + 31) / 32))

/-- Query (i, h) of an operation, and its poison. -/
def State.query (s : State) (t : TileId) (o : WeirOp) (i h : Nat) : List Fp × Bool :=
  let f := EFmt.mk (wpQfmt o.cfg) false; let d := wpHdim o.cfg
  let a := o.f.src.toNat * 64 + (i * wpH o.cfg + h) * d * f.bits / 8; let n := d * f.bits / 8
  let bs := s.spadBytes t a n
  ((List.range d).map fun e => f.decode (elemAt bs f.bits e), s.spadBad t a n)

/-- R53: group sums of 32 products. -/
def groupSums : Nat → List Fp → List Fp
  | 0, _ => []
  | n + 1, l => (l.take 32).foldl Fp.add (.fin true 0 0) :: groupSums n (l.drop 32)

/-- R69, R93: one score: FP32 code, status, poison; within 1.01 × n × u × S + n × τ of pset.s times the dot product, for n groups of 32. -/
def State.score (s : State) (t : TileId) (o : WeirOp) (i h r free : Nat) : Nat × Nat × Bool :=
  let d := wpHdim o.cfg
  let g := h / (wpH o.cfg / wpKvh o.cfg) * d
  let (q, qb) := s.query t o i h
  let k := s.rowEls o.page r g d
  let ps := List.zipWith Fp.mul q k
  let n := d / 32
  let x := sumRes ((groupSums n ps).map (Fp.mul (fp o.scale)))
    ((uBound n ((Dy.sum (ps.map fun y => y.dy.abs)).mul (fp o.scale).dy.abs)).add ⟨n, -149⟩) free
  (x.code, x.stat, qb || s.rowElsBad o.page r g d)

/-- The rows of an operation. -/
def WeirOp.rowList (o : WeirOp) : List Nat := (List.range o.f.rows).map fun j => o.f.rowFirst.toNat + j
/-- The (query, head) pairs in order, with their number. -/
def WeirOp.heads (o : WeirOp) : List (Nat × Nat × Nat) :=
  (List.range (wpNq o.cfg)).flatMap fun i => (List.range (wpH o.cfg)).map fun h => (i, h, i * wpH o.cfg + h)
/-- The scores of one (query, head). -/
def State.scores (s : State) (t : TileId) (o : WeirOp) (x : Nat × Nat × Nat) : List (Nat × Nat × Bool) :=
  o.rowList.map fun r => s.score t o x.1 x.2.1 r (s.draw (x.2.2 * 8192 + r))

/-- Words written from a line on, padded with 0 to whole lines, each line with its poison. -/
def State.putLineWords (cur : State) (t : TileId) (line : Nat) (n : Nat) (ws : List (Nat × Bool)) : State :=
  each cur (List.range n) fun s i =>
    let l := (ws.drop (16 * i)).take 16
    s.putSpad t ((line + i) * 64) ((l.flatMap fun x => natLe 4 x.1) ++ List.replicate (64 - 4 * l.length) 0) (l.any (·.2))

/-- R93. The first state takes the results; `y` is the state that src and aux lines are read in (R205), as in the operations after it. -/
def State.doScore (s y : State) (t : TileId) (o : WeirOp) : State :=
  let per := linesOf (4 * o.f.rows)
  each s o.heads fun cur x =>
    let v := y.scores t o x
    (cur.putLineWords t (o.f.dst.toNat + x.2.2 * per) per (v.map fun z => (z.1, z.2.2))).numStat t
      (v.foldl (fun a z => if z.2.2 then a else a ||| z.2.1) 0)

/-- R94, R477: the record of one (query, head): m, l, o. -/
def State.attendRec (s : State) (o : WeirOp) (x : Nat × Nat × Nat) (v : List (Nat × Nat × Bool)) : List Nat × Nat × Bool :=
  let n := o.f.rows; let d := wpHdim o.cfg
  let g := x.2.1 / (wpH o.cfg / wpKvh o.cfg) * d
  let ss := v.map fun y => f32.decode y.1
  let m := ss.foldl Fp.max (ss.headD .nan)
  let ps := ss.map fun y => match Fp.add y m.negate with
    | .nan => Fp.nan
    | .inf b => if b then .fin false 0 0 else .inf false
    | .fin b k e => let z := refExp (Fp.fin b k e).dy; .fin false z.m.natAbs z.e
  let lr := sumRes ps (uBound (n + 2) (Dy.sum (ps.map fun y => y.dy.abs))) (s.draw (2 ^ 24 + x.2.2 * 1024))
  let vals := o.rowList.map fun r => s.rowEls o.vpage r g d
  let os := (List.range d).map fun j =>
    let terms := List.zipWith Fp.mul ps (vals.map fun l => l.getD j .nan)
    sumRes terms (uBound (n + 3) (Dy.sum (terms.map fun y => y.dy.abs))) (s.draw (2 ^ 24 + x.2.2 * 1024 + 1 + j))
  let bad := v.any (·.2.2) || o.rowList.any fun r => s.rowElsBad o.vpage r g d
  let mr := f32.nearest m
  (mr.code :: lr.code :: os.map (·.code), os.foldl (fun a y => a ||| y.stat) (mr.stat ||| lr.stat), bad)

/-- R94. -/
def State.doAttend (s y : State) (t : TileId) (o : WeirOp) : State :=
  let per := linesOf (4 * (2 + wpHdim o.cfg))
  each s o.heads fun cur x =>
    let v := y.scores t o x
    let (ws, st, bad) := y.attendRec o x v
    (cur.putLineWords t (o.f.dst.toNat + x.2.2 * per) per (ws.map fun z => (z, bad))).numStat t
      (if bad then 0 else v.foldl (fun a z => a ||| z.2.1) st)

/-- R95, R477: place of a score among others: −0 below +0. -/
def scoreKey (c : Nat) : Int := if c < 2 ^ 31 then c else -((c - 2 ^ 31 : Nat) : Int) - 1

/-- R95: does candidate a come before b: larger score first, then smaller (lpn, row)? -/
def topBefore (a b : Nat × Nat × Nat) : Bool :=
  if scoreKey a.1 = scoreKey b.1 then decide (a.2.2 < b.2.2) || (decide (a.2.2 = b.2.2) && decide (a.2.1 < b.2.1))
  else decide (scoreKey b.1 < scoreKey a.1)

/-- Enter a candidate (score, row, lpn) in its place, keeping `k`. -/
def topEnter (k : Nat) (x : Nat × Nat × Nat) (l : List (Nat × Nat × Nat)) : List (Nat × Nat × Nat) :=
  ((l.takeWhile fun y => !topBefore x y) ++ x :: l.dropWhile fun y => !topBefore x y).take k

/-- R95: an entry's words; the empty entry. -/
def topEntry (x : Nat × Nat × Nat) : List Nat := [x.1, x.2.1, x.2.2, 0]
def topEmpty : List Nat := [0xFF800000, 0xFFFFFFFF, 0xFFFFFFFF, 0]

/-- R95: an empty entry: its score, row and LPN words. -/
def isEmptyEntry (score row lpn : Nat) : Bool := decide (score = 0xFF800000) && decide (row = 0xFFFFFFFF) && decide (lpn = 0xFFFFFFFF)

/-- R95: the entries of a list in the scratchpad that are not empty and no NaN. -/
def State.listEntries (s : State) (t : TileId) (a k : Nat) : List (Nat × Nat × Nat) :=
  (List.range k).filterMap fun e =>
    let w := fun i => (s.spadW t (a + 16 * e + 4 * i)).toNat
    if isEmptyEntry (w 0) (w 1) (w 2) ∨ (f32.decode (w 0)).isNan then none else some (w 0, w 1, w 2)

/-- R95. -/
def State.doTopk (s y : State) (t : TileId) (o : WeirOp) : State :=
  let k := o.f.k; let per := (k + 3) / 4
  each s o.heads fun cur x =>
    let v := y.scores t o x
    let cand := (v.zip o.rowList).filterMap fun z => if (f32.decode z.1.1).isNan then none else some (z.1.1, z.2, o.f.lpn.toNat)
    let a := (o.f.aux.toNat + x.2.2 * per) * 64
    let cand := if o.f.merge then cand ++ y.listEntries t a k else cand
    let top := cand.foldl (fun l c => topEnter k c l) []
    let bad := v.any (·.2.2) || (o.f.merge && y.spadBad t a (16 * k))
    let ws := top.flatMap topEntry ++ (List.replicate (k - top.length) topEmpty).flatMap id
    (cur.putSpad t ((o.f.dst.toNat + x.2.2 * per) * 64) (ws.flatMap (natLe 4)) bad).numStat t
      (if bad then 0 else v.foldl (fun a z => a ||| z.2.1) 0)

/-! ## APPEND, REUSE, GATHER -/

/-- R96, R59: a converted row: bytes, scale bytes, status. `gs`: values of the executing tile's generator. -/
def convRow (w : W32) (nc : BitVec 3) (xs : List Fp) (gs : List Nat) : List Byte × List Byte × Nat :=
  let f := clsFmt w; let r := rndOf nc; let sat := satOf nc
  if f.isMx then
    let out := (List.range (blocksPerRow w)).foldl (fun (a : List Nat × List Byte × Nat × List Nat) b =>
      let (sc, cs, st, gs) := mxBlock f r sat none ((xs.drop (32 * b)).take 32) a.2.2.2
      (a.1 ++ cs, a.2.1 ++ [BitVec.ofNat 8 sc], a.2.2.1 ||| st, gs)) ([], [], 0, gs)
    (packElems f.bits out.1, out.2.1, out.2.2.1)
  else let (cs, st, _) := convAll f r sat 0 xs gs; (packElems f.bits cs, [], st)

/-- R60: how many generator values a converted row draws. -/
def rowDraws (w : W32) (nc : BitVec 3) (xs : List Fp) : Nat :=
  let f := clsFmt w; let r := rndOf nc
  if f.isMx then
    ((List.range (blocksPerRow w)).map fun b =>
      let ys := (xs.drop (32 * b)).take 32
      match hwScale f ys with
      | none => 0
      | some e => drawCount f r e ys).foldl (· + ·) 0
  else drawCount f r 0 xs

/-- R96: row `j` of a WEIR.APPEND executed at vault `v`. R61 speaks of "any engine of the tile": the numeric status is the issuing tile's,
also where another vault's weir works for it (log 107, DESIGN CHOICE). -/
def State.appendRow (s y : State) (v t : TileId) (o : WeirOp) (j : Nat) : State :=
  let g := o.page; let w := g.clsWord; let n := clsElems w
  let sb := rowIn w o.f.fmt
  let a := (o.f.src.toNat + j * linesOf sb) * 64
  let bs := y.spadBytes t a sb
  let r := o.f.rowFirst.toNat + j
  let pb := g.slot.toNat * 65536 + r * rowBytes w; let qb := g.slot.toNat * 4096 + r * blocksPerRow w
  let bad := y.spadBad t a sb
  if o.f.fmt = fld w 3 0 then
    let s' := s.putCis v pb bs bad
    if (clsFmt w).isMx then
      let sa := o.f.aux.toNat * 64 + j * blocksPerRow w
      s'.putSide v qb (y.spadBytes t sa (blocksPerRow w)) (y.spadBad t sa (blocksPerRow w))
    else s'
  else
    let f := EFmt.mk o.f.fmt false
    let xs := (List.range n).map fun i => f.decode (elemAt bs f.bits i)
    let (gs, tl) := (s.tileAt v).rands (rowDraws w o.f.nc xs)
    let (d, sc, st) := convRow w o.f.nc xs gs
    let s := ((s.setTile v tl).putCis v pb d bad).numStat t (if bad then 0 else st)
    if (clsFmt w).isMx then s.putSide v qb sc bad else s

/-- R98: the number of set bits. -/
def popcount (w : Nat) : Nat := ((List.range 64).filter fun i => w.testBit i).length

/-- R98. -/
def State.doReuse (s y : State) (v t : TileId) (o : WeirOp) : State :=
  let n := o.f.rows; let thr := bits o.f.imm.toNat 5 0; let upd := o.f.imm.getLsbD 8; let all := o.f.imm.getLsbD 9
  let pb := fun j => o.page.slot.toNat * 65536 + 8 * (o.f.rowFirst.toNat + j)
  let sa := fun j => o.f.src.toNat * 64 + 8 * j
  let ch := (List.range n).map fun j =>
    all || decide (thr < popcount (leNat (y.spadBytes t (sa j) 8) ^^^ leNat (s.cisBytes v (pb j) 8)))
  let bads := (List.range n).map fun j => y.spadBad t (sa j) 8 || s.cisBad v (pb j) 8
  let words := (List.range ((n + 31) / 32)).map fun i =>
    (((ch.drop (32 * i)).take 32).zipIdx.foldl (fun a x => if x.1 then a + 2 ^ x.2 else a) 0, ((bads.drop (32 * i)).take 32).any id)
  let s' := each s ((List.range n).zip (ch.zip bads)) fun cur x =>
    if x.2.1 && upd then cur.putCis v (pb x.1) (y.spadBytes t (sa x.1) 8) x.2.2 else cur
  let s' := each s' (List.range (linesOf (4 * words.length))) fun cur i =>
    let l := (words.drop (16 * i)).take 16
    cur.putSpad t ((o.f.dst.toNat + i) * 64) (l.flatMap fun x => natLe 4 x.1) (l.any (·.2))
  s'.putSpad t (o.f.aux.toNat * 64) (natLe 4 (ch.filter id).length ++ List.replicate 60 0) (bads.any id)

/-- R97: destination row `j` from row `r` of a page; none: an empty entry's zeros. -/
def State.gatherRow (s : State) (t : TileId) (o : WeirOp) (j : Nat) (src : Option (PageAt × Nat)) : State :=
  let w := o.page.clsWord; let n := clsElems w; let db := rowIn w o.f.fmt
  let copy := decide (o.f.fmt = fld w 3 0)
  let per := linesOf db
  let a := (o.f.dst.toNat + j * per) * 64
  let scaled := copy && (clsFmt w).isMx
  let sa := (o.f.dst.toNat + o.f.rows * per) * 64 + j * blocksPerRow w
  match src with
  | none =>
    let s := s.putSpad t a (List.replicate db 0) false
    if scaled then s.putSpad t sa (List.replicate (blocksPerRow w) 0) false else s
  | some (g, r) =>
    let bad := s.rowElsBad g r 0 n
    if copy then
      let s' := s.putSpad t a (s.rowOf g r) (s.cisBad g.tile (g.slot.toNat * 65536 + r * rowBytes w) (rowBytes w))
      if scaled then
        let q := g.slot.toNat * 4096 + r * blocksPerRow w
        s'.putSpad t sa (s.sideBytes g.tile q (blocksPerRow w)) (s.sideBad g.tile q (blocksPerRow w))
      else s'
    else
      let f := EFmt.mk o.f.fmt false
      let (cs, st, _) := convAll f (rndOf o.f.nc) (satOf o.f.nc) 0 (s.rowEls g r 0 n) []
      (s.putSpad t a (packElems f.bits cs) bad).numStat t (if bad then 0 else st)

/-! ## Execution -/

/-- R442, Table 4-11: MACs of an operation. -/
def WeirOp.macs (o : WeirOp) : Nat :=
  let n := wpNq o.cfg * wpH o.cfg * wpHdim o.cfg * o.f.rows
  match o.kind with | .score => n | .attend => 2 * n | .topk => n | _ => 0

/-- R274: of the src and aux lines that came poisoned over the canal a free one is so marked. -/
def State.weirLinks (s : State) (t : TileId) (o : WeirOp) : State :=
  let (a, b, _) := weirLines o.kind o.f o.cfg o.page.clsWord
  let l := (List.range a).map (o.f.src.toNat + ·) ++ (List.range b).map (o.f.aux.toNat + ·)
  if !o.hurt ∨ l.isEmpty then s else s.markSpad t (l.getD (s.draw (2 ^ 63) % l.length) 0) true

/-- What a range operation executed at vault `v` writes. `y` is the state that its src and aux lines are read in (R205, R274). -/
def State.weirRun (s y : State) (v t : TileId) (o : WeirOp) : State :=
  match o.kind with
  | .nop => s
  | .score => (s.doScore y t o).drawn
  | .attend => (s.doAttend y t o).drawn
  | .topk => (s.doTopk y t o).drawn
  | .append => (each s (List.range o.f.rows) fun s j => s.appendRow y v t o j).drawn
  | .reuse => (s.doReuse y v t o).drawn
  | .gather => each s (List.range o.f.rows) fun s j => s.gatherRow t o j (some (o.page, o.f.rowFirst.toNat + j))

/-- The operation that the weir of a vault runs. -/
def State.running (s : State) (v : TileId) : Option (TileId × WeirOp) :=
  match (s.tileAt v).weirRunning with
  | none => none
  | some (t, q) => ((s.tileAt t).weirOp q).map fun o => (t, o)

/-- Do the vaults of an operation serve (R108, R405)? -/
def State.weirServed (s : State) (o : WeirOp) : Bool :=
  (!o.page.inCistern || s.serves (domCis o.page.tile)) && (!o.vpage.inCistern || s.serves (domCis o.vpage.tile))

/-- R108: the vaults' domains are asked to return to ACTIVE. -/
def State.weirWake (s : State) (o : WeirOp) : State :=
  let s := if o.page.inCistern ∧ !s.serves (domCis o.page.tile) then s.askWake (domCis o.page.tile) else s
  if o.vpage.inCistern ∧ !s.serves (domCis o.vpage.tile) then s.askWake (domCis o.vpage.tile) else s

/-- R86: an operation touches its slots. -/
def State.weirTouch (s : State) (o : WeirOp) : State :=
  let s := if o.page.inCistern then s.touch o.page.tile o.page.slot.toNat else s
  if o.vpage.inCistern then s.touch o.vpage.tile o.vpage.slot.toNat else s

/-- Does the operation write rows of its page? -/
def WeirOp.writes (o : WeirOp) : Bool := decide (o.kind = .append) || (decide (o.kind = .reuse) && o.f.imm.getLsbD 8)

/-- Do two places name one page in a cistern? -/
def PageAt.same (a b : PageAt) : Bool := a.inCistern && b.inCistern && decide (a.tile = b.tile) && decide (a.slot = b.slot)

/-- R88: an operation that another vault's weir has accepted reads as its value page what `o` writes, or writes what `o` reads so: `o` is accepted
once it has completed, so that what was accepted first sees none of a later write, and what comes later all of it. -/
def State.weirClash (s : State) (v : TileId) (o : WeirOp) : Bool :=
  s.tile.any fun e => decide (e.1 ≠ v.toNat) && (s.running (BitVec.ofNat 12 e.1)).any fun x =>
    (o.writes && x.2.vpage.same o.page) || (x.2.writes && o.vpage.same x.2.page)

/-- R88: the next operation for a vault reaches its weir. -/
def State.bringWeir (s : State) (v : TileId) : State :=
  s.bring fun s => !(s.tileAt v).weirArrived.isEmpty || !s.canal.pkts.any fun x => match x.2.load with | .weir g _ _ => decide (g = v) | _ => false

/-- R89, R271, R274: the dst lines of an operation of another tile cross the canal; what an error makes of one of them is free. -/
def State.weirAnswer (s : State) (v t : TileId) (o : WeirOp) : State :=
  if v = t then s else
  let l := o.lands
  let s := s.injectCut { cls := .response, src := .tile v, dst := .tile t, data := l.length, load := .plain, bad := false } .plain l.length
  let s := s.bring fun s => !s.canal.pkts.any fun x => decide (x.2.cls = .response) && decide (x.2.src = .tile v) && decide (x.2.dst = .tile t)
  let x := if l.isEmpty then .none else s.linkErr (2 ^ 21)
  let s := if x = .poisoned then s.markSpad t (l.getD (s.draw (2 ^ 21 + 1) % l.length) 0) true else s
  (s.linkCount v .can x).drawn

/-- WEIR_OP_ACCEPT: the weir of vault `v` takes the next operation that has arrived. -/
def State.weirAccept (s : State) (v : TileId) : State :=
  if (s.running v).isSome then s else
  let s := s.bringWeir v
  let tl := s.tileAt v
  match tl.weirArrived with
  | [] => s
  | (t, q) :: l =>
    match (s.tileAt t).weirOp q with
    | none => s.setTile v { tl with weirArrived := l, weirRunning := none }
    | some o =>
      -- an entry of a list operation takes its turn in GATHER_LIST_ENTRY
      if o.sent.any (fun x => decide (x.1.tile = v)) then s else
      if !s.weirServed o then s.weirWake o else
      if s.weirClash v o then s else
      let s := s.setTile v { tl with weirArrived := l, weirRunning := some (t, q) }
      (s.setTile t ((s.tileAt t).setWeirOp { o with accepted := true, old := s.snap t })).weirTouch o

/-- R89, R102: an issued operation leaves: its semaphore, and the WEIR.NOPs behind it. -/
def State.weirFinish (s : State) (v t : TileId) (o : WeirOp) : State :=
  let s := s.setTile v { s.tileAt v with weirRunning := none }
  let tl := s.tileAt t
  let s := s.setTile t { tl with wei := tl.wei.filter fun x => decide (x.seq ≠ o.seq) }
  let s := s.tcnt t 5 o.macs
  let s := s.trace t 0x13 3 o.f.lpn.toNat
    ((match o.kind with | .nop => 0 | .score => 1 | .attend => 2 | .topk => 3 | .append => 4 | .reuse => 5 | .gather => 6)
      + o.f.rows * 256 + s.cyclesSince t o.since % 2 ^ 32 * 2 ^ 32)
  let s := s.opPost t o.f.sigEn o.f.sem 3 0
  (s.weirNops t 5).settle t

/-- R99: rows of a faulted list operation from entry `j` on are unpredictable. -/
def State.gatherScramble (s : State) (t : TileId) (o : WeirOp) (j : Nat) : State :=
  let w := o.page.clsWord; let per := linesOf (rowIn w o.f.fmt)
  let s := each s (List.range (o.f.rows - j)) fun s i =>
    s.setSpadBytes t ((o.f.dst.toNat + (j + i) * per) * 64) (s.freeBytes (70000 * i) (rowIn w o.f.fmt))
  let s := if o.f.fmt = fld w 3 0 ∧ (clsFmt w).isMx then
      s.setSpadBytes t ((o.f.dst.toNat + o.f.rows * per) * 64 + j * blocksPerRow w) (s.freeBytes (2 ^ 30) ((o.f.rows - j) * blocksPerRow w))
    else s
  s.drawn

/-- R99, R423: destination row `j` of a list operation whose aux line is poisoned: poison, its scales too. -/
def State.gatherPoison (s : State) (t : TileId) (o : WeirOp) (j : Nat) : State :=
  let w := o.page.clsWord; let db := rowIn w o.f.fmt; let per := linesOf db
  let s' := s.putSpad t ((o.f.dst.toNat + j * per) * 64) (s.freeBytes 0 db) true
  if o.f.fmt = fld w 3 0 ∧ (clsFmt w).isMx then
    s'.putSpad t ((o.f.dst.toNat + o.f.rows * per) * 64 + j * blocksPerRow w) (s.freeBytes (2 ^ 30) (blocksPerRow w)) true
  else s'

/-- R97, R99: a list operation faults at entry `j`. -/
def State.gatherFault (s : State) (v t : TileId) (o : WeirOp) (code : Nat) : State :=
  let s := s.gatherScramble t o o.entry
  let s := s.setTile v { s.tileAt v with weirRunning := none }
  let s := s.setTile t { s.tileAt t with walk := none, weirFrom := 0 }
  s.engFault t 3 code

/-- Lines of dst that entry `j` of a list operation writes: its row's, and those that take its scale bytes. -/
def WeirOp.entryLines (o : WeirOp) (j : Nat) : List Nat :=
  let per := linesOf (rowIn o.page.clsWord o.f.fmt); let b := blocksPerRow o.page.clsWord
  let rows := (List.range per).map (o.f.dst.toNat + j * per + ·)
  if o.f.fmt = fld o.page.clsWord 3 0 ∧ (clsFmt o.page.clsWord).isMx then
    rows ++ linesOfBytes ((o.f.dst.toNat + o.f.rows * per) * 64 + j * b) b
  else rows

/-- The next entry of a list operation. -/
def State.nextEntry (s : State) (t : TileId) (o : WeirOp) : State :=
  (s.setTile t ((s.tileAt t).setWeirOp { o with entry := o.entry + 1, sent := none })).inboundLines t (o.entryLines o.entry)

/-- R88, R97: the row that an entry names is read from its page, and written. What crosses the canal for it R235 charges. (log 117, DESIGN CHOICE) -/
def State.entryRow (s : State) (t : TileId) (o : WeirOp) (g : PageAt) (row : Nat) : State :=
  let s := if g.tile = t then s else s.charge t 2 (64 * (o.entryLines o.entry).length)
  ((s.gatherRow t o o.entry (some ({ g with clsWord := o.page.clsWord }, row))).touch g.tile g.slot.toNat).nextEntry t o

/-- R88: an operation that the weir of `g`'s vault runs, or that arrived there before the entry of `(t, q)`, still writes rows of `g`. -/
def State.weirBehind (s : State) (g : PageAt) (t : TileId) (q : Nat) : Bool :=
  ((s.tileAt g.tile).weirRunning.toList ++ (s.tileAt g.tile).weirArrived.takeWhile fun x => decide (x ≠ (t, q))).any fun x =>
    ((s.tileAt x.1).weirOp x.2).any fun o => o.writes && !o.done && o.page.same g

/-- R88: an entry forwarded to another vault's weir stands among the operations that have arrived there: it sees what those before it write, and
nothing of those behind it. -/
def State.entryTurn (s : State) (t : TileId) (o : WeirOp) (g : PageAt) (row : Nat) : State :=
  if s.weirBehind g t o.seq then s else
  let tl := s.tileAt g.tile
  (s.setTile g.tile { tl with weirArrived := tl.weirArrived.filter fun x => decide (x ≠ (t, o.seq)) }).entryRow t o g row

/-- The words of the next entry of a list operation: score, row and LPN. -/
def WeirOp.entryByte (o : WeirOp) : Nat := o.f.aux.toNat * 64 + 16 * o.entry

/-- R97, R99: an entry that is not empty resolves: its checks, and where it goes. -/
def State.entryResolve (s : State) (v t : TileId) (o : WeirOp) (p : PartId) (row lpn : Nat) : State :=
  match (s.resolve p t .weir (s.ctxOf t) (BitVec.ofNat 24 lpn)).2 with
  | .held d => s.askWake d
  | _ =>
  match s.weirPage p t (BitVec.ofNat 24 lpn) o.entry with
  | (s, .error (.stop act)) => act (s.setTile v { s.tileAt v with weirRunning := none })
  | (s, .error (.fault c)) => s.gatherFault v t o c
  | (s, .error (.poison u ad)) =>
    let s := s.setTile v { s.tileAt v with weirRunning := none }
    (s.setTile t { s.tileAt t with walk := none, weirFrom := 0 }).poisonStop t 3 u 3 ad
  | (s, .error _) => s
  | (s, .ok g) =>
    if g.cls ≠ o.page.cls then s.gatherFault v t o 0x32
    else if rowsPerPage o.page.clsWord ≤ row then s.gatherFault v t o 0x31
    else if g.tile ≠ t ∧ s.share t 2 = 0 then s.gatherFault v t o 0x33
    else if g.tile ≠ t ∧ !s.hasToken t 2 then s
    else if !s.serves (domCis g.tile) then s.askWake (domCis g.tile)
    else if g.tile = t then s.entryRow t o g row
    else
      let s := s.setTile t ((s.tileAt t).setWeirOp { o with sent := some (g, row) })
      let s := s.setTile g.tile { s.tileAt g.tile with weirArrived := (s.tileAt g.tile).weirArrived ++ [(t, o.seq)] }
      s.entryTurn t { o with sent := some (g, row) } g row

/-- GATHER_LIST_ENTRY: the next entry resolves, and its row is written; one that another vault's weir takes waits there for what has arrived
before it (R88; log 109, DESIGN CHOICE). `y` is the state that the list is read in (R205). -/
def State.gatherEntry (s y : State) (v : TileId) : State :=
  match s.running v with
  | none => s
  | some (t, o) =>
    if !((s.tileAt t).walk.any fun x => decide (x.seq = o.seq)) ∨ o.f.rows ≤ o.entry then s else
    let a := o.entryByte
    let row := (y.spadW t (a + 4)).toNat; let lpn := (y.spadW t (a + 8)).toNat
    match o.sent, s.partOf t with
    | some x, _ => s.entryTurn t o x.1 x.2
    | none, none => s
    | none, some p =>
      if y.spadBad t a 16 then ((s.gatherPoison t o o.entry).nextEntry t o).drawn
      else if isEmptyEntry (y.spadW t a).toNat row lpn then (s.gatherRow t o o.entry none).nextEntry t o
      else if 2 ^ 24 ≤ lpn then s.gatherFault v t o 0x30
      else s.entryResolve v t o p row lpn

/-! ## Slots in use -/

/-- R85: has a weir or mover access been admitted to slot `sl` of vault `v`, and not completed? -/
def State.slotUsed (s : State) (v : TileId) (sl : SlotId) : Bool :=
  let hit := fun (g : PageAt) => g.inCistern && decide (g.tile = v) && decide (g.slot = sl)
  (s.tile.any fun e => (e.2.wei.any fun o => hit o.page || hit o.vpage) || e.2.walk.any fun o => o.sent.any fun x => hit x.1)
    || s.movq.any fun e => e.2.inflight.any fun f => !f.refused && f.page.any hit

/-- R80: does an access under way use entries of context `c` that the invalidation covers? One of a single LPN covers the LPN's directory
entry too, which every access to an LPN of the same directory entry uses. -/
def State.mapUsed (s : State) (p : PartId) (v : MapInv) : Bool :=
  let cover := fun (l : Nat) => v.all || v.root || decide (l / 4096 = v.lpn.toNat / 4096)
  (s.tilesIn p).any fun t =>
    let tl := s.tileAt t
    ((tl.wei ++ tl.walk.toList).any fun o => decide (o.ctx = v.ctx) && decide (o.kind ≠ .nop) &&
        (cover o.f.lpn.toNat || (decide (o.kind = .attend) && (valueLpn o.f.lpn o.vofs).any fun l => cover l.toNat)))
    || (decide (s.ctxOf t = v.ctx) && (List.range 4).any fun q =>
        let m := s.movq_ t q
        m.inflight.any fun f => f.page.isSome && ((m.streams[f.stream - m.base]?).any fun x => cover (pageFar x.d.space f.far).1.toNat))

end Sys2Proof.Machine
end

