-- ==== Sys2Proof/Machine/Race.lean ====
section
/-!
DEFINITION. Scratchpad lines that one unit writes while others read or compute: which inbound lines are under way (R206 to R208), what a reader may see of
writes under way (R202, R205), and the completion of mover transfers and weir operations, which read so.
-/
namespace Sys2Proof.Machine

/-! ## Inbound lines under way (R206, R208) -/

/-- R206: lines that weir operations under way write at a tile. -/
def State.weirLines_ (s : State) (t : TileId) : List Nat :=
  s.tile.flatMap fun e => match s.running (BitVec.ofNat 12 e.1) with
    | some (u, o) => if u = t ∧ !o.done then o.lands else []
    | none => []

/-- R206: lines that rotation hops and halo sends under way have not yet written at a tile. -/
def State.furLines (s : State) (t : TileId) : List Nat :=
  let u := s.predTile t
  (s.rset.flatMap fun e => let k := e.1 % 8
    if e.1 / 8 = u.toNat ∧ e.2.departing then
      ((List.range (s.setLines u k)).filter fun j => !e.2.landed.contains j).map (s.setLoc t k + ·) else [])
  ++ s.halo.flatMap fun e => let h := e.1 % 4; let v : TileId := BitVec.ofNat 12 (e.1 / 4)
    if e.2.busy ∧ s.haloTo v h = some t then
      ((List.range (fld (s.tr v (haloOff h)) 23 12)).filter fun j => !e.2.landed.contains j).map (fld (s.tr v (haloOff h + 4)) 11 0 + ·) else []

/-- R206, R208: every inbound line under way at a tile. -/
def State.arrivals (s : State) (t : TileId) : List Nat := s.arriving t ++ s.weirLines_ t ++ s.furLines t

/-- R206, R208: compute accesses of a tile meet what arrives at it: those of a VXE word, and those of a problem or drain that completes. -/
def State.vxeAccess (s : State) (t : TileId) : State := s.overlapAt t (s.arrivals t)

/-! ## What a reader sees of writes under way (R202, R205) -/

/-- Who reads; its own writes it does not race with. -/
inductive Reader
  | other
  | drain (seq : Nat)
  | xfer (queue stream : Nat) (pos : Pos)
  | weir (t : TileId) (seq : Nat)
  deriving DecidableEq, Repr

/-- Transfers under way that write a tile's scratchpad: their tile, stream and transfer. -/
def State.xfersTo (s : State) (t : TileId) (r : Reader) : List (TileId × Stream × Xfer) :=
  s.movq.flatMap fun e => e.2.inflight.filterMap fun f =>
    if f.refused ∨ f.done ∨ r = .xfer e.1 f.stream f.pos then none else
    match e.2.streams[f.stream - e.2.base]? with
    | none => none
    | some x =>
      if (!x.d.out && !x.d.imem && decide (e.1 / 4 = t.toNat)) || (x.d.out && decide (x.d.space = 0) && x.d.tiles.contains t) then
        some (BitVec.ofNat 12 (e.1 / 4), x, f)
      else none

/-- Weir operations under way that write a tile's scratchpad, with their vaults. -/
def State.weirsTo (s : State) (t : TileId) (r : Reader) : List (TileId × WeirOp) :=
  s.tile.filterMap fun e =>
    let v : TileId := BitVec.ofNat 12 e.1
    match s.running v with
    | some (u, o) => if u = t ∧ !o.done ∧ r ≠ .weir t o.seq then some (v, o) else none
    | none => none

/-- Drains under way at a tile. -/
def State.drainsOf (s : State) (t : TileId) (r : Reader) : List DrOp := (s.tileAt t).drq.filter fun o => o.running && decide (r ≠ .drain o.seq)

/-- What a transfer under way will write at a tile: data that only its command brings is free. -/
def State.xferAhead (s : State) (y : TileId × Stream × Xfer) : State :=
  let f := y.2.2
  if y.2.1.d.space = 5 ∧ f.data.isNone then s.putSpad y.1 f.loc (s.freeBytes (2 ^ 54) f.len) false
  else s.moveData s y.1 y.2.1 f (.data (s.freeBytes (2 ^ 54) f.len))

/-- What a weir operation under way will write: of a list operation, the next entry's row. -/
def State.weirAhead (s : State) (t : TileId) (y : TileId × WeirOp) : State :=
  if (s.tileAt t).walk.any (fun x => decide (x.seq = y.2.seq)) then s.gatherEntry s y.1 else s.weirRun s y.1 t y.2

/-- R205: the state in which everything under way at a tile has written what it will write now. -/
def State.ahead (s : State) (t : TileId) (r : Reader) : State :=
  let s := each s (s.drainsOf t r) fun s o => o.finish s s t o.rowsDue
  let s := each s (s.xfersTo t r) fun s y => s.xferAhead y
  each s (s.weirsTo t r) fun s y => s.weirAhead t y

/-- R202, R205: the state in which a reader reads a tile's scratchpad: each line that a write under way changes is, freely, still old or new
already. (log 115, DEDUCED) -/
def State.racy (s : State) (t : TileId) (r : Reader) : State :=
  if (s.drainsOf t r).isEmpty && (s.xfersTo t r).isEmpty && (s.weirsTo t r).isEmpty then s else
  let y := (s.ahead t r).mixWith (2 ^ 62) t (s.snap t)
  { s with spad := y.spad, spadPoison := y.spadPoison }

/-! ## Transfers complete (R228, R229, R245) -/

/-- The state in which a transfer reads the scratchpad that it reads. -/
def State.xferView (s : State) (t : TileId) (q : Nat) (x : Stream) (f : Xfer) : State :=
  s.racy (if x.d.out then t else x.d.tiles.headD t) (.xfer (t.toNat * 4 + q) f.stream f.pos)

/-- R228, R238: an admitted transfer completes at its destination, and what stands completed at the front of its queue retires. -/
def State.finishXfer (s : State) (t : TileId) (q : Nat) (x : Stream) (f : Xfer) (r : HostResp) : State :=
  let s := (s.moveData (s.xferView t q x f) t x f r).tcnt t 6 f.len
  let m := s.movq_ t q
  let s := s.setMovq t q { m with inflight := m.inflight.map fun g => if g.stream = f.stream ∧ g.pos = f.pos then { g with done := true } else g }
  (s.race t q x f).popDone t q m.inflight.length

/-- R228: may a transfer complete before those admitted earlier? One whose answers have come; of a HOST read the data is free then, and a VULOR
transfer must be answered. (log 139, DEDUCED) -/
def State.mayComplete (s : State) (t : TileId) (x : Stream) (g : Xfer) : Bool :=
  !g.refused && !g.done && decide (g.legs = 0) && !s.xferHeld t x.d g && (decide (x.d.space ≠ 5) || decide (g.answered x = some true))

/-- R228: which of the transfers behind the first have completed before it: free ones. -/
def State.early (s : State) (t : TileId) (q : Nat) : List (Stream × Xfer) :=
  let m := s.movq_ t q
  m.inflight.zipIdx.filterMap fun y =>
    if m.retiring = some y.1 then none else
    (m.streams[y.1.stream - m.base]?).bind fun x =>
      if s.mayComplete t x y.1 && decide (s.draw (2 ^ 52 + y.2) % 2 = 1) then some (x, y.1) else none

/-- They complete. -/
def State.earlyXfers (s : State) (t : TileId) (q : Nat) : State :=
  let l := s.early t q
  if l.isEmpty then s else (each s l fun s y => s.finishXfer t q y.1 y.2 (.data (s.freeBytes (2 ^ 54) y.2.len))).drawn

/-- Transfers complete: first those that come early, then the one of the command. -/
def State.retireXfer (s : State) (t : TileId) (q : Nat) (x : Stream) (f : Xfer) (r : HostResp) : State :=
  ((s.earlyXfers t q).finishXfer t q x f r).finishQueue t q

/-- TRANSFER_RETIRE: an admitted transfer completes, once its packets have crossed the canal. -/
def State.retire (s : State) (t : TileId) (q : Nat) (r : HostResp) : State :=
  let s := s.bringXfer t q
  let m := s.movq_ t q
  match m.retiring with
  | none => s
  | some f =>
    match m.streams[f.stream - m.base]? with
    | none => s
    | some x =>
      if s.xferHeld t x.d f then each s (s.farDoms t x.d f) fun s z => if s.gateShut z.1 then s else s.askWake z.1
      else if x.d.space = 4 ∧ r = .error then s.xferFault t q x f 0x53 0
      else if x.d.space = 5 then
        match f.answered x with
        | none => s
        | some true => s.retireXfer t q x f r
        | some false => s.xferFault t q x f (if x.parts = 1 then 0x54 else 0x55) (if x.parts = 1 then 0 else s.goodParts t q f)
      else s.retireXfer t q x f r

/-! ## Weir operations complete (R89, R97) -/

/-- WEIR_OP_COMPLETE. -/
def State.weirComplete (s : State) (v : TileId) : State :=
  match s.running v with
  | none => s
  | some (t, o) =>
    if (s.tileAt t).walk.any (fun x => decide (x.seq = o.seq)) then s else
    -- R108: an access to a domain that has entered SELF_REFRESH meanwhile waits for it
    if !s.weirServed o then s.weirWake o else
    let y := ((s.racy t (.weir t o.seq)).mixed t o.old).weirLinks t o
    let s := if o.done then s else (((s.weirRun y v t o).weirTouch o).inboundLines t o.lands).weirAnswer v t o
    s.weirFinish v t o

/-- GATHER_LIST_ENTRY. -/
def State.gatherNext (s : State) (v : TileId) : State :=
  match s.running v with
  | none => s
  | some (t, o) => s.gatherEntry (s.racy t (.weir t o.seq)) v

end Sys2Proof.Machine
end

