-- ==== Sys2Proof/Machine/StopOps.lean ====
section
/-!
DEFINITION. Halts and the global stop (R455, R456, R459, R460, R464): what halts an engine, a queue and a core, and what
lets them go on.
-/
namespace Sys2Proof.Machine

/-! ## Halted engines -/

/-- Table 18-6: why a HALT record is made. -/
inductive HaltWhy | brk | gstop | step
  deriving DecidableEq, Repr

/-- Bit of a HALT record's info. -/
def HaltWhy.bit : HaltWhy → Nat
  | .brk => 1 | .gstop => 2 | .step => 4

/-- R455, R456, R460: an engine enters HALTED at its word. -/
def State.haltEngine (s : State) (t : TileId) (e : EngId) (w : HaltWhy) : State :=
  let g := s.engAt t e
  let s := s.setEng t e { g with st := .halted, before := g.st, gstop := decide (w = .gstop), stepping := false, haltStamp := s.stamp t }
  let s : State := if w = .gstop then { s with gs := { s.gs with first := s.gs.first.elim (some (s.stamp t)) fun x => some (if (s.stamp t).toNat < x.toNat then s.stamp t else x), last := s.gs.last.elim (some (s.stamp t)) fun x => some (if x.toNat < (s.stamp t).toNat then s.stamp t else x) } } else s
  s.trace t 0x0A e.toNat g.pc.toNat w.bit

/-- R456, R464: a halted engine returns to the state it halted from, at the same word. -/
def State.unhalt (s : State) (t : TileId) (e : EngId) (step : Bool) : State :=
  let g := s.engAt t e
  s.setEng t e { g with st := g.before, gstop := false, stepping := step, skipBreak := g.skipBreak || !g.gstop }

/-! ## The global stop -/

/-- Has the stop in progress reached the tile? -/
def State.tileStopped (s : State) (t : TileId) : Bool := s.stoppedOver t && (s.tileAt t).marker

/-- R459: the tiles in scope. -/
def State.scopeTiles (s : State) : List TileId :=
  if s.gs.device then (List.range 4096).map (BitVec.ofNat 12) else s.tilesIn s.gs.part

/-- R460 step 1: the colonies whose cores are sent a halt request. -/
def State.scopeCols (s : State) : List ColId :=
  if s.gs.device then (List.range 256).map (BitVec.ofNat 8) else s.colsOf s.gs.part

/-- R459, R460: a request for a global stop: it begins one, or is merged with the stop in progress. `origin`: Table 18-13;
`tile`: the origin router's tile. -/
def State.beginStop (s : State) (device : Bool) (p : PartId) (origin : Nat) (port : Nat) (tile : TileId) : State :=
  if s.gs.st ≠ .running then { s with gs := { s.gs with merged := BitVec.ofNat 16 (satAdd 0xFFFF s.gs.merged.toNat 1) } } else
  let g : GStop := { s.gs with st := .stopping, device := device, part := p, origin := BitVec.ofNat 3 origin, port := BitVec.ofNat 3 port,
                               originTile := tile, time := s.time, first := none, last := none, vwait := false }
  let s : State := { s with gs := g, canal := { s.canal with marks := [tile], front := [tile] }, tile := mapIf (fun _ => {}) (fun _ => true) (fun x => { x with marker := false }) s.tile }
  let s := s.add64 (dbgBase + 8 * 7) 1
  if bit (s.reg (dbgBase + 0x104)) 0 then
    each s s.scopeCols fun s c =>
      let k := s.coreAt (coreOfCol c)
      if k.inReset ∨ k.halted then s else (s.enterDebug (coreOfCol c) 3).setCore (coreOfCol c) { k with halted := true, wfi := false, gstop := true }
  else s

/-- R455, R457: a stop that a tile's breakpoint or a core's trigger begins, in the scope DBG_GSCFG.bp_scope gives. -/
def State.localStop (s : State) (t : TileId) (origin : Nat) : State :=
  s.beginStop (bit (s.reg (dbgBase + 0x104)) 5) ((s.partOf t).getD 0) origin 0 t

/-- Table 18-10: offset of an engine's breakpoint. -/
def brkOff (e : EngId) : Nat := 0x1E70 + 4 * e.toNat

/-- R455: does the engine's breakpoint name its next word? -/
def State.brkHit (s : State) (t : TileId) (e : EngId) : Bool :=
  let w := s.tr t (brkOff e)
  let g := s.engAt t e
  bit w 0 && decide (fld w 13 1 = g.pc.toNat) && !g.skipBreak

/-- R455: the breakpoint hits. -/
def State.hitBrk (s : State) (t : TileId) (e : EngId) : State :=
  let w := s.tr t (brkOff e)
  let s := (s.setTr t (brkOff e) (setBit w 15 true)).haltEngine t e .brk
  if bit w 14 then s.localStop t 1 else s

end Sys2Proof.Machine
end

