-- ==== Sys2Proof/Machine/Slots.lean ====
section
/-!
DEFINITION. The slots of a word (Tables 5-5, 6-2, 6-5, 7-2 to 7-6, 9-3, 4-7): for each instruction its legality, its checks
before issue, its effect and what it writes; and the slots that the bits of a word spell (R118, R119).
-/
namespace Sys2Proof.Machine

/-! ## Scalar slots (Table 5-5) -/

/-- The engine's next word. -/
def State.pcOf (s : State) (t : TileId) (e : EngId) : Nat := (s.engAt t e).pc.toNat

/-- d = f(a, b). -/
def slotAlu (t : TileId) (e : EngId) (d a b : BitVec 4) (f : W32 → W32 → W32) : SlotOp :=
  { apply := fun pre cur => cur.scR t e d (f (pre.sR t e a) (pre.sR t e b)), writes := wrS d,
    value := fun g => (g a.toNat).bind fun x => (g b.toNat).map (f x) }
/-- d = f(a), with an immediate inside `f`. -/
def slotImm (t : TileId) (e : EngId) (d a : BitVec 4) (f : W32 → W32) : SlotOp :=
  { apply := fun pre cur => cur.scR t e d (f (pre.sR t e a)), writes := wrS d, value := fun g => (g a.toNat).map f }
def slotLi (t : TileId) (e : EngId) (d : BitVec 4) (imm : BitVec 20) : SlotOp :=
  { apply := fun _ cur => cur.scR t e d (imm.signExtend 32), writes := wrS d,
    value := fun _ => some (imm.signExtend 32) }
def slotLih (t : TileId) (e : EngId) (d : BitVec 4) (imm : BitVec 20) : SlotOp :=
  { legal := decide (imm.extractLsb' 12 8 = 0), apply := fun pre cur => cur.scR t e d (lih (pre.sR t e d) imm), writes := wrS d,
    value := fun g => (g d.toNat).map fun x => lih x imm }
def slotLw (t : TileId) (e : EngId) (d a : BitVec 4) (imm : W16) : SlotOp :=
  { check := fun s => s.lwCheck t e a imm,
    apply := fun pre cur => match scAddr (pre.sR t e a) imm with
      | some v => cur.scR t e d (pre.spadW t v)
      | none => cur,
    writes := wrS d, use := .lw }
def slotSw (t : TileId) (e : EngId) (d a : BitVec 4) (imm : W16) : SlotOp :=
  { check := fun s => s.swCheck t e a imm,
    apply := fun pre cur => match scAddr (pre.sR t e a) imm with
      | some v => cur.scStore t v (pre.sR t e d)
      | none => cur,
    use := .sw }
def slotRdix (t : TileId) (e : EngId) (d : BitVec 4) (depth : Nat) : SlotOp :=
  { apply := fun pre cur => cur.scR t e d (pre.rdix t e depth), writes := wrS d }
/-- R125: a branch. -/
def slotBranch (t : TileId) (e : EngId) (off : W16) (taken : State → Bool) : SlotOp :=
  { check := fun s => if taken s then s.branchCheck t e (s.pcOf t e) off else .ok,
    goto := fun s => if taken s then branchTo (s.pcOf t e) off else none,
    ctl := true, noLast := true, jump := some off.toInt }
def slotBr (t : TileId) (e : EngId) (a b : BitVec 4) (off : W16) (f : W32 → W32 → Bool) : SlotOp :=
  slotBranch t e off fun s => f (s.sR t e a) (s.sR t e b)
def slotEnd (t : TileId) (e : EngId) : SlotOp :=
  { apply := fun _ cur => cur.endOp t e, ctl := true, noLast := true }
/-- R129: LP.BEGIN in a word of `w` halfwords. -/
def slotLoop (t : TileId) (e : EngId) (w : Nat) (a : BitVec 4) (end_ : BitVec 13) : SlotOp :=
  { check := fun s => s.loopCheck t e (s.pcOf t e) w a end_.toNat,
    apply := fun pre cur => cur.loopEnter t e (pre.pcOf t e) w end_.toNat (pre.sR t e a).toNat,
    skip := fun s => if s.sR t e a = 0 then some (s.pcOf t e + end_.toNat) else none,
    ctl := true, noLast := true, body := some end_.toNat, cnt := a.toNat }
def slotAg (t : TileId) (e : EngId) (a : BitVec 4) (g : BitVec 3) (c : BitVec 2) (w : BitVec 3) : SlotOp :=
  { legal := decide (g ≠ 0) && decide (w.toNat ≤ 4),
    apply := fun pre cur => cur.agSetOp t e g.toNat c.toNat w.toNat (pre.sR t e a), gset := some (g.toNat, c.toNat, w.toNat, a.toNat) }
def slotWait (n : SemId) (k : Byte) : SlotOp := { legal := decide (k ≠ 0), need := some (n, k) }
def slotPost (t : TileId) (e : EngId) (n : SemId) (k : Byte) : SlotOp :=
  { legal := decide (k ≠ 0), apply := fun _ cur => cur.pendOp t e (.post n k) }
def slotRpost (t : TileId) (e : EngId) (n : SemId) (k : Byte) (a : BitVec 4) : SlotOp :=
  { legal := decide (k ≠ 0),
    check := fun s => match s.rpostTo t (s.sR t e a) with | some _ => .ok | none => .fault 0x3B,
    apply := fun pre cur => match pre.rpostTo t (pre.sR t e a) with
      | some d => cur.pendOp t e (.rpost d n k)
      | none => cur }
def slotEvt (t : TileId) (e : EngId) (a : BitVec 4) : SlotOp :=
  { check := fun s => s.evtCheck t (s.sR t e a), apply := fun pre cur => cur.pendOp t e (.evt (pre.sR t e a)) }
def slotTl (t : TileId) (e : EngId) (a b : BitVec 4) : SlotOp :=
  { legal := decide (1 ≤ b.toNat) && decide (b.toNat ≤ 14),
    check := fun s => s.tlCheck t (s.sR t e a),
    apply := fun pre cur => cur.pendOp t e (.tl (pre.sR t e a) (pre.sR t e (b + 1) ++ pre.sR t e b)) }
def slotFence (t : TileId) (e : EngId) : SlotOp := { apply := fun _ cur => cur.fenceOp t e, ctl := true }

/-- A slot that holds no legal instruction. -/
def badSlot : SlotOp := { legal := false }

/-- A slot whose reserved fields must be 0. -/
def SlotOp.need0 (o : SlotOp) (l : List Nat) : SlotOp := { o with legal := o.legal && l.all (· == 0) }

/-- R123, R124: the scalar instruction that 32 bits spell, in a word of `w` halfwords. -/
def scalarSlot (t : TileId) (e : EngId) (w x : Nat) : SlotOp :=
  let r := fun i => (BitVec.ofNat 4 (bits x (4 * i + 3) (4 * i)))
  let d := r 2; let a := r 3; let b := r 4
  let imm := BitVec.ofNat 16 (bits x 31 16)
  let imm20 := BitVec.ofNat 20 (bits x 31 12)
  let top := bits x 31 20
  let sem : SemId := r 2; let n := BitVec.ofNat 8 (bits x 19 12); let sa := BitVec.ofNat 4 (bits x 23 20)
  match bits x 7 0 with
  | 0x00 => SlotOp.need0 {} [x]
  | 0x01 => (slotAlu t e d a b (· + ·)).need0 [top]
  | 0x02 => (slotAlu t e d a b (· - ·)).need0 [top]
  | 0x03 => (slotAlu t e d a b (· &&& ·)).need0 [top]
  | 0x04 => (slotAlu t e d a b (· ||| ·)).need0 [top]
  | 0x05 => (slotAlu t e d a b (· ^^^ ·)).need0 [top]
  | 0x06 => (slotAlu t e d a b fun u v => u <<< (v.toNat % 32)).need0 [top]
  | 0x07 => (slotAlu t e d a b fun u v => u >>> (v.toNat % 32)).need0 [top]
  | 0x08 => (slotAlu t e d a b fun u v => u.sshiftRight (v.toNat % 32)).need0 [top]
  | 0x09 => (slotAlu t e d a b fun u v => flagW (u.slt v)).need0 [top]
  | 0x0A => (slotAlu t e d a b fun u v => flagW (u.ult v)).need0 [top]
  | 0x0B => (slotAlu t e d a b (· * ·)).need0 [top]
  | 0x10 => slotImm t e d a (· + imm.signExtend 32)
  | 0x11 => slotImm t e d a (· &&& imm.setWidth 32)
  | 0x12 => slotLi t e d imm20
  | 0x13 => slotLih t e d imm20
  | 0x14 => slotLw t e d a imm
  | 0x15 => slotSw t e d a imm
  | 0x16 => (slotRdix t e d (imm.toNat % 4)).need0 [imm.toNat / 4]
  | 0x18 => slotBr t e d a imm (· == ·)
  | 0x19 => slotBr t e d a imm (· != ·)
  | 0x1A => slotBr t e d a imm BitVec.slt
  | 0x1B => slotBr t e d a imm fun u v => !u.slt v
  | 0x1C => (slotBranch t e imm fun _ => true).need0 [d.toNat, a.toNat]
  | 0x1F => (slotEnd t e).need0 [x / 256]
  | 0x20 => (slotLoop t e w d (BitVec.ofNat 13 (bits x 24 12))).need0 [bits x 31 25]
  | 0x28 => (slotAg t e d (BitVec.ofNat 3 (bits x 14 12)) (BitVec.ofNat 2 (bits x 16 15)) (BitVec.ofNat 3 (bits x 19 17))).need0 [top]
  | 0x30 => (slotWait sem n).need0 [bits x 31 20]
  | 0x31 => (slotPost t e sem n).need0 [bits x 31 20]
  | 0x32 => (slotRpost t e sem n sa).need0 [bits x 31 24]
  | 0x38 => (slotEvt t e a).need0 [d.toNat, b.toNat, top]
  | 0x39 => (slotTl t e a b).need0 [d.toNat, top]
  | 0x3F => (slotFence t e).need0 [x / 256]
  | _ => badSlot

/-! ## MX and DR (Tables 6-2, 6-5) -/

/-- Table 10-3: the set, lines and span of an MX slot at its planned rows and the generator's offsets. -/
def State.mxLoad (s : State) (t : TileId) (f : MxF) : Bool :=
  let o := 0x1000 + 16 * f.pset.toNat
  match f.offset s t with
  | none => false
  | some g =>
    let op : MxOp := { seq := 0, f := g, rows := f.mM1.toNat + 1, setRow := s.tr t o, setScl := s.tr t (o + 4),
                       setMsk := s.tr t (o + 8), running := false, since := 0 }
    decide (op.startFault = 0)

/-- R150: MX.PROB. -/
def slotMx (t : TileId) (f : MxF) : SlotOp :=
  { legal := f.legal, check := fun s => s.mxCheck t f, apply := fun pre cur => State.mxIssue pre cur t f, load := fun s => s.mxLoad t f, ag := f.ag.toNat }

/-- R160, R133: a DR slot with its checked offsets applied; none where a field leaves its range. -/
def drOffset (s : State) (t : TileId) (f : DrF) : Option DrF := do
  let c ← agField 10 f.c.toNat (s.agOffset t 0 f.ag.toNat 0)
  let d ← agField 12 f.dst.toNat (s.agOffset t 0 f.ag.toNat 1)
  pure { f with c := BitVec.ofNat 10 c, dst := BitVec.ofNat 12 d }

/-- Table 6-6: planned rows of a drain set. -/
def State.drPlan (s : State) (t : TileId) (f : DrF) : Nat := fld (s.tr t (0x1080 + 16 * f.dset.toNat)) 11 0 + 1

/-- R158, R160, R163: checks of a DR slot at issue. A count above the plan faults at issue where rm gives it; an offset out of its field is tested
first. (log 132, DESIGN CHOICE) -/
def State.drCheck (s : State) (t : TileId) (f : DrF) : Verdict :=
  match drOffset s t f with
  | none => .fault 0x3C
  | some _ =>
    match rowsAt s t f.rm (s.drPlan t f) with
    | none => .fault 0x58
    | some _ => if 2 ≤ (s.tileAt t).drq.length then .wait else .ok

/-- R158, R160: an issued DR.WRITE enters the queue. -/
def State.drIssue (pre cur : State) (t : TileId) (f : DrF) : State :=
  match drOffset pre t f, rowsAt pre t f.rm (pre.drPlan t f) with
  | some g, some m =>
    let e := cur.engAt t 0
    let o : DrOp :=
      { seq := e.seq, f := g, rows := m, mskOfs := BitVec.ofInt 32 (pre.agOffset t 0 f.ag.toNat 2),
        vofs := BitVec.ofInt 32 (pre.agOffset t 0 f.ag.toNat 3), running := false, shape := 0, aux := 0, sws := 0, chain := [],
        stat := false, beats := [], since := 0, pc := (pre.engAt t 0).pc }
    let tl := cur.tileAt t
    (cur.setTile t { tl with drq := tl.drq ++ [o] }).setEng t 0 { e with seq := e.seq + 1 }
  | _, _ => cur

/-- Table 10-3: the set, chain, lines and span of a DR slot at its planned rows and the generator's offsets. -/
def State.drLoad (s : State) (t : TileId) (f : DrF) : Bool :=
  let b := 0x1080 + 16 * f.dset.toNat
  let ofs := fun c => BitVec.ofInt 32 (s.agOffset t 0 f.ag.toNat c)
  match drOffset s t f with
  | none => false
  | some g =>
    let o : DrOp :=
      { seq := 0, f := g, rows := s.drPlan t f, mskOfs := ofs 2, vofs := ofs 3, running := false, shape := s.tr t b,
        aux := s.tr t (b + 4), sws := s.tr t (b + 8), chain := s.chainOf t f.chain.toNat, stat := false, beats := [], since := 0 }
    decide (o.startFault s t = 0)

/-- R160: DR.WRITE. -/
def slotDr (t : TileId) (f : DrF) : SlotOp :=
  { legal := f.legal, check := fun s => s.drCheck t f, apply := fun pre cur => State.drIssue pre cur t f, load := fun s => s.drLoad t f, ag := f.ag.toNat }

/-- Table 6-2: the MX slot that 128 bits spell. -/
def mxSlot (t : TileId) (x : Nat) : SlotOp :=
  let b := fun n hi lo => BitVec.ofNat n (bits x hi lo)
  match bits x 7 0 with
  | 0 => SlotOp.need0 {} [x]
  | 1 => (slotMx t { fa := b 4 11 8, fb := b 4 15 12, va := x.testBit 16, vb := x.testBit 17, acc := x.testBit 18, msk := x.testBit 19,
                     sigEn := x.testBit 20, sem := b 4 24 21, ag := b 3 27 25, pset := b 3 30 28, mM1 := b 12 43 32, rm := b 4 47 44,
                     nM1 := b 8 55 48, ktM1 := b 12 67 56, a := b 12 79 68, b := b 12 91 80, c := b 10 101 92 }).need0
           [bits x 31 31, bits x 127 102]
  | _ => badSlot

/-- Table 6-5: the DR slot that 64 bits spell. -/
def drSlot (t : TileId) (x : Nat) : SlotOp :=
  let b := fun n hi lo => BitVec.ofNat n (bits x hi lo)
  match bits x 7 0 with
  | 0 => SlotOp.need0 {} [x]
  | 1 => (slotDr t { nc := b 3 10 8, ofmt := b 4 14 11, ovar := x.testBit 15, chain := b 2 17 16, hws := x.testBit 18, msk := x.testBit 19,
                     sigEn := x.testBit 20, sem := b 4 24 21, ag := b 3 27 25, dset := b 2 29 28, clr := x.testBit 30,
                     ityp := x.testBit 31, c := b 10 41 32, dst := b 12 53 42, rm := b 4 57 54 }).need0 [bits x 63 58]
  | _ => badSlot

/-! ## The ISSUE slot (Table 9-3) -/

/-- R225, R227, R133: the arming a MOV.ISSUE makes; none where line leaves its field. -/
def State.armOf (s : State) (t : TileId) (f : IssueF) : Option Arm :=
  (agField 12 f.line.toNat (s.agOffset t 2 f.ag.toNat 1)).map fun l =>
    { desc := f.desc, line := BitVec.ofNat 12 l, sem := f.sem, sigEn := f.sigEn, rsig := f.rsig,
      n1 := if f.rm = 0 then none else some (s.sR t 2 f.rm).toNat,
      farOfs := BitVec.ofInt 32 (s.agOffset t 2 f.ag.toNat 0), mlineOfs := BitVec.ofInt 32 (s.agOffset t 2 f.ag.toNat 2),
      seq := some (s.engAt t 2).seq }

/-- Table 10-3: the lines of a MOV.ISSUE's stream at its planned rows and the generator's offsets: its own, its mask's, and a target
tile's (R223). -/
def State.issueLoad (s : State) (t : TileId) (f : IssueF) : Bool :=
  let d := descOf (s.descWords t f.desc.toNat)
  let n := d.count d.c1
  (!d.imem || (!d.out && decide (d.lpitch = 0) && decide (d.run % 4 = 0))) && (
    match s.armOf t f with
    | none => false
    | some a =>
      let ml := (d.mline : Int) + a.mlineOfs.toInt
      let x := { d with far := 0 }.extent d.c1
      let far := (d.far : Int) + a.farOfs.toInt
      decide (n = 0) || (decide (a.line.toNat * 64 + (n - 1) * d.lp + d.run ≤ if d.imem then 16384 else 262144)
        && (!d.msk || (decide (0 ≤ ml) && decide (ml + ((d.c1 + 511) / 512 : Nat) ≤ 4096)))
        && (decide (d.space ≠ 0) || (decide (0 ≤ far + x.1) && decide (far + x.2 < 262144)))))

/-- R225: MOV.ISSUE. -/
def slotIssue (t : TileId) (f : IssueF) : SlotOp :=
  { load := fun s => s.issueLoad t f, ag := f.ag.toNat,
    check := fun s => if (s.armOf t f).isSome then .ok else .fault 0x3C,
    apply := fun pre cur => match pre.armOf t f with
      | some a => let g := cur.engAt t 2; (cur.setEng t 2 { g with seq := g.seq + 1 }).arm t a
      | none => cur }

/-- R246: MOV.DRAIN. -/
def slotDrain (t : TileId) (sigEn : Bool) (sem : SemId) : SlotOp :=
  { check := fun s => if s.moverIdle t then .ok else .wait, apply := fun _ cur => cur.opPost t sigEn sem 2 0 }

/-- Table 9-3: the ISSUE slot that 64 bits spell. -/
def issueSlot (t : TileId) (x : Nat) : SlotOp :=
  let b := fun n hi lo => BitVec.ofNat n (bits x hi lo)
  match bits x 7 0 with
  | 0 => SlotOp.need0 {} [x]
  | 1 => (slotIssue t { desc := b 3 10 8, line := b 12 23 12, ag := b 3 26 24, sigEn := x.testBit 27, sem := b 4 31 28,
                        rsig := x.testBit 32, rm := b 4 36 33 }).need0 [bits x 11 11, bits x 63 37]
  | 2 => (slotDrain t (x.testBit 27) (b 4 31 28)).need0 [bits x 26 8, bits x 63 32]
  | _ => badSlot

/-! ## The WEI slot (Table 4-7) -/

/-- R92, R97: does the weir instruction use its parameter set? The loader checks the sets that weir instructions "name": here those they use
(log 111, DESIGN CHOICE). -/
def usesSet (k : WeirKind) (f : WeirF) : Bool :=
  match k with | .score => true | .attend => true | .topk => true | .gather => f.list | _ => false

/-- Table 10-3: the loader checks a weir instruction's set and, at the generator's offsets, the regions that no context class decides. -/
def State.weirLoad (s : State) (t : TileId) (k : WeirKind) (f0 : WeirF) : Bool :=
  let c := s.tr t (0x1900 + 16 * f0.pset.toNat)
  (!usesSet k f0 || wpSane c) && (match f0.offset s t with
    | none => false
    | some f => match k with
      | .gather => !f.list || decide (f.aux.toNat + linesOf (16 * f.rows) ≤ 4096)
      | .append => decide (f.src.toNat + f.rows ≤ 4096)
      | .nop => true
      | _ => weirRegions k f c 0)

/-- R88 to R91: a weir instruction other than WEIR.NOP. -/
def slotWeir (t : TileId) (k : WeirKind) (f : WeirF) : SlotOp :=
  { legal := f.legal k, check := fun s => s.weirCheck t k f, apply := fun _ cur => cur.weirIssue t k f,
    load := fun s => s.weirLoad t k f, ag := f.ag.toNat }

/-- Table 4-8: WEIR.NOP; with sig_en it takes one of the 4 issued places. -/
def slotWeirNop (t : TileId) (sigEn : Bool) (sem : SemId) : SlotOp :=
  { check := fun s => if sigEn ∧ 4 ≤ (s.tileAt t).wei.length then .wait else .ok,
    apply := fun _ cur => cur.weirNopIssue t sigEn sem }

/-- Table 4-7: the WEI slot that 128 bits spell. -/
def weiSlot (t : TileId) (x : Nat) : SlotOp :=
  let b := fun n hi lo => BitVec.ofNat n (bits x hi lo)
  let f : WeirF := { nc := b 3 10 8, sigEn := x.testBit 11, pset := b 4 15 12, lpn := b 24 39 16, rowFirst := b 13 52 40,
                     rowCntM1 := b 13 65 53, src := b 12 77 66, dst := b 12 89 78, aux := b 12 101 90, sem := b 4 105 102,
                     ag := b 3 108 106, imm := b 16 127 112 }
  match bits x 7 0 with
  | 0 => (slotWeirNop t f.sigEn f.sem).need0 [bits x 10 8, bits x 101 12, bits x 127 106]
  | 1 => (slotWeir t .score f).need0 [bits x 111 109]
  | 2 => (slotWeir t .attend f).need0 [bits x 111 109]
  | 3 => (slotWeir t .topk f).need0 [bits x 111 109]
  | 4 => (slotWeir t .append f).need0 [bits x 111 109]
  | 5 => (slotWeir t .reuse f).need0 [bits x 111 109]
  | 6 => (slotWeir t .gather f).need0 [bits x 111 109]
  | _ => badSlot

/-! ## VXE slots (Tables 7-2 to 7-6) -/

/-- A format V instruction that writes vd under its predicate. -/
def slotV (f : VxV) (legal : Bool) (apply : State → State → State) : SlotOp := vxSlot f legal apply

/-- R442: a slot whose effect counts in a tile counter. -/
def SlotOp.counts (t : TileId) (n : Nat) (k : State → Nat) (o : SlotOp) : SlotOp :=
  { o with apply := fun pre cur => (o.apply pre cur).tcnt t n (k pre) }
/-- Lanes that a predicate lets take part. -/
def State.lanes (s : State) (t : TileId) (p : BitVec 3) : Nat := popcount (s.pval t p.toNat).toNat

/-- A floating-point instruction of `n` sources (R186); an FMA counts 2 (R442). -/
def slotFp (t : TileId) (f : VxV) (n : Nat) (g : Fp → Fp → Fp → Fp) : SlotOp :=
  SlotOp.counts t 3 (fun s => s.lanes t f.p * 2 ^ f.pk.toNat * (if n = 3 then 2 else 1)) <|
    slotV f (vLegal f 2 (decide (2 ≤ n)) (decide (3 ≤ n)) true) fun pre cur => State.vxFp pre cur t f n g
/-- An integer instruction (R186): `m` bounds pk. -/
def slotInt (t : TileId) (f : VxV) (m : Nat) (g : Nat → Nat → Nat → Nat) : SlotOp :=
  slotV f (vLegal f m true false true) fun pre cur => State.vxInt pre cur t f g
/-- R187: VX.CMP. -/
def slotCmp (t : TileId) (f : VxV) : SlotOp :=
  { legal := decide (f.pk = 0) && decide (f.vd ≠ 0) && decide (f.vd.toNat < 8) && decide (f.vc.toNat % 8 ≠ 7) && decide (f.vc.toNat / 8 ≠ 3),
    apply := fun pre cur => State.vxCmpOp pre cur t f, writes := [64 + f.vd.toNat] }
/-- R187: VX.PLOG; `not pa` leaves pb unread, and any pb is legal in it. (log 137, DESIGN CHOICE) -/
def slotPlog (t : TileId) (f : VxV) : SlotOp :=
  { legal := decide (f.pk = 0) && decide (f.p = 0) && decide (f.vd ≠ 0) && decide (f.vd.toNat < 8) && decide (f.va.toNat < 8)
      && decide (f.vb.toNat < 8) && decide (f.vc.toNat ≤ 4),
    apply := fun pre cur => State.vxPlogOp pre cur t f, writes := [64 + f.vd.toNat] }
/-- A move whose lanes `g` gives from the state before the word. -/
def slotMove (t : TileId) (f : VxV) (useB : Bool) (g : State → Nat → Lane) : SlotOp :=
  slotV f (vLegal f 0 useB false true) fun pre cur => State.vxMove pre cur t f (g pre)
/-- VX.SEL writes every lane. -/
def slotSel (t : TileId) (f : VxV) : SlotOp :=
  slotV f (vLegal f 0 true false true) fun pre cur =>
    let p := pre.pval t f.p.toNat
    cur.putLanes t f.vd.toNat 0xFFFFFFFF ((List.range 32).map fun i =>
      moved (if p.getLsbD i then pre.vl t f.va.toNat i else pre.vl t f.vb.toNat i))
/-- VX.BCS: every lane of vd = s[va[3:0]]. -/
def slotBcs (t : TileId) (f : VxV) : SlotOp :=
  slotV f (vLegal f 0 false false true && decide (f.va.toNat < 16)) fun pre cur =>
    State.vxMove pre cur t f fun _ => moved (pre.sR t 1 (f.va.setWidth 4), false)
/-- VX.GETL: s[vd[3:0]] = va[vb]; poison stops where its bits would become a scalar (R424). -/
def slotGetl (t : TileId) (f : VxV) : SlotOp :=
  { legal := vLegal f 0 true false false && decide (f.vd.toNat < 16),
    check := fun s => if (s.vl t f.va.toNat f.vb.toNat).2 then .poison .regs (f.va.toNat * 128 + f.vb.toNat * 4) else .ok,
    apply := fun pre cur => cur.scR t 1 (f.vd.setWidth 4) (pre.vl t f.va.toNat f.vb.toNat).1, writes := wrS (f.vd.setWidth 4) }
/-- R188: VX.CVT. -/
def slotCvt (t : TileId) (f : VxC) : SlotOp :=
  SlotOp.counts t 3 (fun s => if f.dst = 2 ∨ f.dst = 11 then 0 else s.lanes t f.p * (VxCspan f).2 * (32 / cvtW f.dst.toNat)) <|
    { legal := cvtLegal f, apply := fun pre cur => State.vxCvtOp pre cur t f,
      writes := (List.range (VxCspan f).2).map fun k => 32 + f.vd.toNat + k }
/-- R190: a TU instruction of `n` sources. -/
def slotTu (t : TileId) (f : VxV) (n : Nat) (g : Nat → Nat → Nat → Res) : SlotOp :=
  SlotOp.counts t 4 (fun s => s.lanes t f.p) <|
    slotV f (vLegal f 0 (decide (n = 2)) false true) fun pre cur => State.vxTu pre cur t f n g
/-- R191: reductions. -/
def slotSum (t : TileId) (f : VxV) (acc : Bool) : SlotOp :=
  -- R191: VX.RSUMA with no lane taking part writes nothing
  SlotOp.counts t 3 (fun s => if acc && decide (s.lanes t f.p = 0) then 0 else 1) <|
    slotV f (vLegal f 1 false false true) fun pre cur => State.vxSumOp pre cur t f acc
def slotExt (t : TileId) (f : VxV) (mx : Bool) : SlotOp :=
  SlotOp.counts t 3 (fun _ => 1) <|
    slotV f (vLegal f 1 false false true) fun pre cur => State.vxExtOp pre cur t f mx
/-- R192: VX.SCAN. -/
def slotScan (t : TileId) (f : VxV) : SlotOp :=
  SlotOp.counts t 3 (fun _ => 32) <|
    slotV f (vLegal f 0 true true true) fun pre cur => State.vxScanOp pre cur t f
/-- R193: VX.TAPMV. -/
def slotTap (t : TileId) (f : VxV) : SlotOp :=
  SlotOp.counts t 3 (fun s => s.lanes t f.p) <|
    { vxSlot f (decide (f.vb.toNat % 8 ≠ 0) && decide (f.vc = 0) && decide (f.pk = 0)) (fun pre cur => (State.vxTapOp pre cur t f).vxeAccess t) with
      check := fun s => s.tapCheck t f, use := .tap }
/-- A span of vector registers. -/
def wrV (d n : Nat) : List Nat := (List.range n).map fun k => 32 + d + k
/-- R195: small matrices. -/
def slotMm (t : TileId) (f : VxV) (ta tb : Bool) : SlotOp :=
  SlotOp.counts t 3 (fun _ => matK f * matK f) <|
    { legal := mmLegal f, apply := fun pre cur => State.vxMmOp pre cur t f ta tb, writes := wrV f.vd.toNat (matN f) }
def slotChol (t : TileId) (f : VxV) : SlotOp :=
  SlotOp.counts t 3 (fun _ => matK f * matK f) <|
    { legal := cholLegal f, apply := fun pre cur => State.vxCholOp pre cur t f, writes := wrV f.vd.toNat (matN f) }
def slotChsv (t : TileId) (f : VxV) : SlotOp :=
  SlotOp.counts t 3 (fun _ => 2 * matK f) <|
    slotV f (chsvLegal f) fun pre cur => State.vxChsvOp pre cur t f
/-- Table 10-3: the lines that a load or store of `n` lines names, through its circular buffer where it has one (R183). -/
def State.lineLoad (s : State) (t : TileId) (f : VxM) (n ch : Nat) : Bool :=
  match s.vxLines t f n ch with | .ok _ => true | .error _ => false
/-- R182: loads and stores of `n` lines from lane `lo` on. -/
def slotLd (t : TileId) (f : VxM) (n lo : Nat) : SlotOp :=
  { load := fun s => s.lineLoad t f n 0, ag := f.ag.toNat, check := fun s => s.vxMCheck t f n 0, apply := fun pre cur => (State.vxLoad pre cur t f n lo).vxeAccess t, writes := [32 + f.v.toNat], use := .ld }
def slotSt (t : TileId) (f : VxM) (n lo : Nat) : SlotOp :=
  { load := fun s => s.lineLoad t f n 1, ag := f.ag.toNat, check := fun s => s.vxMCheck t f n 1, apply := fun pre cur => (State.vxStore pre cur t f n lo).vxeAccess t, use := .st }
/-- R185: VX.GATH and VX.SCAT. -/
def slotGath (t : TileId) (f : VxG) : SlotOp :=
  { check := fun s => s.vxGCheck t f, apply := fun pre cur => (State.vxGather pre cur t f).vxeAccess t, writes := [32 + f.v.toNat], use := .ld }
def slotScat (t : TileId) (f : VxG) : SlotOp :=
  { check := fun s => s.vxGCheck t f, apply := fun pre cur => (State.vxScatter pre cur t f).vxeAccess t, use := .st }

/-- The lane that a PERM or BCL index names. -/
def permLane (pre : State) (t : TileId) (f : VxV) (i : Nat) : Lane :=
  let x := pre.vl t f.vb.toNat i
  let y := pre.vl t f.va.toNat (x.1.toNat % 32)
  moved (y.1, x.2 || y.2)

/-- Table 7-2, format V. -/
def vOf (x : Nat) : VxV :=
  { vd := BitVec.ofNat 5 (bits x 11 7), va := BitVec.ofNat 5 (bits x 16 12), vb := BitVec.ofNat 5 (bits x 21 17),
    vc := BitVec.ofNat 5 (bits x 26 22), p := BitVec.ofNat 3 (bits x 29 27), pk := BitVec.ofNat 2 (bits x 31 30) }
/-- Format C. -/
def cOf (x : Nat) : VxC :=
  { vd := BitVec.ofNat 5 (bits x 11 7), va := BitVec.ofNat 5 (bits x 16 12), src := BitVec.ofNat 4 (bits x 20 17),
    dst := BitVec.ofNat 4 (bits x 24 21), nc := BitVec.ofNat 3 (bits x 27 25), p := BitVec.ofNat 3 (bits x 30 28) }
/-- Format M. -/
def mOf (x : Nat) : VxM :=
  { v := BitVec.ofNat 5 (bits x 10 6), ag := BitVec.ofNat 3 (bits x 13 11), cb := BitVec.ofNat 3 (bits x 16 14),
    p := BitVec.ofNat 3 (bits x 19 17), line := BitVec.ofNat 12 (bits x 31 20) }
/-- Format G. -/
def gOf (x : Nat) : VxG :=
  { v := BitVec.ofNat 5 (bits x 10 6), vi := BitVec.ofNat 5 (bits x 15 11), p := BitVec.ofNat 3 (bits x 18 16),
    line := BitVec.ofNat 12 (bits x 31 20) }

/-- Arithmetic of Table 7-3. -/
def fpAdd (a b _ : Fp) : Fp := a.add b
def fpSub (a b _ : Fp) : Fp := a.add b.negate
def fpMul (a b _ : Fp) : Fp := a.mul b
def fpFma (a b c : Fp) : Fp := (a.mul b).add c
def fpFms (a b c : Fp) : Fp := (a.mul b).add c.negate
def fpFnma (a b c : Fp) : Fp := c.add (a.mul b).negate

/-- Table 7-3: the VA slot that 32 bits spell. -/
def vaSlot (t : TileId) (x : Nat) : SlotOp :=
  let f := vOf x
  match bits x 6 0 with
  | 0x00 => SlotOp.need0 {} [x]
  | 0x01 => slotFp t f 2 fpAdd
  | 0x02 => slotFp t f 2 fpSub
  | 0x03 => slotFp t f 2 fpMul
  | 0x04 => slotFp t f 3 fpFma
  | 0x05 => slotFp t f 3 fpFms
  | 0x06 => slotFp t f 3 fpFnma
  | 0x08 => slotScan t f
  | 0x09 => slotTap t f
  | 0x10 => slotMm t f false false
  | 0x11 => slotMm t f false true
  | 0x12 => slotMm t f true false
  | 0x13 => slotChol t f
  | 0x14 => slotChsv t f
  | _ => badSlot

/-- Shifts of Table 7-4: by the low log2(w) bits. -/
def iShl (w a b : Nat) : Nat := a * 2 ^ (b % w)
def iShr (w a b : Nat) : Nat := a / 2 ^ (b % w)
def iSra (w a b : Nat) : Nat := (sx w a / 2 ^ (b % w) % 2 ^ w).toNat
def iSub (w a b : Nat) : Nat := a + 2 ^ w - b

/-- VX.FABS and VX.FNEG change the sign alone; a NaN becomes canonical (R65). -/
def fpAbs (a _ _ : Fp) : Fp := match a with | .fin _ m e => .fin false m e | .inf _ => .inf false | .nan => .nan
def fpNeg (a _ _ : Fp) : Fp := a.negate
def fpMin (a b _ : Fp) : Fp := a.min b
def fpMax (a b _ : Fp) : Fp := a.max b

/-- Table 7-4: the VB slot that 32 bits spell. -/
def vbSlot (t : TileId) (x : Nat) : SlotOp :=
  let f := vOf x
  match bits x 6 0 with
  | 0x00 => SlotOp.need0 {} [x]
  | 0x01 => slotInt t f 2 fun _ a b => a + b
  | 0x02 => slotInt t f 2 iSub
  | 0x03 => slotInt t f 2 fun _ a b => a * b
  | 0x04 => slotInt t f 0 fun _ a b => a &&& b
  | 0x05 => slotInt t f 0 fun _ a b => a ||| b
  | 0x06 => slotInt t f 0 fun _ a b => a ^^^ b
  | 0x07 => slotInt t f 2 iShl
  | 0x08 => slotInt t f 2 iShr
  | 0x09 => slotInt t f 2 iSra
  | 0x0C => slotFp t f 2 fpMin
  | 0x0D => slotFp t f 2 fpMax
  | 0x0E => slotFp t f 1 fpAbs
  | 0x0F => slotFp t f 1 fpNeg
  | 0x10 => slotCmp t f
  | 0x11 => slotSel t f
  | 0x12 => slotMove t f false fun s i => moved (s.vl t f.va.toNat i)
  | 0x13 => slotBcs t f
  | 0x14 => slotMove t f true fun s _ => moved (s.vl t f.va.toNat f.vb.toNat)
  | 0x15 => slotMove t f true fun s i => permLane s t f i
  | 0x16 => slotGetl t f
  | 0x17 => (slotMove t f false fun _ i => moved (BitVec.ofNat 32 i, false)).need0 [f.va.toNat]
  | 0x18 => (slotCvt t (cOf x)).need0 [bits x 31 31]
  | 0x19 => slotPlog t f
  | 0x20 => slotSum t f false
  | 0x21 => slotSum t f true
  | 0x22 => slotExt t f true
  | 0x23 => slotExt t f false
  | 0x28 => slotTu t f 1 fun a _ => tu1 tuExp a
  | 0x29 => slotTu t f 1 fun a _ => tu1 tuExp2 a
  | 0x2A => slotTu t f 1 fun a _ => tuDom tuLog a
  | 0x2B => slotTu t f 1 fun a _ => tuDom tuLog2 a
  | 0x2C => slotTu t f 1 fun a _ => tu1 tuRcp a
  | 0x2D => slotTu t f 1 fun a _ => tu1 tuRsq a
  | 0x2E => slotTu t f 1 fun a _ => tuDom tuSqrt a
  | 0x2F => slotTu t f 2 tuDiv
  | 0x30 => slotTu t f 1 fun a _ => tu1 tuTanh a
  | 0x31 => slotTu t f 1 fun a _ => tu1 tuSigm a
  | 0x32 => slotTu t f 1 fun a _ => tuSinCos refSin a
  | 0x33 => slotTu t f 1 fun a _ => tuSinCos refCos a
  | _ => badSlot

/-- Table 7-5: the LD slot that 32 bits spell. -/
def ldSlot (t : TileId) (x : Nat) : SlotOp :=
  match bits x 5 0 with
  | 0 => SlotOp.need0 {} [x]
  | 1 => slotLd t (mOf x) 2 0
  | 2 => slotLd t (mOf x) 1 0
  | 3 => slotLd t (mOf x) 1 16
  | 4 => (slotGath t (gOf x)).need0 [bits x 19 19]
  | _ => badSlot

/-- Table 7-5: the ST slot that 32 bits spell. -/
def stSlot (t : TileId) (x : Nat) : SlotOp :=
  match bits x 5 0 with
  | 0 => SlotOp.need0 {} [x]
  | 1 => slotSt t (mOf x) 2 0
  | 2 => slotSt t (mOf x) 1 0
  | 3 => slotSt t (mOf x) 1 16
  | 4 => (slotScat t (gOf x)).need0 [bits x 19 19]
  | _ => badSlot

end Sys2Proof.Machine
end

