-- ==== Sys2Proof/Machine/Issue.lean ====
section
/-!
DEFINITION. How an engine issues a word (R118 to R122, R127, R129 to R131, R137, R139, R145, R455), and how its programs
start and end (R111 to R113, R117, R141, R142).
-/
namespace Sys2Proof.Machine

/-! ## Legality of a word's slots together (R127, R176) -/

/-- No register is written by two slots. -/
def writesOk (l : List SlotOp) : Bool := decide (l.flatMap (·.writes)).Nodup

/-- Does a slot of the word have the use? -/
def useIn (l : List SlotOp) (u : SlotUse) : Bool := l.any fun o => decide (o.use = u)

/-- R127, R176: the rules on slots of one word. -/
def wordOk (l : List SlotOp) : Bool :=
  l.all (·.legal) && writesOk l && decide ((l.filter (·.ctl)).length ≤ 1)
    && !(useIn l .tap && (useIn l .ld || useIn l .st || useIn l .lw || useIn l .sw))
    && !(useIn l .ld && useIn l .lw) && !(useIn l .st && useIn l .sw)

/-- R110, R141, R405, R460: the engine can issue: it runs or waits, its domain is in RUN, and its program has not ended. -/
def State.canIssue (s : State) (t : TileId) (e : EngId) : Bool :=
  let g := s.engAt t e
  (decide (g.st = .run) || decide (g.st = .wait)) && s.runs t && !g.ending

/-! ## Words from instruction memory (R118 to R120) -/

/-- `n` halfwords of the active bank as a number. -/
def State.imemNat (s : State) (t : TileId) (e : EngId) (q : Nat) : Nat → Nat
  | 0 => 0
  | n + 1 => (s.imemH t e (s.engAt t e).bank q).toNat + 65536 * s.imemNat t e (q + 1) n

/-- Table 5-3: widths of an engine's slots, in halfwords. -/
def slotWidths (ctrl : Bool) (e : EngId) : List Nat :=
  if ctrl then [2, 2] else match e.toNat with | 0 => [8, 4] | 1 => [2, 2, 2, 2, 2] | 2 => [4] | _ => [8]

/-- The slot that the bits of slot `i` of a word spell. -/
def slotOf (ctrl : Bool) (t : TileId) (e : EngId) (w i x : Nat) : SlotOp :=
  if ctrl then scalarSlot t e w x else
  match e.toNat, i with
  | 0, 0 => mxSlot t x
  | 0, _ => drSlot t x
  | 1, 0 => ldSlot t x
  | 1, 1 => stSlot t x
  | 1, 2 => vaSlot t x
  | 1, 3 => vbSlot t x
  | 1, _ => scalarSlot t e w x
  | 2, _ => issueSlot t x
  | _, _ => weiSlot t x

/-- The present slots, in slot order: number and bits. -/
def State.slotBits (s : State) (t : TileId) (e : EngId) (mask : Nat) : Nat → Nat → List Nat → List (Nat × Nat)
  | _, _, [] => []
  | i, q, w :: l =>
    if mask.testBit i then (i, s.imemNat t e q w) :: s.slotBits t e mask (i + 1) (q + w) l
    else s.slotBits t e mask (i + 1) q l

/-- R158: the DR slot of a word counts as issued before its MX slot. -/
def issueOrder (e : EngId) (ctrl : Bool) (l : List SlotOp) : List SlotOp := if e = 0 ∧ !ctrl then l.reverse else l

/-- R118 to R120: the word at the engine's pc: its length and slots; none where its header is not legal. -/
def State.fetchWord (s : State) (t : TileId) (e : EngId) : Option (Nat × List SlotOp) :=
  let q := s.pcOf t e
  let h := (s.imemH t e (s.engAt t e).bank q).toNat
  let ctrl := h.testBit 0; let mask := bits h 5 1; let len := bits h 9 6
  let ws := slotWidths ctrl e
  let want := 1 + ((ws.zipIdx.filter fun x => mask.testBit x.2).map (·.1)).foldl (· + ·) 0
  if h / 1024 ≠ 0 ∨ 2 ^ ws.length ≤ mask ∨ (ctrl ∧ mask ≠ 1 ∧ mask ≠ 3) ∨ len ≠ want then none
  else some (len, issueOrder e ctrl ((s.slotBits t e mask 0 (q + 1) ws).map fun x => slotOf ctrl t e len x.1 x.2))

/-- R118: length of the word at an address of the active bank; 0 past its end, where no word stands. -/
def State.wordLen (s : State) (t : TileId) (e : EngId) (q : Nat) : Nat :=
  if 8192 ≤ q then 0 else bits (s.imemH t e (s.engAt t e).bank q).toNat 9 6

/-! ## Verdicts of slots -/

/-- The first verdict of a word's slots, in slot order, that is not ok. -/
def firstBad (s : State) : List SlotOp → Option Verdict
  | [] => none
  | o :: l => match o.check s with
    | .ok => firstBad s l
    | v => some v

/-- Does a slot of the word wait for its unit (R121)? -/
def unitWait (s : State) (l : List SlotOp) : Bool :=
  l.any fun o => match o.check s with | .wait => true | _ => false

/-! ## Waits (R137) -/

/-- The waits of a word, in slot order. -/
def waitsOf (l : List SlotOp) : List (SemId × Byte) := l.filterMap (·.need)

/-- R121, R141: its semaphores apart, could the word at which engine `e` waits issue now: no fence holds it, and no slot waits for its unit? Of a word
that is not in the engine's memory the last attempt tells. -/
def State.unitFree (s : State) (t : TileId) (e : EngId) : Bool :=
  let g := s.engAt t e
  g.fence.all (s.doneBelow t e ·) && (match s.fetchWord t e with
    | some (_, ops) => !unitWait s ops
    | none => g.fence.isSome || !g.waitUnit)

/-- R139 step 3: with `v` as the semaphores' values, does engine `e` hold a waiting word whose waits they satisfy? A word that a unit or a fence still
holds subtracts nothing before it issues. -/
def State.claims (s : State) (t : TileId) (v : SemId → Nat) (e : EngId) : Bool :=
  let g := s.engAt t e
  s.canIssue t e && decide (g.st = .wait) && s.unitFree t e && g.waits.all fun x => decide (needOf g.waits x.1 ≤ v x.1)

/-- R139 step 3: the values left after the subtractions of the engines listed. -/
def State.afterClaims (s : State) (t : TileId) : List EngId → (SemId → Nat) → SemId → Nat
  | [], v => v
  | e :: l, v => s.afterClaims t l (if s.claims t v e then fun n => v n - needOf (s.engAt t e).waits n else v)

/-- R139 step 3: a semaphore's value as the test of engine `e` sees it: MXE, VXE, MOV and WEI are tested in this order. -/
def State.semLeft (s : State) (t : TileId) (e : EngId) (n : SemId) : Nat :=
  s.afterClaims t (engines.filter fun x => decide (x < e)) (s.semVal t) n

/-- R137, R139: are all the waits of a word satisfied, as engine `e` is tested? -/
def State.met (s : State) (t : TileId) (e : EngId) (l : List SlotOp) : Bool :=
  (waitsOf l).all fun x => decide (needOf (waitsOf l) x.1 ≤ s.semLeft t e x.1)

/-- R137: the waits subtract. -/
def State.consume (s : State) (t : TileId) (l : List SlotOp) : State :=
  each s l fun s o => match o.need with
    | some (n, k) => s.setSem t n (s.semVal t n - k.toNat)
    | none => s

/-- R451: the WAIT records of a word that issues. -/
def State.waitRecords (s : State) (t : TileId) (e : EngId) (waited : Option Nat) (l : List SlotOp) : State :=
  match waited, s.partOf t with
  | some x, some p =>
    let c := x / 16
    if c < max 1 (s.regF (partBase p + 0x748) 31 16) then s else
    each s l fun s o => match o.need with
      | some (n, k) => s.trace t 0x01 e.toNat (s.pcOf t e)
          (n.toNat + k.toNat * 2 ^ 4 + min c (2 ^ 20 - 1) * 2 ^ 12 + (s.posterW t n.toNat).toNat * 2 ^ 32)
      | none => s
  | _, _ => s

/-- Table 5-7: the engine is in WAIT at a word with the waits given: on a semaphore, or on a unit, an interlock or a fence. -/
def State.waitOn (s : State) (t : TileId) (e : EngId) (l : List (SemId × Byte)) (unit : Bool) : State :=
  let g := s.engAt t e
  s.setEng t e { g with st := .wait, waited := some (g.waited.getD 0), waits := l, waitUnit := unit }

/-! ## Loops (R129) -/

/-- R129: close(q): what is left of the loops, innermost first, and the next address. -/
def closeLoops (q next : Nat) : List Loop → List Loop × Nat
  | [] => ([], next)
  | l :: r =>
    if l.last.toNat = q then
      if 1 < l.remaining.toNat then ({ l with remaining := l.remaining - 1, index := l.index + 1 } :: r, l.first.toNat)
      else closeLoops q next r
    else (l :: r, next)

/-- R129: the engine after a word at `q`, whose next address is `next` where no loop goes on. -/
def Eng.closeAt (g : Eng) (q next : Nat) : Eng :=
  let (l, n) := closeLoops q next g.loops.reverse
  { g with loops := l.reverse, pc := BitVec.ofNat 14 n }

/-- R131: a word of `w` halfwords at `q` breaks a rule of the active loops: it passes a loop's last address, or a loop's last word holds a branch,
LP.BEGIN or SC.END. Both fault with LOOP_NEST. (log 114, DEDUCED) -/
def Eng.loopBroken (g : Eng) (q w : Nat) (ops : List SlotOp) : Bool :=
  g.loops.any fun l => (decide (q < l.last.toNat) && decide (l.last.toNat < q + w)) || (decide (l.last.toNat = q) && ops.any (·.noLast))

/-- Where control goes after a word of `w` halfwords at `q` (R125, R129). -/
def State.advance (cur pre : State) (t : TileId) (e : EngId) (q w : Nat) (ops : List SlotOp) : State :=
  let g := cur.engAt t e
  match ops.findSome? fun o => o.goto pre with
  | some n => cur.setEng t e { g with pc := BitVec.ofNat 14 n }
  | none =>
    match ops.findSome? fun o => o.skip pre with
    | some l => cur.setEng t e (g.closeAt l (l + pre.wordLen t e l))
    | none => cur.setEng t e (g.closeAt q (q + w))

/-! ## Issue -/

/-- R121, R145: the slots issue together: each reads the state before the word, the scratchpad as `y` shows it (R205); where two write one thing the
later stands. (log 133, DESIGN CHOICE) -/
def State.issueSlots (s y : State) (t : TileId) (e : EngId) (q w : Nat) (ops : List SlotOp) : State :=
  let g := s.engAt t e
  let s1 := (s.waitRecords t e g.waited ops).consume t ops
  let s1 := s1.setEng t e { s1.engAt t e with st := .run, waitUnit := false, waits := [], waited := none, skipBreak := false }
  let s2 := each s1 ops fun cur o => o.apply y cur
  let s3 := s2.advance s t e q w ops
  if g.stepping ∧ (s3.engAt t e).st = .run then s3.haltEngine t e .step else s3

/-- R120, R121, R131, R145: a word with its slots meets its checks. One whose slots may not stand together faults with ILLEGAL_WORD. (log 133,
DESIGN CHOICE) -/
def State.tryWord (s : State) (t : TileId) (e : EngId) (w : Nat) (ops : List SlotOp) : State :=
  let q := s.pcOf t e
  if !wordOk ops then s.engFault t e 0x38
  else if (s.engAt t e).loopBroken q w ops then s.engFault t e 0x3A
  else if !s.met t e ops then s.waitOn t e (waitsOf ops) false
  else if unitWait s ops then s.waitOn t e (waitsOf ops) true
  else
    let y := s.racy t .other
    match firstBad y ops with
    | none => s.issueSlots y t e q w ops
    | some (.fault c) => s.engFault t e c
    | some (.poison u a) => s.poisonStop t e u 3 a
    | some (.stop act) => act s
    | some _ => s.waitOn t e (waitsOf ops) true

/-- R424, R435: a register parity error found at the engine: it halts at its next word. The spec gives no address for a register: free.
(log 96, DESIGN CHOICE) -/
def State.parityStop (s : State) (t : TileId) (e : EngId) : State :=
  let s := s.setEng t e { s.engAt t e with parity := false }
  ((s.incReg (tileBase t + 0x1E4C) 31 16 1).poisonStop t e .regs 4 (s.draw 0)).drawn

/-- What comes before any word: the marker of a global stop (R460), a register parity error (R424), the fence (R141), the breakpoint (R455) and the
end of the bank (R122); then the word that `word` makes of the address. `l` are the word's waits. -/
def State.beforeWord (s : State) (t : TileId) (e : EngId) (l : List (SemId × Byte)) (word : State → State) : State :=
  if !s.canIssue t e then s
  else if s.tileStopped t then s.haltEngine t e .gstop
  else if (s.engAt t e).parity then s.parityStop t e
  else
    let g := s.engAt t e
    match g.fence with
    | some n =>
      if s.doneBelow t e n then
        let s := s.setEng t e { g with fence := none }
        if s.brkHit t e then s.hitBrk t e else word s
      else s.waitOn t e l true
    | none => if s.brkHit t e then s.hitBrk t e else word s

/-- The issue of a word of `w` halfwords that holds the slots given. (log 56, DESIGN CHOICE) -/
def State.issueWord (s : State) (t : TileId) (e : EngId) (w : Nat) (ops : List SlotOp) : State :=
  s.beforeWord t e (waitsOf ops) fun s => if 8192 < s.pcOf t e + w then s.engFault t e 0x39 else s.tryWord t e w ops

/-- R424: the first memory word of the engine's word, fetched, that is uncorrectable: its header's, or one of the rest. -/
def State.fetchBad (s : State) (t : TileId) (e : EngId) : Option Nat :=
  let q := s.pcOf t e
  let b := (s.engAt t e).bank
  ((List.range (if s.imemP t e b (q / 2) then 1 else (q + max 1 (s.wordLen t e q) + 1) / 2 - q / 2)).map (q / 2 + ·)).find? fun w =>
    decide (w < 4096) && s.imemP t e b w

/-- ENGINE_WORD_ISSUE: the engine's next word, fetched from its active bank. -/
def State.issueNext (s : State) (t : TileId) (e : EngId) : State :=
  s.beforeWord t e (match s.fetchWord t e with | some (_, ops) => waitsOf ops | none => []) fun s =>
    if 8192 ≤ s.pcOf t e then s.engFault t e 0x39 else
    match s.fetchBad t e with
    | some w => (s.incReg (tileBase t + 0x1E4C) 31 16 1).poisonStop t e .imem 2 (e.toNat * 8192 + nat01 (s.engAt t e).bank * 4096 + w)
    | none =>
    match s.fetchWord t e with
    | none =>
      -- R122: a word that passes the bank's end
      if 8192 < s.pcOf t e + s.wordLen t e (s.pcOf t e) then s.engFault t e 0x39 else s.engFault t e 0x38
    | some (w, ops) => if 8192 < s.pcOf t e + w then s.engFault t e 0x39 else s.tryWord t e w ops

/-! ## Starts and ends (R111 to R113, R117) -/

/-- R112, R62: a program starts: the bank swaps where armed, an armed generator seed loads. While a queue of the tile holds a valid stop record the
MOV engine enters STOPPED (R238, R242). -/
def State.beginProgram (s : State) (t : TileId) (e : EngId) (pc : BitVec 13) : State :=
  let g := s.engAt t e
  let tl := s.tileAt t
  let s := match tl.reseed with
    | some v => s.setTile t (tl.loadGen v)
    | none => s
  let stop := if e = 2 then (List.range 4).findSome? fun q => let x := (s.movq_ t q).stop; if x.valid then some x.code else none else none
  let s := s.setEng t e { g with st := if stop.isSome then .stopped else .run, code := stop.getD 0, bank := g.bank != g.arm, arm := false, loops := [], pc := pc.setWidth 14, startPc := pc.setWidth 14,
                                 ending := false, fence := none, waitUnit := false, waits := [], waited := none,
                                 skipBreak := false, stepping := false }
  s.trace t 0x10 e.toNat pc.toNat 0

/-- R111: the outcomes of a start, where nothing holds it. -/
def State.startNow (s : State) (t : TileId) (e : EngId) (pc : BitVec 13) : State :=
  let g := s.engAt t e
  match g.st with
  | .idle => s.beginProgram t e pc
  | .run => if g.pending.isNone then s.setEng t e { g with pending := some pc } else s.setEng t e { g with startRefused := true }
  | .wait => if g.pending.isNone then s.setEng t e { g with pending := some pc } else s.setEng t e { g with startRefused := true }
  | _ => s.setEng t e { g with startRefused := true }

/-- R215, R259, R392, R403: a start waits for QUARANTINE, a realignment, a partition reset or its domain. -/
def State.startOp (s : State) (t : TileId) (e : EngId) (pc : BitVec 13) : State :=
  let tl := s.tileAt t
  let g := s.engAt t e
  if !s.runs t then 
    let h : State := { s with heldWrites := s.heldWrites ++ [HeldWrite.start t e pc] }
    h.askWake (domTile t)
  else if tl.quar.isSome ∨ tl.realign ≠ 0 then s.setEng t e { g with held := g.held ++ [pc] }
  else s.startNow t e pc

/-- R215, R259: starts held at a tile take effect in order. -/
def State.releaseStarts (s : State) (t : TileId) : State :=
  if (s.tileAt t).quar.isSome ∨ (s.tileAt t).realign ≠ 0 then s else
  each s engines fun s e =>
    let l := (s.engAt t e).held
    each (s.setEng t e { s.engAt t e with held := [] }) l fun s pc => s.startNow t e pc

/-- R113: may the engine go to IDLE: SC.END has issued, and everything it issued has completed? -/
def State.canEnd (s : State) (t : TileId) (e : EngId) : Bool :=
  let g := s.engAt t e
  g.ending && (decide (g.st = .run) || decide (g.st = .wait)) && (s.oldest t e).isNone && g.pend.isEmpty

/-- PROGRAM_END (R113): the loop unit keeps what it holds until the next start clears it. -/
def State.programEnd (s : State) (t : TileId) (e : EngId) : State :=
  if !s.canEnd t e then s else
  let g := s.engAt t e
  let s := s.trace t 0x10 e.toNat g.startPc.toNat 1
  let s := s.setEng t e { g with st := .idle, ending := false, pending := none, fence := none }
  let s := if bit (s.tr t (0x40 * e.toNat + 0x0C)) 3 then s.raiseTile t 16 else s
  match g.pending with
  | none => s.closeWindow t
  | some pc => if (s.tileAt t).quar.isSome ∨ (s.tileAt t).realign ≠ 0 then s.setEng t e { s.engAt t e with held := [pc] }
               else s.beginProgram t e pc

/-! ## Posts and signals that wait for operations (R141 to R143) -/

/-- The first pending post or signal of an engine that `p` chooses. -/
def firstPend (p : PendKind → Bool) : List Pend → Option (Pend × List Pend)
  | [] => none
  | x :: l => if p x.kind then some (x, l) else (firstPend p l).map fun y => (y.1, x :: y.2)

/-- POST_TAKES_EFFECT: the oldest pending SEM.POST or SEM.RPOST whose operations have completed takes effect, or sets out. -/
def State.postNow (s : State) (t : TileId) (e : EngId) : State :=
  let g := s.engAt t e
  match firstPend (fun k => match k with | .post _ _ => true | .rpost _ _ _ => true | _ => false) g.pend with
  | none => s
  | some (x, l) =>
    if !s.doneBelow t e x.seq then s else
    let s := s.setEng t e { g with pend := l }
    match x.kind with
    | .post n k => (s.post t n k.toNat (posterCode 1 e.toNat) t e).settle t
    | .rpost d n k =>
      (s.sendPost t d { sem := n, n := k.toNat, src := t, eng := e }).settle t
    | _ => s

/-- REMOTE_POST_ARRIVAL: the oldest post that has reached the tile takes effect. -/
def State.rpostArrive (s : State) (t : TileId) : State :=
  let tl := s.tileAt t
  match tl.rposts with
  | [] => s
  | x :: l => (s.setTile t { tl with rposts := l }).post t x.sem x.n (posterCode 2 x.src.toNat) x.src x.eng

/-- ENGINE_SIGNAL_SEND: the oldest pending EVT.SIG or TL.SIG whose operations' writes are visible is sent; one whose handle
no longer resolves then is lost (R340). -/
def State.signalNow (s : State) (t : TileId) (e : EngId) : State :=
  let g := s.engAt t e
  match firstPend (fun k => match k with | .evt _ => true | .tl _ _ => true | _ => false) g.pend with
  | none => s
  | some (x, l) =>
    if !s.doneBelow t e x.seq then s else
    let s := s.setEng t e { g with pend := l }
    match s.partOf t with
    | none => s
    | some p =>
      match x.kind with
      | .evt h => ((s.trace t 0x02 e.toNat g.pc.toNat h.toNat).signal p false h 0 false).settle t
      | .tl h v =>
        let s := s.trace t 0x02 e.toNat g.pc.toNat (h.toNat + v.toNat % 2 ^ 32 * 2 ^ 32)
        match s.objResolve p (s.ctxOf t) h [3] (s.launchSeq p t) with
        | .ok o => (if o.remote then s.sendSignal t p o v else s.signal p true h v false).settle t
        | .error _ => s.settle t
      | _ => s

end Sys2Proof.Machine
end

