-- ==== Sys2Proof/Machine/Load.lean ====
section
/-!
DEFINITION. What the loader checks of a program before any of it runs (R36, R120, R125, R129, R131, R264): its words, its
branches and loops wherever its addresses fix them, and the sets, chains, lines and spans its instructions name, at the offsets that
its constant loop counts give (log 34, DESIGN CHOICE).
-/
namespace Sys2Proof.Machine

/-- The state with a program's halfwords in bank 0 of an engine, to be read by the fetch of R118. -/
def State.withCode (s : State) (t : TileId) (e : EngId) (hw : List W16) : State :=
  let s := s.putImem t e false 0 hw
  s.setEng t e { bank := false }

/-- A word of a program: address, halfwords, slots. -/
structure PWord where
  at_ : Nat
  len : Nat
  ops : List SlotOp

/-- The words of a program of `n` halfwords from address `q` on; none where one is not legal or passes its end. `fuel` bounds
their number. -/
def State.progWords (s : State) (t : TileId) (e : EngId) (n : Nat) : Nat → Nat → Option (List PWord)
  | 0, q => if n ≤ q then some [] else none
  | fuel + 1, q =>
    if n ≤ q then some [] else
    match (s.setEng t e { bank := false, pc := BitVec.ofNat 14 q }).fetchWord t e with
    | none => none
    | some (w, ops) =>
      if n < q + w ∨ !wordOk ops then none
      else (s.progWords t e n fuel (q + w)).map fun l => { at_ := q, len := w, ops := ops } :: l

/-- R129: the loops of a program: LP.BEGIN's address, first and last address of the body. -/
def loopsOf (ws : List PWord) : List (Nat × Nat × Nat) :=
  ws.flatMap fun w => w.ops.filterMap fun o => o.body.map fun b => (w.at_, w.at_ + w.len, w.at_ + b)

/-- R125: the branches of a program: address and target. -/
def branchesOf (ws : List PWord) : List (Nat × Int) :=
  ws.flatMap fun w => w.ops.filterMap fun o => o.jump.map fun j => (w.at_, (w.at_ : Int) + j)

/-- R125, R129, R131: branches and loops of a program. -/
def flowOk (ws : List PWord) : Bool :=
  let ls := loopsOf ws
  let starts := ws.map fun w => w.at_
  let inside := fun (q : Nat) => ls.filter fun l => decide (l.2.1 ≤ q) && decide (q ≤ l.2.2)
  (ls.all fun l =>
    decide (l.2.1 ≤ l.2.2) && starts.contains l.2.2
      && (ws.all fun w => decide (w.at_ ≠ l.2.2) || w.ops.all fun o => !o.noLast)
      && decide ((inside l.1).length < 4) && (inside l.1).all fun m => decide (l.2.2 ≤ m.2.2))
  && (branchesOf ws).all fun b =>
    (starts.any fun q => decide ((q : Int) = b.2))
      -- the innermost body that holds the branch is the one that begins last
      && (inside b.1).all fun l => ((inside b.1).any fun m => decide (l.2.1 < m.2.1)) || (decide ((l.2.1 : Int) ≤ b.2) && decide (b.2 ≤ l.2.2))

/-! ## Generator offsets (R264) -/

/-- Stretches of a program that may run again: loop bodies, and what a branch backwards leads over. -/
def againOf (ws : List PWord) : List (Nat × Nat) :=
  (loopsOf ws).map (·.2) ++ (branchesOf ws).filterMap fun b => if b.2 ≤ b.1 then some (b.2.toNat, b.1) else none

/-- Which of a program's slots that `w` holds of has last taken effect whenever address `q` is reached: none where that depends on the way there;
`some none` where none has. -/
def reaching (ws : List PWord) (w : SlotOp → Bool) (q : Nat) : Option (Option (Nat × SlotOp)) :=
  let l := ws.flatMap fun x => (x.ops.filter w).map fun o => (x.at_, o)
  let last := (l.filter fun x => decide (x.1 < q)).getLast?
  let from_ := match last with | none => 0 | some x => x.1 + 1
  let carried := (againOf ws).any fun g => decide (g.1 ≤ q) && decide (q ≤ g.2) && decide (from_ ≤ g.1) && l.any fun x => decide (q ≤ x.1) && decide (x.1 ≤ g.2)
  let passed := last.any fun x => (loopsOf ws).any (fun g => decide (g.2.1 ≤ x.1) && decide (x.1 ≤ g.2.2) && decide (g.2.2 < q))
    || (branchesOf ws).any fun b => decide (b.1 < x.1) && decide ((x.1 : Int) < b.2) && decide (b.2 ≤ (q : Int))
  if carried || passed then none else some last

/-- R264: the constant that a scalar register holds at address `q`: what the one instruction that has last written it there makes of constants. -/
def constAt (ws : List PWord) : Nat → Nat → Nat → Option W32
  | 0, _, _ => none
  | fuel + 1, r, q =>
    if r = 0 then some 0 else
    match reaching ws (fun o => o.writes.contains r) q with
    | some (some (p, o)) => o.value fun x => constAt ws fuel x p
    | _ => none

/-- The loops of a program whose bodies hold `q`, outermost first: first and last address, and the indices at which a generator's offset may be
largest: the first, and the last where the count is constant. -/
def loopsAt (ws : List PWord) (q : Nat) : List (Nat × Nat × List Nat) :=
  ws.flatMap fun w => w.ops.filterMap fun o => o.body.bind fun b =>
    if w.at_ + w.len ≤ q ∧ q ≤ w.at_ + b then
      some (w.at_ + w.len, w.at_ + b, match constAt ws (ws.length + 1) o.cnt w.at_ with
        | some n => if n.toNat ≤ 1 ∨ 1048575 < n.toNat then [0] else [0, n.toNat - 1]
        | none => [0])
    else none

/-- Every choice of one index for each loop. -/
def corners : List (Nat × Nat × List Nat) → List (List Loop)
  | [] => [[]]
  | (a, b, l) :: r => l.flatMap fun i => (corners r).map fun x =>
      ({ first := BitVec.ofNat 14 a, last := BitVec.ofNat 14 b, remaining := 1, index := BitVec.ofNat 20 i } : Loop) :: x

/-- R134: does a slot set word `w` of channel `c` of generator `g`? -/
def SlotOp.sets (g c w : Nat) (o : SlotOp) : Bool := o.gset.any fun x => decide (x.1 = g) && decide (x.2.1 = c) && decide (x.2.2.1 = w)

/-- R134, R264: what word `w` of channel `c` of generator `g` may hold at address `q`, beside the image's word; none where a value is not constant. -/
def agWord (ws : List PWord) (g c w q : Nat) : Option (List (Option W32)) :=
  let val := fun (x : Nat × SlotOp) => x.2.gset.bind fun y => constAt ws (ws.length + 1) y.2.2.2 x.1
  match reaching ws (SlotOp.sets g c w) q with
  | some none => some [none]
  | some (some x) => (val x).map fun v => [some v]
  | none =>
    let l := (ws.flatMap fun x => (x.ops.filter (SlotOp.sets g c w)).map fun o => val (x.at_, o)).eraseDups
    if l.any (·.isNone) then none else some (none :: l)

/-- The states in which an instruction at `q` that names generator `g` meets the checks: one for each choice of the words that the program sets. A
channel of which some word is not constant counts as offset 0. -/
def State.agStates (s : State) (t : TileId) (e : EngId) (ws : List PWord) (g q : Nat) : List State :=
  if g = 0 then [s] else
  (List.range 4).foldl (fun l c =>
    let words := (List.range 5).map fun w => agWord ws g c w q
    if words.any (·.isNone) then l.map fun s => each s (List.range 5) fun s w => s.agSetOp t e g c w 0
    else words.zipIdx.foldl (fun l y => l.flatMap fun (s : State) => (y.1.getD []).map fun v => match v with
      | none => s
      | some x => s.agSetOp t e g c y.2 x) l) [s]

/-- R264: an instruction's checks pass at every corner of its loops, with the generator's words as the image and the program's constants give them. -/
def State.loadAt (s : State) (t : TileId) (e : EngId) (ws : List PWord) (q : Nat) (o : SlotOp) : Bool :=
  (s.agStates t e ws o.ag q).all fun s =>
    (corners (loopsAt ws q)).all fun l => o.load (s.setEng t e { s.engAt t e with loops := l })

/-- R264: a program is fit to run at a tile, whose registers the state holds. -/
def State.progOk (s : State) (t : TileId) (e : EngId) (hw : List W16) : Bool :=
  decide (hw.length ≤ 8192) &&
  match (s.withCode t e hw).progWords t e hw.length 8192 0 with
  | none => false
  | some ws => flowOk ws && ws.all fun w => w.ops.all fun o => s.loadAt t e ws w.at_ o

/-- R265, Table 10-4: a shape entry is well formed: reserved bits 0, its word in the argument block, its maximum in range. -/
def shapeOk (lo hi : W32) : Bool := decide (fld lo 31 13 = 0) && decide (fld lo 11 0 < 1024) && decide (hi ≠ 0) && !hi.msb

end Sys2Proof.Machine
end

