-- ==== Sys2Proof/Machine/ImgHead.lean ====
section
/-!
DEFINITION. The bytes of an image (R376 to R378, Table 15-1): the fields of its header, its tag table and segments, and the keys that its
segments are encrypted under.
-/
namespace Sys2Proof.Machine

/-- R9: `n` bytes at byte `o` of the header. -/
def hdrField (m : Image) (o n : Nat) : Nat := leNat ((m.header.drop o).take n)
def imgMagic (m : Image) : W32 := BitVec.ofNat 32 (hdrField m 0x000 4)
def imgHrev (m : Image) : Nat := hdrField m 0x004 1
def imgArch (m : Image) : Nat := hdrField m 0x005 1
def imgDevid (m : Image) : BitVec 16 := BitVec.ofNat 16 (hdrField m 0x006 2)
def imgLen (m : Image) : Nat := hdrField m 0x008 8
def imgNseg (m : Image) : Nat := hdrField m 0x010 4
def imgSvn (m : Image) : BitVec 6 := BitVec.ofNat 6 (hdrField m 0x014 1)
def imgKslot (m : Image) : BitVec 2 := BitVec.ofNat 2 (hdrField m 0x015 1)
def imgDebug (m : Image) : Bool := (hdrField m 0x016 1).testBit 0
def imgFleet (m : Image) : W32 := BitVec.ofNat 32 (hdrField m 0x018 4)
def imgStage (m : Image) : Nat := hdrField m 0x020 8
def imgNonce (m : Image) : List Byte := (m.header.drop 0x028).take 16
def imgTagHash (m : Image) : BitVec 384 := BitVec.ofNat 384 (hdrField m 0x080 48)
def imgOkey (m : Image) : List Byte := (m.header.drop 0x100).take 96
def imgSig (m : Image) : List Byte := (m.header.drop 0x160).take 96

/-- R376: the bytes that Table 15-1 does not list, from and to. -/
def hdrGaps : List (Nat × Nat) := [(0x01C, 0x020), (0x038, 0x080), (0x0B0, 0x100), (0x1C0, 0x1000)]
/-- R19, R376: every reserved bit of the header is 0. -/
def hdrClean (m : Image) : Bool :=
  hdrGaps.all (fun g => ((m.header.drop g.1).take (g.2 - g.1)).all (· == 0))
    && decide (hdrField m 0x014 1 < 64) && decide (hdrField m 0x015 1 < 4) && decide (hdrField m 0x016 2 < 2)

/-- R377: bytes of the tag table of `nseg` segments. -/
def tableLen (nseg : Nat) : Nat := (16 * nseg + 4095) / 4096 * 4096
/-- R377: the length that a segment count gives. -/
def imageLength (nseg : Nat) : Nat := 4096 + tableLen nseg + 65536 * nseg
/-- R377: where a segment starts in the image. -/
def segAt (m : Image) (k : Nat) : Nat := 4096 + tableLen (imgNseg m) + 65536 * k
/-- R377: the stored GCM tag of a segment. -/
def segTag (m : Image) (k : Nat) : List Byte := (m.table.drop (16 * k)).take 16
/-- R377: the plaintext of a segment; the last is padded with zeros. -/
def segPlain (m : Image) (k : Nat) : List Byte := ((m.body.drop (65536 * k)).take 65536 ++ List.replicate 65536 0).take 65536

/-- The bytes of the letters of a label. -/
def ascii (l : List Nat) : List Byte := l.map (BitVec.ofNat 8)
/-- R378: K_s, under the owner image key: label "CALSIL-SEG", context the nonce and the segment's number. -/
def segKey (kown : BitVec 256) (m : Image) (k : Nat) : BitVec 256 :=
  (Config.kdf (kown.setWidth 384) (ascii [67, 65, 76, 83, 73, 76, 45, 83, 69, 71] ++ imgNonce m ++ natLe 4 k)).setWidth 256
/-- R378: the IV. -/
def segIv (k : Nat) : BitVec 96 := BitVec.ofNat 96 k
/-- R378: ciphertext and tag of a segment. -/
def segSealed (kown : BitVec 256) (m : Image) (k : Nat) : List Byte × BitVec 128 := Config.gcm (segKey kown m k) (segIv k) [] (segPlain m k)
/-- R382 step 3: a segment whose ciphertext and tag are those that its plaintext is sealed to. -/
def segOk (kown : BitVec 256) (m : Image) (k : Nat) : Bool :=
  decide (m.segs.getD k [] = (segSealed kown m k).1) && decide (segTag m k = natLe 16 (segSealed kown m k).2.toNat)

/-! ## The body (R379, Table 15-2) -/

/-- The 32 bytes of entry `i` of the section table. -/
def entryBytes (m : Image) (i : Nat) : List Byte := (m.body.drop (0x40 + 32 * i)).take 32
/-- R9: `n` bytes at byte `o` of an entry. -/
def entryField (m : Image) (i o n : Nat) : Nat := leNat (((entryBytes m i).drop o).take n)
/-- The bytes of a section in the body. -/
def sectionAt (m : Image) (i : Nat) : List Byte := (m.body.drop (entryField m i 0x10 8)).take (entryField m i 0x18 4)
/-- REGS: pairs of an offset and a value, each a word. (log 51, DEDUCED) -/
def pairBytes (l : List (W32 × W32)) : List Byte := l.flatMap fun x => natLe 4 x.1.toNat ++ natLe 4 x.2.toNat
/-- PLAN: the bytes 0x04 and 0x10 to 0x4F of Table 13-5, at those places; an unused entry is 0. -/
def planBytes (a : BitVec 12) (l : List Shape) : List Byte :=
  natLe 4 a.toNat ++ ((List.range 8).flatMap fun k => match l[k]? with
    | none => natLe 8 0
    | some x => natLe 8 (x.word.toNat + nat01 x.gating * 4096 + x.max.toNat * 2 ^ 32))

/-- Table 15-2: entry `i` is the section's: type, partition, engine, rectangle, destination and bytes; the parameters of a PART section have no layout. -/
def entryIs (m : Image) (i : Nat) (x : Section) : Bool :=
  let w := entryField m i 0 4; let r := entryField m i 4 4; let b := sectionAt m i
  let ty := fun (n : Nat) => decide (w % 256 = n)
  let of_ := fun (p : PartId) => decide (bits w 13 8 = p.toNat)
  let eng := fun (e : EngId) => decide (bits w 17 16 = e.toNat)
  let rect := fun (y : TileRect) => decide (r % 2 ^ 24 = y.x0.toNat + y.y0.toNat * 2 ^ 6 + y.wM1.toNat * 2 ^ 12 + y.hM1.toNat * 2 ^ 18)
  let dst := fun (n : Nat) => decide (entryField m i 8 8 = n)
  decide (entryField m i 0x10 8 + entryField m i 0x18 4 ≤ m.body.length) && (match x with
    | .part p _ => ty 1 && of_ p
    | .regsDevice l => ty 2 && decide (b = pairBytes l)
    | .regsPart p l => ty 2 && of_ p && decide (b = pairBytes l)
    | .regsColony p y l => ty 2 && of_ p && rect y && decide (b = pairBytes l)
    | .regsTile p y l => ty 2 && of_ p && rect y && decide (b = pairBytes l)
    | .imem p e y d l => ty 3 && of_ p && eng e && rect y && dst d && decide (b = l)
    | .spad p y d l => ty 4 && of_ p && rect y && dst d && decide (b = l)
    | .core p y d l => ty 5 && of_ p && rect y && dst d && decide (b = l)
    | .headfw d l => ty 6 && dst d && decide (b = l)
    | .hbm p d l => ty 7 && of_ p && dst d && decide (b = l)
    | .plan p e y a l => ty 8 && of_ p && eng e && rect y
        && decide ((b.drop 4).take 4 ++ (b.drop 0x10).take 64 = planBytes a l)
    | .ident p d l => ty 9 && of_ p && dst d && decide (b = l))
/-- R379: the body's section count and section table say what `sections` spells out. -/
def bodySays (m : Image) : Bool :=
  decide (leNat (m.body.take 4) = m.sections.length) && m.sections.zipIdx.all fun x => entryIs m x.2 x.1

/-! ## Device identity (R374) -/

/-- R374: measurement 3, the hash of header bytes 0x000 to 0x1BF. -/
def hdrHash (m : Image) : BitVec 384 := Config.sha384 (m.header.take 0x1C0)
/-- R374: the private key of the DeviceID pair, of the UDS and the ROM hash. -/
def deviceKey (uds : BitVec 256) : BitVec 384 := Config.kdf (uds.setWidth 384) (natLe 48 Config.romHash.toNat)
/-- R374: the CDI, of the UDS, the ROM hash, the header hash and the tag-table hash. -/
def cdiOf (uds : BitVec 256) (m : Image) : BitVec 384 :=
  Config.kdf (uds.setWidth 384) (natLe 48 Config.romHash.toNat ++ natLe 48 (hdrHash m).toNat ++ natLe 48 (imgTagHash m).toNat)
/-- R374: the private key of the Alias pair, of the CDI. -/
def aliasKey (cdi : BitVec 384) : BitVec 384 := Config.kdf cdi []

end Sys2Proof.Machine
end

