-- ==== Sys2Proof/Machine/Access.lean ====
section
/-!
DEFINITION. Who reaches which register, and when an access to a tile or colony block is answered (R351, R352, R446, R458,
R472 to R478), and the writes that a sleeping domain holds (R403).
-/
namespace Sys2Proof.Machine

/-- R387: the debug lock or the loaded image admits debug access. -/
def State.debugOk (s : State) : Bool :=
  !s.chitin.fuses.debugLock || (s.chitin.loadPassed && s.chitin.image.any imgDebug)

/-- R437: did the colony pass its self-test at this start? -/
def State.colAvail (s : State) (c : ColId) : Bool := bit (s.reg (0x40 + 4 * (c.toNat / 32))) (c.toNat % 32)

/-- R474: the colony stands in a partition and is available. -/
def State.colUp (s : State) (c : ColId) : Bool := (s.partOfCol c).isSome && s.colAvail c

/-- R474: accesses to the colony's blocks are answered: its domain is in RUN, IDLE or NAP. -/
def State.colAnswers (s : State) (c : ColId) : Bool := s.colUp c && decide ((s.domAt (1 + tdomOfCol c)).st.toNat ≤ 2)

/-- R474 for a tile block. -/
def State.tileAnswers (s : State) (t : TileId) : Bool := s.colAnswers (colonyOf t)

/-- The writers that a tile register names: none; the tile's colony core, chitin and the physical function; chitin. -/
inductive Lim | open_ | launch | chitin
  deriving DecidableEq, Repr

/-- R352: colonies `c` and `d` stand in one partition. -/
def State.samePart (s : State) (c d : ColId) : Bool :=
  decide (c = d) || ((s.partOfCol c).isSome && decide (s.partOfCol c = s.partOfCol d))

/-- R352, R458, R472, R478: may the requester write a tile register with these writers? -/
def State.tileWriter (s : State) (r : Req) (t : TileId) (l : Lim) : Bool :=
  match r, l with
  | .vf _, _ => false
  | .chitin, _ => true
  | _, .chitin => false
  | .pf, _ => true
  | .tap, _ => s.debugOk
  | .head _, .open_ => true
  | .head _, .launch => false
  | .core c, .open_ => s.samePart c (colonyOf t)
  | .core c, .launch => decide (c = colonyOf t)

/-- A write of a tile register takes effect: the requester may write it, and the tile block answers. -/
def State.tileReq (s : State) (r : Req) (t : TileId) (l : Lim) : Bool := s.tileWriter r t l && s.tileAnswers t

/-- R446: may the requester write an observation register of a tile? `any`: not DBG_TCTL, DBG_TID, DBG_TID_TAG, DBG_TIDV. -/
def State.obsReq (s : State) (r : Req) (t : TileId) (any : Bool) : Bool :=
  s.tileAnswers t && (match r with
    | .vf _ => false
    | .chitin => true
    | .pf => true
    | .tap => s.debugOk
    | .head _ => any
    | .core c => if any then s.samePart c (colonyOf t) else decide (c = colonyOf t))

/-- R472, R44, R298: may the requester reach a partition window? -/
def State.partReq (s : State) (r : Req) (p : PartId) : Bool :=
  match r with
  | .vf q => decide (q = p)
  | .core c => decide (s.partOfCol c = some p)
  | .head _ => true
  | .chitin => true
  | .pf => true
  | .tap => s.debugOk

/-- R297, R299: only the physical function (and the TAP as it) reaches the block. -/
def State.pfReq (s : State) (r : Req) : Bool :=
  match r with
  | .pf => true
  | .tap => s.debugOk
  | _ => false

/-- R446, Table 18-4: the DBG block: head cores, the physical function, the TAP; R436: chitin. -/
def State.dbgReq (s : State) (r : Req) : Bool :=
  match r with
  | .pf => true
  | .head _ => true
  | .chitin => true
  | .tap => s.debugOk
  | _ => false

/-- R311: the FAB block: the physical function and the head cores. -/
def State.fabReq (s : State) (r : Req) : Bool :=
  match r with
  | .pf => true
  | .head _ => true
  | .tap => s.debugOk
  | _ => false

/-- R371: writers of a core's interrupt controller. -/
def State.intReq (s : State) (r : Req) (c : CoreId) : Bool :=
  (match r with
    | .vf _ => false
    | .core d => decide (c.val = d.toNat)
    | .tap => s.debugOk
    | _ => true)
  && (decide (256 ≤ c.val) || s.colAnswers (BitVec.ofNat 8 c.val))

/-- R403: a write that a domain below RUN holds, and that wakes it. (log 87, DEDUCED) -/
def State.holdWrite (s : State) (t : TileId) (h : HeldWrite) : State :=
  let s : State := { s with heldWrites := s.heldWrites ++ [h] }
  s.askWake (domTile t)

/-! ## Traps of a core, and accesses that it cannot make (R352, R362) -/

/-- R400, R401, R403: the core executes: it is out of reset, not halted, and its domain is in RUN (below RUN it waits in WFI). -/
def State.coreRuns (s : State) (c : CoreId) : Bool :=
  let k := s.coreAt c
  !k.inReset && !k.halted &&
    (if c.val < 256 then decide ((s.domAt (1 + tdomOfCol (BitVec.ofNat 8 c.val))).st = 0) else decide ((s.domAt (96 + (c.val - 256))).st = 0))

/-- A core that executes an instruction waits in WFI no more. -/
def State.awake (s : State) (c : CoreId) : State := s.setCore c { s.coreAt c with wfi := false }

/-- Standard RISC-V trap entry in M-mode, but for where the pc goes. -/
def State.trapEntry (s : State) (c : CoreId) (cause mtval pc : W32) : State :=
  let k := s.coreAt c
  let m := s.csr c 0x300
  let m := setFld (setFld (setFld m 7 7 (fld m 3 3)) 3 3 0) 12 11 k.priv.toNat
  ((((s.setCsr c 0x300 m).setCsr c 0x341 (pc &&& 0xFFFFFFFE)).setCsr c 0x342 cause).setCsr c 0x343 mtval).setCore c { k with priv := 3, wfi := false }

/-- An exception goes to mtvec (R362). -/
def State.excTrap (s : State) (c : CoreId) (cause mtval pc : W32) : State :=
  let s := s.trapEntry c cause mtval pc
  s.setCore c { s.coreAt c with pc := s.csr c 0x305 &&& 0xFFFFFFFC }

/-- R352, R446: register addresses that a colony core reaches. -/
def State.colReach (s : State) (c : ColId) (a : Nat) : Bool :=
  (decide (colBase c ≤ a) && decide (a < colBase c + 0x40000)) || (match locate a with
    | some (.feat, o) => decide (o < 0x2C) || (decide (0x40 ≤ o) && decide (o < 0x60))
    | some (.tile t, _) | some (.obs t, _) => s.samePart c (colonyOf t)
    | some (.part p, _) => decide (s.partOfCol c = some p)
    | _ => false)

/-- mtval at an access fault: the standard lets it be the address or 0 (log 42, PRESUMED). -/
def State.mtvalFree (s : State) (a : W32) : W32 := if s.draw 0 % 2 = 0 then 0 else a

/-- The core that a requester is. -/
def reqCore : Req → Option CoreId
  | .core c => some (coreOfCol c)
  | .head d => some (headCore d.toNat)
  | _ => none

/-- R297, R299: the blocks of the Vulor ports and the canal spines, which only the physical function reaches. -/
def vulBlocks (a : Nat) : Bool :=
  decide (0x05000000 ≤ a) && decide (a < 0x05120000) && !(decide (0x05060000 ≤ a) && decide (a < 0x050E0000))

/-- R352: the core reaches the register address; R297 and R299 keep their blocks from every core. (log 83, DEDUCED) -/
def State.coreSees (s : State) (c : CoreId) (a : Nat) : Bool :=
  if c.val < 256 then s.colReach (BitVec.ofNat 8 c.val) a else decide (a < 0x07000000) && !(decide (chiBase ≤ a) && decide (a < 0x01000000)) && !vulBlocks a

/-- R350: configuration byte of a PMP region. -/
def State.pmpCfg (s : State) (c : CoreId) (i : Nat) : Nat := fld (s.csr c (0x3A0 + i / 4)) (8 * (i % 4) + 7) (8 * (i % 4))
/-- R350: the bytes of a PMP region, from the first to below the last, with the standard's four-byte grain (log 42, PRESUMED). -/
def State.pmpRange (s : State) (c : CoreId) (i : Nat) : Nat × Nat :=
  let p := (s.csr c (0x3B0 + i)).toNat
  match s.pmpCfg c i / 8 % 4 with
  | 0 => (0, 0)
  | 1 => (if i = 0 then 0 else 4 * (s.csr c (0x3B0 + i - 1)).toNat, 4 * p)
  | 2 => (4 * p, 4 * p + 4)
  | _ =>
    let n := 2 ^ (((List.range 32).takeWhile fun j => p.testBit j).length + 1)
    (4 * (p / n * n), 4 * (p / n * n) + 4 * n)
/-- The mode in which an access is checked: MPRV turns loads and stores to the mode of MPP. -/
def State.accMode (s : State) (c : CoreId) (fetch : Bool) : Nat :=
  let m := s.csr c 0x300
  if !fetch ∧ bit m 17 then fld m 12 11 else (s.coreAt c).priv.toNat
/-- R350: PMP permits the access, as the standard has it: the lowest region that meets the access decides, and holds all of it; `need`: 1 read,
2 write, 4 execute. -/
def State.pmpOk (s : State) (c : CoreId) (mode need a n : Nat) : Bool :=
  match (List.range 8).find? fun i => let x := s.pmpRange c i; decide (x.1 < x.2) && decide (a < x.2) && decide (x.1 < a + n) with
  | none => decide (mode = 3)
  | some i =>
    let x := s.pmpRange c i; let g := s.pmpCfg c i
    decide (x.1 ≤ a) && decide (a + n ≤ x.2) && ((decide (mode = 3) && !g.testBit 7) || decide (g &&& need = need))
/-- R350: PMP permits a core's access of a register address; a command that names no address of its own stands for an access that it permits. -/
def State.pmpReg (s : State) (r : Req) (need a : Nat) : Bool :=
  match reqCore r with
  | none => true
  | some c => s.pmpOk c (s.accMode c false) need (0x80000000 + a) 4

/-- The pc of an instruction whose command does not carry it (log 95, DESIGN CHOICE). -/
def State.pcFree (s : State) : W32 := BitVec.ofNat 32 (s.draw 1)

/-- R352: an access that a requester may not make has no effect; a core's access of a register address that it does not reach, or
that PMP denies, raises an access fault (log 129). -/
def State.turnedAway (s : State) (r : Req) (cause : W32) (a : Nat) : State :=
  match reqCore r with
  | none => s
  | some c =>
    if !s.coreRuns c ∨ (s.coreSees c a ∧ s.pmpReg r (if cause = 5 then 1 else 2) a) then s
    else (s.excTrap c cause (s.mtvalFree (BitVec.ofNat 32 (0x80000000 + a))) s.pcFree).drawn

/-- A write of the register address `a` by a requester that may make it. -/
def State.via (s : State) (r : Req) (a : Nat) (ok : Bool) (f : State → State) : State := if ok then f s else s.turnedAway r 7 a

/-- A write of a partition window by a requester that reaches it. -/
def State.onPart (s : State) (r : Req) (p : PartId) (f : State → State) : State := s.via r (partBase p) (s.partReq r p) f

/-- A read of a partition window by a requester that reaches it. -/
def State.onPartRead (s : State) (r : Req) (p : PartId) (f : State → State) : State :=
  if s.partReq r p then f s else s.turnedAway r 5 (partBase p)

/-- R371: a write of a controller by a requester that may make it. -/
def State.onInt (s : State) (r : Req) (c : CoreId) (f : State → State) : State := s.via r (intBase c) (s.intReq r c) f

/-- A write of a tile register by a requester that may make it. -/
def State.onTile (s : State) (r : Req) (t : TileId) (l : Lim) (f : State → State) : State := s.via r (tileBase t) (s.tileReq r t l) f

/-- R474, R403: the same for a write that R403 names: below RUN it is held. -/
def State.onTileWake (s : State) (r : Req) (t : TileId) (l : Lim) (h : HeldWrite) (f : State → State) : State :=
  s.via r (tileBase t) (s.tileWriter r t l && s.colUp (colonyOf t)) fun s => if s.runs t then f s else s.holdWrite t h

end Sys2Proof.Machine
end

