-- ==== Sys2Proof/Machine/Matrix.lean ====
section
/-!
DEFINITION. The matrix engine's commands: its slots, the start and completion of problems and drains under the accumulator
interlock (R154 to R165, R172), and the fabric extension of the flume (R169, R170, R304 to R309).
-/
namespace Sys2Proof.Machine

/-- What a meaning answers. -/
abbrev Ans := Host.Outcome State Fault Refusal

/-! ## Faults at a start (R172) -/

/-- R172, R145: an instruction stops at its start or in its chain, by `f`: it and those queued behind it, in both queues, are
discarded, and `f` faults the engine. An engine that a kill has made IDLE stays so (R114). -/
def State.mxeStop (s : State) (t : TileId) (seq : Nat) (f : State → State) : State :=
  let tl := s.tileAt t
  let s := s.setTile t { tl with
    mxq := tl.mxq.filter fun o => decide (o.seq ≠ seq) && (o.running || decide (o.seq < seq))
    drq := tl.drq.filter fun o => decide (o.seq ≠ seq) && (o.running || decide (o.seq < seq))
    extSent := tl.extSent.filter fun x => decide (x.2.1 ≠ seq) }
  let s := s.sumFlush t
  (if (s.engAt t 0).st = .idle then s else f s).settle t

/-- R172, R145: the fault with its code. -/
def State.mxeFault (s : State) (t : TileId) (seq : Nat) (pc : BitVec 14) (code : Nat) : State :=
  s.mxeStop t seq fun s => s.faultAtPc t 0 pc code

/-- R424: the first poisoned line of a mask of `n` rows from a line. -/
def State.maskPoison (s : State) (t : TileId) (msk : Bool) (line : Int) (n : Nat) : Option Nat :=
  if msk then ((List.range ((n + 511) / 512)).map (line.toNat + ·)).find? fun l => s.spadP t l else none

/-- R424: an instruction whose mask is poisoned does not start: the engine stops at its word. (log 135, DEDUCED) -/
def State.mxePoison (s : State) (t : TileId) (seq : Nat) (pc : BitVec 14) (line : Nat) : State :=
  s.mxeStop t seq fun s => s.poisonAtPc t 0 pc .spad 3 (64 * line)

/-! ## Problems -/

/-- A drain with the values of its set as they stand now (R162). -/
def DrOp.latch (o : DrOp) (s : State) (t : TileId) : DrOp :=
  let a := 0x1080 + 16 * o.f.dset.toNat
  let sh := s.tr t a
  { o with shape := sh, aux := s.tr t (a + 4), sws := s.tr t (a + 8), chain := s.chainOf t o.f.chain.toNat }

/-- R158: an earlier DR.WRITE that has not read its entries holds the problem. -/
def State.mxHold (s : State) (t : TileId) (o : MxOp) : Bool :=
  (s.tileAt t).drq.any fun d => decide (d.seq < o.seq) && !d.running && overlap (d.latch s t).span o.span

/-- R158: an earlier MX.PROB that has not completed holds the drain. -/
def State.drHold (s : State) (t : TileId) (d : DrOp) : Bool :=
  (s.tileAt t).mxq.any fun o => decide (o.seq < d.seq) && overlap o.span (d.latch s t).span

/-- MX_PROB_START: the next queued problem starts. -/
def State.mxStart (s : State) (t : TileId) : State :=
  let tl := s.tileAt t
  match tl.mxq.find? fun o => !o.running with
  | none => s
  | some o =>
    if !s.runs t ∨ s.mxHold t o then s
    else if o.startFault ≠ 0 then s.mxeFault t o.seq o.pc o.startFault
    else match (s.racy t .other).maskPoison t o.f.msk (o.f.a.toNat + sx 16 (fld o.setMsk 15 0)) o.rows with
    | some l => s.mxePoison t o.seq o.pc l
    | none => s.setTile t { tl with mxq := tl.mxq.map fun x => if x.seq = o.seq then { x with running := true, since := s.edges t, old := s.snap t } else x }

/-- MX_PROB_COMPLETE: the oldest running problem has written its entries. -/
def State.mxComplete (s : State) (t : TileId) : State :=
  match (s.tileAt t).mxq with
  | [] => s
  | o :: l =>
    if !o.running ∨ !s.runs t then s else
    let v := (s.racy t .other).mixed t o.old
    let m := (o.sel v t).length
    let s := ((o.result s v t).vxeAccess t).tcnt t o.f.counter (m * o.f.n * o.f.k - o.counted)
    let s := s.setTile t { s.tileAt t with mxq := l }
    let s := s.trace t 0x11 0 o.f.a.toNat (m + s.cyclesSince t o.since % 2 ^ 32 * 2 ^ 32)
    (s.opPost t o.f.sigEn o.f.sem 0 0).settle t

/-! ## Extension ports (R305 to R309) -/

/-- FAB_XSTATc. -/
def xstat (c : ColId) : Nat := fabBase + 0x400 + 4 * c.toNat
/-- State of a stage of a colony's port: 0 HELD, 1 PROBE, 2 OPEN, 3 FAILED. -/
def State.xState (s : State) (c : ColId) (f : Nat) : Nat := s.regF (xstat c) (2 * f + 1) (2 * f)
/-- Set it. -/
def State.setX (s : State) (c : ColId) (f v : Nat) : State := s.setRegF (xstat c) (2 * f + 1) (2 * f) v
/-- The fabric stages a chain names. -/
def fabStages (ch : List (W32 × W32)) : List Nat := (ch.filter fun x => decide (stKind x = 12)).map fun x => fld x.1 5 5
/-- R33: how many fabric stages the tile's partition declares. -/
def State.fabDeclared (s : State) (t : TileId) : Nat := match (s.partOf t).bind s.pcfg with | none => 0 | some g => g.fabStages.toNat
/-- R170, R309: a stage that the chain names, of those the partition declares, is neither OPEN nor FAILED, or GSR is asserted. A stage that it does
not declare holds nothing: the chain is inconsistent (R168). -/
def State.portHeld (s : State) (t : TileId) (ch : List (W32 × W32)) : Bool :=
  let l := (fabStages ch).filter (· < s.fabDeclared t)
  !l.isEmpty && (bit (s.reg fabBase) 0 || l.any fun f => decide (s.xState (colonyOf t) f < 2))
/-- R309: a stage that the chain names has FAILED. -/
def State.portFailed (s : State) (t : TileId) (ch : List (W32 × W32)) : Bool :=
  (fabStages ch).any fun f => decide (s.xState (colonyOf t) f = 3)

/-! ## Drains -/

/-- Replace a drain. -/
def Tile.setDr (tl : Tile) (o : DrOp) : Tile := { tl with drq := tl.drq.map fun x => if x.seq = o.seq then o else x }

/-- R447: does the drain that starts now feed the statistics? -/
def State.drStat (s : State) (t : TileId) (f : DrF) : Bool :=
  (s.tileAt t).inwin && bit (s.reg (obsBase t + 0xE8)) f.dset.toNat

/-- R163, R165: a drain starts: it reads its mask and its entries, and clears those it is to clear. (log 116, DEDUCED) -/
def State.drRun (s : State) (t : TileId) (o : DrOp) : State :=
  let y := s.racy t (.drain o.seq)
  let o := { o with running := true, since := s.edges t, stat := s.drStat t o.f, old := s.snap t, beats := o.beatsOf y t }
  let s := if s.portFailed t o.chain then s else o.clear y s t
  (s.setTile t ((s.tileAt t).setDr o)).drawn

/-- DR_WRITE_START: the next queued drain starts; one that names a FABRIC stage does not while its port is held (R170). -/
def State.drStart (s : State) (t : TileId) : State :=
  match (s.tileAt t).drq.find? fun o => !o.running with
  | none => s
  | some o =>
    if !s.runs t ∨ s.drHold t o then s else
    let o := o.latch s t
    if s.portHeld t o.chain then s
    else if o.startFault s t ≠ 0 then s.mxeFault t o.seq o.pc (o.startFault s t)
    else match (s.racy t (.drain o.seq)).maskPoison t o.f.msk o.maskLine o.rows with
    | some l => s.mxePoison t o.seq o.pc l
    | none => s.drRun t o

/-- R163, R165: a drain whose values have all passed the chain completes. -/
def State.drDone (s : State) (t : TileId) (o : DrOp) : State :=
  let s := ((o.finish s ((s.racy t (.drain o.seq)).mixed t o.old) t o.rowsLeft).drawn).vxeAccess t
  let tl := s.tileAt t
  let s := (s.setTile t { tl with drq := tl.drq.filter fun x => decide (x.seq ≠ o.seq) }).sumFlush t
  let s := s.trace t 0x12 0 o.f.dst.toNat (o.rowsSel.length + s.cyclesSince t o.since % 2 ^ 32 * 2 ^ 32)
  (s.opPost t o.f.sigEn o.f.sem 0 0).settle t

/-- DR_WRITE_COMPLETE: a running drain that is ready, either of two (R158). -/
def State.drComplete (s : State) (t : TileId) : State :=
  if !s.runs t then s else
  match (s.tileAt t).drq.filter (·.ready) with
  | [] => s
  | [o] => s.drDone t o
  | o :: o' :: _ => (s.drawn).drDone t (if s.draw 0 % 2 = 0 then o else o')

/-- R169: what a drain that faults with EXT_TIMING leaves: its complete rows are written, the rest of its destination and the
entries it was to clear are unpredictable. -/
def State.extScramble (s : State) (t : TileId) (o : DrOp) : State :=
  let n := (o.n * o.fmt.bits + 7) / 8
  let s := each s o.rowsLeft fun s m =>
    let s := s.setSpadBytes t (o.rowByte m) (s.freeBytes (m * 2 ^ 15) n)
    if o.fmt.isMx then s.setSpadBytes t (o.scaleByte m).toNat (s.freeBytes (2 ^ 28 + m * 2 ^ 15) (o.n / 32)) else s
  let s := if o.f.clr then
      each s (o.rowsLeft.flatMap fun m => (List.range o.n).map fun k => 16 * o.f.c.toNat + m * o.n + k) fun s e =>
        s.setAccW t e (BitVec.ofNat 32 (s.draw (2 ^ 30 + e)))
    else s
  s.drawn

/-- R169, R307: a drain faults with EXT_TIMING. -/
def State.extFault (s : State) (t : TileId) (o : DrOp) (wrote : Bool) : State :=
  let s := s.incReg (xstat (colonyOf t)) 15 8 1
  let s := if wrote then s.extScramble t o else s
  s.mxeFault t o.seq o.pc 0x44

/-- The next beat of a running drain that has a FABRIC stage before it and has not been sent: its index. -/
def DrOp.nextBeat (o : DrOp) : Option (Nat × Beat) :=
  (o.beats.zipIdx.find? fun x => !o.passed x.1 && !x.1.sent).map fun x => (x.2, x.1)

/-- The beat that a tile sends next, with its drain. -/
def State.tileBeat (s : State) (t : TileId) : Option (DrOp × Nat × Beat) :=
  (s.tileAt t).drq.findSome? fun o => if o.running then o.nextBeat.map fun b => (o, b) else none

/-- R169, R170: the tile asks for a grant of its colony's port. -/
def State.asksPort (s : State) (t : TileId) : Bool :=
  s.runs t && (s.tileBeat t).any fun x => s.portFailed t x.1.chain || !s.portHeld t x.1.chain

/-- R169: the tile of a colony that holds the next grant: round robin among those that ask. -/
def State.portGrant (s : State) (c : ColId) : Option TileId :=
  ((List.range 16).map fun i => tileOf c (((s.turnOf c).toNat + i) % 16)).find? s.asksPort

/-- Table 12-3: the slot of a beat: `k` its index in the drain. -/
def DrOp.slot (o : DrOp) (t : TileId) (k : Nat) (b : Beat) (f : Bool) : BitVec 536 :=
  BitVec.ofNat 536 ((b.vals.zipIdx.map fun x => x.1.1.toNat * 2 ^ (32 * x.2)).foldl (· + ·) 0 + 2 ^ 512 + indexOf t * 2 ^ 513 + nat01 f * 2 ^ 517
    + nat01 (decide (b.col = 0)) * 2 ^ 518 + nat01 (decide (k + 1 = o.beats.length)) * 2 ^ 519 + b.col / 16 * 2 ^ 521)

/-- R304: a beat passes the stages before its FABRIC stage and leaves in a slot of the outbound word. -/
def State.sendBeat (s : State) (t : TileId) (o : DrOp) (i : Nat) (b : Beat) : State :=
  let (b, st) := o.advance ((s.racy t (.drain o.seq)).mixed t o.old) t b
  let f := decide (fld ((o.chain.getD b.stage (0, 0)).1) 5 5 = 1)
  let s := ((s.numStat t st).drawn).send (.extSlot (colonyOf t) (o.slot t i b f))
  let tl := s.tileAt t
  s.setTile t { tl.setDr { o with beats := o.beats.set i { b with sent := true } } with extSent := tl.extSent ++ [(f, o.seq, i, false)] }

/-- EXT_BEAT_SEND: the tile holds the grant of its colony's port and sends its next beat. -/
def State.extSend (s : State) (t : TileId) : State :=
  if s.portGrant (colonyOf t) ≠ some t then s else
  let s := s.setTurn (colonyOf t) (BitVec.ofNat 4 (indexOf t + 1))
  match s.tileBeat t with
  | none => s
  | some (o, i, b) => if s.portFailed t o.chain then s.extFault t o false else s.sendBeat t o i b

/-- The values of a result, with the beat's poison marks. -/
def Beat.take (b : Beat) (r : BitVec 512) : Beat :=
  { b with vals := b.vals.zipIdx.map (fun x => (r.extractLsb' (32 * x.2) 32, x.1.2)), stage := b.stage + 1, sent := false }

/-- R163, R165: a result is taken, and the rows it completes are written. -/
def State.takeResult (s : State) (t : TileId) (o : DrOp) (i : Nat) (b : Beat) (v : BitVec 512) : State :=
  let o := { o with beats := o.beats.set i (b.take v) }
  let s := ((o.finish s ((s.racy t (.drain o.seq)).mixed t o.old) t o.rowsDue).drawn).vxeAccess t
  s.setTile t ((s.tileAt t).setDr { o with wrote := match o.rowsDue.getLast? with | none => o.wrote | some m => m + 1 })

/-- EXT_RESULT_DUE: Lf cycles after a tile's oldest outstanding beat to stage `fsel` its result returns, or is missing. Results of
beats that were out when GSR asserted are not received (R170). -/
def State.extResult (s : State) (t : TileId) (fsel : Bool) (r : Option (BitVec 512)) : State :=
  let tl := s.tileAt t
  match tl.extSent.find? fun x => decide (x.1 = fsel) with
  | none => s
  | some (f, q, i, lost) =>
    let s := s.setTile t { tl with extSent := tl.extSent.erase (f, q, i, lost) }
    match tl.drq.find? fun o => decide (o.seq = q) with
    | none => s
    | some o =>
      match if lost then none else r, o.beats[i]? with
      | some v, some b => s.takeResult t o i b v
      | _, _ => s.extFault t o true

/-! ## The commands -/

/-- MX_NOP (R150). -/
def execMxNop (t : TileId) (s : State) : Ans := .next (s.issueWord t 0 9 [{}])
/-- MX_PROB (R150 to R154). -/
def execMxProb (t : TileId) (f : MxF) (s : State) : Ans := .next (s.issueWord t 0 9 [slotMx t f])
/-- MX_PROB_START (R154, R156, R158, R172). -/
def execMxProbStart (t : TileId) (s : State) : Ans := .next (s.mxStart t)
/-- MX_PROB_COMPLETE (R154, R155, R159). -/
def execMxProbComplete (t : TileId) (s : State) : Ans := .next (s.mxComplete t)
/-- DR_NOP (R160). -/
def execDrNop (t : TileId) (s : State) : Ans := .next (s.issueWord t 0 5 [{}])
/-- DR_WRITE (R160, R161). -/
def execDrWrite (t : TileId) (f : DrF) (s : State) : Ans := .next (s.issueWord t 0 5 [slotDr t f])
/-- DR_WRITE_START (R158, R162, R163, R168, R170, R172). -/
def execDrWriteStart (t : TileId) (s : State) : Ans := .next (s.drStart t)
/-- DR_WRITE_COMPLETE (R163 to R165). -/
def execDrWriteComplete (t : TileId) (s : State) : Ans := .next (s.drComplete t)
/-- EXT_BEAT_SEND (R169, R304, R306). -/
def execExtBeatSend (t : TileId) (s : State) : Ans := .next (s.extSend t)
/-- EXT_RESULT_DUE (R169, R305, R307). -/
def execExtResultDue (t : TileId) (fsel : Bool) (result : Option (BitVec 512)) (s : State) : Ans := .next (s.extResult t fsel result)
/-- EXT_STRAY_RESULT (R307): counted, and nothing else. -/
def execExtStrayResult (c : ColId) (s : State) : Ans := .next (s.incReg (xstat c) 23 16 1)

end Sys2Proof.Machine
end

