-- ==== Sys2Proof/Machine/Residency.lean ====
section
/-!
DEFINITION. Who owns a tile (R212), QUARANTINE and the kill of a context at its tiles (R213 to R215, R479), slot scrubs
(R109), and the scratchpad's counters (R218).
-/
namespace Sys2Proof.Machine

/-! ## What is zeroed (R157, R175, R214) -/

/-- The working region of a tile, with its poison. -/
def State.zeroWorking (s : State) (t : TileId) : State :=
  let w := s.regF (tileBase t + 0x1E00) 27 16
  let b := t.toNat * 262144; let l := t.toNat * 4096
  { s with
    spad := dropIf (fun k => decide (b + 64 * w ≤ k) && decide (k < b + 262144)) s.spad
    spadPoison := dropIf (fun k => decide (l + w ≤ k) && decide (k < l + 4096)) s.spadPoison }

/-- The accumulator of a tile. -/
def State.zeroAcc (s : State) (t : TileId) : State :=
  let b := t.toNat * 16384
  let p := fun k => decide (b ≤ k) && decide (k < b + 16384)
  { s with acc := dropIf p s.acc, accTy := dropIf p s.accTy, accPoison := dropIf p s.accPoison }

/-- The vector and predicate registers of a tile. -/
def State.zeroVregs (s : State) (t : TileId) : State :=
  let b := t.toNat * 1024; let c := t.toNat * 8
  let p := fun k => decide (b ≤ k) && decide (k < b + 1024)
  { s with vreg := dropIf p s.vreg, vregPoison := dropIf p s.vregPoison,
           preg := dropIf (fun k => decide (c ≤ k) && decide (k < c + 8)) s.preg }

/-- R109: the slots of a vault that a context's tag holds. -/
def State.taggedSlots (s : State) (v : TileId) (c : CtxId) : List Nat :=
  (List.range 64).filter fun i => tagValid (s.tag v i) && decide (tagCtx (s.tag v i) = c.toNat)

/-- R82, R109: a slot is zeroed and its tag cleared. -/
def State.emptySlot (s : State) (v : TileId) (sl : Nat) : State := (s.zeroSlot v sl).clearTag v sl

/-! ## QUARANTINE -/

/-- R114: every engine of the tile goes to IDLE, and semaphores and address generators reload once nothing is outstanding. -/
def State.stopAll (s : State) (t : TileId) : State :=
  let s := each s engines fun s e => s.stopEngine t e
  (s.setTile t { s.tileAt t with reloadDue := true }).settle t

/-- R213, R214 step 1: a tile enters QUARANTINE. -/
def State.enterQuar (s : State) (t : TileId) (q : Quar) : State :=
  let s := s.setTile t { s.tileAt t with quar := some q }
  s.stopAll t

/-- R214 step 2: does a transfer admitted at any tile still write the tile's working region? -/
def State.inbound (s : State) (t : TileId) : Bool :=
  s.movq.any fun e => e.2.inflight.any fun f =>
    !f.refused && (e.2.streams[f.stream - e.2.base]?).any fun x =>
      decide (x.d.space = 0) && x.d.out && x.d.tiles.contains t && decide (64 * s.regF (tileBase t + 0x1E00) 27 16 < f.far.toNat + f.len)

/-- R214: a halo send that began before the QUARANTINE of its receiver, or sender, `t` is under way. -/
def State.haloInto (s : State) (t : TileId) : Bool :=
  s.halo.any fun e => e.2.busy && !e.2.lateAt.contains t &&
    (decide (e.1 / 4 = t.toNat) || decide (s.haloTo (BitVec.ofNat 12 (e.1 / 4)) (e.1 % 4) = some t))

/-- R215: halo sends that a tile's QUARANTINE has held go on. -/
def State.quarOver (s : State) (t : TileId) : State :=
  each s ((s.halo.filter fun e => e.2.lateAt.contains t).map (·.1)) fun s k =>
    let v : TileId := BitVec.ofNat 12 (k / 4)
    let h := s.haloAt v (k % 4)
    s.setHalo v (k % 4) { h with lateAt := h.lateAt.filter (· ≠ t) }

/-- R109: an access or a page operation still uses a slot that the context's tag holds. -/
def State.slotsHeld (s : State) (t : TileId) (c : CtxId) : Bool :=
  (s.taggedSlots t c).any fun i => s.slotUsed t (BitVec.ofNat 6 i) || (s.tileAt t).pageop.any fun o => decide (o.slot.toNat = i)

/-- QUARANTINE_CLEAR: no hop of its ring stands partial at a kill (R258); nothing outstanding reaches the tile; what the context owned is zeroed, the owner changes, and held
starts take effect. -/
def State.quarClear (s : State) (t : TileId) : State :=
  let tl := s.tileAt t
  match tl.quar with
  | none => s
  | some q =>
    if !s.runs t ∨ !s.quiesced t ∨ s.inbound t ∨ s.haloInto t ∨ (tl.killEnds.isSome ∧ s.hopPartial t)
        ∨ tl.killEnds.any (fun c => s.slotsHeld t c) then s else
    let s := ((s.settle t).zeroWorking t |>.zeroAcc t).zeroVregs t
    let tl := s.tileAt t
    -- R62: the end of the context that owned the tile during a hand-over
    let s := if tl.quarWait.contains tl.ctx then s.setTr t 0x1F08 0 else s
    let s := match tl.killEnds with
      | some c =>
        let s := each s (s.taggedSlots t c) fun s i => s.emptySlot t i
        let s := s.setTile t { s.tileAt t with ctx := c, owned := false }
        -- R62: TIL_NUMSTAT returns to 0 at a context's end
        s.setTr t 0x1F08 0
      | none => match q with
        | .handover c => s.setTile t { tl with ctx := c }
        | .kill => s
    let s := s.setTile t { s.tileAt t with quar := none, quarWait := [] }
    (s.quarOver t).releaseStarts t

/-! ## Kills -/

/-- R109: slot scrubs begin for the context's slots of a vault. -/
def State.beginScrub (s : State) (v : TileId) (c : CtxId) : State :=
  let l := s.taggedSlots v c
  let s := each s l fun s i => s.setBusy v i true
  let tl := s.tileAt v
  s.setTile v { tl with scrub := tl.scrub ++ (l.map (BitVec.ofNat 6)).filter fun i => !tl.scrub.contains i }

/-- R109, R213, R248, R104, R479: the kill of a context at a tile of its partition. -/
def State.killTile (s : State) (t : TileId) (c : CtxId) : State :=
  let tl := s.tileAt t
  match tl.quar with
  | some q =>
    let named := decide (tl.ctx = c) || decide (q = .handover c)
    let s := if named ∧ !tl.quarWait.contains c then s.setTile t { tl with quarWait := tl.quarWait ++ [c] } else s
    if q = .handover c ∨ (q = .kill ∧ tl.ctx = c) then s else s.beginScrub t c
  | none =>
    if tl.owned ∧ tl.ctx = c then
      let s := ((s.killMover t).killWeir t).enterQuar t .kill
      if s.runs t then s else s.askWake (domTile t)
    else s.beginScrub t c

/-- R325: does anything that the kill of a context caused go on at the tile? -/
def State.killGoesOn (s : State) (t : TileId) (c : CtxId) : Bool :=
  let tl := s.tileAt t
  (match tl.quar with
    | some q => (decide (q = .kill) && decide (tl.ctx = c)) || tl.quarWait.contains c
    | none => false)
  || tl.scrub.any fun i => decide (tagCtx (s.tag t i.toNat) = c.toNat)

/-- SLOT_SCRUB_DONE: once no admitted access uses the slot, it is zeroed, its tag cleared, and busy with it. -/
def State.scrubDone (s : State) (t : TileId) (sl : SlotId) : State :=
  let tl := s.tileAt t
  if !tl.scrub.contains sl ∨ s.slotUsed t sl ∨ tl.pageop.any (fun o => decide (o.slot = sl)) then s
  else if !s.serves (domCis t) then s.askWake (domCis t)
  else (s.setTile t { tl with scrub := tl.scrub.erase sl }).emptySlot t sl.toNat

/-! ## TIL_SPOWN -/

/-- R212: the outcomes of a write of TIL_SPOWN. -/
def State.spownNow (s : State) (t : TileId) (w : W32) : State :=
  let tl := s.tileAt t
  let c : CtxId := w.extractLsb' 0 8
  let quota := match (s.partOf t).bind s.pcfg with | none => 0 | some g => g.contexts.toNat
  if bit w 10 then s.setTile t { tl with spRefused := false }
  else if engines.any (fun e => decide ((s.engAt t e).st ≠ .idle)) ∨ tl.quar.isSome ∨ quota ≤ c.toNat then
    s.setTile t { tl with spRefused := true }
  else if !tl.owned then s.setTile t { tl with ctx := c, owned := true }
  else if c = tl.ctx then s
  else s.enterQuar t (.handover c)

/-! ## The commands -/

/-- SPOWN_WRITE (R212, R213, R403). -/
def execSpownWrite (by_ : Req) (t : TileId) (w : W32) (s : State) : Ans :=
  .next (s.onTileWake by_ t .launch (.spown t w) fun s => s.spownNow t w)
/-- QUARANTINE_CLEAR (R214, R215, R479). -/
def execQuarantineClear (t : TileId) (s : State) : Ans := .next (s.quarClear t)
/-- SLOT_SCRUB_DONE (R109). -/
def execSlotScrubDone (t : TileId) (sl : SlotId) (s : State) : Ans := .next (s.scrubDone t sl)
/-- PHASECNT_CLEAR (R218). -/
def execPhasecntClear (by_ : Req) (t : TileId) (s : State) : Ans := .next (s.onTile by_ t .open_ fun s => s.setTr t 0x1E0C 0)
/-- SPCONF_CLEAR (R218). -/
def execSpconfClear (by_ : Req) (t : TileId) (s : State) : Ans := .next (s.onTile by_ t .open_ fun s => s.setTr t 0x1E10 0)

end Sys2Proof.Machine
end

