-- ==== Sys2Proof/Machine/Cistern.lean ====
section
/-!
DEFINITION. The context store's commands: invalidation of map caches (R79, R80), page operations (R83 to R85), ages (R86),
refresh and temperature of a vault (R106, R107).
-/
namespace Sys2Proof.Machine

/-! ## Map caches -/

/-- R80: does an invalidation cover an entry? -/
def MapInv.covers (v : MapInv) (e : MapEntry) : Bool :=
  decide (e.ctx = v.ctx) && (match e.kind with
    | 0 => v.root
    | 1 => v.all || decide (e.index = v.lpn.toNat / 4096)
    | _ => v.all || decide (e.index = v.lpn.toNat))

/-- R80, R271: a write of WEI_MAPINV: the invalidation sets out to every tile. Which of the covered entries are dropped at once, before
MAP_INVALIDATE_DONE, is free. -/
def State.mapInvalidate (s : State) (p : PartId) (w : W32) : State :=
  let q := s.partAt p
  if !bit w 31 then s
  else if q.mapInv.isSome then s.setPart p { q with mapOverrun := true }
  else
    let v : MapInv := { ctx := w.extractLsb' 0 8, all := bit w 8, root := bit w 9, lpn := (s.reg (partBase p + 0x40C)).extractLsb' 0 24 }
    let l := (q.mapCache.zipIdx.filter fun x => !(v.covers x.1 && decide (s.draw x.2 % 2 = 1))).map (·.1)
    let s := (s.setPart p { q with mapInv := some v, mapCache := l }).drawn
    each s (s.tilesIn p) fun s t =>
      s.inject { cls := .control, src := .spine (BitVec.ofNat 2 (dieOf t)), dst := .tile t, data := 0, load := .inval p, bad := false }

/-- R80: the invalidation ends: it has reached every tile, and no access that used a covered entry goes on. -/
def State.mapInvEnd (s : State) (p : PartId) : State :=
  let s := s.bring fun s => s.canal.pkts.all fun x => decide (x.2.load ≠ .inval p)
  let q := s.partAt p
  match q.mapInv with
  | none => s
  | some v => if s.mapUsed p v then s else s.setPart p { q with mapInv := none, mapCache := q.mapCache.filter fun e => !v.covers e }

/-! ## Page operations -/

/-- Copy `n` values from key `a` of one table to key `b` of another, both with the same default. -/
def copyRange {α : Type} [DecidableEq α] (d : Nat → α) (src : Sparse α) (a n : Nat) (dst : Sparse α) (b : Nat) : Sparse α :=
  (src.filter fun e => decide (a ≤ e.1) && decide (e.1 < a + n)).foldl (fun m e => put d m (e.1 - a + b) e.2)
    (dropIf (fun k => decide (b ≤ k) && decide (k < b + n)) dst)

/-- Is a key listed among `n` from `a`? -/
def anyIn {α : Type} (m : Sparse α) (a n : Nat) : Bool := m.any fun e => decide (a ≤ e.1) && decide (e.1 < a + n)

/-- R84: the root-table entry of a context; 0 where the table does not lie in the allocation or the line is poisoned. -/
def State.rootEntry (s : State) (p : PartId) (c : CtxId) : Nat :=
  let tab := (s.reg64 (partBase p + 0x400) (partBase p + 0x404)).toNat
  if tab % 2048 ≠ 0 ∨ s.alloc p < tab + 2048 ∨ s.phbmP p (tab + 8 * c.toNat) then 0 else s.phbm p (tab + 8 * c.toNat) 8

/-- R76: partition HBM address of a frame's sideband, by the map header that a root-table entry names. R84 does not say what a poisoned line of
the root table or the header does at a go write: the operation is refused as invalid (log 108, DESIGN CHOICE). -/
def State.frameSideAt (s : State) (p : PartId) (root : Nat) (f : BitVec 23) : Option Nat :=
  if root % 128 ≠ 0 ∨ s.alloc p < root + 128 ∨ s.phbmP p (root + 64) then none
  else
    let side := s.phbm p (root + 0x48) 8
    if side % 4096 ≠ 0 ∨ s.alloc p < side + f.toNat * 4096 + 4096 then none else some (side + f.toNat * 4096)

/-- R84: the result of a page operation's checks, in the rule's order. Operations: 1 INSTALL, 2 PROMOTE, 3 DEMOTE, 4 FREE. (log 78, DEDUCED) -/
def State.pageCheck (s : State) (t : TileId) (op : Nat) (sl : SlotId) (c : CtxId) (f : BitVec 23) : Nat :=
  match s.partOf t with
  | none => 2
  | some p =>
    let root := s.rootEntry p c
    let quota := match s.pcfg p with | none => 0 | some g => g.contexts.toNat
    let w := s.tag t sl.toNat
    if quota ≤ c.toNat ∨ root = 0 then 2
    else if (op = 2 ∨ op = 3) ∧ (s.alloc p < f.toNat * 65536 + 65536 ∨ (s.frameSideAt p root f).isNone) then 2
    else if tagBusy w ∨ (tagValid w ≠ decide (3 ≤ op)) then 1
    else 0

/-- R83, R84: a page operation ends with a result: done is set and the source raised. -/
def State.pageResult (s : State) (t : TileId) (r : Nat) : State :=
  (s.setTile t { s.tileAt t with poDone := true, poResult := BitVec.ofNat 2 r }).raiseTile t 96

/-- R84, R85: a go write of CIS_PAGEOP: overrun, a refusal, or the operation starts. -/
def State.pageStart (s : State) (t : TileId) (op : Nat) (sl : SlotId) (c : CtxId) : State :=
  let tl := s.tileAt t
  if tl.pageop.isSome then s.setTile t { tl with poOverrun := true } else
  let f := (s.tr t 0x1818).extractLsb' 0 23
  let lpn := (s.tr t 0x1814).extractLsb' 0 24
  let r := if 1 ≤ op ∧ op ≤ 4 then s.pageCheck t op sl c f else 2
  if r ≠ 0 then s.pageResult t r
  else
    (s.setTile t { tl with pageop := some { op := BitVec.ofNat 3 op, slot := sl, ctx := c, lpn := lpn, frame := f, moved := false, poison := false } }).setBusy
      t sl.toNat true

/-- R84: HBM places of a PROMOTE or DEMOTE: frame and sideband. -/
def State.pageHbm (s : State) (t : TileId) (o : PageOp) : Option (Nat × Nat) :=
  match s.partOf t with
  | none => none
  | some p =>
    match s.frameSideAt p (s.rootEntry p o.ctx) o.frame with
    | none => none
    | some a =>
      match s.hbmOf p (o.frame.toNat * 65536) 65536, s.hbmOf p a 4096 with
      | some h, some g => some (h, g)
      | _, _ => none

/-- R85: the domains that a page operation's data cross serve. A page lies over every populated stack. -/
def State.pageServed (s : State) (t : TileId) (hbm : Bool) : Bool :=
  s.serves (domCis t) && (!hbm || stackList.all fun n => s.serves (domHbm n))

/-- Table 4-6: what a page operation moves, with poison (R85). -/
def State.pageMove (s : State) (t : TileId) (o : PageOp) : State × Bool :=
  let sl := o.slot.toNat
  let pg := t.toNat * 4194304 + sl * 65536; let sd := t.toNat * 262144 + sl * 4096
  let pp := t.toNat * 69632 + sl * 1024; let sp := t.toNat * 69632 + 65536 + sl * 64
  match o.op.toNat, s.pageHbm t o with
  | 2, some (h, g) =>
    ({ s with
        cis := copyRange zeroByte s.hbm h 65536 s.cis pg
        side := copyRange zeroByte s.hbm g 4096 s.side sd
        cisPoison := copyRange noMark s.hbmPoison (g / 64) 64 (copyRange noMark s.hbmPoison (h / 64) 1024 s.cisPoison pp) sp },
     anyIn s.hbmPoison (h / 64) 1024 || anyIn s.hbmPoison (g / 64) 64)
  | 3, some (h, g) =>
    let s' : State := { s with
        hbm := copyRange zeroByte s.side sd 4096 (copyRange zeroByte s.cis pg 65536 s.hbm h) g
        hbmPoison := copyRange noMark s.cisPoison sp 64 (copyRange noMark s.cisPoison pp 1024 s.hbmPoison (h / 64)) (g / 64) }
    (s'.zeroSlot t sl, anyIn s.cisPoison pp 1024 || anyIn s.cisPoison sp 64)
  | 1, _ => (s.zeroSlot t sl, false)
  | 4, _ => (s.zeroSlot t sl, false)
  | _, none => (s, false)
  | _, _ => (s, false)

/-- R85, R271: the page's and its sideband's lines cross the canal between the vault and the stacks, 4 KiB with each, for a PROMOTE once they
have been asked for. (log 122, DESIGN CHOICE) -/
def State.pageCross (s : State) (t : TileId) (o : PageOp) : State :=
  match s.pageHbm t o with
  | none => s
  | some (h, g) =>
    let l := ((List.range 16).map fun i => h + 4096 * i) ++ [g]
    let node := fun (a : Nat) => CanNode.spine (BitVec.ofNat 2 (stackOf a / 2))
    let out := l.map fun a => ({ cls := .request, src := .tile t, dst := node a, data := if o.op = 3 then 64 else 0, load := .plain, bad := false } : CanPkt)
    let back := l.map fun a => ({ cls := .response, src := node a, dst := .tile t, data := if o.op = 2 then 64 else 0, load := .plain, bad := false } : CanPkt)
    if o.op = 2 ∨ o.op = 3 then (s.cross out).cross back else s

/-- R85, R274: a line that a page operation has moved, with a beat that the canal delivered as poison, is poison where it went. -/
def State.pageHurt (s : State) (t : TileId) (o : PageOp) (e : LinkErr) : State :=
  let j := s.draw (2 ^ 22 + 1) % 1088
  match e, s.pageHbm t o with
  | .poisoned, some (h, g) =>
    if o.op = 2 then s.markCis t (if j < 1024 then o.slot.toNat * 1024 + j else 65536 + o.slot.toNat * 64 + (j - 1024)) true
    else s.markHbm (if j < 1024 then h / 64 + j else g / 64 + (j - 1024)) true
  | _, _ => s

/-- PAGEOP_DATA_MOVE: no admitted access uses the slot: the data moves. -/
def State.pageData (s : State) (t : TileId) : State :=
  let tl := s.tileAt t
  match tl.pageop with
  | none => s
  | some o =>
    let hbm := decide (o.op = 2) || decide (o.op = 3)
    if o.moved ∨ s.slotUsed t o.slot then s
    else if !s.pageServed t hbm then
      let s := if s.serves (domCis t) then s else s.askWake (domCis t)
      if hbm then each s stackList fun s n => if s.serves (domHbm n) then s else s.askWake (domHbm n) else s
    else
      let s := s.pageCross t o
      let e := if hbm then s.linkErr (2 ^ 22) else .none
      let (s, bad) := s.pageMove t o
      let s := ((s.pageHurt t o e).linkCount t .can e).drawn
      s.setTile t { s.tileAt t with pageop := some { o with moved := true, poison := bad || decide (e = .poisoned) } }

/-- PAGEOP_DONE: the tag and its age take their new values; done is set. A slot whose scrub waits stays busy (R109). -/
def State.pageEnd (s : State) (t : TileId) : State :=
  let tl := s.tileAt t
  match tl.pageop with
  | none => s
  | some o =>
    if !o.moved then s else
    let sl := o.slot.toNat
    let s := if o.op = 1 ∨ o.op = 2 then s.fillTag t sl o.ctx o.lpn else s.clearTag t sl
    let s := if tl.scrub.contains o.slot then s.setBusy t sl true else s
    let s := s.setTile t { tl with pageop := none, lastCisAccess := s.time }
    s.pageResult t (if o.poison then 3 else 0)

/-! ## Ages, refresh, temperature -/

/-- R86: a write of CIS_AGECFG. -/
def State.ageCfg (s : State) (t : TileId) (w : W32) : State :=
  (s.setTr t 0x1804 (w &&& 0xFFFF)).setTile t { s.tileAt t with ageFrom := s.time }

/-- R86: the tick counter expires. -/
def State.ageTick (s : State) (t : TileId) : State :=
  let n := fld (s.tr t 0x1804) 15 0
  if n = 0 then s else
  let x := BitVec.ofNat 64 ((s.tileAt t).ageFrom.toNat + 40 * n)
  let s := s.reach x
  let s := s.setTile t { s.tileAt t with ageFrom := x }
  each s (List.range 64) fun s i =>
    let w := s.tag t i
    if tagValid w then s.setTr t (tagOff i) (incFld w 23 16 1) else s

/-- R106, R107: a vault's temperature: doubled refresh above 85 °C; the cap from 95 °C until below 92 °C. -/
def State.vaultTemp (s : State) (t : TileId) (c : Byte) : State :=
  let w := s.tr t 0x1800
  let cap := bit w 3
  let hot := decide (95 ≤ c.toNat)
  let s := (if hot ∧ !cap then s.incReg (tileBase t + 0x1820) 15 0 1 else s).sensed (tileBase t + 0x1800) c
  s.setTr t 0x1800 (setFld (setBit (setBit w 2 (decide (85 < c.toNat))) 3 (hot || (cap && decide (92 ≤ c.toNat)))) 15 8 c.toNat)

/-! ## The commands -/

/-- MAP_INVALIDATE (R79, R80). -/
def execMapInvalidate (by_ : Req) (p : PartId) (w : W32) (s : State) : Ans :=
  .next (s.onPart by_ p fun s => s.mapInvalidate p w)
/-- MAP_INVALIDATE_DONE (R80). -/
def execMapInvalidateDone (p : PartId) (s : State) : Ans := .next (s.mapInvEnd p)
/-- PAGEOP_INSTALL (R83 to R85). -/
def execPageopInstall (by_ : Req) (t : TileId) (sl : SlotId) (c : CtxId) (s : State) : Ans :=
  .next (s.onTile by_ t .open_ fun s => s.pageStart t 1 sl c)
/-- PAGEOP_PROMOTE (R83 to R85). -/
def execPageopPromote (by_ : Req) (t : TileId) (sl : SlotId) (c : CtxId) (s : State) : Ans :=
  .next (s.onTile by_ t .open_ fun s => s.pageStart t 2 sl c)
/-- PAGEOP_DEMOTE (R83 to R85). -/
def execPageopDemote (by_ : Req) (t : TileId) (sl : SlotId) (c : CtxId) (s : State) : Ans :=
  .next (s.onTile by_ t .open_ fun s => s.pageStart t 3 sl c)
/-- PAGEOP_FREE (R83 to R85). -/
def execPageopFree (by_ : Req) (t : TileId) (sl : SlotId) (c : CtxId) (s : State) : Ans :=
  .next (s.onTile by_ t .open_ fun s => s.pageStart t 4 sl c)
/-- PAGEOP_INVALID_OP (R83): a listed op written here is not this command, and has no effect through it. -/
def execPageopInvalidOp (by_ : Req) (t : TileId) (op : BitVec 3) (sl : SlotId) (c : CtxId) (s : State) : Ans :=
  .next (if 1 ≤ op.toNat ∧ op.toNat ≤ 4 then s else s.onTile by_ t .open_ fun s => s.pageStart t op.toNat sl c)
/-- PAGEOP_DATA_MOVE (R85, R405). -/
def execPageopDataMove (t : TileId) (s : State) : Ans := .next (s.pageData t)
/-- PAGEOP_DONE (R83, R85, R86). -/
def execPageopDone (t : TileId) (s : State) : Ans := .next (s.pageEnd t)
/-- AGECFG_WRITE (R86). -/
def execAgecfgWrite (by_ : Req) (t : TileId) (w : W32) (s : State) : Ans := .next (s.onTile by_ t .open_ fun s => s.ageCfg t w)
/-- AGE_TICK (R86). -/
def execAgeTick (t : TileId) (s : State) : Ans := .next (s.ageTick t)
/-- VAULT_REFRESH (R106): the vault is occupied for 120 ns; time is all it takes. -/
def execVaultRefresh (_t : TileId) (s : State) : Ans := .next s
/-- VAULT_REFRESH_RATE_CHANGE (R106). -/
def execVaultRefreshRateChange (t : TileId) (temp : Byte) (s : State) : Ans := .next (s.vaultTemp t temp)
/-- VAULT_THROTTLE (R107). -/
def execVaultThrottle (t : TileId) (temp : Byte) (s : State) : Ans := .next (s.vaultTemp t temp)

end Sys2Proof.Machine
end

