-- ==== Sys2Proof/Machine/Vulor.lean ====
section
/-!
DEFINITION. The Vulor ports' commands (R279 to R299): port states and culverts, training and keying, flits with replay and
credits, and the messages that arrive.
-/
namespace Sys2Proof.Machine

/-! ## Port states (R280, R281) -/

/-- Axis of a port. -/
def axisOf (p : PortId) : Nat := p.val / 2
/-- The other port of the axis. -/
def mate (p : PortId) : PortId := axisPort (axisOf p) (1 - p.val % 2)
/-- R297: VUL_CTL.en. -/
def State.vulEn (s : State) (p : PortId) : Bool := bit (s.reg (portBase p)) 0

/-- Table 11-4: the states that hold the culvert open. -/
def PortSt.holdsOpen : PortSt → Bool
  | .training => true | .keying => true | .active => true | .retrain => true | .off => false | .culverted => false

/-- R280: the culvert of a port's axis may stand open: both ports hold it, and both domains are up. -/
def State.mayOpen (s : State) (p : PortId) : Bool :=
  (s.portAt p).st.holdsOpen && (s.portAt (mate p)).st.holdsOpen && decide ((s.domAt (domVul p)).st = 0) && decide ((s.domAt (domVul (mate p))).st = 0)

/-- R280: a change of a port's state raises its link-state source; the culvert opens when its conditions hold. -/
def State.portTo (s : State) (p : PortId) (st : PortSt) : State :=
  if (s.portAt p).st = st then s else
  let s := (s.setPort p { s.portAt p with st := st }).raise (headCore (dieOfPort p)) (16 + p.val)
  if s.mayOpen p then
    let s := s.setPort p { s.portAt p with isOpen := true }
    s.setPort (mate p) { s.portAt (mate p) with isOpen := true }
  else s

/-- R281: is the message a request, which a NACK answers? -/
def isReq (m : Msg) : Bool := decide (m.ty = .write) || decide (m.ty = .read) || decide (m.ty = .signal)

/-- R281: messages a port holds, in order. -/
def Port.held (q : Port) : List (BitVec 3 × Msg) := q.sent.map (fun x => x.2) ++ q.txWait

/-- A port after its link is down: nothing sent, nothing in part received. -/
def Port.down (q : Port) : Port :=
  { q with replay := [], nakDue := false, rxPart := [], rxFlit := none, discardAt := [], tagRun := 0, width := 0,
           freed := [0, 0, 0, 0, 0] }

/-- R290: a request that finds no route is answered in the place of its destination. -/
def State.nackRoute (s : State) (m : Msg) (part : Nat) : State :=
  if m.src = s.devId then s.vulAnswer m.tag part false none false
  else s.sendReply (s.reply m part (some 1)) none

/-- R400: a culverted port that is not enabled, or whose domain is to power down, has its domain off. -/
def State.portPower (s : State) (p : PortId) : State :=
  let d := s.domAt (domVul p)
  if (s.portAt p).st = .culverted ∧ (!s.vulEn p ∨ d.target = 2) then
    (s.setDom (domVul p) { d with st := 2, target := 0 }).portTo p .off
  else s

/-- Table 11-4, R281: a port's domain is to power down: an ACTIVE port leaves first, one that trains or keys goes on until it is CULVERTED or ACTIVE. -/
def State.portDown (s : State) (p : PortId) : State :=
  if (s.portAt p).st = .off then s else
  let s := s.setDom (domVul p) { s.domAt (domVul p) with target := 2 }
  if (s.portAt p).st = .active then s.setPort p { s.portAt p with leaving := true } else s.portPower p

/-- R281: a port falls to CULVERTED: every request it holds is answered NACK NO_ROUTE. -/
def State.fall (s : State) (p : PortId) : State :=
  let q := s.portAt p
  let s0 := s
  let s := s.setPort p { q.down with leaving := false, trainFails := 0, txWait := [], sent := [], resend := 0 }
  let s := s.portTo p .culverted
  let s := each s (q.held.filter fun x => isReq x.2) fun s x => s.nackRoute x.2 (s0.partOut p x.2)
  s.portPower p

/-- Start coordinate, on a port's axis, of the way a message came along it: its source's, or part 0's where the message turned
into the axis there (R290, R296). -/
def State.startCoord (s : State) (p : PortId) (m : Msg) : Nat :=
  let a := axisOf p; let dir := m.mdir.toNat
  match s.partHere (some p) m with
  | some (_ + 1) =>
    let f := s.stepsTo (2 * a) m.src m.dst; let n := s.axisSize a
    if f ≠ 0 ∧ (if f ≤ n - f then 0 else 1) = dir % 2 then devCoord m.src a else devCoord m.dst a
  | _ => devCoord m.src a

/-- R290: the channel of its class on which a message arrived: 1 once it has crossed the dateline of the port's axis. The
header does not carry it, and it follows from the way (log 33, DEDUCED). -/
def State.arrivedCh1 (s : State) (p : PortId) (m : Msg) : Bool :=
  let o := devCoord s.devId (axisOf p); let c := s.startCoord p m
  if p.val % 2 = 1 then decide (o < c) else decide (c < o)

/-- Channel of an arriving message: class, and channel 1 of it. -/
def State.arrivalVc (s : State) (p : PortId) (m : Msg) : Nat :=
  let k := msgClass m.ty
  if k = 0 then 0 else k + nat01 (s.arrivedCh1 p m)

/-- R285, R287, R294: slots are taken in order; a whole message enters its channel's buffer. A TIME message's raddr, which it
does not use, takes the arrival stamp. -/
def State.takeSlots (s : State) (p : PortId) : List (BitVec 256) → State
  | [] => s
  | b :: l =>
    let q := s.portAt p
    if q.rxPart.isEmpty ∧ (readHdr b).isNone then s.takeSlots p l else
    let part := q.rxPart ++ [b]
    match slotsToMsg part with
    | none => (s.setPort p { q with rxPart := [] }).takeSlots p l
    | some m =>
      if part.length < msgSlots m.ty m.lenM1.toNat then (s.setPort p { q with rxPart := part }).takeSlots p l
      else
        let m := if m.ty = .time then { m with raddr := q.rxAt } else m
        (s.setPort p { q with rxPart := [], bufs := q.bufs ++ [(BitVec.ofNat 3 (s.arrivalVc p m), m)] }).takeSlots p l

/-- A flit accepted and not yet taken is taken before the link goes down, for it has been acknowledged. -/
def State.takeAccepted (s : State) (p : PortId) : State :=
  match (s.portAt p).rxFlit with
  | some f => if flitType f = some .data then (s.setPort p { s.portAt p with rxFlit := none }).takeSlots p f.slots else s
  | none => s

/-- R286: a link enters RETRAIN; `fail`: its reason, 0 where the rule names none. -/
def State.retrain (s : State) (p : PortId) (fail : Nat) : State :=
  if (s.portAt p).st ≠ .active then s else
  let s := s.takeAccepted p
  let q := s.portAt p
  let s := s.setPort p { q.down with
    retrains := BitVec.ofNat 16 (satAdd 0xFFFF q.retrains.toNat 1), trainFails := 0, fail := if fail = 0 then q.fail else BitVec.ofNat 4 fail }
  s.portTo p .retrain

/-- R280, Table 11-4: training or keying fails: the attempt ends for both ports of the axis; in RETRAIN three end it. -/
def State.attemptFails (s : State) (p : PortId) (fail : Nat) (final : Bool) : State :=
  let q := s.portAt p
  let s := s.setPort p { q with failures := BitVec.ofNat 16 (satAdd 0xFFFF q.failures.toNat 1), fail := BitVec.ofNat 4 fail,
                                trainFails := q.trainFails + 1, width := 0 }
  match q.st with
  | .retrain => if final ∨ 3 ≤ q.trainFails + 1 then s.fall p else s
  | .training | .keying =>
    let m := (s.portAt (mate p)).st
    let s := s.fall p
    if m = .training ∨ m = .keying ∨ m = .active then s.fall (mate p) else s
  | _ => s

/-- PORT_DOMAIN_UP: the domain of an enabled port comes up. -/
def State.portUp (s : State) (p : PortId) : State :=
  if (s.portAt p).st ≠ .off ∨ !s.vulEn p then s
  else (s.setDom (domVul p) { s.domAt (domVul p) with st := 0, target := 0 }).portTo p .culverted

/-- R16, R297: a write of VUL_CTL.en and gen1_only, which have no effect before the image is loaded. -/
def State.vulCtl (s : State) (p : PortId) (w : W32) : State :=
  if !s.chitin.loadPassed then s else
  let s := s.plainWrite (portBase p) w
  let q := s.portAt p
  if bit w 0 then s
  else if q.st = .active then s.setPort p { q with leaving := true }
  else s.portPower p

/-- R280: a culverted, enabled port enters TRAINING, and with it the other port of the axis. -/
def State.beginTraining (s : State) (p : PortId) : State :=
  let s := s.portTo p .training
  if (s.portAt (mate p)).st = .culverted ∧ s.vulEn (mate p) then s.portTo (mate p) .training else s

/-- R297: a write of VUL_CTL.retrain. -/
def State.vulRetrain (s : State) (p : PortId) : State :=
  match (s.portAt p).st with
  | .active => s.retrain p 0
  | .culverted => if s.vulEn p then s.beginTraining p else s
  | _ => s

/-- R283: width of a link: 3 ×8, 1 ×4 on lanes 0 to 3, 2 ×4 on lanes 4 to 7; none where neither half is good. -/
def linkWidth (a b : BitVec 8) : Option (BitVec 2) :=
  let g := a &&& b
  if g = 0xFF then some 3 else if g &&& 0x0F = 0x0F then some 1 else if g &&& 0xF0 = 0xF0 then some 2 else none

/-- Slots of a message area. -/
def areaSlots (l : List Byte) : List (BitVec 256) := (List.range 7).map fun i => BitVec.ofNat 256 (leNat ((l.drop (32 * i)).take 32))
/-- A list in pieces of `n`. -/
def pieces (n : Nat) (l : List Byte) : List (List Byte) := (List.range ((l.length + n - 1) / n)).map fun i => (l.drop (n * i)).take n

/-- R395: the chain of certificate slot 0. -/
def State.certChain (s : State) : List Byte := Config.rootCert ++ s.chitin.fuses.devCert ++ s.chitin.aliasCert

/-- R374: the owner's key hash, as the slot that verified the image holds it. -/
def State.ownerHash (s : State) (m : Image) : BitVec 384 := ((s.chitin.fuses.keys.getD (imgKslot m).toNat none).getD 0)
/-- R397: what an end sends in KEYING: its ephemeral ECDH key, its certificate chain, its fleet value and its device ID, signed by its Alias key; in what
order they stand, no rule says (log 143, DESIGN CHOICE). -/
def State.hello (s : State) (eph : BitVec 384) : List Byte :=
  let b := natLe 96 (Config.ecdsaPub eph).toNat ++ s.certChain ++ natLe 4 ((s.chitin.image.map imgFleet).getD 0).toNat ++ natLe 4 s.devId.toNat
  b ++ natLe 96 (Config.ecdsaSign (aliasKey s.chitin.cdi) b).toNat

/-- R284, R288, R397: the port draws an ephemeral key and sends its part of the exchange in KEY flits, in the clear. -/
def State.sendKey (s : State) (p : PortId) : State :=
  let eph : BitVec 384 := BitVec.ofNat 384 (s.draw 0)
  let s := (s.setPort p { s.portAt p with eph := eph }).drawn
  let l := pieces 224 (s.hello eph)
  { s with out := s.out ++ l.map fun b => .flit p (lanesOf (laneCount (s.portAt p).width)
      (flitBytes { hdr := flitHdr 0 0 false false 0 0 false .key, slots := areaSlots (fit 224 b) } 0 0)) }

/-- R288: key (`i` = 0) or salt (`i` = 1) of the direction that a device sends in, from the secret of the exchange; the KDF's context is not given
(log 143, DESIGN CHOICE). -/
def linkKey (z : BitVec 384) (from_ : BitVec 18) (i : Nat) : BitVec 384 := Config.kdf z (natLe 4 from_.toNat ++ natLe 1 i)

/-- LINK_TRAINING_COMPLETE. A port whose culvert is closed, for the other port of its axis does not train with it, joins no link (R280). -/
def State.trained (s : State) (p : PortId) (tr : Training) : State :=
  let q := s.portAt p
  if q.st ≠ .training ∧ ¬(q.st = .retrain ∧ q.width = 0) then s else
  let s := s.setPort p { q with lanes := tr.good }
  if !q.isOpen then s.attemptFails p 3 false else
  if !tr.signal then s.attemptFails p 1 false else
  match linkWidth tr.good tr.peerGood with
  | none => s.attemptFails p 2 false
  | some w =>
    let s := s.setPort p { s.portAt p with width := w, gen2 := !bit (s.reg (portBase p)) 1 && tr.peerGen2 }
    (if q.st = .training then s.portTo p .keying else s).sendKey p

/-- R397: may the peer be admitted? -/
def State.admits (s : State) (p : PortId) (h : PeerHello) : Bool :=
  h.chainOk && decide (s.chitin.image.map s.ownerHash = some h.owner) && decide (s.chitin.image.map imgFleet = some h.fleet)
    && (List.range 3).all (fun a => decide (a = axisOf p) || decide (devCoord h.id a = devCoord s.devId a))
    && decide (h.id ≠ s.devId)

/-- R287: credits of the five channels when they are full. -/
def fullCredits : List Nat := [64, 8192, 8192, 8192, 8192]

/-- R282: distance along a port's axis, in its direction, from this device to a peer; the field holds up to 7. -/
def State.spanTo (s : State) (p : PortId) (id : BitVec 18) : BitVec 3 :=
  let a := axisOf p; let n := s.axisSize a
  let o := devCoord s.devId a % n; let c := devCoord id a % n
  BitVec.ofNat 3 (min 7 ((if p.val % 2 = 0 then c + n - o else o + n - c) % n))

/-- KEYING_COMPLETE: the keys and salts of both directions come out of the exchange (R288). An admitted peer takes the port to ACTIVE: sequence numbers and epoch begin anew, credits are full, and
messages not wholly acknowledged go first (R281). -/
def State.keyed (s : State) (p : PortId) (h : PeerHello) : State :=
  let q := s.portAt p
  if q.st ≠ .keying ∧ ¬(q.st = .retrain ∧ q.width ≠ 0) then s
  else if !q.isOpen then s.attemptFails p 3 false
  else if !s.admits p h then s.attemptFails p 4 true
  else
    let z := Config.ecdh q.eph h.eph
    let q := { q with peer := h.id, span := s.spanTo p h.id, peerValid := true, epoch := false, epochNo := 0, credits := fullCredits, txSeq := 0, rxNext := 0,
                      replay := [], nakDue := false, txWait := q.held, resend := q.sent.length + q.resend, sent := [], trainFails := 0, discardAt := [], tagRun := 0,
                      freed := [0, 0, 0, 0, 0], timeSeq := 0, txKey := (linkKey z s.devId 0).setWidth 256, txSalt := (linkKey z s.devId 1).setWidth 32,
                      rxKey := (linkKey z h.id 0).setWidth 256, rxSalt := (linkKey z h.id 1).setWidth 32 }
    let q := { q with leaving := q.leaving || decide ((s.domAt (domVul p)).target = 2) || !s.vulEn p }
    let s := (s.setPort p q).portTo p .active
    s.pump p q.txWait.length

/-- CULVERT_CLOSE. -/
def State.culvertClose (s : State) (axis : Fin 3) : State :=
  let p := axisPort axis.val 0
  if s.mayOpen p then s else
  let s := s.setPort p { s.portAt p with isOpen := false }
  s.setPort (mate p) { s.portAt (mate p) with isOpen := false }

/-- PORT_LEAVE: a leaving port whose replay buffer is empty and whose messages are delivered sends LEAVE and closes. -/
def State.portLeave (s : State) (p : PortId) : State :=
  let q := s.portAt p
  if q.st ≠ .active ∨ !q.leaving ∨ !q.replay.isEmpty ∨ !q.bufs.isEmpty ∨ !q.rxPart.isEmpty ∨ q.rxFlit.isSome then s
  else (s.sendFlit p .leave []).fall p

/-! ## Flits (R284 to R288) -/

/-- R284: the full number of an acknowledgement: the last one sent with its low 24 bits. -/
def Port.ackFull (q : Port) (a : BitVec 24) : Nat :=
  let top := q.txSeq.toNat / 2 ^ 24 * 2 ^ 24 + a.toNat
  if top < q.txSeq.toNat then top else top - 2 ^ 24

/-- R286, R287: acknowledgement and credits of a header. -/
def Port.takeHeader (q : Port) (f : Flit) : Port :=
  let q :=
    if flitAckV f then
      let a := q.ackFull (flitAck f)
      { q with replay := q.replay.filter fun x => decide (a < x.1.toNat), sent := q.sent.filter fun x => decide (a < x.1.toNat) }
    else q
  let v := flitCvc f
  if v < 5 then { q with credits := q.credits.set v (min (fullCredits.getD v 0) (q.credits.getD v 0 + flitCredits f)) } else q

/-- R286: a nak has the flits after those it acknowledges sent again, as they were. -/
def State.replay (s : State) (p : PortId) (f : Flit) : State :=
  if !flitNak f then s else each s (s.portAt p).replay fun s x => s.transmit p x.2

/-- R286: a flit is discarded: counted, a nak is sent as soon as a flit may start, and too many lead to RETRAIN. -/
def State.discard (s : State) (p : PortId) (tagBad : Bool) : State :=
  let q := s.portAt p
  let recent := (q.discardAt ++ [s.time]).filter fun x => decide (s.time.toNat < x.toNat + 1000000)
  let run := if tagBad then q.tagRun + 1 else q.tagRun
  let s := s.setPort p { q with
    discarded := BitVec.ofNat 16 (satAdd 0xFFFF q.discarded.toNat 1),
    tagfail := if tagBad then BitVec.ofNat 16 (satAdd 0xFFFF q.tagfail.toNat 1) else q.tagfail,
    discardAt := recent, tagRun := run, nakDue := true }
  if 16 ≤ recent.length then s.retrain p 5 else if 4 ≤ run then s.retrain p 0 else s.sendIdle p

/-- The effect of an accepted flit by its type. -/
def State.flitBody (s : State) (p : PortId) (f : Flit) : State :=
  let s := s.setPort p { s.portAt p with rxFlit := none }
  match flitType f with
  | some .data => s.takeSlots p f.slots
  | some .leave => s.retrain p 0
  | _ => s

/-- R288: the key of an epoch from that of the epoch before it. -/
def epochKey (key : BitVec 256) (n : Nat) : BitVec 256 := (Config.kdf (key.setWidth 384) (natLe 8 n)).setWidth 256
/-- R288: the key after the flit before flit `n` + 1: every 2^32 flits a new one. -/
def nextKey (key : BitVec 256) (n : W64) : BitVec 256 := if (n + 1).toNat % 2 ^ 32 = 0 ∧ n + 1 ≠ 0 then epochKey key ((n + 1).toNat / 2 ^ 32) else key

/-- R284: byte i of a flit comes on lane i mod width. -/
def ofLanes (w : Nat) (l : List (List Byte)) : List Byte := (List.range 272).map fun i => (l.getD (i % w) []).getD (i / w) 0
/-- Places in which two byte strings differ. -/
def symbolErrors (a b : List Byte) : Nat := ((a.zip b).filter fun x => decide (x.1 ≠ x.2)).length
/-- R284: symbol errors of the even (`k` = 0) or the odd codeword of a received flit, against what the decoder leaves of it. -/
def wordErrors (got body : List Byte) (k : Nat) : Nat :=
  symbolErrors (everySecond ((got.take 256).drop k) ++ (got.drop (256 + 8 * k)).take 8) (everySecond (body.drop k) ++ rsBytes (everySecond (body.drop k)))
/-- R284, R286, R288: what a port makes of an arriving flit: codewords corrected, an uncorrectable one, the flit, its tag verified. -/
structure FlitIn where
  corrected : Nat
  uncorrectable : Bool
  flit : Flit
  tagOk : Bool
  deriving DecidableEq, Repr

/-- The FEC corrects up to 4 symbol errors in each codeword; the tag verifies where the receive key, salt and sequence number seal the plaintext to what
arrived. KEY flits are in the clear. -/
def State.received (s : State) (p : PortId) (a : FlitArrival) : FlitIn :=
  let q := s.portAt p
  let got := ofLanes (laneCount q.width) a.lanes
  let body := fit 256 a.body
  let e := [wordErrors got body 0, wordErrors got body 1]
  let hdr : BitVec 128 := BitVec.ofNat 128 (leNat (body.take 16))
  let f : Flit := { hdr := hdr, slots := areaSlots (fit 224 a.plain) }
  let key := decide (flitType f = some .key)
  { corrected := (e.filter fun n => decide (1 ≤ n ∧ n ≤ 4)).length
    uncorrectable := e.any fun n => decide (4 < n)
    flit := if key then { f with slots := areaSlots (body.drop 16) } else f
    tagOk := key || decide (body.drop 16 = sealArea q.rxKey (flitSeq f ++ q.rxSalt) (body.take 16) (fit 224 a.plain)) }

/-- FLIT_RECEIVE: a flit that was accepted before, and not yet taken, is taken first. -/
def State.flitArrives (s : State) (p : PortId) (a : FlitArrival) : State :=
  let s := match (s.portAt p).rxFlit with | some g => s.flitBody p g | none => s
  let q := s.portAt p
  let f := s.received p a
  let key := decide (flitType f.flit = some .key)
  if !(decide (q.st = .active) || (key && (decide (q.st = .keying) || decide (q.st = .retrain)))) then s else
  let q := { q with feccnt := BitVec.ofNat 32 (satAdd 0xFFFFFFFF q.feccnt.toNat f.corrected) }
  let s := s.setPort p q
  if key then if f.uncorrectable then s else s.setPort p { q with rxFlit := some f.flit, rxAt := s.spineStamp (dieOfPort p) }
  else if f.uncorrectable then s.discard p false
  else if !f.tagOk then s.discard p true
  else if flitSeq f.flit ≠ q.rxNext then s.discard p false
  else
    let q := { q.takeHeader f.flit with
      rxNext := q.rxNext + 1, tagRun := 0, rxFlit := some f.flit, rxAt := s.spineStamp (dieOfPort p), rxKey := nextKey q.rxKey q.rxNext }
    ((s.setPort p q).replay p f.flit).pump p q.txWait.length

/-- An accepted flit of a type is taken. -/
def State.flitTaken (s : State) (p : PortId) (f : Flit) (ty : FlitType) : State :=
  if (s.portAt p).rxFlit = some f ∧ flitType f = some ty then s.flitBody p f else s

/-! ## Messages -/

/-- R462: a device-wide global stop holds every message. -/
def State.vulHeld (s : State) : Bool := decide (s.gs.st ≠ .running) && s.gs.device

/-- The list without its first element that `p` holds of. -/
def dropFirst {α : Type} (p : α → Bool) : List α → List α
  | [] => []
  | x :: l => if p x then l else x :: dropFirst p l

/-- The first message of a channel's buffer. -/
def Port.headOf (q : Port) (vc : Nat) : Option Msg := (q.bufs.find? fun x => decide (x.1.toNat = vc)).map (·.2)

/-- A message leaves its buffer, and its slots are returned as credits (R287). -/
def Port.take (q : Port) (vc : Nat) (m : Msg) : Port :=
  { q with bufs := dropFirst (fun x => decide (x.1.toNat = vc) && decide (x.2 = m)) q.bufs,
           freed := q.freed.set vc (q.freed.getD vc 0 + msgSlots m.ty m.lenM1.toNat) }

/-- A message of a type at the head of a channel, that nothing holds, is performed. -/
def State.onMsg (s : State) (p : PortId) (vc : BitVec 3) (ty : MsgType) (f : State → Msg → Option (Nat × Bool) → State) : State :=
  match (s.portAt p).headOf vc.toNat with
  | none => s
  | some m => if m.ty ≠ ty ∨ s.vulHeld then s
      else f (s.setPort p ((s.portAt p).take vc.toNat m)) m (some (axisOf p, decide (vc.toNat % 2 = 0 ∧ vc.toNat ≠ 0)))

/-- The wake that a held request asks for (R403, R405). -/
def State.wakeFor (s : State) (m : Msg) : State :=
  match s.reqPlace m with
  | .error _ => s
  | .ok (_, x) => if s.serves x.dom && (match x with | .hbm _ _ => true | .tile t _ => s.runs t) then s else s.askWake x.dom

/-- R290, R292, R296: a request is served here and sent on to its next part, forwarded, or answered NO_ROUTE. -/
def State.requestHop (s : State) (p : PortId) (m : Msg) (came : Option (Nat × Bool)) : State :=
  match s.partHere (some p) m with
  | some j => (s.serve m (some p) j).forward m (some p) came j 64
  | none => match s.route m.dst came with
    | .port q c => s.emit q (1 + nat01 c) m
    | _ => (s.nackRoute m 0).forward m (some p) came 0 64

/-- MSG_WRITE, MSG_READ, MSG_SIGNAL: one that waits where it arrives stays in its buffer. -/
def State.request (s : State) (p : PortId) (vc : BitVec 3) (ty : MsgType) : State :=
  match (s.portAt p).headOf vc.toNat with
  | none => s
  | some m =>
    if m.ty = ty ∧ !s.vulHeld ∧ (s.partHere (some p) m).isSome ∧ s.reqHeld m then s.wakeFor m
    else s.onMsg p vc ty fun s m came => s.requestHop p m came

/-- R425: a READ_DATA that brings poison is recorded. -/
def State.readPoison (s : State) (p : PortId) (m : Msg) : State :=
  if m.ty = .readData ∧ m.status = 5 ∧ m.dst = s.devId ∧ s.vulReqs.any (fun r => decide (r.tag = m.tag)) then
    s.errHead (dieOfPort p) (s.unitErr none 2 .vul 7 m.raddr.toNat 0 p.val)
  else s

/-- R290: a response arrives at its source, or is forwarded. -/
def State.response (s : State) (p : PortId) (vc : BitVec 3) (ty : MsgType) : State :=
  s.onMsg p vc ty fun s m came => (s.readPoison p m).sendReply m came

/-- R294, Table 18-6: the record of a TIME message, in every partition that traces. -/
def State.timeMsg (s : State) (p : PortId) : State :=
  s.onMsg p 0 .time fun s m _ =>
    each s s.loadedParts fun s g => s.traceUnitAt g 0x07 6 (m.src.toNat + p.val * 2 ^ 18) m.value.toNat none m.raddr

/-- MSG_STOP (R295, R459, R462): what arrived before it is in flight; a device that accepts it begins a device stop. -/
def State.stopMsg (s : State) (p : PortId) : State :=
  let q := s.portAt p
  match q.bufs.find? fun x => decide (x.2.ty = .stop) with
  | none => s
  | some x =>
    let accept := bit (s.reg (dbgBase + 0x104)) 1
    let r := q.take x.1.toNat x.2
    let s := s.setPort p (if accept ∨ s.gs.st ≠ .running then
        { r with stopSeen := true, inFlight := q.bufs.takeWhile fun y => decide (y.2.ty ≠ .stop) }
      else r)
    if accept then
      s.beginStop true 0 3 p.val (tileXY (32 * (dieOfPort p % 2)) (63 * (dieOfPort p / 2)))
    else s

/-- VULOR_REQUEST_TIMEOUT: the parts that have not answered are taken as NACK TIMEOUT. Timeouts pause in a device stop (R462). -/
def State.vulTimeout (s : State) (tag : BitVec 16) : State :=
  match s.vulReqs.find? fun r => decide (r.tag = tag) with
  | none => s
  | some r =>
    if s.vulHeld then s else
    let got : W64 := match (s.movq_ r.tile r.q.toNat).inflight.find? fun x => decide (x.tag = some tag) with
      | some x => x.okParts ||| x.failParts
      | none => 0
    let s := each s (List.range r.parts) fun s i => if got.getLsbD i then s else s.vulAnswer tag i false none false
    { s with vulReqs := s.vulReqs.filter fun x => decide (x.tag ≠ tag) }

/-- R294, R454: a port sends TIME; its stamp is taken when it leaves. -/
def State.sendTime (s : State) (p : PortId) : State :=
  let q := s.portAt p
  if q.st ≠ .active then s else
  s.emit p 0 { ty := .time, status := 0, dst := q.peer, src := s.devId, mcount := 0, mdir := 0, group := 0, tag := 0, lenM1 := 0, raddr := 0,
               value := 0, data := [] }

/-! ## The commands -/

/-- PORT_DOMAIN_UP (R280, R400). -/
def execPortDomainUp (p : PortId) (s : State) : Ans := .next (s.portUp p)
/-- VUL_CTL_ENABLE_WRITE (R281, R297). -/
def execVulCtlEnableWrite (by_ : Req) (p : PortId) (w : W32) (s : State) : Ans := .next (s.via by_ (portBase p) (s.pfReq by_) fun s => s.vulCtl p w)
/-- VUL_RETRAIN (R280, R297). -/
def execVulRetrain (by_ : Req) (p : PortId) (s : State) : Ans := .next (s.via by_ (portBase p) (s.pfReq by_) fun s => s.vulRetrain p)
/-- LINK_TRAINING_COMPLETE (R282, R283). -/
def execLinkTrainingComplete (p : PortId) (tr : Training) (s : State) : Ans := .next (s.trained p tr)
/-- TRAINING_TIMEOUT (Table 11-4): in TRAINING, or in an attempt of RETRAIN whose lanes have not trained. -/
def execTrainingTimeout (p : PortId) (s : State) : Ans :=
  let q := s.portAt p
  .next (if q.st = .training ∨ (q.st = .retrain ∧ q.width = 0) then s.attemptFails p 3 false else s)
/-- KEYING_COMPLETE (R281, R284, R287, R288, R397). -/
def execKeyingComplete (p : PortId) (peer : PeerHello) (s : State) : Ans := .next (s.keyed p peer)
/-- KEYING_TIMEOUT (Table 11-4): in KEYING, or in an attempt of RETRAIN whose lanes have trained. -/
def execKeyingTimeout (p : PortId) (s : State) : Ans :=
  let q := s.portAt p
  .next (if q.st = .keying ∨ (q.st = .retrain ∧ q.width ≠ 0) then s.attemptFails p 3 false else s)
/-- CULVERT_CLOSE (R280). -/
def execCulvertClose (axis : Fin 3) (s : State) : Ans := .next (s.culvertClose axis)
/-- PORT_LEAVE (R281). -/
def execPortLeave (p : PortId) (s : State) : Ans := .next (s.portLeave p)
/-- LANE_LOCK_LOSS (R283, R286). -/
def execLaneLockLoss (p : PortId) (s : State) : Ans := .next (s.retrain p 0)
/-- PEER_LOST_TIMEOUT (R286). -/
def execPeerLostTimeout (p : PortId) (s : State) : Ans := .next (s.retrain p 6)
/-- FLIT_RECEIVE (R284, R286, R287). -/
def execFlitReceive (p : PortId) (f : FlitArrival) (s : State) : Ans := .next (s.flitArrives p f)
/-- FLIT_DATA (R285). -/
def execFlitData (p : PortId) (f : Flit) (s : State) : Ans := .next (s.flitTaken p f .data)
/-- FLIT_IDLE (R284): nothing beyond its header. -/
def execFlitIdle (p : PortId) (f : Flit) (s : State) : Ans := .next (s.flitTaken p f .idle)
/-- FLIT_LEAVE (R281). -/
def execFlitLeave (p : PortId) (f : Flit) (s : State) : Ans := .next (s.flitTaken p f .leave)
/-- FLIT_KEY (R284, R288): the exchange it carries ends in KEYING_COMPLETE. -/
def execFlitKey (p : PortId) (f : Flit) (s : State) : Ans := .next (s.flitTaken p f .key)
/-- KEY_EPOCH_ADVANCE (R288): 2^32 flits of the epoch have been sent. -/
def execKeyEpochAdvance (p : PortId) (s : State) : Ans :=
  let q := s.portAt p
  .next (if q.st = .active ∧ q.epochNo < q.txSeq.toNat / 2 ^ 32 then
    s.setPort p { q with epoch := !q.epoch, epochNo := q.epochNo + 1, txKey := epochKey q.txKey (q.epochNo + 1) } else s)
/-- MSG_WRITE (R290, R292, R296). -/
def execMsgWrite (p : PortId) (vc : BitVec 3) (s : State) : Ans := .next (s.request p vc .write)
/-- MSG_READ (R290, R292). -/
def execMsgRead (p : PortId) (vc : BitVec 3) (s : State) : Ans := .next (s.request p vc .read)
/-- MSG_SIGNAL (R290, R293, R336). -/
def execMsgSignal (p : PortId) (vc : BitVec 3) (s : State) : Ans := .next (s.request p vc .signal)
/-- MSG_ACK (R291, R293). -/
def execMsgAck (p : PortId) (vc : BitVec 3) (s : State) : Ans := .next (s.response p vc .ack)
/-- MSG_READ_DATA (R292, R293, R425). -/
def execMsgReadData (p : PortId) (vc : BitVec 3) (s : State) : Ans := .next (s.response p vc .readData)
/-- MSG_NACK (R291, R293, R337). -/
def execMsgNack (p : PortId) (vc : BitVec 3) (s : State) : Ans := .next (s.response p vc .nack)
/-- MSG_TIME (R294). -/
def execMsgTime (p : PortId) (s : State) : Ans := .next (s.timeMsg p)
/-- MSG_STOP (R295, R459, R462). -/
def execMsgStop (p : PortId) (s : State) : Ans := .next (s.stopMsg p)
/-- VULOR_REQUEST_TIMEOUT (R292, R462). -/
def execVulorRequestTimeout (tag : BitVec 16) (s : State) : Ans := .next (s.vulTimeout tag)
/-- TIME_MESSAGE_PERIOD (R294): VUL_TIMECFG.period flits have been sent since the last. -/
def execTimeMessagePeriod (p : PortId) (s : State) : Ans :=
  let n := s.regF (portBase p + 0x40) 23 0
  let q := s.portAt p
  .next (if n = 0 ∨ q.txSeq.toNat < q.timeSeq.toNat + n then s else (s.setPort p { q with timeSeq := q.txSeq }).sendTime p)
/-- VULOR_COUNTER_CLEAR (R297). -/
def execVulorCounterClear (by_ : Req) (p : PortId) (s : State) : Ans :=
  .next (s.via by_ (portBase p) (s.pfReq by_) fun s => s.setPort p { s.portAt p with feccnt := 0, discarded := 0, tagfail := 0, retrains := 0, failures := 0 })
/-- CANAL_COUNTER_CLEAR (R299). -/
def execCanalCounterClear (by_ : Req) (n : BitVec 2) (s : State) : Ans :=
  .next (s.via by_ (spineBase n.toNat) (s.pfReq by_) fun s => (s.setReg (spineBase n.toNat + 4) 0).setReg (spineBase n.toNat + 8) 0)

end Sys2Proof.Machine
end

