-- ==== Sys2Proof/Machine/Trace.lean ====
section
/-!
DEFINITION. Command windows and identity (R440, R443), light-counter samples (R445), the way of trace records to the ring
(R452), firefly beacons (R454), core triggers (R457) and the global stop up to its snapshot (R459 to R463).
-/
namespace Sys2Proof.Machine

/-! ## Windows and identity -/

/-- R447, R448: the statistics at their reset. -/
def State.clearStats (s : State) (t : TileId) : State :=
  let s := s.setTile t { s.tileAt t with sums := [] }
  each s [0xC0, 0xC4, 0xC8, 0xCC, 0xD0, 0xD4, 0xE0, 0xE4] fun s o => s.setReg (obsBase t + o) (resetWord (obsBase t + o))

/-- R443: a start event. -/
def State.windowStart (s : State) (t : TileId) : State :=
  let s := s.latchCounters t 0x40
  let s := each s (List.range 16) fun s n => s.setReg (obsBase t + 4 * n) 0
  let s := s.clearStats t
  s.setTile t { s.tileAt t with inwin := true }

/-- R440: the identity that a LAUNCH writes, which opens a window. -/
def State.identify (s : State) (t : TileId) (tag : W32) (layer operator : W16) (fa1 : Bool) : State :=
  let b := obsBase t
  let s := ((s.setReg (b + 0xF0) tag).setReg (b + 0xF4) (if fa1 then 0 else operator ++ layer)).setReg (b + 0xF8)
    (BitVec.ofNat 32 (1 + 2 * nat01 fa1))
  let s := s.windowStart t
  s.setTile t { s.tileAt t with launched := true }

/-! ## Light counters -/

/-- R445: tiles with an engine that is not IDLE. -/
def State.busyTiles (s : State) : List Nat := ((s.eng.filter fun e => decide (e.2.st ≠ .idle)).map fun e => e.1 / 4).eraseDups
/-- R445: tiles with an MX.PROB running. -/
def State.probTiles (s : State) : List Nat := (s.tile.filter fun e => e.2.mxq.any (·.running)).map fun e => e.1
/-- R445: colonies whose domain is in SLEEP or OFF. -/
def State.darkCols (s : State) : List ColId :=
  ((List.range 256).map (BitVec.ofNat 8)).filter fun c => decide (3 ≤ (s.domAt (1 + tdomOfCol c)).st.toNat)

/-- LIGHT_COUNTER_SAMPLE: `energy` millijoules since the last sample. -/
def State.lightSample (s : State) (energy : Nat) : State :=
  let of_ := fun (p : PartId) (l : List Nat) => (l.filter fun t => decide (s.partOf (BitVec.ofNat 12 t) = some p)).length
  let b := s.busyTiles; let m := s.probTiles; let d := s.darkCols
  let s0 := s
  let s := each s s.loadedParts fun s p =>
    let s := s.lightP (some p) 0 (of_ p b)
    let s := s.lightP (some p) 1 (of_ p m)
    s.lightP (some p) 2 (16 * (d.filter fun c => decide (s0.partOfCol c = some p)).length)
  let s := (s.add64 dbgBase b.length).add64 (dbgBase + 8) m.length
  (s.add64 (dbgBase + 16) (16 * d.length)).add64 (dbgBase + 48) energy

/-! ## Trace records -/

/-- Table 18-5. -/
def TraceRec.bytes (r : TraceRec) : List Byte :=
  natLe 4 (r.ty.toNat + r.unit.toNat * 2 ^ 8 + nat01 r.idm * 2 ^ 12 + r.tile.toNat * 2 ^ 16)
    ++ natLe 4 (r.ctx.toNat + nat01 r.ctxV * 2 ^ 8 + r.part.toNat * 2 ^ 9)
    ++ natLe 8 r.time.toNat ++ natLe 8 r.place.toNat ++ natLe 8 r.info.toNat

/-- R452: a tile sends a packet of up to two records; records that were lost are reported once the FIFO has room. -/
def State.tracePacket (s : State) (t : TileId) : State :=
  let tl := s.tileAt t
  match tl.fifo, s.partOf t with
  | [], _ => s
  | _ :: _, none => s.setTile t { tl with fifo := [] }
  | l, some p =>
    let s := s.setTile t { tl with fifo := l.drop 2, fifoLost := 0 }
    let s := s.inject { cls := .trace, src := .tile t, dst := .spine (BitVec.ofNat 2 (dieOf t)), data := 1, load := .traces p (l.take 2), bad := false }
    if tl.fifoLost = 0 then s else
    s.setTile t { s.tileAt t with fifo := (s.tileAt t).fifo ++ [s.tileRec t p 9 0 0 tl.fifoLost.toNat] }

/-- R469: records that the ring holds, and whether it is full. -/
def State.trFull (s : State) (p : PartId) : Bool :=
  let b := partBase p
  decide (((s.partAt p).trwr - (s.reg (b + 0x750)).extractLsb' 0 27).toNat = 2 ^ s.regF (b + 0x748) 4 0)

/-- A record goes into the ring. -/
def State.ringPut (s : State) (p : PartId) (r : TraceRec) : State :=
  let b := partBase p
  let q := s.partAt p
  let a := (s.reg64 (b + 0x740) (b + 0x744)).toNat + 32 * (q.trwr.toNat % 2 ^ s.regF (b + 0x748) 4 0)
  let s := s.setPart p { q with trwr := q.trwr + 1 }
  match s.hbmOf p a 32 with
  | none => s
  | some h => s.putHbm h r.bytes false

/-- HBM stacks of a ring slot that does not serve. -/
def State.ringDom (s : State) (p : PartId) : Option Nat :=
  let b := partBase p
  (s.hbmOf p ((s.reg64 (b + 0x740) (b + 0x744)).toNat + 32 * ((s.partAt p).trwr.toNat % 2 ^ s.regF (b + 0x748) 4 0)) 32).map fun h => domHbm (stackOf h)

/-- R452: a packet of records of the partition reaches its sink. -/
def State.bringTrace (s : State) (p : PartId) : State :=
  s.bring fun s => !(s.partAt p).sink.isEmpty || !s.canal.pkts.any fun x => match x.2.load with | .traces g _ => decide (g = p) | _ => false

/-- TRACE_RING_WRITE: the sink writes a LOST record that is due, else its oldest record; a full ring loses it. -/
def State.ringWrite (s : State) (p : PartId) : State :=
  let s := s.bringTrace p
  let q := s.partAt p
  if (s.ringDom p).any fun d => !s.serves d then each s (s.ringDom p).toList fun s d => s.askWake d
  else if q.trLostPend ≠ 0 ∧ !s.trFull p then
    let r : TraceRec := { ty := 0x09, unit := 0, idm := false, tile := 0, ctx := 0, ctxV := false, part := p, time := s.spineStamp (s.partDie p), place := 0,
                          info := BitVec.ofNat 64 (q.trLostPend.toNat + 2 ^ 32) }
    (s.setPart p { q with trLostPend := 0 }).ringPut p r
  else match q.sink with
    | [] => s
    | r :: l =>
      if s.trFull p then
        s.setPart p { q with sink := l, trLostPend := q.trLostPend + 1, trLost := BitVec.ofNat 16 (satAdd 0xFFFF q.trLost.toNat 1) }
      else (s.setPart p { q with sink := l }).ringPut p r

/-! ## Firefly -/

/-- FIREFLY_BEACON. The beacon's number is DBG_FFSEQ after it is counted (log 35, DEDUCED). -/
def State.firefly (s : State) : State :=
  let w := s.reg (dbgBase + 0x140)
  if fld w 23 0 = 0 then s else
  let n := s.reg (dbgBase + 0x144) + 1
  let s := s.setReg (dbgBase + 0x144) n
  let s := each s s.loadedParts fun s p => if s.traceLevel p = 0 then s else
    each s (s.tilesIn p) fun s t => if (s.domAt (domTile t)).st.toNat ≤ 2 then s.trace t 0x08 8 0 n.toNat else s
  if bit w 24 then each s allPorts fun s p => s.sendTime p else s

/-! ## Core triggers and the global stop -/

/-- R457: a core enters debug mode at a trigger hit. A core of no partition begins no stop of partition scope (log 36, DESIGN CHOICE). -/
def State.triggerHit (s : State) (c : CoreId) : State :=
  let k := s.coreAt c
  if k.inReset ∨ k.halted then s else
  let s := s.enterDebug c 2
  let g := s.reg (dbgBase + 0x104)
  let col : ColId := BitVec.ofNat 8 c.val
  if !bit g 4 then s
  else if c.val < 256 then
    if bit g 5 ∨ (s.partOfCol col).isSome then s.localStop (tileOf col 0) 2 else s
  else if bit g 5 then s.beginStop true 0 2 0 (tileXY (32 * ((c.val - 256) % 2)) (32 * ((c.val - 256) / 2))) else s

/-- GLOBAL_STOP_GO: a write of DBG_GSTOP with go = 1. -/
def State.stopGo (s : State) (r : Req) (w : W32) : State :=
  let p : PartId := w.extractLsb' 4 6
  let dev := bit w 2
  s.beginStop dev p (match r with | .tap => 4 | _ => 0) 0 (if dev then 0 else (s.tilesIn p).headD 0)

/-- R460 step 3: the marker reaches a tile in scope, over the canal (R273). (log 58, DEDUCED) -/
def State.markerAt (s : State) (t : TileId) : State :=
  if !s.stoppedOver t ∨ (s.tileAt t).marker ∨ s.gs.st ≠ .stopping then s else
  let s := s.bring fun s => s.canal.marks.contains t
  let first := !s.tile.any fun e => e.2.marker && decide (dieOf (BitVec.ofNat 12 e.1) = dieOf t)
  let s := s.setTile t { s.tileAt t with marker := true }
  let s := s.raise (coreOfCol (colonyOf t)) 8
  let s := if first then s.raise (headCore (dieOf t)) 8 else s
  let s := each s engines fun s e => match (s.engAt t e).st with
    | .run => s.haltEngine t e .gstop
    | .wait => s.haltEngine t e .gstop
    | .stopped => s.haltEngine t e .gstop
    | _ => s
  each s (List.range 4) fun s q => s.setMovq t q { s.movq_ t q with gstop := true }

/-- R460 step 5: STOP sets out on a port of a device stop. -/
def State.sendStop (s : State) : State :=
  if s.gs.st ≠ .stopping ∨ !s.gs.device ∨ !bit (s.reg (dbgBase + 0x104)) 2 then s else
  each s allPorts fun s p =>
    let q := s.portAt p
    if q.st ≠ .active ∨ q.stopSent then s else
    (s.setPort p { q with stopSent := true }).emit p 0
      { ty := .stop, status := 0, dst := q.peer, src := s.devId, mcount := 0, mdir := 0, group := 0, tag := 0, lenM1 := 0, raddr := 0, value := 0, data := [] }

/-- R460 step 4: everything that units admitted before they stopped has completed. -/
def State.stopSettled (s : State) : Bool :=
  s.scopeTiles.all (fun t =>
    (s.tileAt t).marker && s.quiesced t && (s.tileAt t).rposts.isEmpty && !s.postComes t
      && (List.range 8).all (fun k => !(s.rsetAt t k).departing) && (List.range 4).all (fun h => !(s.haloAt t h).busy))
  && (s.waiter.all fun e => !e.2.due || !s.partStopped (BitVec.ofNat 6 (e.1 / 16384)))
  && s.queue.all fun e => !s.partStopped (BitVec.ofNat 6 (e.1 / 1024)) || e.2.cmds.all fun m => !m.isDone

/-- R463: STOP has arrived on every ACTIVE port, or the time allowed has passed. -/
def State.portsClosed (s : State) : Bool :=
  s.gs.vwait || allPorts.all fun p => decide ((s.portAt p).st ≠ .active) || (s.portAt p).stopSeen

/-! ## The commands -/

/-- LIGHT_COUNTER_SAMPLE (R445). -/
def execLightCounterSample (energy : Nat) (s : State) : Ans := .next (s.lightSample energy)
/-- WINDOW_MARK (R443, R446). -/
def execWindowMark (by_ : Req) (t : TileId) (s : State) : Ans := .next (s.via by_ (obsBase t) (s.obsReq by_ t false) fun s => s.windowStart t)
/-- WINDOW_END (R443, R446). -/
def execWindowEnd (by_ : Req) (t : TileId) (s : State) : Ans := .next (s.via by_ (obsBase t) (s.obsReq by_ t false) fun s => s.windowEnd t)
/-- TRACE_PACKET_SEND (R452). -/
def execTracePacketSend (t : TileId) (s : State) : Ans := .next (s.tracePacket t)
/-- TRACE_RING_WRITE (R452). -/
def execTraceRingWrite (p : PartId) (s : State) : Ans := .next (s.ringWrite p)
/-- TRACE_READ_UPDATE (R469). -/
def execTraceReadUpdate (by_ : Req) (p : PartId) (w : W32) (s : State) : Ans :=
  .next (s.onPart by_ p fun s => s.plainWrite (partBase p + 0x750) w)
/-- TRACE_LOST_CLEAR (R469). -/
def execTraceLostClear (by_ : Req) (p : PartId) (s : State) : Ans :=
  .next (s.onPart by_ p fun s => s.setPart p { s.partAt p with trLost := 0 })
/-- TILE_TRACE_LOST_CLEAR (R468). -/
def execTileTraceLostClear (by_ : Req) (t : TileId) (s : State) : Ans :=
  .next (s.via by_ (obsBase t) (s.obsReq by_ t true) fun s => s.setRegF (obsBase t + 0xFC) 15 0 0)
/-- FIREFLY_BEACON (R454). -/
def execFireflyBeacon (s : State) : Ans := .next s.firefly
/-- CORE_TRIGGER_HIT (R457). -/
def execCoreTriggerHit (c : CoreId) (s : State) : Ans := .next (s.triggerHit c)
/-- GLOBAL_STOP_GO (R459, R460). -/
def execGlobalStopGo (by_ : Req) (w : W32) (s : State) : Ans :=
  .next (s.via by_ dbgBase (s.dbgReq by_ && decide (by_ ≠ .chitin)) fun s => s.stopGo by_ w)
/-- STOP_MARKER_ARRIVAL (R460). -/
def execStopMarkerArrival (t : TileId) (s : State) : Ans := .next (s.markerAt t)
/-- VULOR_STOP_SEND (R460). -/
def execVulorStopSend (s : State) : Ans := .next s.sendStop
/-- MOLT_VWAIT_EXPIRY (R463). -/
def execMoltVwaitExpiry (s : State) : Ans := .next (if s.gs.st = .stopping then { s with gs := { s.gs with vwait := true } } else s)
end Sys2Proof.Machine
end

