-- ==== Sys2Proof/Machine/Hgt.lean ====
section
/-!
DEFINITION. The headgate's registers and tables: versions (R44 to R46), contexts (R322 to R325), queues (R326, R327),
memory objects (R317 to R321), events (R335), timelines (R336), waiter slots (R338) and notice records (R341 to R343).
-/
namespace Sys2Proof.Machine

/-! ## Who asks, and results (R349) -/

/-- The function that makes an access: true for the physical function, false for the partition's virtual function. (log 63, DEDUCED) -/
def State.fnKind (s : State) (r : Req) (p : PartId) : Option Bool :=
  match r with
  | .pf => some true
  | .tap => if s.debugOk then some true else none
  | .vf q => if q = p then some false else none
  | _ => none

/-- R385: until DONE is seen high, every command register answers BUSY. -/
def State.hgtReady (s : State) : Bool := decide (s.chitin.st = 1)

/-- R349: result codes. -/
def resOk : Nat := 1
def resQuota : Nat := 2
def resInvalid : Nat := 3
def resVersion : Nat := 4
def resBusy : Nat := 5
def resStale : Nat := 6

/-- HGT_CTXRESULT. -/
def State.ctxResult (s : State) (p : PartId) (c : CtxId) (r : Nat) : State := s.setReg (partBase p + 0x814) (BitVec.ofNat 32 (c.toNat + r * 2 ^ 8))
/-- HGT_QRESULT. -/
def State.qResult (s : State) (p : PartId) (q : QueueId) (r : Nat) : State := s.setReg (partBase p + 0x830) (BitVec.ofNat 32 (q.toNat + r * 2 ^ 16))
/-- HGT_OBJRESULT.result; QUERY alone changes ostate and pending. -/
def State.objResult (s : State) (p : PartId) (r : Nat) : State := s.setRegF (partBase p + 0x85C) 3 0 r
/-- HGT_EVTRESULT of an event. -/
def State.evtResult (s : State) (p : PartId) (e : Evt) : State :=
  s.setReg (partBase p + 0x868) (BitVec.ofNat 32 (resOk + nat01 e.signalled * 16 + nat01 e.error * 32))
/-- HGT_EVTRESULT.result of a command that names no event. -/
def State.evtFail (s : State) (p : PartId) (r : Nat) : State := s.setRegF (partBase p + 0x868) 3 0 r
/-- HGT_TLSIGCMD.result. -/
def State.tlResult (s : State) (p : PartId) (r : Nat) : State := s.setReg (partBase p + 0x87C) (BitVec.ofNat 32 (r * 2 ^ 8))
/-- HGT_WS_RESULT.result, with the slot that HGT_WS_CMD named last. -/
def State.wsResult (s : State) (p : PartId) (slot : BitVec 14) (r : Nat) : State :=
  (s.setReg (partBase p + 0x890) (slot.setWidth 32)).setReg (partBase p + 0x894) (BitVec.ofNat 32 r)

/-! ## Versions (R44 to R46) -/

/-- R44: a function's HGT_VERSION. -/
def verReg (pf : Bool) (p : PartId) : Nat := if pf then hgtBase + 4 * p.toNat else partBase p + 0x200

/-- Contexts of a partition that a function created and that are not FREE. -/
def State.ownedCtxs (s : State) (p : PartId) (pf : Bool) : List CtxId :=
  (s.ctx.filter fun e => decide (e.1 / 256 = p.toNat) && decide (e.2.st ≠ .free) && decide (e.2.byPf = pf)).map fun e => BitVec.ofNat 8 e.1

/-- R45: a request is settled. -/
def State.version (s : State) (r : Req) (p : PartId) (req : Nat) : State :=
  match s.fnKind r p with
  | none => s.turnedAway r 7 (partBase p)
  | some pf =>
    let a := verReg pf p
    if !s.hgtReady ∨ !(s.ownedCtxs p pf).isEmpty then s.setRegF a 15 14 2
    else if req = 3 ∨ (req = 1 ∧ s.timelineMode p) then s.setRegF a 15 14 3
    else (s.setRegF a 13 12 req).setRegF a 15 14 1

/-! ## Contexts -/

/-- R33: contexts of a partition. -/
def State.ctxCap (s : State) (p : PartId) : Nat := match s.pcfg p with | none => 0 | some g => g.contexts.toNat

/-- R323: nothing is owned by the context of a number: what outlived its last holder has no owner, and no tile names it. (log 126, DEDUCED) -/
def State.disown (s : State) (p : PartId) (c : CtxId) : State :=
  let s := each s (s.obj.filter fun e => decide (e.1 / 16777216 = p.toNat) && decide (e.2.owner = some c)) fun s e =>
    s.setObj p (e.1 % 16777216) { e.2 with owner := none }
  let s := each s (s.evt.filter fun e => decide (e.1 / 16777216 = p.toNat) && decide (e.2.owner = some c)) fun s e =>
    s.setEvt p (e.1 % 16777216) { e.2 with owner := none }
  let s := each s (s.tilesIn p) fun s t => if (s.tileAt t).owned ∧ s.ctxOf t = c then s.setTile t { s.tileAt t with owned := false } else s
  { s with vulReqs := s.vulReqs.filter fun r => !(decide (r.ty = .signal) && decide (r.part = p) && decide (r.ctx = c)) }

/-- R323, R46: CREATE. (log 89, DEDUCED) -/
def State.createCtx (s : State) (r : Req) (p : PartId) : State :=
  match s.fnKind r p with
  | none => s.turnedAway r 7 (partBase p)
  | some pf =>
    let b := partBase p
    let cfg := s.reg (b + 0x808)
    let vec := if pf then fld cfg 18 8 else fld cfg 16 8
    let granted := s.regF (verReg pf p) 13 12
    if !s.hgtReady then s.ctxResult p 0 resBusy
    else if (s.pcfg p).isNone then s.ctxResult p 0 resInvalid
    else match firstBelow (s.ctxCap p) fun i => decide ((s.ctxAt p (BitVec.ofNat 8 i)).st = .free) with
      | none => s.ctxResult p 0 resQuota
      | some i =>
        if fld cfg 4 0 < 6 ∨ 16 < fld cfg 4 0 ∨ (!pf ∧ 255 < vec) then s.ctxResult p 0 resInvalid
        else if granted = 0 ∧ s.timelineMode p then s.ctxResult p 0 resVersion
        else
          let s := if granted = 0 then s.setRegF (verReg pf p) 13 12 1 else s
          let pas := s.reg (b + 0x80C)
          let c : CtxId := BitVec.ofNat 8 i
          let x : Ctx :=
            { st := .active, byPf := pf, fa1 := decide (s.regF (verReg pf p) 13 12 = 1), ring := s.reg64 (b + 0x800) (b + 0x804),
              nlog2 := cfg.extractLsb' 0 5, vector := BitVec.ofNat 11 vec, vecEn := bit cfg 19, pasid := pas.extractLsb' 0 20, pasidEn := bit pas 31 }
          ((s.disown p c).setCtx p c x).ctxResult p c resOk

/-- R316: the PASID that the device's accesses for a context carry. -/
def Ctx.pasidOf (x : Ctx) : Option (BitVec 20) := if x.pasidEn then some x.pasid else none

/-- Open queues of a context. -/
def State.ctxQueues (s : State) (p : PartId) (c : CtxId) : List (QueueId × Queue) :=
  (s.queuesOf p).filter fun e => e.2.isOpen && decide (e.2.ctx = c)

/-! ## Waiter slots -/

/-- R338: an armed slot whose wait is satisfied fires: it disarms, and does what it is armed for. -/
def State.fireSlot (s : State) (p : PartId) (i : Nat) : State :=
  let w := s.waiterAt p i
  if !w.armed ∨ !w.due then s else
  let s := (s.disarm p i).traceUnit p 0x03 5 0 i (some w.owner)
  match w.tgt with
  | .sem t n =>
    if s.runs t then (s.addSem t n 1 (posterCode 4 i)).1
    else
      let h : State := { s with heldWrites := s.heldWrites ++ [.post t n (BitVec.ofNat 14 i)] }
      h.askWake (domTile t)
  | .notice => s.notice p w.owner { s.blankNotice p 3 0 w.owner true with tag := mkHandle i w.gen }
  | .command q =>
    let Q := s.queueAt p q
    match Q.next with
    | none => s
    | some m => if m.slot = some (BitVec.ofNat 14 i) then s.setQueue p q (Q.setNext { m with slot := none, waitOk := true, waitErr := w.err }) else s

/-- Slots of a partition that a predicate chooses. -/
def State.slotsWhere (s : State) (p : PartId) (f : Waiter → Bool) : List Nat :=
  (s.waiter.filter fun e => decide (e.1 / 16384 = p.toNat) && f e.2).map fun e => e.1 % 16384

/-- R340: the slots whose waits are satisfied fire. -/
def State.fireDue (s : State) (p : PartId) : State := each s (s.slotsWhere p fun w => w.armed && w.due) fun s i => s.fireSlot p i

/-! ## Destroying a context -/

/-- R320: an object is freed with the next submission sequence. -/
def State.freeObj (s : State) (p : PartId) (i : Nat) : State :=
  let q := s.partAt p
  (s.setPart p { q with subSeq := q.subSeq + 1 }).setObj p i { s.objAt p i with st := .freeing, freeSeq := q.subSeq + 1 }

/-- R325 steps 1 to 6, once every submitted command of the context has been read. -/
def State.killSteps (s : State) (p : PartId) (c : CtxId) : State :=
  let x := s.ctxAt p c
  if !x.killing ∨ (s.ctxQueues p c).any (fun e => !e.2.subs.isEmpty) then s else
  let s := s.setCtx p c { x with killing := false }
  let s := s.complete p fun _ q m => if q.isOpen ∧ q.ctx = c ∧ m.isFetched then some 2 else none
  let s := s.complete p fun _ q m => if q.isOpen ∧ q.ctx = c ∧ m.isRunning then some 2 else none
  let s := each s (s.tilesIn p) fun s t => s.killTile t c
  let s := (s.forceSignal p c).fireDue p
  let s := each s (s.slotsWhere p fun w => w.armed && decide (w.owner = c)) fun s i => s.freeSlot p i
  let s := each s (s.evt.filter fun e => decide (e.1 / 16777216 = p.toNat) && e.2.live && decide (e.2.owner = some c)) fun s e =>
    s.setEvt p (e.1 % 16777216) { gen := nextGen e.2.gen }
  let s := each s (s.obj.filter fun e => decide (e.1 / 16777216 = p.toNat) && decide (e.2.st = .live) && decide (e.2.owner = some c) && !e.2.shared) fun s e =>
    s.freeObj p (e.1 % 16777216)
  let s := each s (s.ctxQueues p c) fun s e => s.setQueue p e.1 { e.2 with isOpen := false, stopped := false, wsWait := false }
  s.takeWaits p

/-- R325: in DYING, the records for which the ring has no place are dropped and counted. -/
def Ctx.dropWaiting (x : Ctx) : Ctx :=
  { x with waiting := x.waiting.take x.room, lostRecs := BitVec.ofNat 16 (satAdd 0xFFFF x.lostRecs.toNat (x.waiting.length - x.room)) }

/-- R325: a context is set DYING; its queues stop fetching. -/
def State.beginKill (s : State) (p : PartId) (c : CtxId) : State :=
  let s := s.setCtx p c { (s.ctxAt p c).dropWaiting with st := .dying, killing := true }
  let s := each s (s.ctxQueues p c) fun s e => s.setQueue p e.1 { e.2 with stopped := true }
  s.killSteps p c

/-- R325, R465: DESTROY of a context that is ACTIVE or LOST; one that a global stop's scope holds waits for the release. (log 64, DEDUCED) -/
def State.destroyCtx (s : State) (p : PartId) (c : CtxId) : State :=
  if (s.ctxAt p c).st ≠ .active ∧ (s.ctxAt p c).st ≠ .lost then s
  else if s.partStopped p then { s with gs := { s.gs with held := s.gs.held ++ [.destroy p c] } }
  else s.beginKill p c

/-- R325: a write of HGT_CTXCMD with op DESTROY. -/
def State.destroyCmd (s : State) (r : Req) (p : PartId) (c : CtxId) : State :=
  s.onPart r p fun s =>
  if !s.hgtReady then s.ctxResult p c resBusy
  else match (s.ctxAt p c).st with
    | .free => s.ctxResult p c resInvalid
    | .dying => s.ctxResult p c resBusy
    | _ => (s.ctxResult p c resBusy).destroyCtx p c

/-- R325, R413: the context becomes FREE. -/
def State.ctxFree (s : State) (p : PartId) (c : CtxId) : State :=
  let x := s.ctxAt p c
  if x.st ≠ .dying ∨ x.killing ∨ (s.partAt p).resetting ∨ (!x.waiting.isEmpty ∧ !x.full)
      ∨ (s.tilesIn p).any (fun t => s.killGoesOn t c) then s else
  let s := s.setCtx p c {}
  let r := s.reg (partBase p + 0x814)
  if fld r 7 0 = c.toNat ∧ fld r 11 8 = resBusy then s.ctxResult p c resOk else s

/-! ## Queues -/

/-- R33: queues of a partition. -/
def State.queueCap (s : State) (p : PartId) : Nat := match s.pcfg p with | none => 0 | some g => g.queues.toNat

/-- R326: CREATE. -/
def State.createQueue (s : State) (p : PartId) : State :=
  let b := partBase p
  let cfg := s.reg (b + 0x828)
  let c : CtxId := cfg.extractLsb' 0 8
  if !s.hgtReady then s.qResult p 0 resBusy
  else if (s.pcfg p).isNone ∨ (s.ctxAt p c).st ≠ .active ∨ fld cfg 12 8 < 4 ∨ 16 < fld cfg 12 8 then s.qResult p 0 resInvalid
  else if 16 ≤ (s.ctxQueues p c).length then s.qResult p 0 resQuota
  else match firstBelow (s.queueCap p) fun i =>
      let q := s.queueAt p (BitVec.ofNat 10 i); !q.isOpen && q.cmds.isEmpty with
    | none => s.qResult p 0 resQuota
    | some i =>
      let q : QueueId := BitVec.ofNat 10 i
      (s.setQueue p q { isOpen := true, ctx := c, prio := cfg.extractLsb' 16 2, qlog2 := cfg.extractLsb' 8 5, ring := s.reg64 (b + 0x820) (b + 0x824) }).qResult p q resOk

/-- R326, R465: DESTROY; in the scope of a global stop it waits for the release. (log 64, DEDUCED) -/
def State.destroyQueue (s : State) (p : PartId) (q : QueueId) : State :=
  let Q := s.queueAt p q
  if !s.hgtReady then s.qResult p q resBusy
  else if !Q.isOpen then s.qResult p q resInvalid
  else if s.partStopped p then ({ s with gs := { s.gs with held := s.gs.held ++ [.destroyQueue p q] } } : State).qResult p q resBusy
  else if Q.head ≠ Q.tail ∨ Q.cmds.any (fun m => !m.isDone) then s.qResult p q resBusy
  else (s.setQueue p q { Q with isOpen := false, stopped := false, wsWait := false }).qResult p q resOk

/-- R319, R327: a write of HGT_Qq_TAIL. -/
def State.submit (s : State) (p : PartId) (q : QueueId) (tail : W16) : State :=
  let Q := s.queueAt p q
  let size := 2 ^ Q.qlog2.toNat
  let t := tail.toNat % size
  let n := (t + size - Q.tail.toNat) % size
  if !Q.isOpen ∨ (s.ctxAt p Q.ctx).st = .dying ∨ n = 0 then s else
  let x := s.partAt p
  (s.setPart p { x with subSeq := x.subSeq + 1 }).setQueue p q { Q with tail := BitVec.ofNat 16 t, subs := Q.subs ++ [(n, x.subSeq + 1)] }

/-! ## Memory objects -/

/-- R318, R323, R335: a context that can own an object or an event: one of the quota that is not FREE. (log 126, DEDUCED) -/
def State.mayOwn (s : State) (p : PartId) (c : Nat) : Bool :=
  decide (c < s.ctxCap p) && decide ((s.ctxAt p (BitVec.ofNat 8 c)).st ≠ .free)

/-- R318: the staged object is one that the partition can hold: its owner within the quota, an HBM range inside the allocation, a
timeline's word aligned and, where it is local, inside the allocation (log 38, DESIGN CHOICE). -/
def State.objArgsOk (s : State) (p : PartId) : Bool :=
  let b := partBase p
  let cfg := s.reg (b + 0x850)
  let a := (s.reg64 (b + 0x840) (b + 0x844)).toNat
  let n := (s.reg64 (b + 0x848) (b + 0x84C)).toNat
  s.mayOwn p (fld cfg 7 0) && (match fld cfg 9 8 with
    | 1 => true
    | 3 => decide (a % 8 = 0) && (bit (s.reg (b + 0x848)) 31 || decide (a + 8 ≤ s.alloc p))
    | _ => decide (a + n ≤ s.alloc p))

/-- R318, R35: CREATE; in an EVENT-mode partition no timeline is another device's. One whose owner is an FA1 context is accepted (log 131, DESIGN CHOICE). -/
def State.createObj (s : State) (p : PartId) : State :=
  let b := partBase p
  let cfg := s.reg (b + 0x850)
  if !s.hgtReady then s.objResult p resBusy
  else if (s.pcfg p).isNone ∨ !s.objArgsOk p ∨ (fld cfg 9 8 = 3 ∧ bit (s.reg (b + 0x848)) 31 ∧ !s.timelineMode p) then s.objResult p resInvalid
  else match firstBelow (s.objCap p) fun i => decide ((s.objAt p i).st = .free) with
    | none => s.objResult p resQuota
    | some i =>
      let o := s.objAt p i
      let tl := decide (fld cfg 9 8 = 3)
      let lo := s.reg (b + 0x848)
      let o' : Obj :=
        { st := .live, gen := o.gen, kind := cfg.extractLsb' 8 2, owner := some (cfg.extractLsb' 0 8), shared := bit cfg 10, addr := s.reg64 (b + 0x840) (b + 0x844),
          len := s.reg64 (b + 0x848) (b + 0x84C), dev := if tl then lo.extractLsb' 0 18 else 0, remote := tl && bit lo 31 }
      ((s.setObj p i o').setReg (b + 0x858) (mkHandle i o.gen)).objResult p resOk

/-- The entry that HGT_OBJHANDLE names, if its generation stands. -/
def State.objNamed (s : State) (p : PartId) : Option Nat :=
  let h := s.reg (partBase p + 0x858)
  if hIdx h < s.objCap p ∧ (s.objAt p (hIdx h)).gen = hGen h then some (hIdx h) else none

/-- R320: FREE. -/
def State.objFree (s : State) (p : PartId) : State :=
  if !s.hgtReady then s.objResult p resBusy else
  match s.objNamed p with
  | none => s.objResult p resStale
  | some i => if (s.objAt p i).st = .live then (s.freeObj p i).objResult p resOk else s.objResult p resStale

/-- R320: does the command name the object's handle? -/
def Cmd.names (m : Cmd) (h : W32) : Bool :=
  (m.waitTl && decide (m.wait = h)) || (m.sigTl && decide (m.signal = h)) || m.launch.any fun b => decide (b.prog = h) || decide (b.args = h)

/-- R320: commands that have been fetched and not completed and name a handle. -/
def State.pendingUses (s : State) (p : PartId) (h : W32) : Nat :=
  ((s.queuesOf p).flatMap fun e => e.2.cmds.filter fun m => !m.isDone && m.names h).length

/-- R320: QUERY. -/
def State.objQuery (s : State) (p : PartId) : State :=
  let a := partBase p + 0x85C
  let h := s.reg (partBase p + 0x858)
  let code := fun (o : Obj) => match o.st with | .free => 0 | .live => 1 | .freeing => 2
  if !s.hgtReady then s.objResult p resBusy else
  match s.objNamed p with
  | none => s.setReg a (BitVec.ofNat 32 (resStale + (if hIdx h < s.objCap p then code (s.objAt p (hIdx h)) else 0) * 16))
  | some i =>
    let o := s.objAt p i
    if o.st = .free then s.setReg a (BitVec.ofNat 32 resStale)
    else s.setReg a (BitVec.ofNat 32 (resOk + code o * 16 + min 0xFFFF (s.pendingUses p h) * 2 ^ 16))

/-- R320: every command of the partition with a sequence below `f` has completed. -/
def State.doneBefore (s : State) (p : PartId) (f : W64) : Bool :=
  (s.queuesOf p).all fun e => e.2.subs.all (fun x => decide (f ≤ x.2)) && e.2.cmds.all fun m => m.isDone || decide (f ≤ m.seq)

/-- R320: release. -/
def State.objRelease (s : State) (p : PartId) (i : Nat) : State :=
  let o := s.objAt p i
  if o.st = .freeing ∧ s.doneBefore p o.freeSeq then s.setObj p i { gen := nextGen o.gen } else s

/-! ## Events and timelines -/

/-- R335: CREATE. -/
def State.createEvt (s : State) (p : PartId) (owner : CtxId) : State :=
  if !s.hgtReady then s.evtFail p resBusy
  else if (s.pcfg p).isNone ∨ !s.mayOwn p owner.toNat then s.evtFail p resInvalid
  else match firstBelow (s.evtCap p) fun i => !(s.evtAt p i).live with
    | none => s.evtFail p resQuota
    | some i =>
      let e : Evt := { live := true, gen := (s.evtAt p i).gen, owner := some owner }
      ((s.setEvt p i e).setReg (partBase p + 0x864) (mkHandle i e.gen)).evtResult p e

/-- R335: a command on the event that HGT_EVTHANDLE names. -/
def State.onEvt (s : State) (p : PartId) (f : State → Nat → State) : State :=
  let h := s.reg (partBase p + 0x864)
  if !s.hgtReady then s.evtFail p resBusy else
  match s.evtResolve p h with
  | .error _ => s.evtFail p resStale
  | .ok _ => let s := f s (hIdx h); s.evtResult p (s.evtAt p (hIdx h))

/-- R335: DESTROY, RESET and SIGNAL of an event. -/
def State.evtDestroy (s : State) (p : PartId) (i : Nat) : State := s.setEvt p i { gen := nextGen (s.evtAt p i).gen }

/-- R335, R465: DESTROY of the event that HGT_EVTHANDLE names; in the scope of a global stop it waits for the release. (log 64, DEDUCED) -/
def State.destroyEvt (s : State) (p : PartId) : State :=
  if s.hgtReady ∧ s.partStopped p ∧ (s.evtResolve p (s.reg (partBase p + 0x864))).isOk then
    ({ s with gs := { s.gs with held := s.gs.held ++ [.destroyEvent p (s.reg (partBase p + 0x864))] } } : State).evtFail p resBusy
  else s.onEvt p fun s i => s.evtDestroy p i

/-- R336: HGT_TLSIGCMD. -/
def State.tlCmd (s : State) (p : PartId) : State :=
  let b := partBase p
  let h := s.reg (b + 0x870)
  let o := s.objAt p (hIdx h)
  if !s.hgtReady then s.tlResult p resBusy
  else if s.objCap p ≤ hIdx h ∨ o.gen ≠ hGen h ∨ o.st = .free then s.tlResult p resStale
  else if o.kind ≠ 3 ∨ o.remote then s.tlResult p resInvalid
  else (s.tlApply p o.addr (s.reg64 (b + 0x874) (b + 0x878))).tlResult p resOk

/-- R338: HGT_WS_CMD arms a slot; one on a fence that is already satisfied fires at once. A slot whose owner is an FA1 context may watch a timeline
(log 131, DESIGN CHOICE). -/
def State.armSlot (s : State) (p : PartId) (slot : BitVec 14) (tl : Bool) : State :=
  let b := partBase p
  let h := s.reg (b + 0x880)
  let tgt := s.reg (b + 0x88C)
  let t : TileId := tgt.extractLsb' 0 12
  let w := s.waiterAt p slot.toNat
  let owner : CtxId := tgt.extractLsb' 24 8
  let fence : Except HErr Bool := if tl then
      (match s.objResolve p owner h [3] none with | .ok o => .ok o.remote | .error e => .error e)
    else (match s.evtResolve p h with | .ok _ => .ok false | .error e => .error e)
  if !s.hgtReady then s.wsResult p slot resBusy
  else if s.slotCap p ≤ slot.toNat then s.wsResult p slot resInvalid
  else if w.armed then s.wsResult p slot resBusy
  else if s.ctxCap p ≤ owner.toNat ∨ (!bit tgt 16 ∧ s.partOf t ≠ some p) then s.wsResult p slot resInvalid
  else match fence with
    | .error .stale => s.wsResult p slot resStale
    | .error .bad => s.wsResult p slot resInvalid
    | .ok true => s.wsResult p slot resInvalid
    | .ok false =>
      let v := s.reg64 (b + 0x884) (b + 0x888)
      let w' : Waiter := { w with armed := true, handle := h, tl := tl, val := v, owner := owner,
                                  tgt := if bit tgt 16 then .notice else .sem t (tgt.extractLsb' 12 4) }
      let s := s.wsResult p slot resOk
      match s.waitTest p tl h v with
      | none => (s.setWaiter p slot.toNat w').waitWake p tl h
      | some e => (s.setWaiter p slot.toNat { w' with due := true, err := e }).fireSlot p slot.toNat

/-- R338: HGT_WS_CMD disarms a slot; a slot that a command's wait holds answers BUSY (log 39, DESIGN CHOICE). -/
def State.disarmSlot (s : State) (p : PartId) (slot : BitVec 14) : State :=
  let w := s.waiterAt p slot.toNat
  if !s.hgtReady then s.wsResult p slot resBusy
  else if s.slotCap p ≤ slot.toNat then s.wsResult p slot resInvalid
  else if !w.armed then s.wsResult p slot resOk
  else match w.tgt with
    | .command _ => s.wsResult p slot resBusy
    | _ => ((s.disarm p slot.toNat).wsResult p slot resOk).takeWaits p

/-! ## Notice records -/

/-- Table 13-6, with the phase of the record's lap. -/
def Notice.bytes (n : Notice) (phase : Bool) : List Byte :=
  natLe 4 (n.ty.toNat + n.status.toNat * 2 ^ 8 + nat01 phase * 2 ^ 16) ++ natLe 4 (n.queue.toNat + n.ctx.toNat * 2 ^ 16)
    ++ natLe 4 n.tag.toNat ++ natLe 4 (n.layer.toNat + n.operator.toNat * 2 ^ 16) ++ natLe 8 n.seq.toNat ++ natLe 8 n.time.toNat
    ++ natLe 8 n.place.toNat ++ natLe 8 n.addr.toNat ++ natLe 8 n.parts.toNat ++ natLe 8 0

/-- R341, Table 13-8: the phase of the next record. -/
def Ctx.phase (x : Ctx) : Bool := !x.nwrite.getLsbD x.nlog2.toNat

/-- R343: the MSI-X message of a record: none where the context sends none. -/
def noticeVector (p : PartId) (x : Ctx) (n : Notice) : Option Out :=
  if n.ty = 4 ∧ !x.byPf then some (.msix (some p) 256)
  else if x.vecEn ∧ (n.ty ≠ 1 ∨ n.irq) then some (.msix (if x.byPf then none else some p) x.vector) else none

/-- R342, R343: the oldest record is written where the ring has room, and its message follows. -/
def State.noticeWrite (s : State) (p : PartId) (c : CtxId) : State :=
  let x := s.ctxAt p c
  match x.waiting with
  | [] => s
  | n :: l =>
    if x.st = .free ∨ x.full then s else
    let a := x.ring.toNat + 64 * (x.nwrite.toNat % 2 ^ x.nlog2.toNat)
    let s := s.hostWrite x.pasidOf a (n.bytes x.phase)
    let s := s.setCtx p c { x with waiting := l, nwrite := x.nwrite + 1 }
    match noticeVector p x n with
    | none => s
    | some o => s.send o

end Sys2Proof.Machine
end

