-- ==== Sys2Proof/Machine/Launch.lean ====
section
/-!
DEFINITION. Commands: their layout and checks (R328 to R330, R346), fetch (R321, R327), dispatch (R327), the program package
(R331, R332), LAUNCH (R329, R333, R334, R266) and what follows completion (R339).
-/
namespace Sys2Proof.Machine

/-! ## Layout (Tables 13-3, 13-4; R330) -/

/-- A field of `n` bytes at byte `o`. -/
def fieldAt (bs : List Byte) (o n : Nat) : Nat := leNat ((bs.drop o).take n)

/-- R330: the FA2 bytes that a 64-byte FA1 command translates to. -/
def fa1Bytes (bs : List Byte) : List Byte :=
  bs.take 2 ++ natLe 6 0 ++ (bs.drop 4).take 8 ++ natLe 8 0 ++ (bs.drop 12).take 4 ++ natLe 20 0 ++ (bs.drop 16).take 48 ++ natLe 32 0

/-- Table 13-4. -/
def bodyOf (bs : List Byte) : LaunchBody :=
  let r := BitVec.ofNat 32 (fieldAt bs 0x34 4)
  { prog := BitVec.ofNat 32 (fieldAt bs 0x30 4), rx := r.extractLsb' 0 4, ry := r.extractLsb' 4 4, rwM1 := r.extractLsb' 8 4,
    rhM1 := r.extractLsb' 12 4, args := BitVec.ofNat 32 (fieldAt bs 0x38 4), alen := BitVec.ofNat 13 (fieldAt bs 0x3C 4),
    aofs := BitVec.ofNat 64 (fieldAt bs 0x40 8), inline := (List.range 14).map fun i => BitVec.ofNat 32 (fieldAt bs (0x48 + 4 * i) 4) }

/-- Table 13-3: a fetched command. -/
def cmdOf (bs : List Byte) (seq : W64) (now : W64) : Cmd :=
  let f := BitVec.ofNat 32 (fieldAt bs 0 4)
  { seq := seq, launch := if fld f 7 0 = 1 then some (bodyOf bs) else none, notice := bit f 8, irq := bit f 9, barrier := bit f 10,
    waitTl := bit f 11, sigTl := bit f 12, layer := f.extractLsb' 16 16, operator := BitVec.ofNat 16 (fieldAt bs 4 2),
    tag := BitVec.ofNat 32 (fieldAt bs 8 4), wait := BitVec.ofNat 32 (fieldAt bs 0xC 4), waitVal := BitVec.ofNat 64 (fieldAt bs 0x10 8),
    signal := BitVec.ofNat 32 (fieldAt bs 0x18 4), sigVal := BitVec.ofNat 64 (fieldAt bs 0x20 8), st := .fetched, slot := none,
    waitOk := false, waitErr := false, stage := 0, since := now, engs := 0, shapes := [] }

/-- R328, R330, R334, R346: the command's own fields, as its bytes stand in the ring. -/
def fieldsOk (fa1 : Bool) (raw bs : List Byte) (timeline : Bool) (g : PartCfg) : Bool :=
  let f := BitVec.ofNat 32 (fieldAt bs 0 4)
  let b := bodyOf bs
  let r := fieldAt bs 0x34 4
  decide (fld f 7 0 ≤ 1) && decide (fld f 15 13 = 0)
    && (if fa1 then decide (fld f 12 11 = 0) && decide (fieldAt raw 2 2 = 0) else timeline || decide (fld f 12 11 = 0))
    && decide (fieldAt bs 6 2 = 0) && decide (fieldAt bs 0x1C 4 = 0) && decide (fieldAt bs 0x28 8 = 0)
    && (if fld f 7 0 = 0 then (bs.drop 0x30).all (· == 0)
      else decide (r < 65536) && decide (fieldAt bs 0x3C 4 ≤ 4040) && decide (fieldAt bs 0x3C 4 % 4 = 0)
        && decide (b.rx.toNat + b.rwM1.toNat < g.width.toNat) && decide (b.ry.toNat + b.rhM1.toNat < g.height.toNat))

/-- R321: status of a handle that does not resolve. -/
def HErr.status : HErr → Byte
  | .bad => 6
  | .stale => 5

/-- R321, R335, R337: the fence a command waits on: none where it may; else the status. -/
def State.waitRefused (s : State) (p : PartId) (c : CtxId) (m : Cmd) : Option Byte :=
  if m.wait = 0 then none
  else if m.waitTl then match s.objResolve p c m.wait [3] (some m.seq) with
    | .error e => some e.status
    | .ok o => if o.remote then some 6 else none
  else match s.evtResolve p m.wait with
    | .error e => some e.status
    | .ok _ => none

/-- R321, R335: the fence a command signals. -/
def State.sigRefused (s : State) (p : PartId) (c : CtxId) (m : Cmd) : Option Byte :=
  if m.signal = 0 then none
  else if m.sigTl then match s.objResolve p c m.signal [3] (some m.seq) with
    | .error e => some e.status
    | .ok _ => none
  else match s.evtResolve p m.signal with
    | .error e => some e.status
    | .ok e => if e.owner = some c then none else some 6

/-- R321: the handles of a LAUNCH. -/
def State.launchRefused (s : State) (p : PartId) (c : CtxId) (m : Cmd) : Option Byte :=
  match m.launch with
  | none => none
  | some b =>
    match s.objResolve p c b.prog [2] (some m.seq) with
    | .error e => some e.status
    | .ok _ =>
      if b.args = 0 then none else
      match s.objResolve p c b.args [0, 1] (some m.seq) with
      | .error e => some e.status
      | .ok _ => none

/-- R321, R346: the status that fetching a command gives; none where it may dispatch. -/
def State.fetchStatus (s : State) (p : PartId) (g : PartCfg) (x : Ctx) (c : CtxId) (raw bs : List Byte) (m : Cmd) : Option Byte :=
  if !fieldsOk x.fa1 raw bs g.fence g then some 4
  else (s.waitRefused p c m).orElse fun _ => (s.sigRefused p c m).orElse fun _ => s.launchRefused p c m

/-! ## Fetch -/

/-- R339, R345: a command that completes before it is listed; a rejected one always returns a COMPLETION record. -/
def State.finishCmd (s : State) (p : PartId) (q : QueueId) (m : Cmd) (st : Byte) (always : Bool) : State :=
  let Q := s.queueAt p q
  let s := s.setQueue p q { Q with cmds := Q.cmds ++ (m.after (some st)).toList }
  if m.notice ∨ always then s.notice p Q.ctx (s.cmdNotice p 1 q Q.ctx m st) else s

/-- R339: a signal that the command may not make is not applied. -/
def State.lawfulSignal (s : State) (p : PartId) (g : PartCfg) (x : Ctx) (c : CtxId) (m : Cmd) : Cmd :=
  if (m.sigTl ∧ (!g.fence ∨ x.fa1)) ∨ (s.sigRefused p c m).isSome then { m with signal := 0 } else m

/-- R327: the queue advances past one entry. -/
def Queue.advance (q : Queue) : Queue :=
  { q with head := BitVec.ofNat 16 ((q.head.toNat + 1) % 2 ^ q.qlog2.toNat),
           subs := match q.subs with | [] => [] | (n, v) :: l => if n ≤ 1 then l else (n - 1, v) :: l }

/-- R326: bytes of a ring entry. -/
def Ctx.cmdBytes (x : Ctx) : Nat := if x.fa1 then 64 else 128

/-- R327, R460: may the headgate fetch for the queue now? -/
def State.mayFetch (s : State) (p : PartId) (Q : Queue) : Bool :=
  match (s.ctxAt p Q.ctx).st with
  | .active => !Q.stopped && decide ((Q.cmds.filter fun m => !m.isDone).length < 32) && !s.partStopped p && !(s.partAt p).resetting
  | _ => !s.partStopped p

/-- COMMAND_FETCH: the entry that `r` brings. Entries of a lost context complete with CONTEXT_LOST, and those of a dying one go to the
kill of R325; a read that fails loses the context, and no more is known of the entry. (log 88, DEDUCED) -/
def State.fetchCmd (s : State) (p : PartId) (q : QueueId) (r : HostResp) : State :=
  let Q := s.queueAt p q
  let c := Q.ctx
  let x := s.ctxAt p c
  match Q.subs, s.pcfg p with
  | (_, seq) :: _, some g =>
    if !Q.isOpen ∨ !s.mayFetch p Q then s else
    let s := s.setQueue p q Q.advance
    match r with
    | .error =>
      match x.st with
      | .active => s.loseCtx p c 0x53 .none 0 0 0
      | _ => s.killSteps p c
    | .data l =>
      let raw := (l ++ List.replicate 128 0).take x.cmdBytes
      let bs := if x.fa1 then fa1Bytes raw else raw
      let m := cmdOf bs seq s.time
      match x.st with
      | .active =>
        match s.fetchStatus p g x c raw bs m with
        | none => (s.setQueue p q { s.queueAt p q with cmds := (s.queueAt p q).cmds ++ [m] }).takeWaits p
        | some st => s.finishCmd p q (s.lawfulSignal p g x c m) st true
      | .lost => s.finishCmd p q (s.lawfulSignal p g x c m) 3 false
      | _ => (s.setQueue p q { s.queueAt p q with cmds := (s.queueAt p q).cmds ++ [s.lawfulSignal p g x c m] }).killSteps p c
  | _, _ => s

/-! ## Dispatch (R327, R342) -/

/-- R333: a LAUNCH that is being staged on a tile holds it. -/
def State.stagingOn (s : State) (p : PartId) (c : ColId) : Bool :=
  (s.queuesOf p).any fun e => e.2.cmds.any fun m => decide (m.st = .staging) && m.launch.any fun b => (s.launchCols p b).contains c

/-- R327, R212: the rectangle of a LAUNCH is free: its engines are IDLE, nothing of it is in QUARANTINE or being staged. (log 67, DEDUCED) -/
def State.rectFree (s : State) (p : PartId) (b : LaunchBody) : Bool :=
  (s.launchCols p b).all fun c => !s.stagingOn p c && (tilesOfCol c).all fun t =>
    (s.tileAt t).quar.isNone && engines.all fun e => decide ((s.engAt t e).st = .idle)

/-- R329: staging slots. -/
def State.freeStage (s : State) (p : PartId) : Option Nat := firstBelow 256 fun i => !(s.partAt p).stages.contains (BitVec.ofNat 8 i)

/-- R327: every command before the next one has completed. -/
def Queue.barrierOk (q : Queue) : Bool := (q.cmds.takeWhile fun m => !m.isFetched).all (·.isDone)

/-- R327, R339, R342: the queue's next command can leave it, but for a LAUNCH's rectangle and staging slot. -/
def State.headReady (s : State) (p : PartId) (Q : Queue) (m : Cmd) : Bool :=
  let x := s.ctxAt p Q.ctx
  Q.isOpen && !Q.stopped && decide (x.st = .active) && !x.noticeWait && !s.partStopped p && !(s.partAt p).resetting
    && (decide (m.wait = 0) || m.waitOk) && (!m.barrier || Q.barrierOk)

/-- R329, Table 13-8: the queue's next command is a LAUNCH that could leave it but for a staging slot. -/
def State.stageWait (s : State) (p : PartId) (Q : Queue) : Bool :=
  (Q.next.any fun m => s.headReady p Q m && !m.waitErr && m.launch.isSome) && (s.freeStage p).isNone

/-- R327: the queue's next command dispatches, or completes with FENCE_ERROR. -/
def State.dispatchable (s : State) (p : PartId) (Q : Queue) : Bool :=
  match Q.next with
  | none => false
  | some m => s.headReady p Q m && (m.waitErr || match m.launch with
      | none => true
      | some b => s.rectFree p b && (s.freeStage p).isSome)

/-- R327: place of a queue in the order: higher priority first, then round-robin from the queue last served. -/
def State.rank (s : State) (p : PartId) (q : QueueId) (Q : Queue) : Nat :=
  let last := ((s.partAt p).rr.find? fun x => decide (x.1 = Q.prio)).map fun x => x.2.toNat
  (3 - Q.prio.toNat) * 1024 + (q.toNat + 1023 - last.getD 1023) % 1024

/-- R327: it is the queue's turn. -/
def State.turn (s : State) (p : PartId) (q : QueueId) : Bool :=
  let Q := s.queueAt p q
  s.dispatchable p Q && (s.queuesOf p).all fun e => !s.dispatchable p e.2 || decide (s.rank p q Q ≤ s.rank p e.1 e.2)

/-- The queue has been served. -/
def State.served (s : State) (p : PartId) (q : QueueId) : State :=
  let x := s.partAt p
  let pr := (s.queueAt p q).prio
  s.setPart p { x with rr := (x.rr.filter fun y => decide (y.1 ≠ pr)) ++ [(pr, q)] }

/-- Complete the next command of a queue. -/
def State.finishNext (s : State) (p : PartId) (q : QueueId) (m : Cmd) (st : Byte) (always : Bool) : State :=
  let Q := s.queueAt p q
  let i := (Q.cmds.takeWhile fun x => !x.isFetched).length
  let s := s.setQueue p q { Q with cmds := Q.cmds.take i ++ (m.after (some st)).toList ++ Q.cmds.drop (i + 1) }
  if m.notice ∨ always then s.notice p Q.ctx (s.cmdNotice p 1 q Q.ctx m st) else s

/-- CMD_NOP: a NOP dispatches and completes. -/
def State.runNop (s : State) (p : PartId) (q : QueueId) : State :=
  match (s.queueAt p q).next with
  | none => s
  | some m =>
    if m.launch.isSome ∨ !s.turn p q then s
    else (((s.served p q).finishNext p q m (if m.waitErr then 8 else 0) false)).takeWaits p

/-! ## The program package (R331, R332) -/

/-- Bytes of an object's package; none past its end or past the allocation. -/
def State.pkgBytes (s : State) (p : PartId) (o : Obj) (a n : Nat) : Option (List Byte) :=
  if a + n ≤ o.len.toNat then (s.hbmOf p (o.addr.toNat + a) n).map fun h => s.hbmBytes h n else none

/-- Table 13-5. -/
structure Pkg where
  hdr : List Byte
  /-- engine, code -/
  code : List (EngId × List W16)
  /-- descriptor, words -/
  desc : List (Nat × List W32)
  deriving DecidableEq, Repr

def Pkg.argLine (k : Pkg) : Nat := fieldAt k.hdr 4 4 % 4096
def Pkg.nplan (k : Pkg) : Nat := fieldAt k.hdr 0 4 / 256 % 16
/-- Plan entries: low and high word. -/
def Pkg.plan (k : Pkg) : List (W32 × W32) :=
  (List.range (min 8 k.nplan)).map fun i => (BitVec.ofNat 32 (fieldAt k.hdr (0x10 + 8 * i) 4), BitVec.ofNat 32 (fieldAt k.hdr (0x14 + 8 * i) 4))

/-- Halfwords of bytes. -/
def halves : List Byte → List W16
  | a :: b :: l => (b ++ a) :: halves l
  | _ => []
/-- Words of bytes. -/
def words4 (bs : List Byte) (n : Nat) : List W32 := (List.range n).map fun i => BitVec.ofNat 32 (fieldAt bs (4 * i) 4)

/-- All the elements, or none. -/
def allSome {α : Type} : List (Option α) → Option (List α)
  | [] => some []
  | none :: _ => none
  | some x :: l => (allSome l).map fun l => x :: l

/-- R331: the package of an object; none where it runs past the object. -/
def State.readPkg (s : State) (p : PartId) (o : Obj) : Option Pkg := do
  let h ← s.pkgBytes p o 0 256
  let code ← allSome (engines.map fun e =>
    (s.pkgBytes p o (fieldAt h (0x50 + 8 * e.toNat) 4) (2 * (fieldAt h (0x54 + 8 * e.toNat) 4 % 16384))).map fun b => (e, halves b))
  let ds := (List.range 6).filter fun d => (fieldAt h 8 4).testBit d
  let desc ← allSome (ds.zipIdx.map fun x => (s.pkgBytes p o (fieldAt h 0xC 4 + 64 * x.2) 64).map fun b => (x.1, words4 b 16))
  pure { hdr := h, code := code, desc := desc }

/-- The state with a tile's descriptors as a package sets them. -/
def State.withDescs (s : State) (t : TileId) (k : Pkg) : State :=
  each s k.desc fun s x => each s x.2.zipIdx fun s y => s.setTr t (0x1500 + 0x40 * x.1 + 4 * y.2) y.1

/-- R19, R331: reserved fields of the header, and its fields in range. -/
def Pkg.headerOk (k : Pkg) : Bool :=
  let h := k.hdr
  decide (fieldAt h 0 1 = 2) && decide (fieldAt h 0 4 / 4096 = 0) && decide (k.nplan ≤ 8) && decide (fieldAt h 4 4 < 4096)
    && decide (fieldAt h 8 4 < 64) && (engines.all fun e => decide (fieldAt h (0x54 + 8 * e.toNat) 4 ≤ 8192))
    && ((h.drop (0x10 + 8 * k.nplan)).take (64 - 8 * k.nplan)).all (· == 0) && (h.drop 0x70).all (· == 0)
    && k.plan.all fun x => shapeOk x.1 x.2

/-- R332, R264: a package is fit to run on a rectangle's tiles. -/
def State.pkgOk (s : State) (x : Ctx) (k : Pkg) (ts : List TileId) : Bool :=
  k.headerOk && decide (k.argLine + 65 ≤ 4095)
    && (ts.all fun t => decide (s.regF (tileBase t + 0x1E00) 27 16 ≤ k.argLine))
    && (k.desc.all fun d => let v := descOf d.2
        descFits d.2 && (!v.imem || x.byPf) && (decide (v.space ≠ 4) ||
          (decide (bit v.target 20 = x.pasidEn) && decide (v.target.extractLsb' 0 20 = x.pasid))))
    && ts.all fun t => k.code.all fun e => e.2.isEmpty || (s.withDescs t k).progOk t e.1 e.2

/-- R332: code goes into the active bank of each engine, descriptors into the tile. -/
def State.loadPkg (s : State) (t : TileId) (k : Pkg) : State :=
  let s := each s k.code fun s e => s.putImem t e.1 (s.engAt t e.1).bank 0 e.2
  s.withDescs t k

/-! ## LAUNCH (R329, R333, R334) -/

/-- Stacks that `n` bytes of partition HBM from `a` lie in. -/
def State.stacksOf (s : State) (p : PartId) (a n : Nat) : List Nat :=
  match s.hbmOf p a n with
  | none => []
  | some h => ((List.range ((h % 4096 + n + 4095) / 4096)).map fun i => stackOf (h + 4096 * i)).eraseDups

/-- Partition HBM address of a staging slot, and of a tile's identity line (R329, R333). -/
def State.stageAt (s : State) (p : PartId) (i : Nat) : Nat := (s.reg64 (partBase p + 0x8B0) (partBase p + 0x8B4)).toNat + 4160 * i
def State.identAt (s : State) (p : PartId) (t : TileId) : Nat :=
  let q := s.partAt p
  let w := match q.cfg with | none => 0 | some g => 4 * g.width.toNat
  s.stageAt p 256 + 64 * ((tileY t - 4 * q.cy.toNat) * w + (tileX t - 4 * q.cx.toNat))

/-- Table 13-4a: the launch line. -/
def launchLine (b : LaunchBody) (c : CtxId) (m : Cmd) (fa1 : Bool) : List Byte :=
  natLe 4 (b.rx.toNat + b.ry.toNat * 16 + (b.rwM1.toNat + 1) * 2 ^ 8 + (b.rhM1.toNat + 1) * 2 ^ 16) ++ natLe 4 c.toNat ++ natLe 4 m.tag.toNat
    ++ natLe 4 (if fa1 then 0 else m.layer.toNat + m.operator.toNat * 2 ^ 16) ++ natLe 8 m.seq.toNat ++ natLe 40 0

/-- R329: the argument tail: from the host, or from partition HBM; bytes past the allocation are free (log 40, DESIGN CHOICE). -/
def State.argTail (s : State) (p : PartId) (b : LaunchBody) (args : HostResp) : List Byte :=
  let n := b.alen.toNat
  if b.args = 0 then [] else
  let o := s.objAt p (hIdx b.args)
  if o.kind = 1 then match args with | .data l => (l ++ List.replicate n 0).take n | .error => []
  else match s.hbmOf p (o.addr.toNat + b.aofs.toNat) n with
    | some h => s.hbmBytes h n
    | none => s.freeBytes 0 n

/-- R329: the argument block. -/
def State.argBlock (s : State) (p : PartId) (b : LaunchBody) (args : HostResp) : List Byte :=
  ((b.inline.flatMap fun (w : W32) => natLe 4 w.toNat) ++ s.argTail p b args ++ List.replicate 4096 0).take 4096

/-- R333: the descriptor of a staging stream: HBM, direction in, queue 3, one run of `n` bytes. -/
def stageDesc (a n : Nat) : List W32 :=
  [BitVec.ofNat 32 a, BitVec.ofNat 32 (a / 2 ^ 32), 0x183, 0, BitVec.ofNat 32 (n - 1), 0x10001, 0x10001] ++ List.replicate 9 0

/-- R333 steps 1 and 2 at a tile. -/
def State.stageTile (s : State) (p : PartId) (c : CtxId) (slot line : Nat) (t : TileId) : State :=
  let s := s.spownNow t (c.setWidth 32)
  let s := s.withDescs t { hdr := [], code := [], desc := [(6, stageDesc (s.stageAt p slot) 4160), (7, stageDesc (s.identAt p t) 64)] }
  let a : Arm := { desc := 6, line := BitVec.ofNat 12 line, sem := 0, sigEn := false, rsig := false, n1 := none, farOfs := 0, mlineOfs := 0, seq := none }
  (s.arm t a).arm t { a with desc := 7, line := BitVec.ofNat 12 (line + 65) }

/-- R332, R333: a LAUNCH that dispatches with a sound package: it is loaded where the colony holds another, the block is staged, and
the colony cores set owners and start the staging streams. -/
def State.stageLaunch (s : State) (p : PartId) (q : QueueId) (m : Cmd) (b : LaunchBody) (k : Pkg) (slot : Nat) (args : HostResp) : State :=
  let Q := s.queueAt p q
  let x := s.ctxAt p Q.ctx
  let cols := s.launchCols p b
  let blk := s.argBlock p b args
  let data := blk ++ launchLine b Q.ctx m x.fa1
  let m' : Cmd := { m with st := .staging, stage := BitVec.ofNat 8 slot, since := s.time,
                           engs := BitVec.ofNat 4 (k.code.foldl (fun v e => if e.2.isEmpty then v else v + 2 ^ e.1.toNat) 0),
                           shapes := k.plan.map fun y => (bit y.1 12, y.2, BitVec.ofNat 32 (fieldAt blk (4 * fld y.1 11 0) 4)) }
  let s := s.drawn
  let s := s.setQueue p q (Q.setNext m')
  let s := s.setPart p { s.partAt p with stages := (s.partAt p).stages ++ [BitVec.ofNat 8 slot] }
  let s := each s cols fun s c =>
    if s.packageAt c = b.prog then s else (each s (tilesOfCol c) fun s t => s.loadPkg t k).setPackage c b.prog
  let s := match s.hbmOf p (s.stageAt p slot) 4160 with
    | none => s
    | some h => s.putHbm h data false
  each s (cols.flatMap tilesOfCol) fun s t => s.stageTile p Q.ctx slot k.argLine t

/-- Domains that a LAUNCH needs and that do not serve: its tiles', and the stacks of its package, arguments and slot. -/
def State.launchAsleep (s : State) (p : PartId) (b : LaunchBody) (slot : Nat) : List Nat :=
  let o := s.objAt p (hIdx b.prog)
  let a := s.objAt p (hIdx b.args)
  let st := s.stacksOf p o.addr.toNat o.len.toNat ++ s.stacksOf p (s.stageAt p slot) 4160
    ++ (if b.args = 0 ∨ a.kind = 1 then [] else s.stacksOf p (a.addr.toNat + b.aofs.toNat) b.alen.toNat)
  let tiles := ((s.launchCols p b).map fun c => 1 + tdomOfCol c).eraseDups.filter fun d => (s.domAt d).st ≠ 0
  tiles ++ (st.map domHbm).eraseDups.filter fun d => !s.serves d

/-- CMD_LAUNCH: the queue's next command, a LAUNCH, dispatches. `args` is what its argument tail's read of host memory brings. -/
def State.dispatchLaunch (s : State) (p : PartId) (q : QueueId) (args : HostResp) : State :=
  let Q := s.queueAt p q
  match Q.next with
  | none => s
  | some m =>
    match m.launch with
    | none => s
    | some b =>
      if !s.headReady p Q m then s
      else if m.waitErr then (if s.turn p q then ((s.served p q).finishNext p q m 8 false).takeWaits p else s)
      else match s.freeStage p with
        | none => s
        | some slot =>
          if !s.turn p q then s
          else if !(s.launchAsleep p b slot).isEmpty then each s (s.launchAsleep p b slot) fun s d => s.askWake d
          else
            let s := s.served p q
            let x := s.ctxAt p Q.ctx
            let cols := s.launchCols p b
            let host := decide (b.args ≠ 0) && decide ((s.objAt p (hIdx b.args)).kind = 1) && decide (b.alen ≠ 0)
            match s.readPkg p (s.objAt p (hIdx b.prog)) with
            | none => (s.finishNext p q m 7 true).takeWaits p
            | some k =>
              if (cols.any fun c => decide (s.packageAt c ≠ b.prog)) ∧ !s.pkgOk x k (cols.flatMap tilesOfCol) then
                (s.finishNext p q m 7 true).takeWaits p
              else if host ∧ args = .error then
                -- R316: an argument read that fails faults the command's context
                let m' : Cmd := { m with st := .staging, stage := BitVec.ofNat 8 slot }
                let s := s.setPart p { s.partAt p with stages := (s.partAt p).stages ++ [BitVec.ofNat 8 slot] }
                (s.setQueue p q (Q.setNext m')).loseCtx p Q.ctx 0x53 (.cmd q m') 0 0 0
              else (s.stageLaunch p q m b k slot args).takeWaits p

/-- A queue with a command replaced. -/
def Queue.swap (q : Queue) (m n : Cmd) : Queue := { q with cmds := q.cmds.map fun x => if x = m then n else x }

/-- R333 step 3: both staging streams of a tile have completed. -/
def State.staged (s : State) (t : TileId) : Bool :=
  [6, 7].all fun d => let v := s.movd_ t d; !v.armed && !v.running && v.pending.isNone

/-- LAUNCH_ENGINE_START: R266 on the oldest LAUNCH of the queue whose streams have completed, then the engines start. -/
def State.launchStart (s : State) (p : PartId) (q : QueueId) : State :=
  let Q := s.queueAt p q
  let found := Q.cmds.find? fun m => decide (m.st = .staging) && m.launch.any fun b => ((s.launchCols p b).flatMap tilesOfCol).all fun t => s.staged t
  match found with
  | none => s
  | some m =>
    match m.launch with
    | none => s
    | some b =>
      if m.shapes.any fun y => decide (y.2.1.toNat < y.2.2.toNat) then s.loseCtx p Q.ctx 0x58 (.cmd q m) 0 0 0
      else if m.shapes.any fun y => y.1 && decide (y.2.2 = 0) then s.complete p fun q' _ m' => if q' = q ∧ m' = m then some 1 else none
      else
        let s := s.setQueue p q (Q.swap m { m with st := .running })
        let fa1 := (s.ctxAt p Q.ctx).fa1
        each s ((s.launchCols p b).flatMap tilesOfCol) fun s t =>
          let s := if m.engs = 0 then s else s.identify t m.tag m.layer m.operator fa1
          each s engines fun s e => if m.engs.getLsbD e.toNat then s.startOp t e 0 else s

/-- LAUNCH_COMPLETE: the oldest running LAUNCH of the queue whose tiles are done. -/
def State.launchDone (s : State) (p : PartId) (q : QueueId) : State :=
  let Q := s.queueAt p q
  match Q.cmds.find? fun m => decide (m.st = .running) && m.launch.any fun b => ((s.launchCols p b).flatMap tilesOfCol).all fun t => s.tileDone t with
  | none => s
  | some m =>
    let s := each s ((m.launch.toList.flatMap fun b => s.launchCols p b).flatMap tilesOfCol) fun s t => s.closeWindow t
    (s.complete p fun q' _ m' => if q' = q ∧ m' = m then some 0 else none).takeWaits p

/-- LAUNCH_WATCHDOG: the queue's oldest LAUNCH has run for longer than HGT_WATCHDOG microseconds. -/
def State.watchdog (s : State) (p : PartId) (q : QueueId) : State :=
  let Q := s.queueAt p q
  let us := s.regF (partBase p + 0x8B8) 23 0
  match Q.cmds.find? fun m => m.isRunning && m.launch.isSome with
  | none => s
  | some m => if us = 0 then s else (s.reach (m.since + BitVec.ofNat 64 (us * 1000 + 1))).loseCtx p Q.ctx 0x22 (.cmd q m) 0 0 0

/-- COMMAND_SIGNAL_APPLY: the oldest completed command whose signal is outstanding signals its fence, with error unless it ended
OK or OK_EMPTY. -/
def State.applySignal (s : State) (p : PartId) (q : QueueId) : State :=
  let Q := s.queueAt p q
  match Q.cmds.find? (·.isDone) with
  | none => s
  | some m =>
    let err := match m.st with | .done st => decide (1 < st.toNat) | _ => false
    let s := s.setQueue p q { Q with cmds := Q.cmds.erase m }
    let o := s.objAt p (hIdx m.signal)
    if m.sigTl ∧ o.gen = hGen m.signal ∧ o.st ≠ .free ∧ o.kind = 3 ∧ o.remote then
      s.sendSignalFor none Q.ctx p o (if err then m.sigVal ||| 0x8000000000000000 else m.sigVal)
    else s.signal p m.sigTl m.signal m.sigVal err

end Sys2Proof.Machine
end

