-- ==== Sys2Proof/Machine/Mover.lean ====
section
/-!
DEFINITION. The mover's commands (R225 to R248): its slots, arming by register, streams and transfers, stops and their
answers.
-/
namespace Sys2Proof.Machine

/-- R225, R249: the arming that a write of MOV_CTRL makes. -/
def ctrlArm (w : W32) : Arm :=
  { desc := w.extractLsb' 0 3, line := w.extractLsb' 3 12, sem := w.extractLsb' 15 4, sigEn := bit w 19, rsig := false, n1 := none,
    farOfs := 0, mlineOfs := 0, seq := none }

/-- R225: a write of MOV_CTRL. -/
def State.movCtrl (s : State) (t : TileId) (w : W32) : State := if bit w 31 then s.arm t (ctrlArm w) else s

/-- R249: a write of MOV_DSTATd: rearm_overrun and the count. -/
def State.dstatWrite (s : State) (t : TileId) (d : Nat) (w : W32) : State :=
  let v := s.movd_ t d
  s.setMovd t d { v with rearmOverrun := v.rearmOverrun && !bit w 3, overrunCnt := if bit w 4 then 0 else v.overrunCnt }

/-- R249: MOV_STOPACT.clrcnt. -/
def State.movStopcntClear (s : State) (t : TileId) : State := s.setRegF (tileBase t + 0x1704) 31 16 0

/-- R241, R472: the function that a requester is: none the physical function, some p a virtual function. -/
def fnReq : Req → Option (Option PartId)
  | .pf => some none
  | .vf p => some (some p)
  | _ => none

/-! ## ATS (R316) -/

/-- R316: an admitted HOST transfer that used a translation of a range. -/
def atsCovers (pasid : Option (BitVec 20)) (base size : Nat) (x : Stream) (f : Xfer) : Bool :=
  let d := x.d
  decide (d.space = 4) && !f.refused && decide ((if bit d.target 20 then some (d.target.extractLsb' 0 20) else none) = pasid)
    && decide (f.far.toNat < base + size) && decide (base < f.far.toNat + f.len)

/-- The transfers, by queue, stream and position, that an ATS Invalidate Request waits for. -/
def State.atsCovered (s : State) (pasid : Option (BitVec 20)) (base size : Nat) : List (Nat × Nat × Pos) :=
  s.movq.flatMap fun e => e.2.inflight.filterMap fun f =>
    match e.2.streams[f.stream - e.2.base]? with
    | none => none
    | some x => if atsCovers pasid base size x f then some (e.1, f.stream, f.pos) else none

/-- The transfer is still in flight. -/
def State.inFlight (s : State) (k : Nat × Nat × Pos) : Bool :=
  (look (fun _ => ({} : MovQ)) s.movq k.1).inflight.any fun f => !f.refused && decide (f.stream = k.2.1) && decide (f.pos = k.2.2)

/-- R316: the Invalidate Requests whose transfers have all retired complete. -/
def State.settleAts (s : State) : State :=
  let l := s.atsWait.map fun w => w.filter s.inFlight
  each { s with atsWait := l.filter fun w => !w.isEmpty } (l.filter (·.isEmpty)) fun s _ => s.send .atsInvalidateDone

/-- R316: an ATS Invalidate Request. -/
def State.atsInval (s : State) (pasid : Option (BitVec 20)) (base size : W64) : State :=
  ({ s with atsWait := s.atsWait ++ [s.atsCovered pasid base.toNat size.toNat] } : State).settleAts

/-! ## The commands -/

/-- MOV_NOP (R225). -/
def execMovNop (t : TileId) (s : State) : Ans := .next (s.issueWord t 2 5 [{}])
/-- MOV_ISSUE (R225 to R227). -/
def execMovIssue (t : TileId) (f : IssueF) (s : State) : Ans := .next (s.issueWord t 2 5 [slotIssue t f])
/-- MOV_DRAIN (R246). -/
def execMovDrain (t : TileId) (sigEn : Bool) (sem : SemId) (s : State) : Ans := .next (s.issueWord t 2 5 [slotDrain t sigEn sem])
/-- MOV_CTRL_ARM (R225, R226). -/
def execMovCtrlArm (by_ : Req) (t : TileId) (w : W32) (s : State) : Ans := .next (s.onTile by_ t .launch fun s => s.movCtrl t w)
/-- STREAM_START (R219, R222, R228, R236). -/
def execStreamStart (t : TileId) (q : BitVec 2) (s : State) : Ans := .next (s.startStream (s.racy t .other) t q.toNat).settleAts
/-- TRANSFER_ADMIT (R230 to R233, R244). -/
def execTransferAdmit (t : TileId) (q : BitVec 2) (x : Xlat) (s : State) : Ans := .next (s.admitNext t q.toNat x).settleAts
/-- TRANSFER_RETIRE (R226, R228, R229, R245). -/
def execTransferRetire (t : TileId) (q : BitVec 2) (r : HostResp) (s : State) : Ans := .next (s.retire t q.toNat r).settleAts
/-- TRANSFER_REFUSED (R237 to R241). -/
def execTransferRefused (t : TileId) (q : BitVec 2) (x : Xlat) (s : State) : Ans := .next (s.refuse t q.toNat x)
/-- MOVER_STOP_RECORD (R238 to R241). -/
def execMoverStopRecord (t : TileId) (q : BitVec 2) (s : State) : Ans := .next (s.stopRecord t q.toNat).settleAts
/-- PRG_RESPONSE (R241). -/
def execPrgResponse (by_ : Req) (index : BitVec 9) (success : Bool) (s : State) : Ans :=
  .next (match fnReq by_ with | some fn => s.prgAnswer fn index success | none => s)
/-- MOVER_STOP_RESUME (R242). -/
def execMoverStopResume (by_ : Req) (t : TileId) (q : BitVec 2) (s : State) : Ans :=
  .next (s.onTile by_ t .open_ fun s => s.movResume t q.toNat)
/-- MOVER_STOP_FAULT (R242, R243). -/
def execMoverStopFault (by_ : Req) (t : TileId) (q : BitVec 2) (code : Byte) (s : State) : Ans :=
  .next (s.onTile by_ t .open_ fun s => (s.movStopFault t q.toNat code).settleAts)
/-- MOVER_STOPCNT_CLEAR (R249). -/
def execMoverStopcntClear (by_ : Req) (t : TileId) (s : State) : Ans := .next (s.onTile by_ t .open_ fun s => s.movStopcntClear t)
/-- QUEUE_CFG_WRITE (R231). -/
def execQueueCfgWrite (by_ : Req) (t : TileId) (q : BitVec 2) (w : W32) (s : State) : Ans :=
  .next (s.onTile by_ t .open_ fun s => s.queueCfg t q.toNat w)
/-- OVERRUN_COUNT_CLEAR (R226, R249): the count clears. -/
def execOverrunCountClear (by_ : Req) (t : TileId) (d : BitVec 3) (s : State) : Ans :=
  .next (s.onTile by_ t .open_ fun s => s.dstatWrite t d.toNat 0x10)

end Sys2Proof.Machine
end

