-- ==== Sys2Proof/Machine/Headgate.lean ====
section
/-!
DEFINITION. The headgate's commands (R44 to R46, R312 to R349): host accesses, function resets, versions, contexts, queues, memory
objects, events, timelines, waiter slots, commands and notice records.
-/
namespace Sys2Proof.Machine

/-! ## BAR2 (R314) -/

/-- R314: device HBM address of a BAR2 access; none where it completes as Unsupported Request. (log 69, DEDUCED) -/
def State.barAddr (s : State) (r : Req) (a n : Nat) : Option Nat :=
  match r with
  | .pf => if a + n ≤ Config.hbmUnits * 2 ^ 28 then some a else none
  | .vf p => s.hbmOf p a n
  | _ => none

/-- Length of a BAR2 access in bytes. -/
def barLen : Bar2Op → Nat
  | .read n => n
  | .write bs => bs.length

/-- The loaded partition whose allocation holds a device HBM address. -/
def State.ownerOf (s : State) (a : Nat) : Option PartId :=
  s.loadedParts.find? fun p => decide ((s.partAt p).hbmBase ≤ a) && decide (a < (s.partAt p).hbmBase + s.alloc p)

/-- Stacks that `n` bytes of device HBM from `a` lie in. -/
def stacksAt (a n : Nat) : List Nat := ((List.range ((a % 4096 + n + 4095) / 4096)).map fun i => stackOf (a + 4096 * i)).eraseDups

/-- R392, R403, R405: what holds an access to device HBM: its partition's reset, or a stack that does not serve. -/
def State.barWaits (s : State) (a n : Nat) : Bool :=
  ((s.ownerOf a).any fun p => (s.partAt p).resetting) || (stacksAt a n).any fun i => !s.serves (domHbm i)

/-- R314: the access takes place. -/
def State.barDo (s : State) (a : Nat) (op : Bar2Op) : State :=
  match op with
  | .read n => s.send (.bar2 (s.hbmBytes a n) (s.hbmBad a n))
  | .write bs => s.putHbm a bs false

/-- R398: an IDE stream carries TLPs only while chitin holds its keys; what goes outside every stream needs none. -/
def State.carries (s : State) : Option IdeStream → Bool
  | none => true
  | some k => s.chitin.ide.any fun x => decide (x.1 = k)

/-- R314: a BAR2 access. -/
def State.bar2 (s : State) (r : Req) (addr : W64) (op : Bar2Op) : State :=
  match r with
  | .pf | .vf _ =>
    match s.barAddr r addr.toNat (barLen op) with
    | none => s.send .unsupported
    | some a =>
      if s.barWaits a (barLen op) then
        each ({ s with barHeld := s.barHeld ++ [(r, addr, op)] } : State) (stacksAt a (barLen op)) fun s i => s.askWake (domHbm i)
      else s.barDo a op
  | _ => s

/-- The held BAR2 accesses look again, in order. -/
def State.barRetry (s : State) : State := each { s with barHeld := [] } s.barHeld fun s x => s.bar2 x.1 x.2.1 x.2.2

/-! ## Function resets (R315, R412) -/

/-- R315: every context that a function created in a partition is destroyed. -/
def State.flrPart (s : State) (p : PartId) (pf : Bool) : State := each s (s.ownedCtxs p pf) fun s c => s.destroyCtx p c

/-- R315: an FLR of a virtual function. -/
def State.flrVfNow (s : State) (p : PartId) : State := s.flrPart p false

/-- R315, R398: an FLR of the physical function. -/
def State.flrPfNow (s : State) : State :=
  each ({ s with chitin := { s.chitin with ide := [] } } : State) s.loadedParts fun s p => s.flrPart p true

/-- R400: the host port's domain is OFF only while PWR_HOSTCFG.off is 1. -/
def State.hostDom (s : State) : State := s.setDom 95 (if bit (s.reg (pwrBase + 0x10)) 0 then { st := 2 } else {})

/-- R412: PERST# is an FLR of every function, and resets the host port's domain. -/
def State.perstNow (s : State) : State := (each s.flrPfNow s.loadedParts fun s p => s.flrPart p false).hostDom

/-! ## Access -/

/-- R342, Table 13-8: a write of HGT_CTXn_NREAD: records consumed, modulo twice the ring. -/
def State.nreadWrite (s : State) (p : PartId) (c : CtxId) (w : W32) : State :=
  s.setCtx p c { s.ctxAt p c with nread := w.extractLsb' 0 17 }

/-- R335: RESET and SIGNAL of an event. -/
def State.evtReset (s : State) (p : PartId) (i : Nat) : State := s.setEvt p i { s.evtAt p i with signalled := false, error := false }
def State.evtSignal (s : State) (p : PartId) (i : Nat) : State := ((s.evtSet p i false).fireDue p).takeWaits p

/-! ## The commands -/

/-- BAR2_ACCESS (R314). -/
def execBar2Access (by_ : Req) (addr : W64) (op : Bar2Tlp) (s : State) : Ans := .next (if s.carries op.stream then s.bar2 by_ addr op.op else s)
/-- FLR_VF (R315). -/
def execFlrVf (p : PartId) (s : State) : Ans := .next (s.flrVfNow p)
/-- FLR_PF (R315, R398). -/
def execFlrPf (s : State) : Ans := .next s.flrPfNow
/-- PERST (R412). -/
def execPerst (s : State) : Ans := .next s.perstNow
/-- ATS_INVALIDATE (R316). -/
def execAtsInvalidate (pasid : Option (BitVec 20)) (base size : W64) (s : State) : Ans := .next (s.atsInval pasid base size)
/-- VERSION_REQUEST_FA1 (R45). -/
def execVersionRequestFa1 (by_ : Req) (p : PartId) (s : State) : Ans := .next (s.version by_ p 1)
/-- VERSION_REQUEST_FA2 (R45). -/
def execVersionRequestFa2 (by_ : Req) (p : PartId) (s : State) : Ans := .next (s.version by_ p 2)
/-- VERSION_REQUEST_RESERVED (R45). -/
def execVersionRequestReserved (by_ : Req) (p : PartId) (s : State) : Ans := .next (s.version by_ p 3)
/-- CONTEXT_CREATE (R323). -/
def execContextCreate (by_ : Req) (p : PartId) (s : State) : Ans := .next (s.createCtx by_ p)
/-- CONTEXT_DESTROY (R325). -/
def execContextDestroy (by_ : Req) (p : PartId) (c : CtxId) (s : State) : Ans := .next (s.destroyCmd by_ p c)
/-- CONTEXT_BECOMES_FREE (R325). -/
def execContextBecomesFree (p : PartId) (c : CtxId) (s : State) : Ans := .next (s.ctxFree p c)
/-- QUEUE_CREATE (R326). -/
def execQueueCreate (by_ : Req) (p : PartId) (s : State) : Ans := .next (s.onPart by_ p fun s => s.createQueue p)
/-- QUEUE_DESTROY (R326). -/
def execQueueDestroy (by_ : Req) (p : PartId) (q : QueueId) (s : State) : Ans := .next (s.onPart by_ p fun s => s.destroyQueue p q)
/-- OBJECT_CREATE (R318). -/
def execObjectCreate (by_ : Req) (p : PartId) (s : State) : Ans := .next (s.onPart by_ p fun s => s.createObj p)
/-- OBJECT_FREE (R320). -/
def execObjectFree (by_ : Req) (p : PartId) (s : State) : Ans := .next (s.onPart by_ p fun s => s.objFree p)
/-- OBJECT_QUERY (R320). -/
def execObjectQuery (by_ : Req) (p : PartId) (s : State) : Ans := .next (s.onPart by_ p fun s => s.objQuery p)
/-- OBJECT_RELEASE (R320). -/
def execObjectRelease (p : PartId) (idx : BitVec 24) (s : State) : Ans := .next (s.objRelease p idx.toNat)
/-- EVENT_CREATE (R335). -/
def execEventCreate (by_ : Req) (p : PartId) (owner : CtxId) (s : State) : Ans := .next (s.onPart by_ p fun s => s.createEvt p owner)
/-- EVENT_DESTROY (R335). -/
def execEventDestroy (by_ : Req) (p : PartId) (s : State) : Ans :=
  .next (s.onPart by_ p fun s => s.destroyEvt p)
/-- EVENT_RESET (R335). -/
def execEventReset (by_ : Req) (p : PartId) (s : State) : Ans := .next (s.onPart by_ p fun s => s.onEvt p fun s i => s.evtReset p i)
/-- EVENT_SIGNAL (R335, R340). -/
def execEventSignal (by_ : Req) (p : PartId) (s : State) : Ans := .next (s.onPart by_ p fun s => s.onEvt p fun s i => s.evtSignal p i)
/-- EVENT_QUERY (R335). -/
def execEventQuery (by_ : Req) (p : PartId) (s : State) : Ans := .next (s.onPart by_ p fun s => s.onEvt p fun s _ => s)
/-- TIMELINE_SIGNAL (R336, R340). -/
def execTimelineSignal (by_ : Req) (p : PartId) (s : State) : Ans := .next (s.onPart by_ p fun s => ((s.tlCmd p).fireDue p).takeWaits p)
/-- WAITER_ARM (R338). -/
def execWaiterArm (by_ : Req) (p : PartId) (slot : BitVec 14) (tl : Bool) (s : State) : Ans :=
  .next (s.onPart by_ p fun s => s.armSlot p slot tl)
/-- WAITER_DISARM (R338). -/
def execWaiterDisarm (by_ : Req) (p : PartId) (slot : BitVec 14) (s : State) : Ans := .next (s.onPart by_ p fun s => s.disarmSlot p slot)
/-- WAITER_FIRE (R338). -/
def execWaiterFire (p : PartId) (slot : BitVec 14) (s : State) : Ans := .next ((s.fireSlot p slot.toNat).takeWaits p)
/-- QUEUE_SUBMIT (R327, R319). -/
def execQueueSubmit (by_ : Req) (p : PartId) (q : QueueId) (tail : W16) (s : State) : Ans :=
  .next (s.onPart by_ p fun s => s.submit p q tail)
/-- COMMAND_FETCH (R321, R327, R330, R346). -/
def execCommandFetch (p : PartId) (q : QueueId) (r : HostResp) (s : State) : Ans := .next (s.fetchCmd p q r)
/-- CMD_NOP (R328). -/
def execCmdNop (p : PartId) (q : QueueId) (s : State) : Ans := .next (s.runNop p q)
/-- CMD_LAUNCH (R329, R332, R333). -/
def execCmdLaunch (p : PartId) (q : QueueId) (args : HostResp) (s : State) : Ans := .next (s.dispatchLaunch p q args)
/-- LAUNCH_ENGINE_START (R333, R266). -/
def execLaunchEngineStart (p : PartId) (q : QueueId) (s : State) : Ans := .next (s.launchStart p q)
/-- LAUNCH_COMPLETE (R334). -/
def execLaunchComplete (p : PartId) (q : QueueId) (s : State) : Ans := .next (s.launchDone p q)
/-- LAUNCH_WATCHDOG (R334). -/
def execLaunchWatchdog (p : PartId) (q : QueueId) (s : State) : Ans := .next (s.watchdog p q)
/-- COMMAND_SIGNAL_APPLY (R339, R340). -/
def execCommandSignalApply (p : PartId) (q : QueueId) (s : State) : Ans := .next (((s.applySignal p q).fireDue p).takeWaits p)
/-- NOTICE_RECORD_WRITE (R341 to R343). -/
def execNoticeRecordWrite (p : PartId) (c : CtxId) (s : State) : Ans := .next (s.noticeWrite p c)
/-- NOTICE_READ_UPDATE (R342). -/
def execNoticeReadUpdate (by_ : Req) (p : PartId) (c : CtxId) (w : W32) (s : State) : Ans :=
  .next (s.onPart by_ p fun s => s.nreadWrite p c w)

end Sys2Proof.Machine
end

