-- ==== Sys2Proof/Machine/Furrow.lean ====
section
/-!
DEFINITION. The furrow unit (R250 to R263): rings, rotation sets with their hops, realignment, and halo channels.
-/
namespace Sys2Proof.Machine

/-- R253: a hop advances a tile's count; a revolution advances rep, and the last of a seat the seat. -/
def State.advanceSet (s : State) (t : TileId) (k : Nat) : State :=
  let r := s.rsetAt t k
  let w := s.tr t (setOff k + 4)
  if r.count.toNat + 1 < (s.ring t).length then s.setRset t k { r with count := r.count + 1 }
  else if r.rep.toNat + 1 < fld w 31 20 then s.setRset t k { r with count := 0, rep := r.rep + 1 }
  else
    let n := r.seat.toNat + 1
    s.setRset t k { r with count := 0, rep := 0, seat := if n < fld w 19 12 then BitVec.ofNat 8 n else 0 }

/-! ## Furrow posts (R254, R260, R262) -/

/-- R262: a furrow post. -/
def State.furPost (s : State) (t : TileId) (n : SemId) (id : Nat) : State :=
  match s.addSem t n 1 (posterCode 6 id) with
  | (s, false) => s
  | (s, true) => (s.setTr t 0x1BC8 (setBit (s.tr t 0x1BC8) 9 true)).loseAt t 0x3D 0 0 0 0 0

/-- Lines that `p` chooses of a block travel from one scratchpad to another, each with its poison. -/
def State.copyLines (s : State) (t : TileId) (src : Nat) (u : TileId) (dst : Nat) (l : List Nat) : State :=
  let y := s.racy t .other
  each s l fun s j => s.putSpad u (64 * (dst + j)) (y.spadBytes t (64 * (src + j)) 64) (y.spadP t (src + j))

/-- R256: lines that land at once: of what may land, free ones. (log 79, DEDUCED) -/
def State.landing (s : State) (n : Nat) : List Nat := (List.range n).filter fun j => decide (s.draw j % 2 = 1)

/-! ## Semaphore waits of the furrow unit (R254) -/

/-- R258: a context has been killed at a tile of the ring and its QUARANTINE stands, or a global stop has reached the tile. -/
def State.ringStopped (s : State) (t : TileId) : Bool :=
  s.tileStopped t || (s.ring t).any fun u => (s.tileAt u).killEnds.isSome

/-- R254, R260: the semaphore that a rotation set (0 to 7) or a halo channel (8 to 11) of a tile tests and, at the values given, would consume. -/
def State.furClaim (s : State) (t : TileId) (v : SemId → Nat) (i : Nat) : Option SemId :=
  if !s.runs t then none
  else if i < 8 then
    let n := s.setGsem t i
    if s.holding t i ∧ !(s.rsetAt t i).departing ∧ !s.ringStopped t ∧ !(s.tileAt t).realign.getLsbD i ∧ 1 ≤ v n then some n else none
  else
    let w := s.tr t (haloOff (i - 8) + 8)
    let n : SemId := w.extractLsb' 0 4
    if bit w 12 ∧ !(s.haloAt t (i - 8)).busy ∧ !s.tileStopped t ∧ (s.haloTo t (i - 8)).isSome ∧ 1 ≤ v n then some n else none

/-- R139 step 3, R254: a semaphore's value as set or channel `i` tests it: after the engines, and after the sets and channels before it. -/
def State.furLeft (s : State) (t : TileId) (i : Nat) : SemId → Nat :=
  (List.range i).foldl (fun v j => match s.furClaim t v j with | some n => fun m => if m = n then v m - 1 else v m | none => v)
    (s.afterClaims t engines (s.semVal t))

/-! ## Rotation (R254, R258, R259) -/

/-- R254, R258, R259: what starts a departure: none; or whether it consumes gsem. In a kill, a global stop and a realign a tile departs for the
arrival that waits for it. (log 121, DEDUCED) -/
def State.departWhy (s : State) (t : TileId) (k : Nat) : Option Bool :=
  let r := s.rsetAt t k
  let pushed := (s.rsetAt (s.predTile t) k).departing
  if !s.holding t k ∨ r.departing then none
  else if s.ringStopped t then if pushed then some false else none
  else if (s.tileAt t).realign.getLsbD k then if r.count ≠ 0 ∨ pushed then some false else none
  else if (s.furClaim t (s.furLeft t k) k).isSome then some true else none

/-- One line of a departure is written at the successor: from its landing buffer, or from the tile. -/
def State.landLine (s : State) (t : TileId) (k : Nat) (u : TileId) (j : Nat) : State :=
  match (s.rsetAt t k).buf.find? fun x => decide (x.1 = j) with
  | some x => s.putSpad u (64 * (s.setLoc u k + j)) x.2.1 x.2.2
  | none => s.copyLines t (s.setLoc t k) u (s.setLoc u k) [j]

/-- R254: a departure goes on: the lines `go` land, and the lines `wait` are read into the landing buffer. -/
def State.carry (s : State) (t : TileId) (k : Nat) (go wait : List Nat) : State :=
  let u := s.succTile t
  let s := (each s go fun s j => s.landLine t k u j).inboundLines u (go.map (s.setLoc u k + ·))
  let r := s.rsetAt t k
  let held := wait.map fun j => (j, s.spadBytes t (64 * (s.setLoc t k + j)) 64, s.spadP t (s.setLoc t k + j))
  s.setRset t k { r with landed := r.landed ++ go, buf := r.buf.filter (fun x => !go.contains x.1) ++ held }

/-- R254: a departure goes as far as it can: those of the tiles before it that hold a sliver first; what may land lands, and the landing buffer
fills, 16 lines deep. -/
def State.advanceHop : Nat → State → TileId → Nat → State
  | 0, s, _, _ => s
  | n + 1, s, t, k =>
    let u := s.succTile t
    let s := if (s.rsetAt u k).departing ∧ s.holding u k then State.advanceHop n s u k else s
    let r := s.rsetAt t k
    if !r.departing then s else
    let may := if s.runs u then s.freeLines u k else []
    let todo := (List.range (s.setLines t k)).filter fun j => !r.landed.contains j
    let rest := todo.filter fun j => !may.contains j
    let held := r.buf.filter fun x => !may.contains x.1
    s.carry t k (todo.filter fun j => may.contains j) ((rest.filter fun j => !held.any fun x => decide (x.1 = j)).take (s.landRoom u + (r.buf.length - held.length)))

/-- ROTATION_DEPARTURE: of the lines that may land, free ones land at once; of those that wait, a free number stands in the landing buffer. -/
def State.depart (s : State) (t : TileId) (k : Nat) : State :=
  match s.departWhy t k with
  | none => s
  | some g =>
    if !s.runs t then s.askWake (domTile t) else
    let u := s.succTile t
    let s := if g then s.setSem t (s.setGsem t k) (s.semVal t (s.setGsem t k) - 1) else s
    let n := s.setLines t k
    let may := if s.runs u then s.freeLines u k else []
    let rest := (List.range n).filter fun j => !may.contains j
    let go := (s.landing n).filter fun j => may.contains j
    let wait := rest.take (s.draw n % (s.landRoom u + 1))
    let s := s.setRset t k { s.rsetAt t k with departing := true, posts := g, landed := [], buf := [], early := false }
    let s := (s.carry t k go wait).drawn
    if s.runs u then s else s.askWake (domTile u)

/-- ROTATION_HOP_COMPLETE: the last line is written at the successor; an arrival at a sleeping tile asks for its wake (R255). -/
def State.hopDone (s : State) (t : TileId) (k : Nat) : State :=
  let u := s.succTile t
  if !(s.rsetAt t k).departing then s
  else if !s.runs u then s.askWake (domTile u)
  else
    let s' := s.advanceHop (s.ring t).length t k
    let r := s'.rsetAt t k
    if r.landed.length < s'.setLines t k then s else
    let s := s'.setRset t k { r with departing := false, posts := false, landed := [], buf := [], early := false }
    let s := (s.advanceSet t k).advanceSet u k
    let s := if (s.rsetAt u k).departing then s.setRset u k { s.rsetAt u k with early := true } else s
    if r.posts then s.furPost u (s.setAsem u k) k else s

/-- R259: a write of FUR_CTL.realign for set k: refused while an engine of the ring runs, or a realign of the set is under way on it. -/
def State.realign1 (s : State) (t : TileId) (k : Nat) : State :=
  let l := s.ring t
  if l.any (fun u => (engines.any fun e => decide ((s.engAt u e).st ≠ .idle)) || (s.tileAt u).realign.getLsbD k) then
    s.setTr t 0x1BC8 (setBit (s.tr t 0x1BC8) 8 true)
  else each s l fun s u => s.setTile u { s.tileAt u with realign := (s.tileAt u).realign ||| BitVec.ofNat 8 (2 ^ k) }

/-- R259: a write of FUR_CTL. -/
def State.realignWrite (s : State) (t : TileId) (w : W32) : State :=
  each s (List.range 8) fun s k => if bit w k then s.realign1 t k else s

/-- REALIGN_DONE: the count has reached 0, with no hop under way, at every tile of the ring that the realign still holds. (log 121, DEDUCED) -/
def State.realignEnd (s : State) (t : TileId) (k : Nat) : State :=
  let tl := s.tileAt t
  let r := s.rsetAt t k
  if !tl.realign.getLsbD k ∨ (s.rsetAt (s.predTile t) k).departing
      ∨ (s.ring t).any (fun u => (s.tileAt u).realign.getLsbD k && (decide ((s.rsetAt u k).count ≠ 0) || (s.rsetAt u k).departing)) then s else
  let s := s.setRset t k { r with seat := 0, rep := 0 }
  let s := s.setTile t { tl with realign := tl.realign &&& ~~~(BitVec.ofNat 8 (2 ^ k)) }
  s.releaseStarts t

/-! ## Halo channels (R260) -/

/-- Lines of a send that `l` names travel. -/
def State.haloCopy (s : State) (t u : TileId) (h : Nat) (l : List Nat) : State :=
  let d := fld (s.tr t (haloOff h + 4)) 11 0
  (s.copyLines t (fld (s.tr t (haloOff h)) 11 0) u d l).inboundLines u (l.map (d + ·))

/-- HALO_SEND: a send consumes gsem and starts. -/
def State.haloStart (s : State) (t : TileId) (h : Nat) : State :=
  let w := s.tr t (haloOff h + 8)
  let g : SemId := w.extractLsb' 0 4
  match s.haloTo t h with
  | none => s
  | some u =>
    if (s.furClaim t (s.furLeft t (h + 8)) (h + 8)).isNone then s else
    let s := s.setSem t g (s.semVal t g - 1)
    let late := s.haloHeld t u h
    let l := if late ∨ !s.runs u then [] else s.landing (fld (s.tr t (haloOff h)) 23 12)
    let s := ((s.haloCopy t u h l).setHalo t h { s.haloAt t h with busy := true, landed := l, lateAt := if late then [t, u].filter fun x => (s.tileAt x).quar.isSome else [] }).drawn
    if s.runs u then s else s.askWake (domTile u)

/-- HALO_SEND_COMPLETE: every line is written, and both ends are posted. A send that began under QUARANTINE waits for its end (R215). -/
def State.haloDone (s : State) (t : TileId) (h : Nat) : State :=
  let w := s.tr t (haloOff h + 8)
  let c := s.haloAt t h
  match s.haloTo t h with
  | none => s
  | some u =>
    if !c.busy ∨ (!c.lateAt.isEmpty ∧ s.haloHeld t u h) then s
    else if !s.runs u then s.askWake (domTile u)
    else
      let s := s.haloCopy t u h ((List.range (fld (s.tr t (haloOff h)) 23 12)).filter fun j => !c.landed.contains j)
      let s := s.setHalo t h { busy := false, landed := [], lateAt := [], sends := BitVec.ofNat 16 (satAdd 0xFFFF c.sends.toNat 1) }
      (s.furPost u (w.extractLsb' 4 4) (h + 8)).furPost t (w.extractLsb' 8 4) (h + 8)

/-! ## The commands -/

/-- ROTATION_DEPARTURE (R253, R254, R258, R259). -/
def execRotationDeparture (t : TileId) (k : BitVec 3) (s : State) : Ans := .next (s.depart t k.toNat)
/-- ROTATION_HOP_COMPLETE (R253, R254, R262). -/
def execRotationHopComplete (t : TileId) (k : BitVec 3) (s : State) : Ans := .next (s.hopDone t k.toNat)
/-- REALIGN_START (R259). -/
def execRealignStart (by_ : Req) (t : TileId) (w : W32) (s : State) : Ans :=
  .next (s.onTile by_ t .launch fun s => s.realignWrite t w)
/-- REALIGN_DONE (R259). -/
def execRealignDone (t : TileId) (k : BitVec 3) (s : State) : Ans := .next (s.realignEnd t k.toNat)
/-- HALO_SEND (R260). -/
def execHaloSend (t : TileId) (h : BitVec 2) (s : State) : Ans := .next (s.haloStart t h.toNat)
/-- HALO_SEND_COMPLETE (R260, R262). -/
def execHaloSendComplete (t : TileId) (h : BitVec 2) (s : State) : Ans := .next (s.haloDone t h.toNat)

end Sys2Proof.Machine
end

