-- ==== Sys2Proof/Machine/Image.lean ====
section
/-!
DEFINITION. The Calsil image (R376 to R379): what its sections write, where partitions stand (R38), and what the loader checks
before it applies anything (R32 to R36, Table 10-3).
-/
namespace Sys2Proof.Machine

/-! ## Registers that the image writes (R16) -/

/-- The fields with reset "img" of a tile block. -/
def imgTileRows : List RegRow :=
  [{ off := 0x000C, stride := 0x40, count := 4, rw := 8 }, { off := 0x0100, count := 16, rw := 0xFFFF },
   { off := 0x0200, stride := 0x20, count := 112, rw := 0xFFFFFF }, { off := 0x0204, stride := 0x20, count := 112, rw := 0xFFFFFF },
   { off := 0x0208, stride := 0x20, count := 112, rw := 0xFFFFFF }, { off := 0x020C, stride := 0x20, count := 112, rw := 0xFFFFFF },
   { off := 0x0210, stride := 0x20, count := 112, rw := 0xFFFFFF },
   { off := 0x1000, stride := 16, count := 8, rw := 0xFFF }, { off := 0x1004, stride := 16, count := 8, rw := 0xFFFFFFFF },
   { off := 0x1008, stride := 16, count := 8, rw := 0xFFFF },
   { off := 0x1080, stride := 16, count := 4, rw := 0xFFFFFFFF }, { off := 0x1084, stride := 16, count := 4, rw := 0xFFFFFFF },
   { off := 0x1088, stride := 16, count := 4, rw := 0xFF },
   { off := 0x1100, stride := 8, count := 32, rw := 0x3FFFFF }, { off := 0x1104, stride := 8, count := 32, rw := 0xFFFFFFFF },
   { off := 0x1200, count := 4, rw := 0xF },
   { off := 0x1300, rw := 3 }, { off := 0x1310, stride := 16, count := 7, rw := 0x1FFFFFF },
   { off := 0x1314, stride := 16, count := 7, rw := 0xFFF }, { off := 0x1380, count := 4, rw := 0x1F },
   { off := 0x1400, count := 64, rw := 0xFFFFFFFF },
   { off := 0x1500, count := 128, rw := 0xFFFFFFFF }, { off := 0x1708, rw := 0xFFF7F }, { off := 0x170C, rw := 0x7F },
   { off := 0x1710, count := 4, rw := 0x7F }, { off := 0x1804, rw := 0xFFFF },
   { off := 0x1900, stride := 16, count := 16, rw := 0x7FFFFFF }, { off := 0x1904, stride := 16, count := 16, rw := 0xFFFFFFFF },
   { off := 0x1908, stride := 16, count := 16, rw := 0xFFFFFF },
   { off := 0x1B00, stride := 16, count := 8, rw := 0xFFFFFF }, { off := 0x1B04, stride := 16, count := 8, rw := 0xFFFFFFFF },
   { off := 0x1B08, stride := 16, count := 8, rw := 0xFFF7FF },
   { off := 0x1B80, stride := 16, count := 4, rw := 0x3FFFFFF }, { off := 0x1B84, stride := 16, count := 4, rw := 0xFFF },
   { off := 0x1B88, stride := 16, count := 4, rw := 0x1FFF },
   { off := 0x1E60, rw := 0x3FFFF }, { off := 0x1F00, rw := 0xFFFFFFFF }, { off := 0x1F04, rw := 0xFFFFFFFF }]

/-- The fields with reset "img" of every block. -/
def imgRowsOf : Blk → List RegRow
  | .feat => [] | .hgt => [] | .chi => [] | .cmem _ => [] | .colrel _ => []
  | .pwr => [{ off := 0x000, rw := 0x7FF }, { off := 0x008, rw := 0xFFFF0F1F }, { off := 0x010, rw := 1 }, { off := 0x300, count := 64, rw := 0xFFFFFF }]
  | .dbg => [{ off := 0x104, rw := 0xFFFF003F }, { off := 0x120, rw := 0xFFFF0000 }, { off := 0x124, rw := 0xFFFFFFFF }, { off := 0x128, rw := 0xFFFF },
      { off := 0x140, rw := 0x1FFFFFF }, { off := 0x820, rw := 0xFF }]
  | .fab => [{ off := 0x004, rw := 0xFFFF }, { off := 0x100, stride := 16, count := 16, rw := 1 }]
  | .int _ => [{ off := 0x100, rw := 0xFFFFFFFE }, { off := 0x104, count := 7, rw := 0xFFFFFFFF }, { off := 0x180, count := 6, rw := 0xFFFFFFFF },
      { off := 0x200, count := 64, rw := 0xFFFFFFFF }, { off := 0x304, count := 15, rw := 0xFFFF000F }]
  | .colpwr _ => [{ off := 0, rw := 3 }]
  | .obs _ => [{ off := 0xE8, rw := 0xF }]
  | .tile _ => imgTileRows
  | .port p => [{ off := 0x000, rw := 3 }, { off := 0x040, rw := 0xFFFFFF }, { off := 0x044, rw := 0xFFFFFF }]
      ++ (if p.val = 0 then [{ off := 0x100, rw := 0x3FFFF }, { off := 0x104, rw := 0x3FFFF }] else [])
  | .spine _ => [{ off := 0x010, rw := 7 }]
  | .part _ => [{ off := 0x400, rw := 0xFFFFFFFF }, { off := 0x404, rw := 0xFFFFFFFF }, { off := 0x748, rw := 0xFFFF0300 },
      { off := 0x8A0, rw := 0xFFFFFFFF }, { off := 0x8A4, rw := 0xFFFFFFFF }, { off := 0x8A8, rw := 0xFFFFFF }, { off := 0x8B0, rw := 0xFFFFFFFF },
      { off := 0x8B4, rw := 0xFFFFFFFF }, { off := 0x8B8, rw := 0xFFFFFF }]

/-- Bits of a register that the image writes. -/
def imgMask (a : Nat) : W32 :=
  match locate a with
  | none => 0
  | some (b, o) => match (imgRowsOf b).find? (·.has o) with | none => 0 | some r => r.rw

/-- R379: a pair of a REGS section, by register address: it writes the fields with reset "img". What a value of PWR_CAP outside 600 to
1,800 W does the spec leaves open, and no check of the loader names it: it is stored as it stands (log 103, DESIGN CHOICE). -/
def State.imgReg (s : State) (a : Nat) (w : W32) : State :=
  let m := imgMask a
  if m = 0 then s else s.setReg a ((s.reg a &&& ~~~m) ||| (w &&& m))

/-- The fields with reset "img" of registers return to 0, to be written by the image. -/
def State.clearImg (s : State) (b : Blk) (base : Nat) : State :=
  each s (imgRowsOf b) fun s r => each s (List.range r.count) fun s i =>
    let a := base + r.off + r.stride * i
    s.setReg a (s.reg a &&& ~~~r.rw)

/-! ## Parameters (R33) -/

/-- R33: omitted shares take their defaults. A PART section omits the split where all three shares read 0, and the trace share where it
reads 0: the spec gives no encoding of an omission (log 104, DESIGN CHOICE). -/
def cfgFilled (g : PartCfg) : PartCfg :=
  let g := if g.rd = 0 ∧ g.wr = 0 ∧ g.rm = 0 then { g with rd := 50, wr := 30, rm := 20 } else g
  if g.tracePct = 0 then { g with tracePct := 3 } else g

/-- R305: a declared latency. -/
def latOk (n : Nat) : Bool := decide (16 ≤ n) && decide (n ≤ 1020) && decide (n % 4 = 0)

/-- R32, R33, R35: ranges of one partition's parameters. -/
def cfgOk (g : PartCfg) : Bool :=
  decide (1 ≤ g.width.toNat) && decide (1 ≤ g.height.toNat) && decide (g.cx.toNat + g.width.toNat ≤ 16) && decide (g.cy.toNat + g.height.toNat ≤ 16)
    && decide (g.resident.toNat ≤ 448)
    && decide (10 ≤ g.rd.toNat) && decide (g.rd.toNat ≤ 80) && decide (10 ≤ g.wr.toNat) && decide (g.wr.toNat ≤ 80) && decide (g.rm.toNat ≤ 60)
    && decide (g.rd.toNat + g.wr.toNat + g.rm.toNat = 100)
    && decide (g.trace.toNat ≤ 2) && decide (1 ≤ g.tracePct.toNat) && decide (g.tracePct.toNat ≤ 6) && decide (g.stages.toNat ≤ 8)
    && decide (g.fabStages.toNat ≤ 2) && decide (g.fabStages.toNat ≤ g.stages.toNat)
    && decide (1 ≤ g.contexts.toNat) && decide (g.contexts.toNat ≤ 256) && decide (1 ≤ g.queues.toNat) && decide (g.queues.toNat ≤ 1024)
    && decide (g.events.toNat ≤ 131072) && decide (g.waiters.toNat ≤ 16384) && decide (g.hbmUnits.toNat ≤ Config.hbmUnits)
    && (g.fence || decide (g.width.toNat * g.height.toNat ≤ 64))
    && (decide (g.fabStages.toNat < 1) || latOk g.lat0.toNat) && (decide (g.fabStages.toNat < 2) || latOk g.lat1.toNat)

/-- The PART sections of an image. -/
def imgParts (m : Image) : List (PartId × PartCfg) :=
  m.sections.filterMap fun x => match x with | .part p g => some (p, cfgFilled g) | _ => none

/-- A sum over the partitions of an image. -/
def sumOf (l : List (PartId × PartCfg)) (f : PartCfg → Nat) : Nat := l.foldl (fun n x => n + f x.2) 0

/-- R32: two rectangles overlap. -/
def cfgOverlaps (a b : PartCfg) : Bool :=
  decide (a.cx.toNat < b.cx.toNat + b.width.toNat) && decide (b.cx.toNat < a.cx.toNat + a.width.toNat)
    && decide (a.cy.toNat < b.cy.toNat + b.height.toNat) && decide (b.cy.toNat < a.cy.toNat + a.height.toNat)

/-- Every pair of a list. -/
def allPairs {α : Type} (f : α → α → Bool) : List α → Bool
  | [] => true
  | x :: l => l.all (f x) && allPairs f l

/-- R32 to R36: the partitions of an image. -/
def imgPartsOk (m : Image) : Bool :=
  let l := imgParts m
  l.all (fun x => cfgOk x.2)
    && allPairs (fun x y => decide (x.1 ≠ y.1) && !cfgOverlaps x.2 y.2 && decide (x.2.ingress &&& y.2.ingress = 0)) l
    && decide (sumOf l (fun g => g.contexts.toNat) ≤ 4096) && decide (sumOf l (fun g => g.queues.toNat) ≤ 1024)
    && decide (sumOf l (fun g => g.events.toNat) ≤ 131072) && decide (sumOf l (fun g => g.waiters.toNat) ≤ 16384)
    && decide (sumOf l (fun g => g.hbmUnits.toNat) ≤ Config.hbmUnits)

/-- R276: device HBM address of a partition's allocation. The loader assigns it: here in ascending number from 0 (log 43, DESIGN CHOICE). -/
def imgBase (m : Image) (p : PartId) : Nat :=
  ((imgParts m).filter fun x => decide (x.1.toNat < p.toNat)).foldl (fun n x => n + x.2.hbmUnits.toNat * 2 ^ 28) 0

/-! ## Placement (R38) -/

/-- The colonies of a rectangle of the colony grid. -/
def colsAt (cx cy w h : Nat) : List ColId := (List.range h).flatMap fun y => (List.range w).map fun x => colAt (cx + x) (cy + y)

/-- R38: the partition may stand at an origin. -/
def State.fits (s : State) (g : PartCfg) (cx cy : Nat) : Bool :=
  decide (cx + g.width.toNat ≤ 16) && decide (cy + g.height.toNat ≤ 16)
    && (colsAt cx cy g.width.toNat g.height.toNat).all fun c => s.colAvail c && (s.partOfCol c).isNone

/-- R38: where it stands; none where it is not loaded. -/
def State.placeFor (s : State) (g : PartCfg) : Option (Nat × Nat) :=
  if s.fits g g.cx.toNat g.cy.toNat then some (g.cx.toNat, g.cy.toNat)
  else if g.reloc then ((List.range 256).find? fun i => s.fits g (i % 16) (i / 16)).map fun i => (i % 16, i / 16)
  else none

/-- R38, R276: a partition placed. -/
def State.placeAt (s : State) (m : Image) (p : PartId) (g : PartCfg) (cx cy : Nat) : State :=
  s.setPart p { s.partAt p with loaded := true, cfg := some g, cx := BitVec.ofNat 4 cx, cy := BitVec.ofNat 4 cy, hbmBase := imgBase m p }

/-- PART sections in ascending partition number. -/
def imgOrder (m : Image) : List (PartId × PartCfg) := (imgParts m).foldl (fun l x => bySeq (fun y => y.1.toNat) x l) []

/-! ## Sections (R379) -/

/-- Tiles of a rectangle that lie in the partition, in row order. -/
def State.rectTiles (s : State) (p : PartId) (r : TileRect) : List TileId := (s.tilesIn p).filter fun t => s.inRect p r t

/-- Colonies that a tile rectangle meets. -/
def State.rectCols (s : State) (p : PartId) (r : TileRect) : List ColId := ((s.rectTiles p r).map colonyOf).eraseDups

/-- Halfwords of a section's bytes. -/
def secHalves : List Byte → List W16
  | a :: b :: l => (b ++ a) :: secHalves l
  | _ => []

/-- R379: what a section writes at one tile. (log 51, DEDUCED) -/
def State.secTile (s : State) (x : Section) (t : TileId) : State :=
  match x with
  | .regsTile _ _ l => each s l fun s y => s.imgReg (tileBase t + y.1.toNat) y.2
  | .imem _ e _ dst bs => s.putImem t e false (dst / 2) ((secHalves bs).take (8192 - dst / 2))
  | .spad _ _ dst bs => s.putSpad t dst (bs.take (262144 - dst)) false
  | _ => s

/-- R379: what a section writes at one colony. -/
def State.secCol (s : State) (x : Section) (c : ColId) : State :=
  match x with
  | .regsColony _ _ l => each s l fun s y => s.imgReg (colBase c + y.1.toNat) y.2
  | .core _ _ dst bs => each s (bs.take (98304 - dst)).zipIdx fun s y => s.setCmemB c (dst + y.2) y.1
  | _ => s

/-- R379: a section is applied: at the tiles and colonies that `at_` holds of; sections without a rectangle where `whole` says so. -/
def State.applySection (s : State) (at_ : ColId → Bool) (whole : PartId → Bool) (x : Section) : State :=
  let tiles := fun (p : PartId) (r : TileRect) => each s ((s.rectTiles p r).filter fun t => at_ (colonyOf t)) fun s t => s.secTile x t
  let cols := fun (p : PartId) (r : TileRect) => each s ((s.rectCols p r).filter at_) fun s c => s.secCol x c
  match x with
  | .regsTile p r _ => tiles p r
  | .imem p _ r _ _ => tiles p r
  | .spad p r _ _ => tiles p r
  | .regsColony p r _ => cols p r
  | .core p r _ _ => cols p r
  | .regsPart p l => if whole p ∧ (s.partAt p).loaded then each s l fun s y => s.imgReg (partBase p + y.1.toNat % 0x40000) y.2 else s
  | .hbm p dst bs | .ident p dst bs =>
    if whole p then (match s.hbmOf p dst bs.length with | none => s | some h => s.putHbm h bs false) else s
  | .part _ _ | .plan _ _ _ _ _ | .regsDevice _ | .headfw _ _ => s

/-- R379: the sections that belong to no partition. -/
def State.applyDevice (s : State) (x : Section) : State :=
  match x with
  | .regsDevice l => each s l fun s y => s.imgReg y.1.toNat y.2
  | .headfw dst bs => if dst + bs.length ≤ Config.hbmUnits * 2 ^ 28 then s.putHbm dst bs false else s
  | _ => s

/-- R16, R33, R62, R428: what a tile holds of the image's parameters, before its sections are applied. -/
def State.initTile (s : State) (t : TileId) (g : PartCfg) : State :=
  let s := (s.clearImg (.tile t) (tileBase t)).setTile t { s.tileAt t with govTop := 0 }
  let s := s.setTr t 0x1E00 (BitVec.ofNat 32 (g.resident.toNat + 8 * g.resident.toNat * 65536))
  let s := s.setTr t 0x1210 (BitVec.ofNat 32 (g.lat0.toNat + g.lat1.toNat * 65536))
  -- R211: resident lines that no section writes read 0
  let b := t.toNat * 262144; let l := t.toNat * 4096; let w := 8 * g.resident.toNat
  { s with spad := dropIf (fun k => decide (b ≤ k) && decide (k < b + 64 * w)) s.spad,
           spadPoison := dropIf (fun k => decide (l ≤ k) && decide (k < l + w)) s.spadPoison }

/-- R234, R408 stage 2: a tile's gov is halved as often as the governor's stage stands, down to 1. -/
def State.govTile (s : State) (t : TileId) : State :=
  s.setTr t 0x170C (setFld (s.tr t 0x170C) 6 0 (max 1 ((s.tileAt t).govTop.toNat >>> s.gov.sluice)))

/-- R234, R408: a tile domain takes the stage of the sluice that the governor has reached, where it has not taken it yet (log 73, DEDUCED). -/
def State.govDom (s : State) (d : Nat) : State :=
  let q := s.domAt d
  if q.sluice = s.gov.sluice then s else
  let s := s.setDom d { q with sluice := s.gov.sluice }
  each s (((domCols d).flatMap tilesOfCol).filter fun t => decide ((s.tileAt t).govTop ≠ 0)) fun s t => s.govTile t

/-- R234: after the image's sections: gov never exceeds rate; the image's value is what the governor halves, and rate where the image gives none
(log 73, DEDUCED). -/
def State.govInit (s : State) (t : TileId) : State :=
  let v := fld (s.tr t 0x170C) 6 0
  let rate := fld (s.tr t 0x1708) 6 0
  let s := s.govDom (domTile t)
  (s.setTile t { s.tileAt t with govTop := BitVec.ofNat 7 (if 1 ≤ v ∧ v ≤ rate then v else rate) }).govTile t

/-- R62, R428: after its sections: a seed of 0 is drawn by chitin, the generator loads, and the weevil runs. A weevil that stands FAILED does not
restart at a reload of its domain (`whole` false), but at a partition reset (R430). -/
def State.startTile (s : State) (t : TileId) (whole : Bool) : State :=
  let s := s.govInit t
  let v : W64 := s.tr t 0x1F04 ++ s.tr t 0x1F00
  let seed := if v = 0 then BitVec.ofNat 64 (s.draw (0x100000 + t.toNat)) else v
  let tl := s.tileAt t
  s.setTile t { tl.loadGen seed with
    wv := if tl.wv = .failed ∧ !whole then .failed else if fld (s.tr t 0x1E60) 15 0 = 0 then .off else .run, wvParity := false, wvCanaryMiss := false, wvRegion := 0, wvIndex := 0, wvSlot := 0,
    wvSub := 0, wvIn := false, wvDone := false, wvCanaryFixed := false }

/-- R16, R33: what a partition's window holds of the image's parameters. -/
def State.initPart (s : State) (p : PartId) (g : PartCfg) : State :=
  (s.clearImg (.part p) (partBase p)).setReg (partBase p + 0x300) (g.group.setWidth 32)

/-- R399: a timer compare, which stands in the always-on domain. -/
def timerCsr (k : Nat) : Bool := decide (k % 4096 = 0x7C5) || decide (k % 4096 = 0x7C6)

/-- R16, R354: a colony's registers that the image writes, and its controller and memories, before its sections are applied. A reload of its
domain (`whole` false) leaves the timer compare as it stands (R399). -/
def State.initCol (s : State) (c : ColId) (whole : Bool) : State :=
  let b := colBase c; let k := c.toNat
  let s : State := { s with
    regs := dropIf (fun a => decide (b + 0x18000 ≤ a) && decide (a < b + 0x1C000)) s.regs,
    cmem := dropIf (fun a => decide (k * 98304 ≤ a) && decide (a < k * 98304 + 98304)) s.cmem,
    csrs := dropIf (fun a => decide (k * 4096 ≤ a) && decide (a < k * 4096 + 4096) && (whole || !timerCsr a)) s.csrs }
  let s := (s.setCtl (coreOfCol c) { timerFired := !whole && (s.ctlAt (coreOfCol c)).timerFired }).clearImg (.colpwr c) (b + 0x1C000)
  each s (tilesOfCol c) fun s t => s.clearImg (.obs t) (obsBase t)

/-- R354, R16: a core leaves reset at its reset vector. The image format names no field for the vector or for the CSRs with reset "img",
so the values that the image gives them are free, and the same at every release until another image is loaded (log 44, DESIGN CHOICE). A halt
request of the Debug Module halts it before its first instruction (R457). -/
def State.releaseCore (s : State) (c : CoreId) : State :=
  let k := 0x200000 + 4 * c.val
  let img := fun i => Config.free s.chitin.imgDraw (k + i)
  let pc : W32 := BitVec.ofNat 32 (img 2) &&& 0xFFFFFFFE
  let req := (s.coreAt c).haltReq
  let s := (s.setCsr c 0x7C0 (BitVec.ofNat 32 (img 0) &&& 0xFFFFFFF0)).setCsr c 0x7C1 (BitVec.ofNat 32 (img 1 % 16))
  let s := if req then (s.setCsr c 0x7B0 (setFld (setFld (s.csr c 0x7B0) 8 6 3) 1 0 3)).setCsr c 0x7B1 pc else s
  s.setCore c { inReset := false, pc := pc, halted := req, haltReq := req }

/-- R379, R392 step 5, R407: the image's part of colonies `cols` of partition `p`: all of the partition's own sections too where
`whole` holds. -/
def State.applyPart (s : State) (m : Image) (p : PartId) (g : PartCfg) (cols : List ColId) (whole : Bool) : State :=
  let s := if whole then s.initPart p g else s
  let s := each s cols fun s c => s.initCol c whole
  let tiles := cols.flatMap tilesOfCol
  let s := each s tiles fun s t => s.initTile t g
  let s := each s m.sections fun s x => s.applySection (fun c => cols.contains c) (fun q => whole && decide (q = p)) x
  each s tiles fun s t => s.startTile t whole

/-! ## What the loader checks (R36, Table 10-3) -/

/-- A state in which every partition stands at its image origin with its image applied: what the loader reads an image against. -/
def State.asImaged (s : State) (m : Image) : State :=
  let s0 : State := { s with part := [], regs := [], spad := [], imem := [], imemBad := [], eng := [], tile := [], hbm := [], cmem := [], csrs := [], ctl := [] }
  let s0 := each s0 (imgOrder m) fun s x => s.placeAt m x.1 x.2 x.2.cx.toNat x.2.cy.toNat
  each s0 (imgOrder m) fun s x => s.applyPart m x.1 x.2 (s.colsOf x.1) true

/-- R264: the programs of an image. -/
def State.programsOk (s : State) (m : Image) : Bool :=
  m.sections.all fun x => match x with
    | .imem p e r _ bs => (s.rectTiles p r).all fun t => s.progOk t e (secHalves bs)
    | .plan _ _ _ _ l => decide (l.length ≤ 8) && l.all fun y => decide (y.word.toNat < 1024) && shapeOk (BitVec.ofNat 32 (y.word.toNat + nat01 y.gating * 4096)) y.max
    | _ => true

/-- R252: the seats that a tile holds of a set: first line and lines. -/
def State.seatSpans (s : State) (t : TileId) (k : Nat) : List (Nat × Nat) :=
  let n := fld (s.tr t (setOff k + 4)) 19 12
  let w := s.setLines t k
  let mine := ((List.range n).filter fun x => decide (s.restGroup t k x = groupOf t)).length
  (List.range mine).map (fun i => (fld (s.tr t (setOff k)) 11 0 + i * fld (s.tr t (setOff k + 4)) 11 0, w))
    ++ [(fld (s.tr t (setOff k + 8)) 23 12, w)]

/-- Table 10-3: rotation sets at a tile. -/
def State.setsOk (s : State) (t : TileId) : Bool :=
  let on := (List.range 8).filter fun k => (s.ring t).any fun u => s.setEn u k
  let spans := on.flatMap fun k => s.seatSpans t k
  let wb := fld (s.tr t 0x1E00) 27 16
  (on.all fun k =>
    ((s.ring t).all fun u => [0, 4, 8].all fun o => decide (s.tr u (setOff k + o) = s.tr t (setOff k + o)))
      && decide (1 ≤ s.setLines t k) && decide (s.setLines t k ≤ 3584) && decide (1 ≤ fld (s.tr t (setOff k + 4)) 19 12)
      && decide (1 ≤ fld (s.tr t (setOff k + 4)) 31 20) && decide (s.setGsem t k ≠ s.setAsem t k))
  && spans.all (fun x => decide (x.1 + x.2 ≤ wb))
  && allPairs (fun x y => decide (x.1 + x.2 ≤ y.1) || decide (y.1 + y.2 ≤ x.1)) spans

/-- R260: the neighbour that a halo channel's dir names; none outside the grid. -/
def dirTile (t : TileId) (d : Nat) : Option TileId :=
  let x := tileX t; let y := tileY t
  match d with
  | 0 => if x < 63 then some (tileXY (x + 1) y) else none
  | 1 => if 0 < x then some (tileXY (x - 1) y) else none
  | 2 => if 0 < y then some (tileXY x (y - 1)) else none
  | _ => if y < 63 then some (tileXY x (y + 1)) else none

/-- Table 10-3: halo channels at a tile. -/
def State.halosOk (s : State) (t : TileId) : Bool :=
  (List.range 4).all fun h =>
    let c := s.tr t (0x1B80 + 16 * h); let d := fld (s.tr t (0x1B84 + 16 * h)) 11 0
    !bit (s.tr t (0x1B88 + 16 * h)) 12 ||
      (match dirTile t (fld c 25 24) with
        | none => false
        | some u => decide (s.partOf u = s.partOf t) && decide (1 ≤ fld c 23 12) && decide (fld c 11 0 + fld c 23 12 ≤ 4096)
          && decide (fld (s.tr u 0x1E00) 27 16 ≤ d) && decide (d + fld c 23 12 ≤ 4096))

/-- R220, R223, R224: a tile's descriptors. -/
def State.descsOk (s : State) (t : TileId) : Bool := (List.range 8).all fun d => descFits (s.descWords t d)

/-- R289: no coordinate of the image's device ID reaches its axis size. -/
def devIdOk (m : Image) : Bool :=
  let w := fun o => m.sections.foldl (fun v x => match x with
    | .regsDevice l => lastOf l (0x05000000 + o) v
    | _ => v) (0 : W32)
  (List.range 3).all fun a => decide (fld (w 0x100) (6 * a + 5) (6 * a) ≤ fld (w 0x104) (6 * a + 5) (6 * a))

/-- R36, R264: the loader's checks of an image. -/
def State.imageOk (s : State) (m : Image) : Bool :=
  imgPartsOk m && devIdOk m && (
    let s := s.asImaged m
    s.programsOk m && (imgParts m).all fun x => (s.tilesIn x.1).all fun t => s.setsOk t && s.halosOk t && s.descsOk t)

/-- R382 step 3: the staging area lies in the installed capacity, away from what HBM sections write. -/
def imgStageOk (m : Image) : Bool :=
  let a := imgStage m; let n := imgNseg m * 65536
  decide (a % 65536 = 0) && decide (a + n ≤ Config.hbmUnits * 2 ^ 28) && m.sections.all fun x => match x with
    | .hbm p dst bs => decide (a + n ≤ imgBase m p + dst) || decide (imgBase m p + dst + bs.length ≤ a)
    | _ => true

/-- R375, R380: bytes of a flash slot. (log 52, DESIGN CHOICE) -/
def Fuses.slotBytes (f : Fuses) : Nat := 2 ^ (29 + f.flash.toNat)

/-- R382, Table 15-5: IMAGE_LOAD fails, with its detail; none where it passes. A reserved bit that is set (R19, R376), and a body that
does not say what its sections are (R379), have no detail in the table. (log 130, DEDUCED) -/
def State.imageFails (s : State) (img : Option Image) (k : ImageChecks) : Option (Option Nat) :=
  let f := s.chitin.fuses
  match img with
  | none => some (some (if k.flashAnswers then 2 else 1))
  | some m =>
    if !k.flashAnswers then some (some 1)
    else if imgMagic m ≠ 0x314E4C43 ∨ imgHrev m ≠ 1 ∨ imgArch m ≠ 2 then some (some 2)
    else if imgDevid m ≠ Config.devid then some (some 3)
    else if imgNseg m < 1 ∨ 32759 < imgNseg m ∨ imgLen m ≠ imageLength (imgNseg m) ∨ f.slotBytes < imgLen m then some (some 4)
    else if f.revoked.getLsbD (imgKslot m).toNat ∨ f.keys.getD (imgKslot m).toNat none ≠ some (Config.sha384 (imgOkey m)) then some (some 5)
    else if (imgSvn m).toNat < f.svn.toNat then some (some 7)
    else if !k.signature then some (some 6)
    else if !hdrClean m then some none
    else if imgTagHash m ≠ Config.sha384 m.table then some (some 8)
    else if (List.range (imgNseg m)).any (fun j => !segOk f.kown m j) then some (some 9)
    else if !imgStageOk m then some (some 10)
    else if !bodySays m then some none
    else if !s.imageOk m then some (some 11)
    else none

end Sys2Proof.Machine
end

