-- ==== Sys2Proof/Machine/Intc.lean ====
section
/-!
DEFINITION. Control cores and their interrupt controllers (R350 to R371): sensing, ranking, the claim, the return, error record
FIFOs, access faults and the memories of colony cores. mepc, mcause, mtval, mtvec and mstatus are the standard RISC-V CSRs, by their
numbers (log 42, PRESUMED).
-/
namespace Sys2Proof.Machine

/-! ## Registers of the controller -/

/-- R364: enabled pending sources of a group. -/
def State.groupCount (s : State) (c : CoreId) (g : Nat) : Nat :=
  ((List.range 32).filter fun j => s.srcPending c (32 * g + j) && s.srcEnabled c (32 * g + j)).length

/-- R364: of a group's enabled pending sources the one that became pending first. -/
def State.groupFirst (s : State) (c : CoreId) (g : Nat) : Option Nat :=
  (s.ctlAt c).order.find? fun j => decide (j / 32 = g) && s.srcPending c j && s.srcEnabled c j

/-- R364: once the earliest of a group's sources is no longer enabled and pending, T counts from the earliest of those that remain
(log 41, DEDUCED). -/
def State.modAgain (old new : State) (c : CoreId) (g : Nat) : State :=
  let k := new.ctlAt c
  if (old.groupFirst c g).isSome ∧ new.groupFirst c g ≠ old.groupFirst c g then new.setCtl c { k with modExpired := k.modExpired &&& ~~~(BitVec.ofNat 16 (2 ^ g)) } else new

/-- R357: a write of INT_DOORBELL. -/
def State.intDoorbell (s : State) (c : CoreId) (src : Nat) : State :=
  if 256 ≤ src ∧ src < 448 then s.raise c src else s.incReg (intBase c + 4) 7 0 1

/-- Bits that a write of an enable or pending word reaches: source 0 has neither; `fixed` stands for sources that ignore the write. -/
def intMask (n : Nat) (fixed : W32) : W32 := if n = 0 then ~~~(fixed ||| 1) else 0xFFFFFFFF

/-- R359: enables; before the image is loaded they have no effect (R16). -/
def State.enSet (s : State) (c : CoreId) (n : Nat) (w : W32) : State :=
  let a := intBase c + 0x100 + 4 * n
  if s.chitin.loadPassed then s.setReg a (s.reg a ||| (w &&& intMask n 0x38)) else s
/-- R359: disables. -/
def State.enClr (s : State) (c : CoreId) (n : Nat) (w : W32) : State :=
  let a := intBase c + 0x100 + 4 * n
  s.modAgain (s.setReg a (s.reg a &&& ~~~(w &&& intMask n 0x38))) c n
/-- Table 14-5: is a hardware source one of the controller's? A number not listed is never raised. -/
def srcListed (c : CoreId) (n : Nat) : Bool :=
  (decide (6 ≤ n) && decide (n ≤ 8)) || (if c.val < 256 then decide (16 ≤ n) && decide (n < 112)
    else let d := c.val - 256
      (decide (16 ≤ n) && decide (n < 22) && decide (dieOfPort ⟨(n - 16) % 6, Nat.mod_lt _ (by decide)⟩ = d))
        || (decide (24 ≤ n) && decide (n < 32) && decide (dieOfStack (n - 24) = d)) || (decide (n = 32) && decide (d = 0)) || decide (n = 33)
        || (decide (64 ≤ n) && decide (n < 128)))
/-- R358, R359: bits of a pending word that a write can set: source 7 by a head core, chitin or the physical function alone. -/
def pendMask (r : Req) (c : CoreId) (n : Nat) : W32 :=
  bitsWhere 32 fun j => srcListed c (32 * n + j) && (decide (32 * n + j ≠ 7) || (match r with | .core _ => false | _ => true))
/-- R359: makes pending. -/
def State.pendSet (s : State) (r : Req) (c : CoreId) (n : Nat) (w : W32) : State :=
  let a := intBase c + 0x140 + 4 * n
  (s.ordered c (((List.range 32).map fun j => 32 * n + j).filter fun j => bit (w &&& pendMask r c n) (j % 32) && !s.srcPending c j)).setReg a
    (s.reg a ||| (w &&& pendMask r c n))
/-- R359: clears pending. -/
def State.pendClr (s : State) (c : CoreId) (n : Nat) (w : W32) : State :=
  let a := intBase c + 0x140 + 4 * n
  s.modAgain (s.setReg a (s.reg a &&& ~~~(w &&& intMask n 0x3E))) c n

/-- Clear a source's pending bit. -/
def State.unpend (s : State) (c : CoreId) (src : Nat) : State :=
  let a := if src < 256 then intBase c + 0x140 + 4 * (src / 32) else intBase c + 0x1A0 + 4 * (src / 32 - 8)
  s.setReg a (setBit (s.reg a) (src % 32) false)

/-- R371: INT_STAT.clr. -/
def State.intStatClr (s : State) (c : CoreId) : State := s.setReg (intBase c + 4) 0

/-! ## The timer and moderation -/

/-- R358: INT_TIMECMP. -/
def State.timecmp (s : State) (c : CoreId) : W64 := s.csr c 0x7C6 ++ s.csr c 0x7C5

/-- R358: the time stamp has reached INT_TIMECMP; source 6 is raised once. -/
def State.timerMatch (s : State) (c : CoreId) : State :=
  if (s.ctlAt c).timerFired then s
  else
    let s := s.reach (s.timecmp c)
    (s.setCtl c { s.ctlAt c with timerFired := true }).raise c 6

/-- R364: T cycles have passed since the earliest enabled pending source of the group became pending. -/
def State.modTimeout (s : State) (c : CoreId) (g : Nat) : State :=
  let k := s.ctlAt c
  if s.groupCount c g = 0 then s else s.setCtl c { k with modExpired := k.modExpired ||| BitVec.ofNat 16 (2 ^ g) }

/-! ## Traps -/

/-! ## CSRs (R356) -/

/-- The CSRs that the cores have: those of Table 14-3, the standard's trap, identity, memory-protection and trigger CSRs, and its counters
(log 42, PRESUMED). -/
def csrKnown (n : Nat) : Bool :=
  n ∈ [0x300, 0x301, 0x304, 0x305, 0x306, 0x310, 0x340, 0x341, 0x342, 0x343, 0x344, 0x7A0, 0x7A1, 0x7A2, 0x7A4, 0x7C0, 0x7C1, 0x7C2, 0x7C3,
    0x7C4, 0x7C5, 0x7C6, 0x7C8, 0xB00, 0xB02, 0xB80, 0xB82, 0xC00, 0xC01, 0xC02, 0xC80, 0xC81, 0xC82, 0xF11, 0xF12, 0xF13, 0xF14, 0xF15,
    0xFC0, 0xFC1, 0xFC2, 0xFC3]
  || (decide (0x320 ≤ n) && decide (n < 0x340)) || (decide (0x3A0 ≤ n) && decide (n < 0x3A4)) || (decide (0x3B0 ≤ n) && decide (n < 0x3C0))
  || (decide (0xB03 ≤ n) && decide (n < 0xB20)) || (decide (0xB83 ≤ n) && decide (n < 0xBA0))

/-- R356: may the core access the CSR in its mode? A number's bits [9:8] give the mode it needs; mcounteren opens the counters to U-mode; a
number of 0xC00 and above is read-only. (log 84, PRESUMED) -/
def State.csrMay (s : State) (c : CoreId) (n : Nat) (write : Bool) : Bool :=
  let m := (s.coreAt c).priv
  csrKnown n && decide (n / 256 % 4 ≤ m.toNat) && !(write && decide (0xC00 ≤ n))
    && (decide (m = 3) || bit (s.csr c 0x306) (n % 32))

/-- R356: an access of one of a core's own CSRs: the core executes, and an access that it may not make is an illegal instruction. -/
def State.onCsr (s : State) (c : CoreId) (n : Nat) (write : Bool) (f : State → State) : State :=
  if !s.coreRuns c then s
  else if !s.csrMay c n write then (s.excTrap c 2 (BitVec.ofNat 32 (s.draw 0)) s.pcFree).drawn
  else f (s.awake c)

/-- R358: a write of either word re-arms the source. -/
def State.timecmpSet (s : State) (c : CoreId) (hi : Bool) (w : W32) : State :=
  (s.setCsr c (if hi then 0x7C6 else 0x7C5) w).setCtl c { s.ctlAt c with timerFired := false }

/-- R362: the claim, at an instruction boundary before the instruction at `pc`. -/
def State.claim (s : State) (c : CoreId) (pc : W32) : State :=
  let k := s.coreAt c
  if !s.coreRuns c ∨ (!bit (s.csr c 0x300) 3 ∧ k.priv ≠ 0) then s else
  let src := s.presented c
  let prio := s.srcPrio c src
  let s0 := s
  let s := (s.setCsr c 0x7C3 (s.csr c 0xFC0)).setCsr c 0x7C4 (s.csr c 0x7C2)
  let s := s.setCsr c 0xFC0 (BitVec.ofNat 32 src)
  let s := if src = 0 then s.incReg (intBase c + 4) 15 8 1
    else
      let s := s.setCsr c 0x7C2 (BitVec.ofNat 32 prio)
      if src ≤ 5 then s else s0.modAgain (s.unpend c src) c (src / 32)
  let s := s.trapEntry c 0x8000000B 0 pc
  s.setCore c { s.coreAt c with pc := (s.csr c 0x7C0 &&& 0xFFFFFFF0) + BitVec.ofNat 32 (16 * src) }

/-- R364: the claim of a core that waits in WFI, where its boundary says so: moderation holds nothing from it. With MIE = 0 an eligible source
ends the wait and nothing more, as the standard has it (log 42, PRESUMED); a core at any other boundary is not in WFI. -/
def State.claimAt (s : State) (c : CoreId) (b : Boundary) : State :=
  if !s.coreRuns c then s else
  let s := (s.setCore c { s.coreAt c with wfi := b.wfi }).claim c b.pc
  if (s.coreAt c).wfi ∧ s.presented c ≠ 0 then s.setCore c { s.coreAt c with wfi := false } else s

/-- R363: MRET; in U-mode it is an illegal instruction, as the standard has it. -/
def State.mretNow (s : State) (c : CoreId) : State :=
  let k := s.coreAt c
  if !s.coreRuns c then s
  else if k.priv ≠ 3 then (s.excTrap c 2 (BitVec.ofNat 32 (s.draw 0)) s.pcFree).drawn
  else
    let s := (s.setCsr c 0xFC0 (s.csr c 0x7C3)).setCsr c 0x7C2 (s.csr c 0x7C4)
    let m := s.csr c 0x300
    let dst := m.extractLsb' 11 2
    let m := setFld (setFld (setFld m 3 3 (fld m 7 7)) 7 7 1) 12 11 0
    let m := if dst = 3 then m else setFld m 17 17 0
    (s.setCsr c 0x300 m).setCore c { s.coreAt c with wfi := false, priv := dst, pc := s.csr c 0x341 }

/-! ## Error record FIFOs -/

/-- The list without its oldest record of severity `v`. -/
def dropOldest (v : BitVec 3) : List ErrRec → List ErrRec
  | [] => []
  | x :: l => if x.sev = v then l else x :: dropOldest v l

/-- R368: INT_ERRPOP.go. -/
def State.errPop (s : State) (c : CoreId) : State :=
  let k := s.ctlAt c
  s.setCtl c { k with fifo := dropOldest ((s.reg (intBase c + 0x404)).extractLsb' 0 3) k.fifo }

/-- R371: INT_ERRPOP.clrcnt. -/
def State.errLostClr (s : State) (c : CoreId) : State := s.setRegF (intBase c + 0x400) 31 16 0

/-! ## Colony-core memories (R353) -/

/-- R353: who may write a colony core's memories from outside. -/
def State.cmemReq (s : State) (r : Req) (c : ColId) : Bool :=
  (match r with
    | .pf => true
    | .chitin => true
    | .tap => s.debugOk
    | _ => false) && s.colAnswers c

/-- A word of a colony core's memories. -/
def State.cmemWrite (s : State) (c : ColId) (off : Nat) (w : W32) : State :=
  if 0x18000 ≤ off then s
  else each s (natLe 4 w.toNat).zipIdx fun s x => s.setCmemB c (off / 4 * 4 + x.2) x.1

/-! ## The commands -/

/-- INT_DOORBELL_WRITE (R357). -/
def execIntDoorbellWrite (by_ : Req) (c : CoreId) (w : W32) (s : State) : Ans := .next (s.onInt by_ c fun s => s.intDoorbell c (fld w 8 0))
/-- INT_ENABLE_SET (R359). -/
def execIntEnableSet (by_ : Req) (c : CoreId) (n : BitVec 3) (w : W32) (s : State) : Ans := .next (s.onInt by_ c fun s => s.enSet c n.toNat w)
/-- INT_ENABLE_CLEAR (R359). -/
def execIntEnableClear (by_ : Req) (c : CoreId) (n : BitVec 3) (w : W32) (s : State) : Ans := .next (s.onInt by_ c fun s => s.enClr c n.toNat w)
/-- INT_PENDING_SET (R359). -/
def execIntPendingSet (by_ : Req) (c : CoreId) (n : BitVec 3) (w : W32) (s : State) : Ans := .next (s.onInt by_ c fun s => s.pendSet by_ c n.toNat w)
/-- INT_PENDING_CLEAR (R359). -/
def execIntPendingClear (by_ : Req) (c : CoreId) (n : BitVec 3) (w : W32) (s : State) : Ans :=
  .next (s.onInt by_ c fun s => s.pendClr c n.toNat w)
/-- INT_STAT_CLEAR (R371). -/
def execIntStatClear (by_ : Req) (c : CoreId) (s : State) : Ans := .next (s.onInt by_ c fun s => s.intStatClr c)
/-- TIMECMP_WRITE (R356, R358). -/
def execTimecmpWrite (c : CoreId) (hi : Bool) (w : W32) (s : State) : Ans := .next (s.onCsr c (if hi then 0x7C6 else 0x7C5) true fun s => s.timecmpSet c hi w)
/-- TIMER_COMPARE_MATCH (R358). -/
def execTimerCompareMatch (c : CoreId) (s : State) : Ans := .next (s.timerMatch c)
/-- MODERATION_TIMEOUT (R364). -/
def execModerationTimeout (c : CoreId) (g : BitVec 4) (s : State) : Ans := .next (s.modTimeout c g.toNat)
/-- INTERRUPT_CLAIM (R361, R362, R364). -/
def execInterruptClaim (c : CoreId) (b : Boundary) (s : State) : Ans := .next (s.claimAt c b)
/-- MRET (R363). -/
def execMret (c : CoreId) (s : State) : Ans := .next (s.mretNow c)
/-- ERROR_RECORD_POP (R368). -/
def execErrorRecordPop (by_ : Req) (c : CoreId) (s : State) : Ans := .next (s.onInt by_ c fun s => s.errPop c)
/-- ERROR_LOSTCNT_CLEAR (R371). -/
def execErrorLostcntClear (by_ : Req) (c : CoreId) (s : State) : Ans := .next (s.onInt by_ c fun s => s.errLostClr c)
/-- CORE_MEMORY_EXTERNAL_WRITE (R353). -/
def execCoreMemoryExternalWrite (by_ : Req) (c : ColId) (off : BitVec 17) (w : W32) (s : State) : Ans :=
  .next (s.via by_ (colBase c + off.toNat) (s.cmemReq by_ c) fun s => s.cmemWrite c off.toNat w)

end Sys2Proof.Machine
end

