-- ==== Sys2Proof/Machine/Chitin.lean ====
section
/-!
DEFINITION. Chitin (R372 to R398) and the device resets (R412): starts and retries, the boot steps, the boot record, SPDM, IDE keys,
fuses, the attestation mailbox, and access to the Debug Module.
-/
namespace Sys2Proof.Machine

/-! ## Device reset (R412) -/

/-- R388, R412: the registers that a device reset keeps: the boot record. -/
def bootRecord (a : Nat) : Bool := decide (chiBase ≤ a) && decide (a < chiBase + 0x100)

/-- R412: a device reset of every domain but the always-on domain, with its cause (PWR_RSTCAUSE). Fuses, the boot record, the time stamp,
host memory and what has been sent stay; `external` begins the count of attempts anew (R386). (log 53, DEDUCED) (log 59, DEDUCED) -/
def State.deviceReset (s : State) (cause : Nat) (external : Bool) : State :=
  let c := s.chitin
  let dead := decide (c.st = 2) && !external
  let s' : State :=
    { State.reset with
      pending := s.pending, time := s.time, copies := s.copies, fresh := s.fresh, readData := s.readData, out := s.out, host := s.host,
      regs := s.regs.filter fun e => bootRecord e.1,
      chitin :=
        { fuses := c.fuses, attempts := if external then 0 else c.attempts, failed := if external then 0 else c.failed, nextB := if external then false else c.nextB, linkskip := c.linkskip,
          skipTag := c.skipTag, draws := c.draws, st := if dead then 2 else 0, step := if dead then c.step else 0,
          slotB := if dead then c.slotB else false },
      gov := { trip := s.gov.trip, tjMax := s.gov.tjMax, warm := s.gov.warm } }
  s'.setReg (pwrBase + 0x614) (BitVec.ofNat 32 cause)

/-- POWER_ON (R388, R412, R438): the always-on domain powers up: time stamp 0, counters and skip bits clear, and the boot record's other
fields hold unpredictable values. -/
def State.powerOn (s : State) : State :=
  let s' := ({ s with time := 0, copies := [], gov := {}, regs := [], chitin := { fuses := s.chitin.fuses, draws := s.chitin.draws } } : State).deviceReset 0 true
  (s'.setReg chiBase (BitVec.ofNat 32 (s.draw 0) &&& 0xFFF000)).drawn

/-! ## The boot record (R388) -/

/-- R388: a failure of a step, counted, with its detail; where Table 15-5 gives none the detail is free. -/
def State.noteFail (s : State) (step : Nat) (detail : Option Nat) : State :=
  let a := chiBase + 0x10 + 4 * (step / 2)
  let s := s.incReg a (if step % 2 = 0 then 15 else 31) (if step % 2 = 0 then 0 else 16) 1
  ((s.setRegF chiBase 15 12 step).setRegF chiBase 23 16 (detail.getD (s.draw 0 % 256))).drawn

/-- R386: a required step fails: the attempt ends with a device reset; after four the device is FAILED. -/
def State.bootFail (s : State) (step : Nat) (detail : Option Nat) : State :=
  let c := s.chitin
  let s := (s.noteFail step detail).deviceReset 2 false
  let n := c.failed + 1
  let c' := { s.chitin with nextB := if step = 5 then !c.slotB else c.slotB, failed := n }
  { s with chitin := if 4 ≤ n then { c' with st := 2, step := BitVec.ofNat 4 step, slotB := c.slotB } else c' }

/-! ## Boot steps (Table 15-3) -/

/-- R437: failed parts of a colony. -/
def BootInput.failed (i : Sys2Proof.BootInput) (c : ColId) : BitVec 7 := ((i.selfTestFails.find? fun x => decide (x.1 = c)).map fun x => x.2).getD 0

/-- All colonies. -/
def allCols : List ColId := (List.range 256).map (BitVec.ofNat 8)

/-- HBM_TRAIN: the populated stacks are ACTIVE. -/
def State.hbmUp (s : State) : State := each s stackList fun s n => s.setDom (domHbm n) { s.domAt (domHbm n) with st := 0 }

/-- SELF_TEST (R437): every tile domain is powered, and each colony's result stored. -/
def State.selfTest (s : State) (i : BootInput) : State :=
  let s := each s (List.range 64) fun s d => s.setDom (1 + d) { s.domAt (1 + d) with st := 0 }
  let s := each s (List.range 16) fun s e => s.setDom (65 + e) { s.domAt (65 + e) with st := 0 }
  each s allCols fun s c =>
    let f := BootInput.failed i c
    let s := s.setReg (colBase c + 0x1D004) (BitVec.ofNat 32 (f.toNat * 2 + nat01 (decide (f = 0))))
    if f = 0 then let a := 0x40 + 4 * (c.toNat / 32); s.setReg a (setBit (s.reg a) (c.toNat % 32) true)
    else s.noteFail 4 none

/-! ## Measurements and certificates (R374, R395) -/

/-- Table 15-4: CHI_BOOTSTAT. -/
def State.bootstat (s : State) : W32 :=
  let c := s.chitin
  [(3, 0, c.step.toNat), (5, 4, c.st.toNat), (6, 6, nat01 c.slotB), (10, 8, c.attempts.toNat)].foldl (fun w x => setFld w x.1 x.2.1 x.2.2) (s.reg chiBase)
/-- The partition that a section belongs to. -/
def sectionPart : Section → Option PartId
  | .regsDevice _ | .headfw _ _ => none
  | .part p _ | .regsPart p _ | .regsColony p _ _ | .regsTile p _ _ | .imem p _ _ _ _ | .spad p _ _ _ | .core p _ _ _ | .hbm p _ _ | .plan p _ _ _ _
  | .ident p _ _ => some p
/-- R395: a partition's sections, each with its entry and its bytes. -/
def partBytes (m : Image) (p : PartId) : List Byte :=
  m.sections.zipIdx.flatMap fun x => if sectionPart x.1 = some p then entryBytes m x.2 ++ sectionAt m x.2 else []

/-- Table 15-7: a measurement, as a hash where the table names registers or fuses. (log 9, PRESUMED) -/
def State.measurement (s : State) (m : Image) (i : Nat) : BitVec 384 :=
  let f := s.chitin.fuses
  match i with
  | 1 => Config.romHash
  | 2 => Config.sha384 ((f.keys.flatMap fun k => natLe 48 (k.getD 0).toNat) ++ natLe 1 f.revoked.toNat ++ natLe 1 f.svn.toNat ++ natLe 1 (nat01 f.debugLock))
  | 3 => hdrHash m
  | 4 => imgTagHash m
  | 5 => Config.sha384 (natLe 4 s.bootstat.toNat ++ natLe 4 s.chitin.linkskip.toNat ++ (List.range 8).flatMap fun k => natLe 4 (s.reg (0x40 + 4 * k)).toNat)
  | _ =>
    let p : PartId := BitVec.ofNat 6 (i - 16)
    Config.sha384 (partBytes m p ++ natLe 4 (s.pgeom p).toNat)
/-- R374: the Alias certificate: the Alias public key, the measurements and the owner key hash, signed with the DeviceID key. -/
def State.aliasCert (s : State) (m : Image) : List Byte :=
  let b := natLe 96 (Config.ecdsaPub (aliasKey (cdiOf s.chitin.fuses.uds m))).toNat
    ++ ([1, 2, 3, 4, 5].flatMap fun i => natLe 48 (s.measurement m i).toNat) ++ natLe 48 (s.ownerHash m).toNat
  b ++ natLe 96 (Config.ecdsaSign (deviceKey s.chitin.fuses.uds) b).toNat
/-- IMAGE_LOAD has passed (R374, R382, R384, R387, R395). -/
def State.imageIn (s : State) (m : Image) : State :=
  let c := s.chitin
  { s with chitin := { c with image := some m, loadPassed := true, imgSvn := imgSvn m, kslot := imgKslot m, skipTag := imgTagHash m,
                              linkskip := if imgTagHash m = c.skipTag then c.linkskip else 0,
                              cdi := cdiOf c.fuses.uds m, aliasCert := s.aliasCert m, staging := m.segs.flatten, mem := putL zeroByte [] 0 (m.table.take 524288),
                              imgDraw := s.fresh } }

/-- R390, R391: the key pair of a draw. -/
def memKey (n : Nat) : BitVec 512 := BitVec.ofNat 512 (Config.free (2 ^ 64 + n) 0)
/-- R390: what a stack holds of the line at a device HBM address: its bytes under the key of the partition that owns it, or the device's, the tweak
being the address divided by 64. -/
def State.storedLine (s : State) (a : Nat) : List Byte :=
  let own := s.loadedParts.find? fun p => decide ((s.partAt p).hbmBase ≤ a) && decide (a < (s.partAt p).hbmBase + s.alloc p)
  Config.aesXts (memKey (match own with | some p => (s.partAt p).keyDraw | none => s.chitin.devKey)) (a / 64) (s.hbmBytes (a / 64 * 64) 64)

/-- KEYS (R391, R392): fresh keys for the device and every partition; HBM is zeroed. -/
def State.keysIn (s : State) : State :=
  let n := s.chitin.draws
  let s : State := { s with hbm := [], hbmPoison := [], chitin := { s.chitin with draws := n + 65, devKey := n + 1 } }
  each s (List.range 64) fun s p => s.setPart (BitVec.ofNat 6 p) { s.partAt (BitVec.ofNat 6 p) with keyDraw := n + 2 + p }

/-- PLACE (R38), and the tile domains that hold no partition's colony are OFF (R32). -/
def State.placeAll (s : State) (m : Image) : State :=
  let s := each s (imgOrder m) fun s x =>
    match s.placeFor x.2 with
    | some (cx, cy) => s.placeAt m x.1 x.2 cx cy
    | none =>
      let s : State := { s with chitin := { s.chitin with partFail := s.chitin.partFail + 1 } }
      (s.setPart x.1 { s.partAt x.1 with cfg := some x.2 }).noteFail 7 none
  each s (List.range 64) fun s d =>
    if (List.range 4).any fun i => (s.partOfCol (BitVec.ofNat 8 (4 * d + i))).isSome then s else s.setDom (1 + d) { s.domAt (1 + d) with st := 4 }

/-- APPLY (R379, R383, R392): every section in table order; the staging area is zeroed; the image's svn raises the fuse counter. -/
def State.applyImage (s : State) (m : Image) : State :=
  let s := each s s.loadedParts fun s p =>
    match s.pcfg p with
    | none => s
    | some g =>
      let s := each (s.initPart p g) (s.colsOf p) fun s c => s.initCol c true
      each s (s.tilesIn p) fun s t => s.initTile t g
  let s := each s m.sections fun s x => (s.applySection (fun _ => true) (fun _ => true) x).applyDevice x
  let s := each s s.loadedParts fun s p => each s (s.tilesIn p) fun s t => s.startTile t true
  let f := s.chitin.fuses
  let a := imgStage m; let n := a + 65536 * imgNseg m
  let s : State := { s with
    hbm := dropIf (fun k => decide (a ≤ k) && decide (k < n)) s.hbm
    hbmPoison := dropIf (fun k => decide (a / 64 ≤ k) && decide (k < n / 64)) s.hbmPoison }
  let s : State := { s.drawn with chitin := { s.chitin with staging := [], fuses := { f with svn := if f.svn.toNat < (imgSvn m).toNat then imgSvn m else f.svn } } }
  s.hostDom

/-- LINKS (R384): the ports that are enabled and not skipped train and key; a port that ends CULVERTED is skipped from then on. -/
def State.linksUp (s : State) (i : BootInput) : State :=
  let on := allPorts.filter fun p => s.vulEn p
  let tried := on.filter fun p => !s.chitin.linkskip.getLsbD p.val
  let info := fun (p : PortId) => i.links.find? fun x => decide (x.1.val = p.val)
  let s := each s on fun s p => s.portUp p
  let s := each s tried fun s p => if (s.portAt p).st = .culverted then s.portTo p .training else s
  let s := each s tried fun s p =>
    if (s.portAt p).st ≠ .training then s else match info p with
      | some x => s.trained p x.2.1
      | none => s.attemptFails p 3 false
  let s := each s tried fun s p =>
    if (s.portAt p).st ≠ .keying then s else match info p with
      | some x => s.keyed p x.2.2
      | none => s.attemptFails p 3 false
  each s tried fun s p =>
    if (s.portAt p).st ≠ .culverted then s else
      let s : State := { s with chitin := { s.chitin with linkskip := s.chitin.linkskip ||| BitVec.ofNat 6 (2 ^ p.val) } }
      ((s.setReg (portBase p) (setBit (s.reg (portBase p)) 0 false)).portPower p).noteFail 9 (some (0x10 + p.val))

/-- CORES: the head cores and the colony cores of loaded partitions leave reset. -/
def State.coresOut (s : State) : State :=
  let s := each s (List.range 4) fun s d => s.releaseCore (headCore d)
  (each s (s.loadedParts.flatMap fun p => s.colsOf p) fun s c => s.releaseCore (coreOfCol c)).drawn

/-- A step that chitin has reached. -/
def State.atStep (s : State) (n : Nat) : State := { s with chitin := { s.chitin with step := BitVec.ofNat 4 n } }

/-- The steps from IMAGE_LOAD on. -/
def State.bootImage (s : State) (i : BootInput) : State :=
  match s.imageFails i.image i.checks with
  | some d => s.bootFail 5 d
  | none =>
    match i.image with
    | none => s
    | some m =>
      let s := s.imageIn m
      if !i.keysDrawn then s.bootFail 6 none else
      let s := s.keysIn.placeAll m
      if !i.checks.segmentsAgain then s.bootFail 8 (some 1)
      else if !i.checks.stagingReadable then s.bootFail 8 (some 2)
      else
        let s := (s.applyImage m).linksUp i
        if !i.coresReleased then s.bootFail 10 none
        else
          let s := s.coresOut.atStep 11
          { s with chitin := { s.chitin with doneReleased := true } }

/-- BOOT_START (R381): chitin runs the steps of a start that is due, down to the release of DONE. A start is sent only when RESET_N is
high; after a thermal trip none begins until every sensor reads below 95 °C (R409). (log 70, DEDUCED) -/
def State.boot (s : State) (i : BootInput) : State :=
  let c := s.chitin
  if c.st ≠ 0 ∨ c.doneReleased ∨ s.gov.trip then s else
  let s : State := { s with chitin := { c with attempts := if c.attempts = 7 then 7 else c.attempts + 1, slotB := c.nextB } }
  if !i.romOk then s.bootFail 0 none
  else if !i.fusesOk then s.bootFail 1 none
  else if !i.refClocks then s.bootFail 2 (some 1)
  else if !i.pllsLock then s.bootFail 2 (some 2)
  else match stackList.find? fun n => !i.stacksTrained.getLsbD n with
    | some n => s.bootFail 3 (some (0x10 + n))
    | none =>
      if i.stacksTrained ≠ Config.stacks then s.bootFail 3 (some 0x20)
      else (((s.hbmUp).selfTest i).atStep 5).bootImage i

/-- R385: chitin samples DONE high. -/
def State.doneRise (s : State) : State :=
  let c := s.chitin
  if !c.doneReleased ∨ c.doneLine then s else
  let s : State := { s with chitin := { c with doneLine := true, st := if c.st = 0 then 1 else c.st } }
  if c.st ≠ 0 then s else
  let s := each s (List.range 4) fun s d => s.raise (headCore d) 33
  each s (s.loadedParts.flatMap fun p => s.colsOf p) fun s k => s.raise (coreOfCol k) 7

/-! ## SPDM (R395) -/

/-- Free bytes of chitin's answers: keys, hashes and signatures are not the model's to compute (log 9, PRESUMED). -/
def State.spdmBytes (s : State) (n : Nat) (f : List Byte → SpdmResp) : State :=
  ({ s with chitin := { s.chitin with resp := f (s.freeBytes 0 n) } } : State).drawn

/-- The answer to a request. -/
def State.answer (s : State) (r : SpdmResp) : State := { s with chitin := { s.chitin with resp := r } }

/-- The responder's next state. -/
def State.spdmTo (s : State) (x : SpdmSt) : State := { s with chitin := { s.chitin with spdm := x } }

/-- R395: negotiation is over. -/
def SpdmSt.ready : SpdmSt → Bool
  | .algorithms => true | .exchanged => true | .session => true | .start => false | .version => false | .capabilities => false

/-- R395: before IMAGE_LOAD has passed a request is answered Busy; before negotiation, UnexpectedRequest (log 9, PRESUMED). -/
def State.onSpdm (s : State) (ok : SpdmSt → Bool) (f : State → State) : State :=
  if !s.chitin.loadPassed then s.answer .busy else if !ok s.chitin.spdm then s.answer .unexpected else f s

/-- Table 15-7: a measurement index. -/
def State.measureOk (s : State) (i : Nat) : Bool :=
  (decide (1 ≤ i) && decide (i ≤ 5)) || (decide (16 ≤ i) && decide (i < 80) && (s.pcfg (BitVec.ofNat 6 (i - 16))).isSome)

/-- The handshake ends: the session opens, or the exchange is refused. -/
def State.spdmFinish (s : State) (verified : Bool) : State :=
  s.onSpdm (fun x => decide (x = .exchanged)) fun s =>
    if verified then (s.spdmTo .session).answer .finish else (s.spdmTo .algorithms).answer .invalid

/-- R398: the end of a session discards the IDE keys of every stream. -/
def State.spdmEnd (s : State) : State :=
  s.onSpdm (fun x => decide (x = .session)) fun s =>
    let s : State := { s with chitin := { s.chitin with ide := [] } }
    (s.spdmTo .algorithms).answer .endSession

/-- R398: IDE_KM writes a stream's key. -/
def State.ideKey (s : State) (k : IdeStream) (key : BitVec 256) : State :=
  s.onSpdm (fun x => decide (x = .session)) fun s =>
    let c := s.chitin
    { s with chitin := { c with ide := (c.ide.filter fun x => decide (x.1 ≠ k)) ++ [(k, key)], resp := .vendor } }

/-- R375: fuses change from 0 to 1 only. -/
def Fuses.provision (f : Fuses) : Sys2Proof.FuseWrite → Fuses
  | .ownerKey n h => { f with keys := f.keys.set n.toNat (some (((f.keys.getD n.toNat none).getD 0) ||| h)) }
  | .revoke n => { f with revoked := f.revoked ||| BitVec.ofNat 4 (2 ^ n.toNat) }
  | .svn v => { f with svn := if f.svn.toNat < v.toNat then v else f.svn }
  | .debugLock => { f with debugLock := true }
  | .imageKey k => { f with kown := f.kown ||| k }

/-- R375: a provisioning request names the current counter. -/
def State.provision (s : State) (w : FuseWrite) (counter : BitVec 6) : State :=
  s.onSpdm SpdmSt.ready fun s =>
    let c := s.chitin
    if counter ≠ c.fuses.svn then s.answer .invalid
    else { s with chitin := { c with fuses := c.fuses.provision w, resp := .vendor } }

/-! ## The attestation mailbox (R396) -/

/-- R396: a write of CHI_PATTCMD.go. -/
def State.pattGo (s : State) (p : PartId) : State :=
  let q := s.partAt p
  if !q.loaded then s
  else if q.pattBusy then s.setPart p { q with pattOverrun := true }
  else s.setPart p { q with pattBusy := true, pattResult := 0 }

/-- R396: device HBM address of the report; none where the destination is refused. -/
def State.pattPlace (s : State) (p : PartId) : Option Nat :=
  let a := (s.reg64 (partBase p + 0x530) (partBase p + 0x534)).toNat
  if a % 4096 = 0 then s.hbmOf p a 512 else none

/-- R396: the report: what the rule lists, in its order, signed with the Alias key, and free bytes up to 512. (log 9, PRESUMED) -/
def State.pattReport (s : State) (p : PartId) : List Byte :=
  let ms := match s.chitin.image with
    | none => []
    | some m => [1, 2, 3, 4, 5, 16 + p.toNat].flatMap fun i => natLe 48 (s.measurement m i).toNat
  let b := ((List.range 12).flatMap fun w => natLe 4 (s.reg (partBase p + 0x500 + 4 * w)).toNat) ++ ms ++ natLe 1 p.toNat ++ natLe 2 (s.vulGroup p).toNat
    ++ natLe 48 (Config.sha384 s.chitin.aliasCert).toNat
  (b ++ natLe 96 (Config.ecdsaSign (aliasKey s.chitin.cdi) b).toNat ++ s.freeBytes 0 512).take 512

/-- ATTESTATION_REPORT_DONE. -/
def State.pattDone (s : State) (p : PartId) : State :=
  let q := s.partAt p
  if !q.pattBusy ∨ q.resetting then s else
  match s.pattPlace p with
  | none => s.setPart p { q with pattBusy := false, pattResult := 2 }
  | some a =>
    if (stacksAt a 512).any fun i => !s.serves (domHbm i) then each s (stacksAt a 512) fun s i => s.askWake (domHbm i)
    else ((s.putHbm a (s.pattReport p) false).setPart p { q with pattBusy := false, pattResult := 1 }).drawn

/-! ## The commands -/

/-- POWER_ON (R388, R412, R438). -/
def execPowerOn (s : State) : Ans := .next s.powerOn
/-- RESET_N_LOW (R412). -/
def execResetNLow (s : State) : Ans := .next (s.deviceReset 1 true)
/-- DEVRESET_WRITE (R412, R414). -/
def execDevresetWrite (by_ : Req) (w : W32) (s : State) : Ans :=
  .next (s.via by_ (pwrBase + 0x610) (s.pfReq by_) fun s => if bit w 31 ∧ fld w 15 0 = 0xD0E5 then s.deviceReset 4 true else s)
/-- BOOT_START (R381 to R386). -/
def execBootStart (i : BootInput) (s : State) : Ans := .next (s.boot i)
/-- DONE_LINE_RISE (R385). -/
def execDoneLineRise (s : State) : Ans := .next s.doneRise
/-- DONE_RELEASE_WRITE (R386). -/
def execDoneReleaseWrite (by_ : Req) (s : State) : Ans :=
  .next (s.via by_ chiBase (s.pfReq by_) fun s => if s.chitin.st = 2 then { s with chitin := { s.chitin with doneReleased := true } } else s)
/-- LINKSKIP_CLEAR (R384). -/
def execLinkskipClear (by_ : Req) (w : W32) (s : State) : Ans :=
  .next (s.via by_ chiBase (s.pfReq by_) fun s => { s with chitin := { s.chitin with linkskip := s.chitin.linkskip &&& ~~~(w.extractLsb' 0 6) } })
/-- BOOT_COUNTERS_CLEAR (R388). -/
def execBootCountersClear (by_ : Req) (s : State) : Ans :=
  .next (s.via by_ chiBase (s.pfReq by_) fun s => each s (List.range 6) fun s n => s.setReg (chiBase + 0x10 + 4 * n) 0)
/-- SPDM_GET_VERSION (R395). -/
def execSpdmGetVersion (s : State) : Ans := .next ((s.spdmTo .version).answer (.version 0x12))
/-- SPDM_GET_CAPABILITIES (R395). -/
def execSpdmGetCapabilities (s : State) : Ans :=
  .next (if s.chitin.spdm = .start then s.answer .unexpected else (s.spdmTo .capabilities).answer .capabilities)
/-- SPDM_NEGOTIATE_ALGORITHMS (R395). -/
def execSpdmNegotiateAlgorithms (s : State) : Ans :=
  .next (s.onSpdm (fun x => decide (x = .capabilities)) fun s => (s.spdmTo .algorithms).answer .algorithms)
/-- SPDM_GET_DIGESTS (R395): the digest of slot 0's chain. -/
def execSpdmGetDigests (s : State) : Ans := .next (s.onSpdm SpdmSt.ready fun s => s.answer (.digests (natLe 48 (Config.sha384 s.certChain).toNat)))
/-- SPDM_GET_CERTIFICATE (R395): as many bytes of the chain as it has from the offset on, at most those asked for. -/
def execSpdmGetCertificate (offset len : W16) (s : State) : Ans :=
  .next (s.onSpdm SpdmSt.ready fun s => s.answer (.certificate ((s.certChain.drop offset.toNat).take len.toNat)))
/-- SPDM_CHALLENGE (R395): the answer carries the nonce asked about, signed with the Alias key. -/
def execSpdmChallenge (nonce : BitVec 256) (s : State) : Ans :=
  .next (s.onSpdm SpdmSt.ready fun s => s.spdmBytes 96 fun b => .challengeAuth (natLe 32 nonce.toNat ++ b))
/-- SPDM_GET_MEASUREMENTS (R395, Table 15-7). -/
def execSpdmGetMeasurements (index : Byte) (s : State) : Ans :=
  .next (s.onSpdm SpdmSt.ready fun s => match s.chitin.image with
    | some m => if s.measureOk index.toNat then s.answer (.measurements index (natLe 48 (s.measurement m index.toNat).toNat)) else s.answer .invalid
    | none => s.answer .invalid)
/-- SPDM_KEY_EXCHANGE (R395): chitin's half of the exchange and its signature. -/
def execSpdmKeyExchange (exchange : BitVec 768) (s : State) : Ans :=
  .next (s.onSpdm (fun x => decide (x = .algorithms)) fun s =>
    let s : State := { s with chitin := { s.chitin with spdmKeyNo := exchange.toNat } }
    (s.spdmTo .exchanged).spdmBytes 192 .keyExchange)
/-- SPDM_FINISH (R395). -/
def execSpdmFinish (verified : Bool) (s : State) : Ans := .next (s.spdmFinish verified)
/-- SPDM_HEARTBEAT (R395). -/
def execSpdmHeartbeat (s : State) : Ans := .next (s.onSpdm (fun x => decide (x = .session)) fun s => s.answer .heartbeat)
/-- SPDM_KEY_UPDATE (R395). -/
def execSpdmKeyUpdate (s : State) : Ans :=
  .next (s.onSpdm (fun x => decide (x = .session)) fun s =>
    let s : State := { s with chitin := { s.chitin with spdmKeyNo := s.chitin.spdmKeyNo + 1 } }
    s.answer .keyUpdate)
/-- SPDM_END_SESSION (R395, R398). -/
def execSpdmEndSession (s : State) : Ans := .next s.spdmEnd
/-- IDE_KM_REQUEST (R398). -/
def execIdeKmRequest (stream : IdeStream) (key : BitVec 256) (s : State) : Ans := .next (s.ideKey stream key)
/-- FUSE_PROVISION (R375). -/
def execFuseProvision (w : FuseWrite) (counter : BitVec 6) (s : State) : Ans := .next (s.provision w counter)
/-- ATTESTATION_REQUEST (R396). -/
def execAttestationRequest (by_ : Req) (p : PartId) (s : State) : Ans := .next (s.onPart by_ p fun s => s.pattGo p)
/-- ATTESTATION_REPORT_DONE (R396). -/
def execAttestationReportDone (p : PartId) (s : State) : Ans := .next (s.pattDone p)

end Sys2Proof.Machine
end

