-- ==== Sys2Proof/Machine/Csr.lean ====
section
/-!
DEFINITION. The CSRs of a control core (R350, R356): those of Table 14-3, and of the standard's machine-level CSRs that the configuration of
Table 14-1 brings (log 42, PRESUMED).
-/
namespace Sys2Proof.Machine

/-- What a CSR stores of a written word; mstatus keeps MIE, MPIE, MPP and MPRV. -/
def csrMask (n : Nat) : W32 :=
  match n with
  | 0x7C0 => 0xFFFFFFF0
  | 0x7C1 => 0xF
  | 0x7C2 => 0xF
  | 0x7C3 => 0x1FF
  | 0x7C4 => 0xF
  | 0x7C8 => 0x3FF
  | 0x300 => 0x21888
  | 0x304 => 0x888
  | 0x305 => 0xFFFFFFFD
  | 0x306 => 0x7
  | 0x320 => 0x5
  | 0x340 => 0xFFFFFFFF
  | 0x341 => 0xFFFFFFFE
  | 0x342 => 0xFFFFFFFF
  | 0x343 => 0xFFFFFFFF
  | 0x7A0 => 0x1
  | 0x7B0 => 0x9E17
  | 0x7B1 => 0xFFFFFFFE
  | _ => if 0x3B0 ≤ n ∧ n < 0x3B8 then 0xFFFFFFFF else 0

/-- R350: is a PMP address register locked: by its own region, or by a locked top-of-range region above it? -/
def State.pmpLocked (s : State) (c : CoreId) (i : Nat) : Bool :=
  (s.pmpCfg c i).testBit 7 || (decide (i < 7) && (s.pmpCfg c (i + 1)).testBit 7 && decide (s.pmpCfg c (i + 1) / 8 % 4 = 1))
/-- R350: four configuration bytes written; a locked region keeps its byte. -/
def State.pmpCfgSet (s : State) (c : CoreId) (n : Nat) (w : W32) : State :=
  s.setCsr c n (pack ((List.range 4).map fun j =>
    let old := s.pmpCfg c (4 * (n - 0x3A0) + j)
    (8 * j, if old.testBit 7 then old else (fld w (8 * j + 7) (8 * j)) &&& 0x9F)))

/-- R355: the trigger that tselect names. -/
def State.trigSel (s : State) (c : CoreId) : Nat := fld (s.csr c 0x7A0) 0 0
/-- R355: tdata1 takes a match trigger of type 6 and else holds a disabled one. -/
def tdata1 (w : W32) : W32 := if fld w 31 28 = 6 then w else 0xF0000000

/-- A CSR's word. The standard's counters count what the model has no clock for: they read a free value. -/
def State.csrWord (s : State) (c : CoreId) (n : Nat) : W32 :=
  let tr := (s.coreAt c).trig.getD (s.trigSel c) (0, 0)
  match n with
  | 0x301 => 0x40101105
  | 0x344 => if s.presented c = 0 then 0 else 0x800
  | 0x7A1 => tr.1
  | 0x7A2 => tr.2
  | 0x7A4 => 0x01008040
  | 0xF14 => BitVec.ofNat 32 c.val
  | 0xFC1 => let k := s.presented c; if k = 0 then 0 else pack [(0, k), (12, s.srcPrio c k), (31, 1)]
  | 0xFC2 => (s.coreStamp c).setWidth 32
  | 0xFC3 => (s.ctlAt c).timeHi
  | 0xB00 | 0xB02 | 0xB80 | 0xB82 | 0xC00 | 0xC01 | 0xC02 | 0xC80 | 0xC81 | 0xC82 => BitVec.ofNat 32 (s.draw n)
  | _ => s.csr c n

/-- The core's own CSR read; a read of INT_TIME_LO latches the upper half. -/
def State.csrRead (s : State) (c : CoreId) (n : Nat) : State :=
  let s' : State := { s with readData := s.csrWord c n }
  let s' := if n / 256 = 0xB ∨ n / 256 = 0xC then s'.drawn else s'
  if n = 0xFC2 then s'.setCtl c { s'.ctlAt c with timeHi := (s.coreStamp c).extractLsb' 32 32 } else s'

/-- A CSR is written, as the core itself may. -/
def State.csrSet (s : State) (c : CoreId) (n : Nat) (w : W32) : State :=
  if n = 0x7C5 then s.timecmpSet c false w
  else if n = 0x7C6 then s.timecmpSet c true w
  else if n = 0x3A0 ∨ n = 0x3A1 then s.pmpCfgSet c n w
  else if 0x3B0 ≤ n ∧ n < 0x3B8 ∧ s.pmpLocked c (n - 0x3B0) then s
  else if n = 0x7A1 ∨ n = 0x7A2 then
    let k := s.coreAt c
    let tr := k.trig.getD (s.trigSel c) (0, 0)
    s.setCore c { k with trig := k.trig.set (s.trigSel c) (if n = 0x7A1 then (tdata1 w, tr.2) else (tr.1, w)) }
  else if csrMask n = 0 then s
  else
    let v := (s.csr c n &&& ~~~csrMask n) ||| (w &&& csrMask n)
    s.setCsr c n (if n = 0x300 ∧ fld v 12 11 ≠ 3 then setFld v 12 11 0 else v)

end Sys2Proof.Machine
end

