-- ==== Sys2Proof/Machine/Fabric.lean ====
section
/-!
DEFINITION. The fabric boundary's commands (R300 to R311): ingress and return FIFOs, doorbells, global set-reset, and the
latency probe of a fabric stage.
-/
namespace Sys2Proof.Machine

/-- R301: some partition names the ingress port. -/
def State.ingressNamed (s : State) (q : Nat) : Bool := s.loadedParts.any fun p => (s.pcfg p).any fun c => c.ingress.getLsbD q

/-- R308: GSR is asserted. -/
def State.gsr (s : State) : Bool := bit (s.reg fabBase) 0

/-- INGRESS_BEAT: a beat that meets ready enters the FIFO. -/
def State.ingressIn (s : State) (q : Nat) (b : IngressBeat) : State :=
  let l := s.ingressAt q
  if s.gsr ∨ !s.ingressNamed q ∨ 512 ≤ l.length then s
  else (s.setIngress q (l ++ [b])).incReg (fabBase + 0x108 + 16 * q) 31 0 1

/-- R310: is a doorbell of offset `o` at a core discarded? -/
def State.bellDropped (s : State) (c : CoreId) (o : Nat) : Bool :=
  decide (192 ≤ o) || (decide (c.val < 256) &&
    (let k : ColId := BitVec.ofNat 8 c.val
     (s.partOfCol k).isNone || decide ((s.domAt (1 + tdomOfCol k)).st = 4)))

/-- R310: a discarded doorbell is counted: FAB_XSTATc.dbdrop, or FAB_HDBSTAT's byte of a head core. -/
def State.bellDrop (s : State) (c : CoreId) : State :=
  if c.val < 256 then s.incReg (fabBase + 0x400 + 4 * c.val) 31 24 1
  else let d := c.val - 256; s.incReg (fabBase + 0x800) (8 * d + 7) (8 * d) 1

/-- FABRIC_DOORBELL. -/
def State.doorbell (s : State) (c : CoreId) (o : Byte) : State :=
  if s.gsr then s
  else if s.bellDropped c o.toNat then s.bellDrop c
  else s.raise c (256 + o.toNat)

/-- R309: a FIFO discards its beats and adds their number to its flushed count. -/
def State.flush (s : State) (q : Nat) : State :=
  let s := (s.incReg (fabBase + 0x104 + 16 * q) 31 16 (s.ingressAt q).length).setIngress q []
  (s.incReg (fabBase + 0x10C + 16 * q) 31 16 (s.retAt q).length).setRet q []

/-- R308: a stage's state: 0 HELD, 1 PROBE, 2 OPEN, 3 FAILED. -/
def State.setStage (s : State) (c : ColId) (f : Bool) (v : Nat) : State :=
  s.setRegF (fabBase + 0x400 + 4 * c.toNat) (2 * nat01 f + 1) (2 * nat01 f) v

/-- GSR_ASSERT (R170, R308, R309). -/
def State.gsrAssert (s : State) : State :=
  if s.gsr then s else
  let any := (List.range 16).any fun q => !(s.ingressAt q).isEmpty || !(s.retAt q).isEmpty
  let s := (s.setReg fabBase 3).incReg (fabBase + 0x008) 15 0 1
  let s := each s (List.range 256) fun s c => (s.setStage (BitVec.ofNat 8 c) false 0).setStage (BitVec.ofNat 8 c) true 0
  let s := each s (List.range 16) fun s q => s.flush q
  let s : State := { s with
    probes := []
    tile := mapIf (fun _ => {}) (fun _ => true) (fun x => { x with extSent := x.extSent.map fun y => (y.1, y.2.1, y.2.2.1, true) }) s.tile }
  if any then s.raise (headCore 0) 32 else s

/-- GSR_DEASSERT: the hold of R308 begins. -/
def State.gsrDeassert (s : State) : State := if s.gsr then s.setReg fabBase 2 else s

/-- GSR_HOLD_EXPIRY: every declared stage enters PROBE. -/
def State.gsrHoldEnds (s : State) : State :=
  if s.reg fabBase ≠ 2 then s else
  let s := s.setReg fabBase 0
  each s s.loadedParts fun s p =>
    let g := match s.pcfg p with | none => 0 | some c => c.fabStages
    each s (s.colsOf p) fun s c =>
      let s := if 0 < g.toNat then s.setStage c false 1 else s
      if 1 < g.toNat then s.setStage c true 1 else s

/-- Table 12-3: the slot of a probe: valid, probe and its stage. -/
def probeSlot (f : Bool) : BitVec 536 := BitVec.ofNat 536 (2 ^ 512 + nat01 f * 2 ^ 517 + 2 ^ 520)

/-- PROBE_SEND: once the colony's tile domain runs. -/
def State.probeSend (s : State) (c : ColId) (f : Bool) : State :=
  if fld (s.reg (fabBase + 0x400 + 4 * c.toNat)) (2 * nat01 f + 1) (2 * nat01 f) ≠ 1 ∨ s.probes.contains (c, f) ∨ (s.domAt (1 + tdomOfCol c)).st ≠ 0 then s
  else ({ s with probes := s.probes ++ [(c, f)] } : State).send (.extSlot c (probeSlot f))

/-- PROBE_RESULT_DUE: Lf cycles after the probe. -/
def State.probeResult (s : State) (c : ColId) (f : Bool) (valid : Bool) : State :=
  if !s.probes.contains (c, f) then s
  else
    let s : State := { s with probes := s.probes.erase (c, f) }
    s.setStage c f (if valid then 2 else 3)

/-- R311: FAB_CNTCLR.clr. -/
def State.fabClear (s : State) : State :=
  let s := each s (List.range 16) fun s q =>
    ((s.setRegF (fabBase + 0x104 + 16 * q) 31 16 0).setReg (fabBase + 0x108 + 16 * q) 0).setRegF (fabBase + 0x10C + 16 * q) 31 16 0
  let s := each s (List.range 256) fun s c => s.setRegF (fabBase + 0x400 + 4 * c) 31 8 0
  s.setReg (fabBase + 0x800) 0

/-! ## The commands -/

/-- INGRESS_BEAT (R301, R309). -/
def execIngressBeat (q : BitVec 4) (b : IngressBeat) (s : State) : Ans := .next (s.ingressIn q.toNat b)
/-- RETURN_BEAT_TAKEN (R303). -/
def execReturnBeatTaken (q : BitVec 4) (s : State) : Ans := .next (s.setRet q.toNat ((s.retAt q.toNat).drop 1))
/-- FABRIC_DOORBELL (R309, R310, R357). -/
def execFabricDoorbell (c : CoreId) (o : Byte) (s : State) : Ans := .next (s.doorbell c o)
/-- GSR_ASSERT (R308, R309). -/
def execGsrAssert (s : State) : Ans := .next s.gsrAssert
/-- GSR_DEASSERT (R308). -/
def execGsrDeassert (s : State) : Ans := .next s.gsrDeassert
/-- GSR_HOLD_EXPIRY (R308). -/
def execGsrHoldExpiry (s : State) : Ans := .next s.gsrHoldEnds
/-- PROBE_SEND (R308). -/
def execProbeSend (c : ColId) (fsel : Bool) (s : State) : Ans := .next (s.probeSend c fsel)
/-- PROBE_RESULT_DUE (R308). -/
def execProbeResultDue (c : ColId) (fsel : Bool) (valid : Bool) (s : State) : Ans := .next (s.probeResult c fsel valid)
/-- FABRIC_COUNTER_CLEAR (R311). -/
def execFabricCounterClear (by_ : Req) (s : State) : Ans := .next (s.via by_ fabBase (s.fabReq by_) fun s => s.fabClear)

end Sys2Proof.Machine
end

