-- ==== Sys2Proof/Machine/Engine.lean ====
section
/-!
DEFINITION. The engines' commands (R111 to R148): program starts and ends, instruction memory, the issue of a word, posts and
signals, semaphore writes, and the release and step of halted engines (R456).
-/
namespace Sys2Proof.Machine

/-- R111, R403, R474: a write of TIL_ENGe_START with go = 1. -/
def State.startReq (s : State) (by_ : Req) (t : TileId) (e : EngId) (pc : BitVec 13) : State :=
  s.via by_ (tileBase t) (s.tileWriter by_ t .launch && s.colUp (colonyOf t)) fun s => s.startOp t e pc

/-- R403, R474: a write of TIL_ENGe_START with go = 0 starts nothing; below RUN it wakes the domain. -/
def State.startNone (s : State) (by_ : Req) (t : TileId) : State :=
  s.via by_ (tileBase t) (s.tileWriter by_ t .launch && s.colUp (colonyOf t)) fun s => if s.runs t then s else s.askWake (domTile t)

/-- R116, R117: a write of TIL_IMLD_DATA. -/
def State.imemLoad (s : State) (t : TileId) (w : W32) : State :=
  let c := s.tr t 0x180
  let s := s.imemWord t (c.extractLsb' 0 2) (bit c 2) (fld c 15 4) w
  s.setTr t 0x180 (setFld c 15 4 (fld c 15 4 + 1))

/-- R117: a write of arm. -/
def State.imArm (s : State) (t : TileId) (e : EngId) : State := s.setEng t e { s.engAt t e with arm := true }
/-- R117: a write of disarm. -/
def State.imDisarm (s : State) (t : TileId) (e : EngId) : State := s.setEng t e { s.engAt t e with arm := false }

/-- R146: a write of TIL_ENGe_IMCTL. A write of both arm and disarm leaves arm 0 (log 31, DESIGN CHOICE). -/
def State.imctlWrite (s : State) (t : TileId) (e : EngId) (w : W32) : State :=
  let s := if bit w 0 then s.imArm t e else s
  let s := if bit w 1 then s.imDisarm t e else s
  let g := s.engAt t e
  let s := s.setEng t e { g with startRefused := g.startRefused && !bit w 2 }
  s.plainWrite (tileBase t + 0x40 * e.toNat + 0x0C) w

/-- R147: TIL_IMLD_STAT.clr. -/
def State.imldClear (s : State) (t : TileId) : State := s.setRegF (tileBase t + 0x188) 31 16 0

/-- R139, R451: a write of TIL_SEMn. -/
def State.semWrite (s : State) (t : TileId) (n : SemId) (w : W32) : State := (s.setSem t n (fld w 15 0)).setPosterW t n.toNat 0

/-- R138, R140, R147: a write of TIL_SEMPOST takes effect. -/
def State.semPostWrite (s : State) (t : TileId) (w : W32) : State :=
  if fld w 15 8 = 0 then s else (s.addSem t (w.extractLsb' 0 4) (fld w 15 8) (posterCode 5 0)).1

/-- R456: the halted engines that a mask names go on, where no global stop covers the tile (log 140, DEDUCED). -/
def State.unhaltMask (s : State) (t : TileId) (m : BitVec 4) (step : Bool) : State :=
  each s engines fun s e =>
    let g := s.engAt t e
    if m.getLsbD e.toNat && decide (g.st = .halted) && !g.gstop && !s.tileStopped t then s.unhalt t e step else s

/-- R62: a write of TIL_SRSEED_HI arms a reseed with both words. -/
def State.srseed (s : State) (t : TileId) (w : W32) : State :=
  let s := s.setTr t 0x1F04 w
  s.setTile t { s.tileAt t with reseed := some (softSeed (w ++ s.tr t 0x1F00)) }

/-- SRSEED_WRITE (R61, R62). -/
def execSrseedWrite (by_ : Req) (t : TileId) (w : W32) (s : State) : Ans := .next (s.onTile by_ t .open_ fun s => s.srseed t w)
/-- PROGRAM_START (R111, R112). -/
def execProgramStart (by_ : Req) (t : TileId) (e : EngId) (pc : BitVec 13) (s : State) : Ans := .next (s.startReq by_ t e pc)
/-- PROGRAM_END (R113). -/
def execProgramEnd (t : TileId) (e : EngId) (s : State) : Ans := .next (s.programEnd t e)
/-- IMEM_LOAD_WRITE (R116). -/
def execImemLoadWrite (by_ : Req) (t : TileId) (w : W32) (s : State) : Ans := .next (s.onTile by_ t .open_ fun s => s.imemLoad t w)
/-- IMEM_ARM (R117). -/
def execImemArm (by_ : Req) (t : TileId) (e : EngId) (s : State) : Ans := .next (s.onTile by_ t .open_ fun s => s.imArm t e)
/-- IMEM_DISARM (R117). -/
def execImemDisarm (by_ : Req) (t : TileId) (e : EngId) (s : State) : Ans := .next (s.onTile by_ t .open_ fun s => s.imDisarm t e)
/-- IMLD_DROP_COUNT_CLEAR (R147). -/
def execImldDropCountClear (by_ : Req) (t : TileId) (s : State) : Ans := .next (s.onTile by_ t .open_ fun s => s.imldClear t)
/-- ENGINE_WORD_ISSUE (R118 to R122, R145). -/
def execEngineWordIssue (t : TileId) (e : EngId) (s : State) : Ans := .next (s.issueNext t e)
/-- POST_TAKES_EFFECT (R141). -/
def execPostTakesEffect (t : TileId) (e : EngId) (s : State) : Ans := .next (s.postNow t e)
/-- ENGINE_SIGNAL_SEND (R141, R143, R340). -/
def execEngineSignalSend (t : TileId) (e : EngId) (s : State) : Ans := .next (s.signalNow t e)
/-- REMOTE_POST_ARRIVAL (R142). -/
def execRemotePostArrival (t : TileId) (s : State) : Ans :=
  -- R403: a post that names a tile of a domain below RUN wakes it, and takes effect then
  let s := s.bringPost t
  .next (if s.runs t then s.rpostArrive t else if (s.tileAt t).rposts.isEmpty then s else s.askWake (domTile t))
/-- SEMAPHORE_WRITE (R139). -/
def execSemaphoreWrite (by_ : Req) (t : TileId) (n : SemId) (w : W32) (s : State) : Ans :=
  .next (s.onTile by_ t .open_ fun s => s.semWrite t n w)
/-- SEMPOST_WRITE (R138, R140, R403). -/
def execSempostWrite (by_ : Req) (t : TileId) (w : W32) (s : State) : Ans :=
  .next (s.onTileWake by_ t .open_ (.sempost t w) fun s => s.semPostWrite t w)
/-- ENGINE_RELEASE (R456). -/
def execEngineRelease (by_ : Req) (t : TileId) (m : BitVec 4) (s : State) : Ans :=
  .next (s.onTile by_ t .open_ fun s => s.unhaltMask t m false)
/-- ENGINE_STEP (R456). -/
def execEngineStep (by_ : Req) (t : TileId) (m : BitVec 4) (s : State) : Ans :=
  .next (s.onTile by_ t .open_ fun s => s.unhaltMask t m true)

end Sys2Proof.Machine
end

