-- ==== Sys2Proof/Machine/PowerOps.lean ====
section
/-!
DEFINITION. Power domains (R399 to R407): quiet, CLOSING and its abandonment, the return to RUN, what OFF loses, and the reload of R407.
-/
namespace Sys2Proof.Machine

/-! ## What stands in a domain -/

/-- Domain IDs of a partition's tile domains. -/
def State.tdomsOf (s : State) (p : PartId) : List Nat := ((s.colsOf p).map fun c => 1 + tdomOfCol c).eraseDups
/-- Domain IDs of the cistern domains above a partition. -/
def State.cdomsOf (s : State) (p : PartId) : List Nat := ((s.colsOf p).map fun c => 65 + cdomOfCol c).eraseDups

/-- Partitions with a colony in the domain. -/
def State.domParts (s : State) (d : Nat) : List PartId := ((domCols d).filterMap s.partOfCol).eraseDups

/-- R414: who reaches the PWR block. -/
def State.pwrReq (s : State) (r : Req) : Bool :=
  match r with
  | .pf => true
  | .head _ => true
  | .chitin => true
  | .tap => s.debugOk
  | .vf _ => false
  | .core _ => false

/-! ## Wakes -/

/-- R403: a held write takes effect once its domain runs. -/
def State.doHeld (s : State) : HeldWrite → State
  | .start t e pc => s.startOp t e pc
  | .sempost t w => s.semPostWrite t w
  | .spown t w => s.spownNow t w
  | .post t n slot => (s.addSem t n 1 (posterCode 4 slot.toNat)).1
  | .tlWord p a v => s.tlApply p a v

/-- The domain that holds a write. -/
def State.heldAt (s : State) : HeldWrite → Nat
  | .start t _ _ => domTile t
  | .sempost t _ => domTile t
  | .spown t _ => domTile t
  | .post t _ _ => domTile t
  | .tlWord p a _ => domHbm (stackOf ((s.partAt p).hbmBase + a.toNat))

/-- R405: a stack's gate opens: waits on timelines there are looked at. -/
def State.tlAgain (s : State) (d : Nat) : State :=
  if d < 81 ∨ 88 < d then s else each s s.loadedParts fun s p => ((s.retest p fun w => w.armed && w.tl).fireDue p).takeWaits p

/-- R403, R405: the domain is in RUN or ACTIVE with its gate open: what it held takes effect, in order. -/
def State.opened (s : State) (d : Nat) : State :=
  let l := s.heldWrites
  let s := s.govDom d
  let s := s.setDom d { s.domAt d with st := 0, phase := 0, gate := false, target := 0, entering := false, wakeReq := false, quiet := false, fail := false }
  let s : State := { s with heldWrites := l.filter fun h => decide (s.heldAt h ≠ d) }
  ((each s (l.filter fun h => decide (s.heldAt h = d)) fun s h => s.doHeld h).tlAgain d).barRetry

/-- R406: a wake request during CLOSING abandons the power-down. -/
def State.abandon (s : State) (d : Nat) : State :=
  let q := s.domAt d
  if q.phase = 1 ∧ !q.entering then s.opened d else s

/-- R401, R403, R405, R406: something asks for a domain's wake, and ends its quiet. -/
def State.wakeUp (s : State) (d : Nat) : State :=
  let s := s.abandon d
  (s.setDom d { s.domAt d with quiet := false }).askWake d

/-- R403: an interrupt source is eligible at a core of a tile domain. -/
def State.domEligible (s : State) (d : Nat) : Bool :=
  decide (1 ≤ d) && decide (d ≤ 64) && (domCols d).any fun c => !(s.coreAt (coreOfCol c)).inReset && decide (s.presented (coreOfCol c) ≠ 0)

/-! ## Quiet (R401) -/

/-- R401: a tile has no part in a rotation hop or a halo send in progress. -/
def State.hopFree (s : State) (t : TileId) : Bool :=
  ((List.range 8).all fun k => !(s.rsetAt t k).departing && !(s.rsetAt (s.predTile t) k).departing)
    && ((List.range 4).all fun h => !(s.haloAt t h).busy)
    && s.halo.all fun e => !e.2.busy || decide (s.haloTo (BitVec.ofNat 12 (e.1 / 4)) (e.1 % 4) ≠ some t)

/-- R401: a tile of a quiet domain. -/
def State.tileQuiet (s : State) (t : TileId) : Bool :=
  let tl := s.tileAt t
  engines.all (fun e => decide ((s.engAt t e).st = .idle))
    && (List.range 8).all (fun d => !(s.movd_ t d).armed && !(s.movd_ t d).running && (s.movd_ t d).pending.isNone)
    && tl.wei.isEmpty && tl.walk.isNone && s.hopFree t && tl.quar.isNone

/-- R401: a core that may wait in WFI: it has no eligible interrupt and is not halted. A core held in reset executes nothing (log 47, DEDUCED). -/
def State.coreQuiet (s : State) (c : CoreId) : Bool :=
  let k := s.coreAt c
  k.inReset || (!k.halted && decide (s.presented c = 0))

/-- R401: the tile domain is quiet, where its cores have executed WFI. -/
def State.domQuiet (s : State) (d : Nat) : Bool :=
  (domCols d).all fun c => s.coreQuiet (coreOfCol c) && (tilesOfCol c).all fun t => s.tileQuiet t

/-! ## OFF (R400, R407) -/

/-- R400: nothing of a tile is retained. Posts still on their way to it are not in it, and its vault, with the page operation and the
weir operations there, stands in the cistern domain (R31, R108). (log 72, DESIGN CHOICE) -/
def State.loseTile (s : State) (t : TileId) : State :=
  let inR := fun (w k : Nat) => decide (t.toNat * w ≤ k) && decide (k < t.toNat * w + w)
  let tl := s.tileAt t
  let s : State := { s with
    spad := dropIf (inR 262144) s.spad, spadPoison := dropIf (inR 4096) s.spadPoison, imem := dropIf (inR 65536) s.imem,
    imemBad := dropIf (inR 32768) s.imemBad,
    acc := dropIf (inR 16384) s.acc, accTy := dropIf (inR 16384) s.accTy, accPoison := dropIf (inR 16384) s.accPoison,
    vreg := dropIf (inR 1024) s.vreg, vregPoison := dropIf (inR 1024) s.vregPoison, preg := dropIf (inR 8) s.preg,
    sreg := dropIf (inR 64) s.sreg, poster := dropIf (inR 16) s.poster, eng := dropIf (inR 4) s.eng,
    movq := dropIf (inR 4) s.movq, movd := dropIf (inR 8) s.movd, bucket := dropIf (inR 3) s.bucket,
    rset := dropIf (inR 8) s.rset, halo := dropIf (inR 4) s.halo }
  s.setTile t
    { rposts := tl.rposts, ageFrom := s.time, lastCisAccess := tl.lastCisAccess, pageop := tl.pageop, poDone := tl.poDone,
      wv := if tl.wv = .failed then .failed else .off, poResult := tl.poResult, poOverrun := tl.poOverrun, scrub := tl.scrub, weirArrived := tl.weirArrived, weirRunning := tl.weirRunning }

/-- Registers of a vault, by offset in its tile's block: CIS_STATE to CIS_FREECNT, THERMCNT, and the tags (Table 4-4). -/
def vaultReg (o : Nat) : Bool := (decide (0x1800 ≤ o) && decide (o < 0x1824)) || (decide (0x1C00 ≤ o) && decide (o < 0x1E00))

/-- R400: nothing of a tile domain is retained: its tiles, its registers, its cores and their memories; the timer compares stand in the
always-on domain (R399). -/
def State.loseTdom (s : State) (d : Nat) : State :=
  each s (domCols d) fun s c =>
    let b := colBase c; let k := c.toNat
    let s : State := { s with
      regs := dropIf (fun a => decide (b ≤ a) && decide (a < b + 0x40000) && !(decide (b + 0x20000 ≤ a) && vaultReg ((a - b) % 0x2000))) s.regs,
      cmem := dropIf (fun a => decide (k * 98304 ≤ a) && decide (a < k * 98304 + 98304)) s.cmem,
      csrs := dropIf (fun a => decide (k * 4096 ≤ a) && decide (a < k * 4096 + 4096) && !timerCsr a) s.csrs }
    let s := ((s.setCtl (coreOfCol c) { timerFired := (s.ctlAt (coreOfCol c)).timerFired }).setCore (coreOfCol c) {}).setPackage c 0
    each s (tilesOfCol c) fun s t => s.loseTile t

/-- R400: a cistern domain in OFF retains nothing, neither pages nor the vaults' registers; none of its slots is valid (R108). -/
def State.loseCdom (s : State) (d : Nat) : State :=
  let s : State := { s with regs := dropIf (fun a => (domCols d).any fun c =>
    decide (colBase c + 0x20000 ≤ a) && decide (a < colBase c + 0x40000) && vaultReg ((a - colBase c) % 0x2000)) s.regs }
  each s ((domCols d).flatMap tilesOfCol) fun s t => each s (List.range 64) fun s i => s.zeroSlot t i

/-- R407: chitin reloads a tile domain: its part of the image is applied to it alone, and its cores leave reset. -/
def State.reload (s : State) (d : Nat) : State :=
  match s.chitin.image with
  | none => s
  | some m =>
    let s := each s (s.domParts d) fun s p =>
      match s.pcfg p with
      | none => s
      | some g => s.applyPart m p g ((domCols d).filter fun c => decide (s.partOfCol c = some p)) false
    (each s ((domCols d).filter fun c => (s.partOfCol c).isSome) fun s c => s.releaseCore (coreOfCol c)).drawn

/-- R407, R366, R367: a reload fails: the domain stays OFF, and a PARTITION error is recorded for each partition of the domain. (log 91, DEDUCED) -/
def State.reloadFails (s : State) (d : Nat) : State :=
  let s := s.setDom d { s.domAt d with phase := 0, wakeReq := false, fail := true }
  each s (s.domParts d) fun s p => s.errHead 0 (s.unitErr (some p) 4 .chitin 6 0 0 0)

end Sys2Proof.Machine
end

