-- ==== Sys2Proof/Machine/Reset.lean ====
section
/-!
DEFINITION. Partition resets (R392, R412, R413, R465): the write that begins one, and its end. The steps between are one command's
effect: nothing outside sees a state between steps 2 and 5, for accesses are held until step 5 ends.
-/
namespace Sys2Proof.Machine

/-- R392 step 1, R396, R354, R412, R114: a partition reset begins: its contexts are lost, and every engine of its tiles stops. -/
def State.resetBegin (s : State) (p : PartId) : State :=
  let s := each s (s.tdomsOf p ++ s.cdomsOf p) fun s d => s.wakeUp d
  let q := s.partAt p
  let q := if q.pattBusy then { q with pattBusy := false, pattResult := 3 } else q
  let s := s.setPart p { q with resetting := true }
  let s := each s (s.colsOf p) fun s c => s.setCore (coreOfCol c) {}
  let s := s.loseAll p 0x20
  each s (s.tilesIn p) fun s t => s.stopTile t true

/-- R412, R413, R465: a request to reset a partition: merged with a reset in progress, held by a global stop over the partition. -/
def State.presetNow (s : State) (p : PartId) : State :=
  let q := s.partAt p
  if !q.loaded ∨ q.resetting then s
  else if s.partStopped p then { s with gs := { s.gs with held := s.gs.held ++ [.preset p] } }
  else s.resetBegin p

/-- R412: a write of PWR_PRESET, by the physical function or a head core. -/
def State.preset (s : State) (r : Req) (w : W32) : State :=
  s.via r pwrBase (s.pwrReq r && decide (r ≠ .chitin)) fun s => if bit w 31 then s.presetNow (w.extractLsb' 0 6) else s

/-! ## The end of a reset -/

/-- R392 step 1, R114: nothing that a tile of the partition had admitted is under way. -/
def State.tileDrained (s : State) (t : TileId) : Bool :=
  let tl := s.tileAt t
  tl.mxq.isEmpty && tl.drq.isEmpty && tl.wei.isEmpty && (List.range 4).all fun q => (s.movq_ t q).inflight.all fun f => f.refused

/-- R412: its domains are awake, and every admitted access has completed. -/
def State.resetReady (s : State) (p : PartId) : Bool :=
  (s.tdomsOf p).all (fun d => decide ((s.domAt d).st = 0) && s.serves d) && (s.cdomsOf p).all (fun d => s.serves d)
    && stackList.all (fun n => s.serves (domHbm n)) && (s.tilesIn p).all fun t => s.tileDrained t

/-- R114, R216, R248, R257: a tile's engines, movers, weir and memories. The load of IMEM sections goes to bank 0, which becomes the
active bank as at boot (R115; log 45, DEDUCED). -/
def State.resetTile (s : State) (t : TileId) : State :=
  let s := (s.killMover t).killWeir t
  let s := each s (List.range 4) fun s q => s.setMovq t q { s.movq_ t q with streams := [], inflight := [], code := 0 }
  let s := each s engines fun s e =>
    let s := s.stopEngine t e
    s.setEng t e { s.engAt t e with bank := false, arm := false, pend := [], held := [], code := 0 }
  let s := ((s.zeroWorking t).zeroAcc t).zeroVregs t
  let s := each s (List.range 64) fun s i => s.emptySlot t i
  let s := each s (List.range 8) fun s k => s.setRset t k {}
  let s := each s (List.range 4) fun s h => s.setHalo t h { s.haloAt t h with busy := false, landed := [], lateAt := [] }
  let s := each s (List.range 16) fun s n => s.setPosterW t n 0
  let s := s.setTr t 0x1F08 0
  -- R232: the buckets are full
  let s := each s (List.range 3) fun s k => s.setBucket t k 0
  let tl := s.tileAt t
  s.setTile t { tl with owned := false, quar := none, quarWait := [], mxq := [], drq := [], extSent := [], wei := [], weirArrived := [],
                        weirRunning := none, walk := none, weirFrom := 0, pageop := none, scrub := [], realign := 0, reloadDue := false, sums := [],
                        reseed := none }

/-- R391, R392 steps 2 and 3: a new key, and the allocation reads 0. -/
def State.rekey (s : State) (p : PartId) : State :=
  let q := s.partAt p
  let lo := q.hbmBase; let hi := q.hbmBase + s.alloc p
  let s : State := { s with
    hbm := dropIf (fun k => decide (lo ≤ k) && decide (k < hi)) s.hbm,
    hbmPoison := dropIf (fun l => decide (lo ≤ 64 * l) && decide (64 * l < hi)) s.hbmPoison,
    chitin := { s.chitin with draws := s.chitin.draws + 1 } }
  s.setPart p { q with keyDraw := s.chitin.draws }

/-- R46: the partition's grants return to 0. -/
def State.dropGrants (s : State) (p : PartId) : State := (s.setRegF (verReg false p) 13 12 0).setRegF (verReg true p) 13 12 0

/-- PARTITION_RESET_COMPLETE (R392): steps 2 to 5, and the held accesses are admitted. -/
def State.resetEnds (s : State) (p : PartId) : State :=
  if !(s.partAt p).resetting then s else
  match s.pcfg p, s.chitin.image with
  | some g, some m =>
    if !s.resetReady p then each s stackList fun s n => s.askWake (domHbm n) else
    let cols := s.colsOf p
    let s := s.rekey p
    let s := each s (s.tilesIn p) fun s t => s.resetTile t
    let s := s.applyPart m p g cols true
    let s := each s cols fun s c => (s.setPackage c 0).releaseCore (coreOfCol c)
    let s := s.dropGrants p
    let s := s.setPart p { s.partAt p with resetting := false, mapCache := [], mapInv := none, stages := [] }
    ((s.drawn).barRetry).settleAts
  | _, _ => s

/-! ## The commands -/

/-- PARTITION_RESET (R392, R412, R413, R465). -/
def execPartitionReset (by_ : Req) (w : W32) (s : State) : Ans := .next (s.preset by_ w)
/-- PARTITION_RESET_COMPLETE (R391, R392). -/
def execPartitionResetComplete (p : PartId) (s : State) : Ans := .next (s.resetEnds p)

end Sys2Proof.Machine
end

