-- ==== Sys2Proof/Machine/Power.lean ====
section
/-!
DEFINITION. Power's commands (R399 to R415): entry into the low states, CLOSING, wakes, requests, the governor, and the thermal responses.
-/
namespace Sys2Proof.Machine

/-! ## Into the low states (R401, R402, R404) -/

/-- R402: the domain's limit. -/
def State.limitOf (s : State) (d : Nat) : Nat := (domCols d).foldl (fun m c => min m (s.regF (colBase c + 0x1C000) 1 0)) 2

/-- R402: the earliest nonzero PWR_CWAKE of the domain's colonies. -/
def State.cwakeOf (s : State) (d : Nat) : Option Nat :=
  (((domCols d).map fun c => (s.reg64 (colBase c + 0x1C004) (colBase c + 0x1C008)).toNat).filter fun w => decide (w ≠ 0)).foldl
    (fun m w => match m with | none => some w | some v => some (min v w)) none

/-- DOMAIN_QUIET_ENTRY: every core out of reset is in WFI, and the quiet domain enters IDLE. (log 93, DEDUCED) -/
def State.quietEntry (s : State) (d : Nat) : State :=
  let q := s.domAt d
  if q.st ≠ 0 ∨ q.phase ≠ 0 ∨ q.gate ∨ !s.domQuiet d then s else
  let s := each s (domCols d) fun s c =>
    let k := s.coreAt (coreOfCol c)
    if k.inReset then s else s.setCore (coreOfCol c) { k with wfi := true }
  s.setDom d { q with st := 1, quiet := true, quietSince := s.time }

/-- R402: the test against a minimum of `us` microseconds. -/
def State.longQuiet (s : State) (d us : Nat) : Bool :=
  match s.cwakeOf d with
  | some w => decide (s.time.toNat + 1000 * us ≤ w)
  | none => decide ((s.domAt d).quietSince.toNat + 1000 * us ≤ s.time.toNat)

/-- R405: the gate closes, and CLOSING begins. -/
def State.close (s : State) (d : Nat) (target : Nat) : State :=
  s.setDom d { s.domAt d with phase := 1, gate := true, target := BitVec.ofNat 3 target, entering := false, wakeReq := false }

/-- DOMAIN_IDLE_TIMEOUT: the domain has been quiet for `us` microseconds. -/
def State.idleTimeout (s : State) (d us : Nat) : State :=
  let q := s.domAt d
  if !q.quiet ∨ q.phase ≠ 0 ∨ q.wakeReq ∨ ¬(1 ≤ q.st.toNat ∧ q.st.toNat ≤ 2) ∨ !s.domQuiet d then s else
  let s := s.reach (BitVec.ofNat 64 (q.quietSince.toNat + 1000 * us))
  let w := s.reg (pwrBase + 0x300 + 4 * (d - 1))
  if 2 ≤ s.limitOf d ∧ s.longQuiet d (fld w 23 12) then s.close d 3
  else if 1 ≤ s.limitOf d ∧ s.longQuiet d (fld w 11 0) then s.setDom d { q with st := 2 }
  else s

/-- R404: the last access of a vault of a cistern domain. -/
def State.lastAccess (s : State) (d : Nat) : Nat :=
  (domCols d).foldl (fun m c => (tilesOfCol c).foldl (fun m t => max m (s.tileAt t).lastCisAccess.toNat) m) 0

/-- CISTERN_IDLE_TIMEOUT: no vault of the domain has been accessed for PWR_GOVCFG.cis_idle always-on cycles. -/
def State.cisIdle (s : State) (d : Nat) : State :=
  let q := s.domAt d
  if q.st ≠ 0 ∨ q.phase ≠ 0 ∨ q.gate then s
  else (s.reach (BitVec.ofNat 64 (s.lastAccess d + 40 * s.regF (pwrBase + 0x008) 31 16))).setDom d { q with st := 1 }

/-- CLOSING_COMPLETE: every access admitted before the gate closed has completed. A wake asked for meanwhile abandons it (R406). -/
def State.closed (s : State) (d : Nat) : State :=
  let q := s.domAt d
  if q.phase ≠ 1 ∨ q.entering then s
  else if q.wakeReq ∨ s.domEligible d then s.opened d
  else s.setDom d { q with entering := true }

/-- LOW_STATE_ENTRY_COMPLETE: the domain is in its target state; a wake asked for during entry begins. -/
def State.entered (s : State) (d : Nat) : State :=
  let q := s.domAt d
  if q.phase ≠ 1 ∨ !q.entering then s else
  let s := if d ≤ 64 ∧ q.target = 4 then s.loseTdom d else if 65 ≤ d ∧ d ≤ 80 ∧ q.target = 2 then s.loseCdom d else s
  let q := s.domAt d
  s.setDom d { q with st := q.target, target := 0, entering := false, phase := if q.wakeReq then 2 else 0, wakeReq := false }

/-! ## Wakes (R403, R405 to R407) -/

/-- CWAKE_TIME_REACHED. -/
def State.cwakeReached (s : State) (d : Nat) : State :=
  match s.cwakeOf d with
  | none => s
  | some w => (s.reach (BitVec.ofNat 64 w)).wakeUp d

/-- R32, R404: a domain that a wake reaches: tile domains with a partition's colony, cistern domains, and stacks that are not OFF. -/
def State.wakes (s : State) (d : Nat) : Bool :=
  if 1 ≤ d ∧ d ≤ 64 then !(s.domParts d).isEmpty
  else if 65 ≤ d ∧ d ≤ 80 then true
  else decide (81 ≤ d) && decide (d ≤ 88) && decide ((s.domAt d).st ≠ 2)

/-- DOMAIN_WAKE_START: what has asked for the domain's wake, or an eligible interrupt, starts it. -/
def State.wakeStart (s : State) (d : Nat) : State :=
  let q := s.domAt d
  if !s.wakes d ∨ (!q.wakeReq ∧ !s.domEligible d) ∨ (q.phase = 0 ∧ q.st = 0 ∧ !q.gate) ∨ q.phase = 2 then s
  else if q.phase = 1 then if q.entering then s.setDom d { q with wakeReq := true } else s.opened d
  else s.setDom d { q with phase := 2, wakeReq := false, quiet := false }

/-- DOMAIN_WAKE_COMPLETE. -/
def State.wakeEnd (s : State) (d : Nat) (reloadOk : Bool) : State :=
  let q := s.domAt d
  if q.phase ≠ 2 then s
  else if d ≤ 64 ∧ q.st = 4 then if reloadOk then (s.reload d).opened d else s.reloadFails d
  else s.opened d

/-! ## Requests (R407, R413 to R415) -/

/-- PWR_REQRES.result. -/
def State.reqResult (s : State) (v : Nat) : State := s.setReg (pwrBase + 0x404) (BitVec.ofNat 32 v)

/-- R414: the request names a domain that has colonies of a partition, where its kind stands above or holds colonies. -/
def State.domOwned (s : State) (d : Nat) : Bool := decide (d = 0) || decide (81 ≤ d) || !(s.domParts d).isEmpty

/-- R413: a partition reset of one of the domain's partitions. -/
def State.domResetting (s : State) (d : Nat) : Bool := (s.domParts d).any fun p => (s.partAt p).resetting

/-- R465: does a global stop in force hold a request that names the domain? -/
def State.domStopped (s : State) (d : Nat) : Bool := decide (s.gs.st ≠ .running) && (s.gs.device || (s.domParts d).contains s.gs.part)

/-- R402, R407: a tile domain may leave RUN for the target. -/
def State.mayLeave (s : State) (d target : Nat) : Bool :=
  (s.domAt d).quiet && s.domQuiet d && (decide (target ≠ 4) ||
    (domCols d).all fun c => (tilesOfCol c).all fun t =>
      !(s.tileAt t).owned && (List.range 8).all fun k => decide ((s.rsetAt t k).count = 0))

/-- R108: some slot of the domain's vaults is valid or busy. -/
def State.slotsInUse (s : State) (d : Nat) : Bool :=
  (domCols d).any fun c => (tilesOfCol c).any fun v => (List.range 64).any fun i => tagValid (s.tag v i) || tagBusy (s.tag v i)

/-- R414: a request toward a state. A state no deeper than the one the domain is in, or is entering, changes nothing (log 46, DEDUCED). (log 86, DEDUCED) -/
def State.toState (s : State) (d target : Nat) : State :=
  let q := s.domAt d
  let acc := fun (s : State) => s.reqResult 1
  if 1 ≤ d ∧ d ≤ 64 then
    if 4 < target then s.reqResult 3
    else if q.phase = 0 ∧ target ≤ q.st.toNat then acc s
    else if q.phase ≠ 0 ∨ q.wakeReq ∨ !s.mayLeave d target then s.reqResult 2
    else if target ≤ 2 then acc (s.setDom d { q with st := BitVec.ofNat 3 target })
    else if q.st = 3 then acc (s.setDom d { q with phase := 1, entering := true, target := 4 })
    else acc (s.close d target)
  else if 65 ≤ d ∧ d ≤ 80 then
    if 2 < target then s.reqResult 3
    else if q.phase = 0 ∧ target ≤ q.st.toNat then acc s
    else if q.phase ≠ 0 ∨ q.wakeReq then s.reqResult 2
    else if target = 1 then acc (s.setDom d { q with st := 1 })
    else if s.slotsInUse d then s.reqResult 2
    else acc (s.close d 2)
  else if 81 ≤ d ∧ d ≤ 88 then
    if target ≠ 1 ∨ q.st = 2 then s.reqResult 3
    else if q.phase = 0 ∧ q.st = 1 then acc s
    else if q.phase ≠ 0 ∨ q.wakeReq then s.reqResult 2
    else acc (s.close d 1)
  else if 89 ≤ d ∧ d ≤ 94 then
    let p : PortId := ⟨(d - 89) % 6, Nat.mod_lt _ (by decide)⟩
    if target = 0 then (acc s).portUp p else if target = 2 then (acc s).portDown p else s.reqResult 3
  else s.reqResult 3

/-- R403, R414: a request to wake. -/
def State.toWake (s : State) (d : Nat) : State :=
  if 81 ≤ d ∧ d ≤ 88 ∧ (s.domAt d).st = 2 then s.reqResult 3
  else if 1 ≤ d ∧ d ≤ 88 then (s.reqResult 1).wakeUp d
  else s.reqResult 1

/-- PWR_REQ (R413, R414, R465). -/
def State.powerReq (s : State) (d target : Nat) : State :=
  if 100 ≤ d ∨ !s.domOwned d then s.reqResult 3
  else if s.domStopped d then { s with gs := { s.gs with held := s.gs.held ++ [.power d (BitVec.ofNat 3 target)] } }
  else if s.domResetting d then s.reqResult 2
  else if target = 0 then s.toWake d
  else s.toState d target

/-- R415: the domain that a write of PWR_PWAKE names; none where it is discarded. -/
def State.pwakeDom (s : State) (p : PartId) (w : W32) : Option Nat :=
  let n := fld w 7 0
  match fld w 9 8 with
  | 0 => if (s.tdomsOf p).contains (1 + n) then some (1 + n) else none
  | 1 => if (s.cdomsOf p).contains (65 + n) then some (65 + n) else none
  | 2 => if stackList.contains n then some (81 + n) else none
  | _ => none

/-- R415: PWR_PWAKE. -/
def State.pwake (s : State) (p : PartId) (w : W32) : State :=
  if !bit w 31 then s else
  match s.pwakeDom p w with
  | none => s
  | some d => (s.setPart p { s.partAt p with pwakeDom := d }).wakeUp d

/-! ## The governor (R408, R409, R234) -/

/-- Tile domains in RUN. -/
def State.runDoms (s : State) : List Nat := ((List.range 64).map (1 + ·)).filter fun d => decide ((s.domAt d).st = 0)

/-- R408: lowest divisor; R411: n runs from 4. -/
def State.nFloor (s : State) : Nat := max 4 (min 16 (s.regF (pwrBase + 0x008) 4 0))

/-- R408 stage 1: every domain in RUN moves one step. -/
def State.stepN (s : State) (down : Bool) : State :=
  each s s.runDoms fun s d =>
    let q := s.domAt d
    if down then (if s.nFloor < q.n.toNat then s.setDom d { q with n := q.n - 1 } else s)
    else if q.n.toNat < 16 then s.setDom d { q with n := q.n + 1 } else s

/-- R234, R408 stage 2: gov of the tiles of domains in RUN, halved `k` times from rate. -/
def State.setGov (s : State) (k : Nat) : State :=
  let s : State := { s with gov := { s.gov with sluice := k } }
  each s s.runDoms fun s d => s.govDom d

/-- R234, R408 stage 2: the halvings that take gov of every tile in RUN down to 1. -/
def State.sluiceDepth (s : State) : Nat :=
  ((s.runDoms.flatMap domCols).flatMap tilesOfCol).foldl (fun m t => max m (Nat.log2 (s.tileAt t).govTop.toNat)) 0

/-- R408: every stage at its lowest setting; the sluice at what takes any gov down to 1. -/
def State.allLowest (s : State) : State :=
  let s := each s s.runDoms fun s d => s.setDom d { s.domAt d with n := BitVec.ofNat 5 (min (s.domAt d).n.toNat s.nFloor) }
  let s := s.setGov 6
  { s with gov := { s.gov with memHalf := true, vul := 4, duty := 15 } }

/-- R408: is a divisor above the floor? -/
def State.nAbove (s : State) : Bool := s.runDoms.any fun d => decide (s.nFloor < (s.domAt d).n.toNat)

/-- R408: one step lower, of the first stage that is not exhausted. -/
def State.lowerStep (s : State) : State :=
  let g := s.gov
  if s.nAbove then s.stepN true
  else if g.sluice < s.sluiceDepth then s.setGov (g.sluice + 1)
  else if !g.memHalf then { s with gov := { g with memHalf := true } }
  else if g.vul < 4 then { s with gov := { g with vul := g.vul + 1 } }
  else if g.duty < 15 then { s with gov := { g with duty := g.duty + 1 } }
  else s

/-- R408: one step restored, in the reverse order. -/
def State.raiseStep (s : State) : State :=
  let g := s.gov
  if 0 < g.duty then { s with gov := { g with duty := g.duty - 1 } }
  else if 0 < g.vul then { s with gov := { g with vul := g.vul - 1 } }
  else if g.memHalf then { s with gov := { g with memHalf := false } }
  else if 0 < min g.sluice s.sluiceDepth then s.setGov (min g.sluice s.sluiceDepth - 1)
  else s.stepN false

/-- R408: every stage is at its lowest. -/
def State.atFloor (s : State) : Bool := let g := s.gov; !s.nAbove && decide (s.sluiceDepth ≤ g.sluice) && g.memHalf && decide (g.vul = 4) && decide (g.duty = 15)

/-- R16, R24: the cap in force: none before the image is loaded, when PWR_CAP has no effect: no draw then exceeds it (log 103, DESIGN CHOICE). -/
def State.capNow (s : State) (p : Nat) : Nat := if s.chitin.loadPassed then s.regF pwrBase 10 0 else 2 * p + 1

/-- GOVERNOR_SAMPLE: `p` is the draw over the last 10 µs, `m` over the last 1 ms. (log 73, DEDUCED) -/
def State.governor (s : State) (p m : Nat) : State :=
  let cap := s.capNow (max p m)
  let g := s.gov
  let s := if g.hot || g.capLowered then s.allLowest
    else if cap < p || g.jThrottle then s.lowerStep
    else if p * 100 < cap * (100 - s.regF (pwrBase + 0x008) 11 8) then s.raiseStep
    else s
  { s with gov := { s.gov with capLowered := false, pkgW := BitVec.ofNat 11 (min 2047 m), floorOver := s.atFloor && decide (cap < m) } }

/-- R408: a write of PWR_CAP. -/
def State.capSet (s : State) (w : W32) : State :=
  let v := fld w 10 0
  if !s.chitin.loadPassed then s
  else if v < 600 ∨ 1800 < v then { s with gov := { s.gov with capRefused := true } }
  else
    let low := decide (v < s.regF pwrBase 10 0)
    { s.setReg pwrBase (BitVec.ofNat 32 v) with gov := { s.gov with capLowered := s.gov.capLowered || low } }

/-- R409: the hottest junction sensor reads `c`. (log 74, DEDUCED) -/
def State.junction (s : State) (c : Byte) : State :=
  let s := s.sensed (pwrBase + 0x004) c
  let g := s.gov
  let t := c.toNat
  let hot := decide (105 ≤ t) || (g.hot && decide (100 ≤ t))
  let s : State := { s with gov := { g with
    tjMax := c, jThrottle := decide (100 ≤ t) || (g.jThrottle && decide (97 ≤ t)), hot := hot,
    thermCnt := if hot && !g.hot then BitVec.ofNat 16 (satAdd 0xFFFF g.thermCnt.toNat 1) else g.thermCnt } }
  if hot && !g.hot then s.allLowest else s

/-- R409: a stack's temperature: half rate from 95 °C until below 92 °C, and doubled refresh above 85 °C. -/
def State.stackTemp (s : State) (n : Nat) (c : Byte) : State :=
  if !stackList.contains n then s else
  let a := pwrBase + 0x700 + 4 * n
  let was := bit (s.reg a) 9
  (s.sensed a c).setReg a (BitVec.ofNat 32 (c.toNat + 256 * nat01 (decide (85 < c.toNat)) + 512 * nat01 (decide (95 ≤ c.toNat) || (was && decide (92 ≤ c.toNat)))))

/-! ## The commands -/

/-- DOMAIN_QUIET_ENTRY (R401, R402). -/
def execDomainQuietEntry (d : Fin 64) (s : State) : Ans := .next (s.quietEntry (1 + d.val))
/-- DOMAIN_IDLE_TIMEOUT (R402, R405). -/
def execDomainIdleTimeout (d : Fin 64) (quietUs : Nat) (s : State) : Ans := .next (s.idleTimeout (1 + d.val) quietUs)
/-- CWAKE_TIME_REACHED (R403). -/
def execCwakeTimeReached (d : Fin 64) (s : State) : Ans := .next (s.cwakeReached (1 + d.val))
/-- DOMAIN_WAKE_START (R403, R406). -/
def execDomainWakeStart (d : DomId) (s : State) : Ans := .next (s.wakeStart d.val)
/-- DOMAIN_WAKE_COMPLETE (R403, R405, R407). -/
def execDomainWakeComplete (d : DomId) (reloadOk : Bool) (s : State) : Ans := .next (s.wakeEnd d.val reloadOk)
/-- CLOSING_COMPLETE (R405, R406). -/
def execClosingComplete (d : DomId) (s : State) : Ans := .next (s.closed d.val)
/-- LOW_STATE_ENTRY_COMPLETE (R405, R406). -/
def execLowStateEntryComplete (d : DomId) (s : State) : Ans := .next (s.entered d.val)
/-- CISTERN_IDLE_TIMEOUT (R404). -/
def execCisternIdleTimeout (e : Fin 16) (s : State) : Ans := .next (s.cisIdle (65 + e.val))
/-- POWER_REQUEST_WAKE (R403, R413, R414). -/
def execPowerRequestWake (by_ : Req) (dom : BitVec 7) (s : State) : Ans := .next (s.via by_ pwrBase (s.pwrReq by_) fun s => s.powerReq dom.toNat 0)
/-- POWER_REQUEST_TO_STATE (R404, R407, R413, R414). -/
def execPowerRequestToState (by_ : Req) (dom : BitVec 7) (target : BitVec 3) (s : State) : Ans :=
  .next (s.via by_ pwrBase (s.pwrReq by_) fun s => s.powerReq dom.toNat target.toNat)
/-- PARTITION_WAKE_WRITE (R415). -/
def execPartitionWakeWrite (by_ : Req) (p : PartId) (w : W32) (s : State) : Ans := .next (s.onPart by_ p fun s => s.pwake p w)
/-- GOVERNOR_SAMPLE (R408, R411). -/
def execGovernorSample (watts watts1ms : Nat) (s : State) : Ans := .next (s.governor watts watts1ms)
/-- CAP_WRITE (R408, R414). -/
def execCapWrite (by_ : Req) (w : W32) (s : State) : Ans := .next (s.via by_ pwrBase (s.pwrReq by_) fun s => s.capSet w)
/-- JUNCTION_THROTTLE (R409). -/
def execJunctionThrottle (temp : Byte) (s : State) : Ans := .next (s.junction temp)
/-- JUNCTION_HOT (R409). -/
def execJunctionHot (temp : Byte) (s : State) : Ans := .next (s.junction temp)
/-- THERMAL_TRIP (R409, R412): THERMTRIP_N is asserted, and the device resets with cause 3. -/
def execThermalTrip (temp : Byte) (s : State) : Ans :=
  .next (if temp.toNat < 110 then s else
    let s := s.deviceReset 3 false
    { s with gov := { s.gov with trip := true, tjMax := temp, warm := insertN (pwrBase + 0x004) s.gov.warm } })
/-- HBM_STACK_THROTTLE (R409). -/
def execHbmStackThrottle (n : BitVec 3) (temp : Byte) (s : State) : Ans := .next (s.stackTemp n.toNat temp)
/-- HBM_REFRESH_DOUBLE (R409). -/
def execHbmRefreshDouble (n : BitVec 3) (temp : Byte) (s : State) : Ans := .next (s.stackTemp n.toNat temp)

end Sys2Proof.Machine
end

