-- ==== Sys2Proof/Machine/ReadReg.lean ====
section
/-!
DEFINITION. What a register read returns (R16 to R18, R42 to R44, R351 to R356, R444, R446, R458, R471 to R474): stored words, and the words
that show a unit's state.
-/
namespace Sys2Proof.Machine

/-- `w` with the fields of `l` in place of its bits there: (high bit, low bit, value). -/
def patch (w : W32) (l : List (Nat × Nat × Nat)) : W32 := l.foldl (fun w x => setFld w x.1 x.2.1 x.2.2) w

/-! ## FEAT (R39 to R43) -/

/-- Tables 2-4 and 2-5: a device-wide FEAT register other than FEAT_COLAVAIL. -/
def featWord (o : Nat) : W32 :=
  match o with
  | 0x000 => pack [(0, 3), (16, Config.devid.toNat)]
  | 0x004 => pack [(0, 4), (4, 4), (8, 64), (16, 256)]
  | 0x008 => pack [(0, 256), (9, 64), (16, 4096)]
  | 0x00C => pack [(0, Config.stacks.toNat), (8, 48)]
  | 0x010 => pack [(0, 16), (8, 6), (12, 4), (16, 64)]
  | 0x014 => pack [(0, 4096), (16, 256)]
  | 0x018 => pack [(0, 1024), (16, 16)]
  | 0x01C => 131072
  | 0x020 => 16384
  | 0x024 => 0x0FFF
  | 0x028 => pack [(0, 8), (4, 2), (8, 4), (16, 6)]
  | _ => 0

/-- Table 2-6, R38: a partition's FEAT register. (log 85, DEDUCED) -/
def State.pfeat (s : State) (p : PartId) (o : Nat) : W32 :=
  let q := s.partAt p
  match q.cfg with
  | none => 0
  | some g =>
    match o with
    | 0x100 => s.pgeom p
    | 0x104 => pack [(0, g.resident.toNat)]
    | 0x108 => pack [(0, g.rd.toNat), (8, g.wr.toNat), (16, g.rm.toNat)]
    | 0x10C => pack [(0, nat01 g.fence), (1, g.trace.toNat), (4, g.tracePct.toNat), (8, g.stages.toNat), (12, g.fabStages.toNat), (16, g.ingress.toNat)]
    | 0x110 => pack [(0, g.contexts.toNat), (16, g.queues.toNat)]
    | 0x114 => pack [(0, g.events.toNat)]
    | 0x118 => pack [(0, g.waiters.toNat)]
    | 0x11C => pack [(0, g.hbmUnits.toNat)]
    | _ => 0

/-! ## Tile blocks -/

/-- Table 5-1. -/
def EngSt.code : EngSt → Nat
  | .idle => 0 | .run => 1 | .wait => 2 | .stopped => 3 | .halted => 4 | .faulted => 5

/-- Table 5-7: a register of engine `e`, at offset `o` of its own. The address past the bank's end reads as 0 in 13 bits. (log 133, DESIGN CHOICE) -/
def State.engWord (s : State) (t : TileId) (e : EngId) (o : Nat) : W32 :=
  let g := s.engAt t e
  let loop := fun (n : Nat) => g.loops[n]?
  if o = 0x04 then pack [(0, g.st.code), (3, nat01 g.pending.isSome), (4, nat01 g.bank), (5, g.loops.length), (8, g.code.toNat)]
  else if o = 0x08 then pack [(1, g.pc.toNat % 8192)]
  else if o = 0x0C then patch (s.tr t (0x40 * e.toNat + o)) [(0, 0, nat01 g.arm), (2, 2, nat01 g.startRefused)]
  else if 0x10 ≤ o ∧ o < 0x20 then (match loop ((o - 0x10) / 4) with | some l => pack [(0, l.remaining.toNat), (31, 1)] | none => 0)
  else if 0x20 ≤ o ∧ o < 0x30 then (match loop ((o - 0x20) / 4) with | some l => pack [(0, l.index.toNat)] | none => 0)
  else if o = 0x30 then
    if g.st ≠ .wait then 0 else
    match if g.fence.any (!s.doneBelow t e ·) then none else s.unmet t g.waits with
    | some (n, k) => pack [(0, n.toNat), (8, k.toNat), (31, 1)]
    | none => pack [(16, 1), (31, 1)]
  else if o = 0x34 then pack [(1, g.faultPc.toNat % 8192)]
  else s.tr t (0x40 * e.toNat + o)

/-- Table 5-8: TIL_SEMWAIT: bit `n`. -/
def State.semWaiting (s : State) (t : TileId) (n : SemId) : Bool :=
  engines.any fun e =>
    let g := s.engAt t e
    decide (g.st = .wait) && decide (s.semVal t n < needOf g.waits n)

/-- Table 6-8: MXE_STAT. -/
def State.mxeStat (s : State) (t : TileId) : W32 :=
  let tl := s.tileAt t
  pack [(0, tl.mxq.length), (2, tl.drq.length), (4, nat01 ((tl.mxq.find? fun o => !o.running).any fun o => s.mxHold t o)),
    (5, nat01 ((tl.drq.find? fun o => !o.running).any fun o => s.drHold t o)),
    (6, nat01 ((tl.drq.find? fun o => !o.running).any fun o => s.portHeld t (s.chainOf t o.f.chain.toNat)))]

/-- Table 9-9: state of a mover queue: 0 EMPTY, 1 RUN, 2 STOPPED, 3 FAULTED. -/
def MovQ.state (m : MovQ) : Nat :=
  if m.faulted then 3 else if m.stop.valid then 2 else if m.arms.isEmpty && m.streams.isEmpty then 0 else 1

/-- Table 9-9: the mover's registers from 0x1700 on. -/
def State.movWord (s : State) (t : TileId) (o : Nat) : W32 :=
  let a := s.tr t o
  let bits4 := fun (f : MovQ → Bool) => (bitsWhere 4 fun q => f (s.movq_ t q)).toNat
  if o = 0x1704 then
    patch a [(3, 0, bits4 fun m => !(m.arms.isEmpty && m.streams.isEmpty)), (7, 4, bits4 fun m => m.stop.valid), (11, 8, bits4 fun m => m.faulted)]
  else if o = 0x170C then
    patch a [(8, 8, nat01 (decide (s.tokens t 0 ≤ 0))), (9, 9, nat01 (decide (s.tokens t 1 ≤ 0))), (10, 10, nat01 (decide (s.tokens t 2 ≤ 0)))]
  else if 0x1710 ≤ o ∧ o < 0x1720 then patch a [(8, 8, nat01 (s.movq_ t ((o - 0x1710) / 4)).cfgRefused)]
  else if 0x1720 ≤ o ∧ o < 0x1730 then
    let m := s.movq_ t ((o - 0x1720) / 4)
    pack [(0, m.inflight.length), (8, m.state), (16, m.code.toNat)]
  else if 0x1730 ≤ o ∧ o < 0x1750 then
    let d := s.movd_ t ((o - 0x1730) / 4)
    pack [(0, if d.running then 2 else nat01 d.armed), (2, nat01 d.pending.isSome), (3, nat01 d.rearmOverrun), (16, d.overrunCnt.toNat)]
  else if 0x1780 ≤ o ∧ o < 0x1800 then
    let r := (s.movq_ t ((o - 0x1780) / 0x20)).stop
    match (o - 0x1780) % 0x20 with
    | 0x00 => pack [(0, r.code.toNat), (8, r.reason.toNat), (12, r.desc.toNat), (16, r.prg.toNat), (31, nat01 r.valid)]
    | 0x04 => r.addr.setWidth 32
    | 0x08 => r.addr.extractLsb' 32 32
    | 0x0C => pack [(0, r.i1.toNat), (16, r.i2.toNat)]
    | 0x10 => pack [(0, r.i3.toNat), (16, r.i4.toNat)]
    | 0x14 => pack [(0, r.off.toNat)]
    | 0x18 => pack [(0, r.dom.toNat), (8, r.kind.toNat), (16, r.prgi.toNat)]
    | _ => 0
  else a

/-- Table 4-4: CIS_COLD: the valid, unpinned, not-busy slot of greatest age, the lowest among equals. -/
def State.coldSlot (s : State) (v : TileId) : Option (Nat × Nat) :=
  (List.range 64).foldl (fun b i =>
    let w := s.tag v i
    if tagValid w && !tagBusy w && !tagPin w && (match b with | none => true | some (_, g) => decide (g < tagAge w)) then some (i, tagAge w) else b) none

/-- Table 4-4: a vault's registers. -/
def State.cisWord (s : State) (v : TileId) (o : Nat) : W32 :=
  let tl := s.tileAt v
  match o with
  | 0x1800 => patch (s.tr v o) [(1, 0, (s.domAt (domCis v)).st.toNat)]
  | 0x1808 => (match s.coldSlot v with | some (i, g) => pack [(0, i), (8, g), (16, 1)] | none => 0)
  | 0x180C => pack [(0, ((List.range 64).filter fun i => !tagValid (s.tag v i) && !tagBusy (s.tag v i)).length)]
  | 0x181C => pack [(0, nat01 tl.pageop.isSome), (1, nat01 tl.poDone), (2, tl.poResult.toNat), (4, nat01 tl.poOverrun)]
  | _ => s.tr v o

/-- Table 4-9: the weir stop registers. -/
def State.weiWord (s : State) (t : TileId) (o : Nat) : W32 :=
  let tl := s.tileAt t
  match o with
  | 0x1A00 => pack [(0, tl.wstop.code.toNat), (8, tl.wstop.reason.toNat), (31, nat01 tl.wstop.valid)]
  | 0x1A04 => pack [(0, tl.wstop.lpn.toNat)]
  | 0x1A08 => pack [(0, tl.wstop.ctx.toNat), (16, tl.wstop.entry.toNat)]
  | 0x1A14 => pack [(0, nat01 !tl.wei.isEmpty), (1, tl.wei.length), (4, nat01 tl.wstop.valid)]
  | _ => s.tr t o

/-- Table 10-3: the furrow unit's registers. -/
def State.furWord (s : State) (t : TileId) (o : Nat) : W32 :=
  if 0x1B00 ≤ o ∧ o < 0x1B80 ∧ o % 16 = 12 then
    let k := (o - 0x1B00) / 16
    let r := s.rsetAt t k
    pack [(0, r.count.toNat), (8, r.seat.toNat), (16, r.rep.toNat), (28, nat01 (s.holding t k)),
      (29, nat01 (r.departing || (s.rsetAt (s.predTile t) k).departing))]
  else if 0x1B80 ≤ o ∧ o < 0x1BC0 ∧ o % 16 = 12 then
    let h := s.haloAt t ((o - 0x1B80) / 16)
    pack [(0, nat01 h.busy), (16, h.sends.toNat)]
  else if o = 0x1BC0 then pack [(0, (s.ring t).length), (8, (s.ring t).findIdx fun u => decide (u = t)), (14, groupOf t)]
  else if o = 0x1BC8 then patch (s.tr t o) [(7, 0, (s.tileAt t).realign.toNat)]
  else s.tr t o

/-- Table 17-6. -/
def WvSt.code : WvSt → Nat
  | .off => 0 | .run => 1 | .halted => 2 | .failed => 3

/-- Tables 8-4, 17-6, 18-14: ownership, weevil and debug registers. -/
def State.tileWord1E (s : State) (t : TileId) (o : Nat) : W32 :=
  let tl := s.tileAt t
  match o with
  | 0x1E04 => pack [(0, tl.ctx.toNat), (8, nat01 tl.owned), (9, nat01 tl.quar.isSome), (10, nat01 tl.spRefused)]
  | 0x1E64 => pack [(0, tl.wv.code), (2, nat01 tl.wvParity), (3, nat01 tl.wvCanaryMiss), (16, tl.wvPasses.toNat)]
  | 0x1E68 => pack [(0, tl.wvIndex.toNat), (12, tl.wvRegion.toNat), (16, tl.wvSlot.toNat)]
  | 0x1E80 =>
    pack [(8, (bitsWhere 4 fun e => let g := s.engAt t (BitVec.ofNat 2 e); decide (g.st = .halted) && !g.gstop).toNat), (12, nat01 (s.tileStopped t))]
  | _ => s.tr t o

/-- A register of a tile block. -/
def State.tileWord (s : State) (t : TileId) (o : Nat) : W32 :=
  if o < 0x100 then s.engWord t (BitVec.ofNat 2 (o / 0x40)) (o % 0x40)
  else if o = 0x148 then bitsWhere 16 fun n => s.semWaiting t (BitVec.ofNat 4 n)
  else if o < 0x1220 then s.tr t o
  else if o = 0x1220 then s.mxeStat t
  else if o < 0x1700 then s.tr t o
  else if o < 0x1800 then s.movWord t o
  else if o < 0x1900 then s.cisWord t o
  else if o < 0x1B00 then s.weiWord t o
  else if o < 0x1C00 then s.furWord t o
  else s.tileWord1E t o

/-! ## Interrupt controllers (R359, R361, R368) -/

/-- Table 17-4: word `w` of an error record. -/
def ErrRec.word (r : ErrRec) (w : Nat) : W32 :=
  match w with
  | 0 => pack [(0, r.sev.toNat), (8, r.unit.toNat), (16, r.cause.toNat), (24, r.rep.toNat), (31, 1)]
  | 1 => pack [(0, r.ctx.toNat), (8, nat01 r.ctxV), (9, r.part.toNat), (15, nat01 r.partV), (16, r.tile.toNat), (28, r.eng.toNat)]
  | 2 => r.addr.setWidth 32
  | 3 => r.addr.extractLsb' 32 32
  | 4 => r.time.setWidth 32
  | 5 => r.time.extractLsb' 32 32
  | 6 => pack [(0, r.syndrome.toNat), (16, r.place.toNat)]
  | 7 => pack [(0, r.layer.toNat), (16, r.operator.toNat)]
  | _ => 0

/-- Table 14-8: a register of a controller. -/
def State.intWord (s : State) (c : CoreId) (o : Nat) : W32 :=
  let a := s.reg (intBase c + o)
  let l := (s.ctlAt c).fifo
  if o = 0x004 then a
  else if 0x100 ≤ o ∧ o < 0x140 then bitsWhere 32 fun b => s.srcEnabled c (32 * ((o - 0x100) / 4 % 8) + b)
  else if 0x140 ≤ o ∧ o < 0x180 then bitsWhere 32 fun b => s.srcPending c (32 * ((o - 0x140) / 4 % 8) + b)
  else if 0x200 ≤ o ∧ o < 0x300 then pack ((List.range 8).map fun j => (4 * j, s.srcPrio c (8 * ((o - 0x200) / 4) + j)))
  else if o = 0x400 then patch a [(5, 0, l.length)]
  else if o = 0x40C then pack ((List.range 5).map fun i => (6 * i, (l.filter fun r => decide (r.sev.toNat = i + 1)).length))
  else if 0x420 ≤ o ∧ o < 0x440 then
    (match l.find? fun r => decide (r.sev.toNat = s.regF (intBase c + 0x404) 2 0) with
      | some r => r.word ((o - 0x420) / 4)
      | none => 0)
  else a

/-! ## Partition windows -/

/-- Table 13-2. -/
def CtxSt.code : CtxSt → Nat
  | .free => 0 | .active => 1 | .lost => 2 | .dying => 3

/-- Table 13-8: a register of context `c`. -/
def State.ctxWord (s : State) (p : PartId) (c : CtxId) (o : Nat) : W32 :=
  let x := s.ctxAt p c
  match o with
  | 0x0 => pack [(0, x.st.code), (8, x.code.toNat), (16, nat01 x.byPf)]
  | 0x4 => pack [(0, x.nread.toNat)]
  | 0x8 => pack [(0, x.nwrite.toNat), (17, nat01 x.phase)]
  | 0xC => pack [(0, nat01 x.full), (16, x.lostRecs.toNat)]
  | _ => 0

/-- Table 13-8: a register of queue `q`. -/
def State.queueWord (s : State) (p : PartId) (q : QueueId) (o : Nat) : W32 :=
  let x := s.queueAt p q
  if !x.isOpen then 0
  else match o with
  | 0x4 => pack [(0, x.head.toNat)]
  | 0x8 => pack [(0, if x.stopped then 2 else 1), (8, (x.cmds.filter fun m => !m.isDone).length), (16, nat01 x.wsWait), (17, nat01 (s.stageWait p x)), (24, x.ctx.toNat)]
  | _ => 0

/-- A register of a partition window but for the colony access pair's data. -/
def State.partWord (s : State) (p : PartId) (o : Nat) : W32 :=
  let a := s.reg (partBase p + o)
  let q := s.partAt p
  if o < 0x100 then featWord o
  else if o < 0x200 then s.pfeat p o
  else if o = 0x410 then pack [(0, nat01 q.mapInv.isSome), (1, nat01 q.mapOverrun)]
  else if o = 0x53C then pack [(0, nat01 q.pattBusy), (1, if q.pattBusy then 0 else q.pattResult.toNat), (4, nat01 q.pattOverrun)]
  else if o = 0x604 then let d := s.domAt q.pwakeDom; pack [(0, d.st.toNat), (4, d.phase.toNat)]
  else if o = 0x74C then pack [(0, q.trwr.toNat)]
  else if o = 0x754 then pack [(0, q.trLost.toNat), (16, nat01 (s.trFull p))]
  else if o = 0x890 then 0
  else if o = 0x894 then patch a [(4, 4, nat01 (s.waiterAt p (s.regF (partBase p + 0x890) 13 0)).armed)]
  else if o = 0xF08 then pack [(0, nat01 q.vfRefused)]
  else if 0x1000 ≤ o ∧ o < 0x2000 then s.ctxWord p (BitVec.ofNat 8 ((o - 0x1000) / 16)) (o % 16)
  else if 0x20000 ≤ o then s.queueWord p (BitVec.ofNat 10 ((o - 0x20000) / 0x80)) (o % 0x80)
  else a

/-! ## Global blocks and ports -/

/-- R408: a stage of the governor is below its top setting. -/
def State.limiting (s : State) : Bool :=
  s.runDoms.any (fun d => decide ((s.domAt d).n.toNat < 16)) || decide (0 < min s.gov.sluice s.sluiceDepth) || s.gov.memHalf || decide (s.gov.vul ≠ 0)
    || decide (s.gov.duty ≠ 0)

/-- Table 16-7. -/
def State.pwrWord (s : State) (o : Nat) : W32 :=
  let g := s.gov
  let busy := fun (k : Nat) => bitsWhere 32 fun b => (s.partAt (BitVec.ofNat 6 (k + b))).resetting
  if o = 0x004 then
    pack [(0, g.pkgW.toNat), (11, nat01 s.limiting), (16, g.tjMax.toNat), (24, nat01 g.capRefused), (25, nat01 g.hot), (26, nat01 g.floorOver)]
  else if o = 0x00C then pack [(0, g.thermCnt.toNat)]
  else if 0x100 ≤ o ∧ o < 0x290 then
    let d := s.domAt ((o - 0x100) / 4)
    pack [(0, d.st.toNat), (4, d.phase.toNat), (6, nat01 d.gate), (8, if 0x104 ≤ o ∧ o < 0x204 then d.n.toNat else 0), (13, nat01 d.fail)]
  else if o = 0x604 then busy 0
  else if o = 0x608 then busy 32
  else s.reg (pwrBase + o)

/-- Table 18-13. -/
def GsSt.code : GsSt → Nat
  | .running => 0 | .stopping => 1 | .stopped => 2 | .releasing => 3

/-- Table 18-17. -/
def State.dbgWord (s : State) (o : Nat) : W32 :=
  match o with
  | 0x108 => pack [(0, s.gs.st.code), (2, s.gs.origin.toNat), (5, s.gs.port.toNat), (8, nat01 s.gs.moltErr), (16, s.gs.merged.toNat)]
  | 0x110 => s.gs.time.setWidth 32
  | 0x114 => s.gs.time.extractLsb' 32 32
  | 0x130 => s.time.setWidth 32
  | 0x134 => s.time.extractLsb' 32 32
  | _ => s.reg (dbgBase + o)

/-- Table 12-4. -/
def State.fabWord (s : State) (o : Nat) : W32 :=
  let a := s.reg (fabBase + o)
  let q := (o - 0x100) / 16
  if 0x100 ≤ o ∧ o < 0x200 ∧ o % 16 = 4 then patch a [(9, 0, (s.ingressAt q).length)]
  else if 0x100 ≤ o ∧ o < 0x200 ∧ o % 16 = 12 then patch a [(9, 0, (s.retAt q).length)]
  else a

/-- Table 15-4. CHI_SVN.kslot and the low bits of CHI_SVN.fused stand at the same bits: either may be read (log 48, DESIGN CHOICE). -/
def State.chiWord (s : State) (o : Nat) : W32 :=
  let c := s.chitin
  let tag : W64 := match c.image with | some m => (imgTagHash m).setWidth 64 | none => 0
  let a := s.reg (chiBase + o)
  match o with
  | 0x000 => s.bootstat
  | 0x030 => pack [(0, c.linkskip.toNat)]
  | 0x034 => pack [(1, nat01 c.doneLine)]
  | 0x038 => tag.setWidth 32
  | 0x03C => tag.extractLsb' 32 32
  | 0x040 =>
    let f := c.fuses.svn.toNat
    pack [(0, if s.draw 0 % 2 = 0 then f else f / 4 * 4 + c.kslot.toNat), (8, c.imgSvn.toNat)]
  | 0x044 => pack [(0, c.partFail.toNat)]
  | _ => a

/-- Table 11-4. -/
def PortSt.code : PortSt → Nat
  | .off => 0 | .culverted => 1 | .training => 2 | .keying => 3 | .active => 4 | .retrain => 5

/-- Table 11-9. -/
def State.portWord (s : State) (p : PortId) (o : Nat) : W32 :=
  let q := s.portAt p
  match o with
  | 0x004 => pack [(0, q.st.code), (3, nat01 q.isOpen), (4, nat01 q.gen2), (5, q.width.toNat), (7, nat01 q.epoch), (8, q.fail.toNat)]
  | 0x008 => pack [(0, q.peer.toNat), (18, q.span.toNat), (31, nat01 q.peerValid)]
  | 0x00C => pack [(0, q.lanes.toNat)]
  | 0x010 => q.feccnt
  | 0x014 => pack [(0, q.discarded.toNat), (16, q.tagfail.toNat)]
  | 0x018 => pack [(0, q.retrains.toNat), (16, q.failures.toNat)]
  | _ => if 0x020 ≤ o ∧ o < 0x034 then pack [(0, q.credits.getD ((o - 0x020) / 4) 0)] else s.reg (portBase p + o)

/-- Table 11-11: a spine's registers. -/
def State.spineWord (s : State) (n : Nat) (o : Nat) : W32 :=
  if o = 0 then pack [(0, (s.domAt (domSpine n)).st.toNat)] else if o = 0x10 then pack [(0, s.traceMax)] else s.reg (spineBase n + o)

/-- Table 18-15: an observation register. -/
def State.obsWord (s : State) (t : TileId) (o : Nat) : W32 :=
  if o = 0xEC then pack [(2, nat01 (s.tileAt t).inwin)] else s.reg (obsBase t + o)

/-- A word of a colony core's memories. -/
def State.cmemW (s : State) (c : ColId) (o : Nat) : W32 :=
  BitVec.ofNat 32 (leNat ((List.range 4).map fun i => s.cmemB c (o / 4 * 4 + i)))

/-- The word of a register; unoccupied addresses read 0 (R18). -/
def State.word (s : State) (a : Nat) : W32 :=
  if a % 4 ≠ 0 then 0 else
  match locate a with
  | none => 0
  | some (.feat, o) => if 0x40 ≤ o then s.reg o else featWord o
  | some (.pwr, o) => s.pwrWord o
  | some (.dbg, o) => s.dbgWord o
  | some (.fab, o) => s.fabWord o
  | some (.chi, o) => s.chiWord o
  | some (.int c, o) => s.intWord c o
  | some (.cmem c, o) => s.cmemW c o
  | some (.obs t, o) => s.obsWord t o
  | some (.tile t, o) => s.tileWord t o
  | some (.port p, o) => s.portWord p o
  | some (.spine n, o) => s.spineWord n.val o
  | some (.part p, o) => s.partWord p o
  | some (.hgt, _) => s.reg a
  | some (.colpwr _, _) => s.reg a
  | some (.colrel _, _) => s.reg a

/-! ## Who reads (R351, R352, R458, R472 to R474) -/

/-- R472: the access reaches the register. (log 55, DEDUCED) (log 83, DEDUCED) -/
def State.reaches (s : State) (r : Req) (a : Nat) : Bool :=
  match r with
  | .pf => true
  | .chitin => !vulBlocks a && !(decide (fabBase ≤ a) && decide (a < fabBase + 0x10000))
  | .head _ => !(decide (chiBase ≤ a) && decide (a < 0x01000000)) && !vulBlocks a
  | .core c => s.colReach c a
  | .vf p => decide (partBase p ≤ a) && decide (a < partBase p + 0x40000)
  | .tap => s.debugOk || (decide (chiBase ≤ a) && decide (a < chiBase + 0x100))

/-- R353, R474: a read of a colony block is answered. -/
def State.answersRead (s : State) (r : Req) (a : Nat) : Bool :=
  if a < 0x01000000 ∨ 0x05000000 ≤ a then true
  else
    s.colAnswers (BitVec.ofNat 8 ((a - 0x01000000) / 0x40000))
      && (match locate a with
        | some (.cmem _, _) => (match r with | .core _ => false | .head _ => false | .vf _ => false | _ => true)
        | _ => true)

/-- R446: a discarded read of an observation register by another than a core returns 0; REGACC refuses it by R458. -/
def State.readsZero (s : State) (r : Req) (a : Nat) : State :=
  match r, locate a with
  | .tap, _ => s
  | .vf _, some (.obs _, _) | .chitin, some (.obs _, _) | .vf _, some (.dbg, _) | .chitin, some (.dbg, _) => { s with readData := 0 }
  | .vf _, some (.part _, o) | .chitin, some (.part _, o) => if 0x700 ≤ o ∧ o < 0x764 then { s with readData := 0 } else s
  | _, _ => s

/-- R444: the reader's shadow: each core, the physical function, the TAP and each virtual function have one. -/
def shadowOf : Req → Option Nat
  | .core c => some c.toNat
  | .head d => some (256 + d.toNat)
  | .pf => some 260
  | .tap => some 261
  | .vf p => some (262 + p.toNat)
  | .chitin => none

/-- R444: low words of the registers of the debug chapter that are wider than 32 bits (log 49, DEDUCED). -/
def isLow (a : Nat) : Bool :=
  match locate a with
  | some (.obs _, o) => (decide (o < 0xC0) && decide (o % 8 = 0)) || decide (o = 0xE0)
  | some (.part _, o) => (decide (0x700 ≤ o) && decide (o < 0x740) && decide (o % 8 = 0)) || decide (o = 0x740)
  | some (.dbg, o) => (decide (o < 0x40) && decide (o % 8 = 0)) || decide (o = 0x110) || decide (o = 0x120) || decide (o = 0x130)
  | _ => false

/-- A read of a register address that the access reaches: the value goes to the reader, and a low word fills the reader's shadow. -/
def State.readAt (s : State) (r : Req) (a : Nat) : State :=
  if !s.answersRead r a then { s with readData := 0 } else
  match shadowOf r with
  | none => { s with readData := s.word a }
  | some k =>
    if isLow a then { s.setShadow k (s.word (a + 4)) with readData := s.word a }
    else if 4 ≤ a ∧ isLow (a - 4) then { s with readData := s.shadowAt k }
    else
      let v := s.word a
      if a = chiBase + 0x40 then ({ s with readData := v } : State).drawn else { s with readData := v }

/-- R473: the colony block that the pair of a window names, where it is in reach. -/
def State.pairAddr (s : State) (p : PartId) : Option Nat :=
  let a := (s.reg (partBase p + 0xF00)).toNat
  if 0x01000000 ≤ a ∧ a < 0x05000000 ∧ s.partOfCol (BitVec.ofNat 8 ((a - 0x01000000) / 0x40000)) = some p then some a else none

/-- R473: an access outside the pair's reach. -/
def State.pairRefused (s : State) (p : PartId) : State := (s.setPart p { s.partAt p with vfRefused := true })

/-- R473: a read of DBG_VFDATA. -/
def State.pairRead (s : State) (r : Req) (p : PartId) : State :=
  match s.pairAddr p with
  | some a => s.readAt r a
  | none => { s.pairRefused p with readData := 0 }

/-- A register read by address (R472). -/
def State.readReg (s : State) (r : Req) (a : Nat) : State :=
  if !s.reaches r a ∨ !s.pmpReg r 1 a then (s.turnedAway r 5 a).readsZero r a
  else match locate a with
  | some (.part p, 0xF04) => s.pairRead r p
  | _ => s.readAt r a

end Sys2Proof.Machine
end

