-- ==== Sys2Proof/Machine/Release.lean ====
section
/-!
DEFINITION. The release of a global stop (R464, R465).
-/
namespace Sys2Proof.Machine

/-- R464: an engine, a queue and a core that the stop held go on. -/
def State.releaseTile (s : State) (t : TileId) : State :=
  let s := each s engines fun s e => if (s.engAt t e).gstop ∧ (s.engAt t e).st = .halted then s.unhalt t e false else s
  let s := each s (List.range 4) fun s q => s.setMovq t q { s.movq_ t q with gstop := false }
  s.setTile t { s.tileAt t with marker := false }

/-- R464: a core that the stop halted resumes. -/
def State.releaseHalt (s : State) (c : CoreId) : State :=
  let k := s.coreAt c
  if k.gstop then s.setCore c { k with halted := false, gstop := false, pc := s.csr c 0x7B1, priv := (s.csr c 0x7B0).extractLsb' 0 2 } else s

/-- R465: a held request is acted on. -/
def State.doGsReq (s : State) : GsReq → State
  | .preset p => s.presetNow p
  | .power d target => s.powerReq d target.toNat
  | .destroy p c => s.destroyCtx p c
  | .destroyQueue p q => s.destroyQueue p q
  | .destroyEvent p h => match s.evtResolve p h with
    | .error _ => s.evtFail p resStale
    | .ok _ => (s.evtDestroy p (hIdx h)).evtResult p ((s.evtDestroy p (hIdx h)).evtAt p (hIdx h))

/-- R464: a write of DBG_GSTOP.release. RELEASING lasts within the command: the state is RUNNING once every unit has resumed. -/
def State.gsRelease (s : State) : State :=
  if s.gs.st ≠ .stopped then s else
  let l := s.gs.held
  let s := each s s.scopeTiles fun s t => s.releaseTile t
  let s := each s s.scopeCols fun s c => s.releaseHalt (coreOfCol c)
  let s := each s allPorts fun s p => s.setPort p { s.portAt p with stopSent := false, stopSeen := false, inFlight := [] }
  let s : State := { s with gs := { s.gs with st := .running, held := [] } }
  each s l fun s r => s.doGsReq r

/-! ## The commands -/

/-- GLOBAL_STOP_RELEASE (R464, R465). -/
def execGlobalStopRelease (by_ : Req) (s : State) : Ans := .next (s.via by_ dbgBase (s.dbgReq by_ && decide (by_ ≠ .chitin)) fun s => s.gsRelease)

end Sys2Proof.Machine
end

