-- ==== Sys2Proof/Machine/Weevil.lean ====
section
/-!
DEFINITION. Reliability (R420 to R436): the weevil's passes, scrub accesses, SCRUB_FAULT and its reload, the HBM patrol, and the clears of
the error counters.
-/
namespace Sys2Proof.Machine

/-! ## Passes (R428, R430) -/

/-- R428: a pass moves on: region, index, slot and granule after this one; done after the last. Regions that the parameters leave out, and a
cistern that is not ACTIVE, are skipped. -/
def Tile.wvNext (tl : Tile) (acc cis : Bool) : Tile :=
  let dst (r : BitVec 2) : Tile := { tl with wvRegion := r, wvIndex := 0, wvSlot := 0, wvSub := 0 }
  let stop : Tile := { tl with wvDone := true }
  let afterAcc : Tile := if cis then dst 3 else stop
  let afterSpad : Tile := if acc then dst 2 else afterAcc
  match tl.wvRegion.toNat with
  | 0 => dst 1
  | 1 =>
    if tl.wvSub ≠ 15 then { tl with wvSub := tl.wvSub + 1 }
    else if tl.wvIndex ≠ 4095 then { tl with wvSub := 0, wvIndex := tl.wvIndex + 1 }
    else afterSpad
  | 2 =>
    if tl.wvSub ≠ 3 then { tl with wvSub := tl.wvSub + 1 }
    else if tl.wvIndex ≠ 4095 then { tl with wvSub := 0, wvIndex := tl.wvIndex + 1 }
    else afterAcc
  | _ =>
    if !cis then stop
    else if tl.wvIndex.toNat < 1087 then { tl with wvIndex := tl.wvIndex + 1 }
    else if tl.wvSlot ≠ 63 then { tl with wvIndex := 0, wvSlot := tl.wvSlot + 1 }
    else stop

/-- R428: the weevil runs, and its domain is not below IDLE. -/
def State.wvUp (s : State) (t : TileId) : Bool := decide ((s.tileAt t).wv = .run) && s.memsUp t

/-- R428, R431: the weevil works on its pass: no QUARANTINE has it zero the tile. -/
def State.wvWorks (s : State) (t : TileId) : Bool := s.wvUp t && (s.tileAt t).quar.isNone

/-- WEEVIL_PASS_START: a flipped bit goes into the canary line of the pass's bank. -/
def State.wvStart (s : State) (t : TileId) : State :=
  let tl := s.tileAt t
  if !s.wvWorks t ∨ tl.wvIn then s
  else s.setTile t { tl with wvIn := true, wvDone := false, wvRegion := 0, wvIndex := 0, wvSlot := 0, wvSub := 0, wvCanaryFixed := false,
                             canary := tl.canary ||| BitVec.ofNat 8 (2 ^ (tl.wvPassNo % 8)) }

/-- R421, R422, R429: what a scrub access does at a granule: `bad` whether it is poison, `mark` its marking. -/
def State.wvFind (s : State) (t : TileId) (f : ScrubFind) (o : Nat) (u : ErrUnit) (addr : Nat) (bad : Bool) (mark : State → State) : State :=
  if bad then s else
  match f with
  | .clean => s
  | .corrected syn place => s.wvErr t o false u addr syn place
  | .uncorrectable syn place => (mark s).wvErr t o true u addr syn place

/-- R432: address of a cistern line in a record. -/
def cisRecAddr (slot line : Nat) : Nat :=
  if line < 1024 then slot * 65536 + line * 64 else 0x400000 + slot * 4096 + (line - 1024) * 64
/-- Index of a slot's line among the vault's marks. -/
def cisLine (slot line : Nat) : Nat := if line < 1024 then slot * 1024 + line else 65536 + slot * 64 + (line - 1024)

/-- WEEVIL_SCRUB_ACCESS: the granule at the pass's position. (log 75, DEDUCED) (log 96, DESIGN CHOICE) -/
def State.wvScrub (s : State) (t : TileId) (f : ScrubFind) : State :=
  let tl := s.tileAt t
  if !s.wvWorks t ∨ !tl.wvIn ∨ tl.wvDone then s else
  let w := s.tr t 0x1E60
  let cis := bit w 17 && s.serves (domCis t)
  let i := tl.wvIndex.toNat
  let s := match tl.wvRegion.toNat with
    | 0 => (match f with
      | .corrected _ _ => s.setTile t { tl with wvCanaryFixed := true, canary := tl.canary &&& ~~~(BitVec.ofNat 8 (2 ^ (tl.wvPassNo % 8))) }
      | _ => s)
    | 1 => s.wvFind t f 0x1E40 .spad (64 * i + 4 * tl.wvSub.toNat) (s.spadP t i) fun s => s.markSpad t i true
    | 2 => let e := 4 * i + tl.wvSub.toNat; s.wvFind t f 0x1E44 .acc e (s.accP t e) fun s => s.markAcc t e true
    | _ =>
      if cis then
        let l := cisLine tl.wvSlot.toNat i
        s.wvFind t f 0x1E48 .cis (cisRecAddr tl.wvSlot.toNat i) (s.cisP t l) fun s => s.markCis t l true
      else s
  s.setTile t ((s.tileAt t).wvNext (bit w 16) cis)

/-! ## SCRUB_FAULT (R430) -/

/-- R432: a record of the weevil names a register's offset; which of its own (Table 17-6) is free. (log 96, DESIGN CHOICE) -/
def State.wvReg (s : State) : Nat := 0x1E60 + 4 * (s.draw 0 % 3)

/-- R430: the weevil halts, and the error is recorded. -/
def State.scrubFault (s : State) (t : TileId) (w : ScrubCause) : State :=
  let s := s.setTile t { s.tileAt t with wv := .halted, wvIn := false, wvParity := decide (w = .parity), wvCanaryMiss := decide (w = .canaryMissed) }
  let c := match w with | .parity => 4 | .canaryMissed => 5
  (s.errAt t (s.tileErr t 4 .weevil c 0 s.wvReg 0 0)).drawn

/-- The pass has scrubbed its last granule. -/
def State.wvOver (s : State) (t : TileId) : Bool := s.wvWorks t && (s.tileAt t).wvIn && (s.tileAt t).wvDone

/-- WEEVIL_PASS_END. -/
def State.wvEnd (s : State) (t : TileId) : State :=
  let tl := s.tileAt t
  if !s.wvOver t then s
  else if !tl.wvCanaryFixed then s.scrubFault t .canaryMissed
  else s.setTile t { tl with wvIn := false, wvDone := false, wvPassNo := tl.wvPassNo + 1,
                             wvPasses := BitVec.ofNat 16 (satAdd 0xFFFF tl.wvPasses.toNat 1) }

/-- SCRUB_FAULT: a parity error of a weevil that runs (it does nothing below IDLE, R428), or a pass that ends without its canary. -/
def State.wvFault (s : State) (t : TileId) (w : ScrubCause) : State :=
  match w with
  | .parity => if s.wvUp t then s.scrubFault t .parity else s
  | .canaryMissed => if s.wvOver t && !(s.tileAt t).wvCanaryFixed then s.scrubFault t .canaryMissed else s

/-- WEEVIL_RELOAD: chitin writes the parameters and the weevil restarts, or it stays FAILED. -/
def State.wvReload (s : State) (t : TileId) (ok : Bool) : State :=
  if (s.tileAt t).wv ≠ .halted then s
  else if ok then
    (s.setTr t 0x1E60 (s.imgTile t 0x1E60 &&& 0x3FFFF)).setTile t
      { s.tileAt t with wv := .run, wvIn := false, wvDone := false, wvRegion := 0, wvIndex := 0, wvSlot := 0, wvSub := 0, wvCanaryFixed := false,
                        wvPassNo := (s.tileAt t).wvPassNo + 1 }
  else
    let s := s.setTile t { s.tileAt t with wv := .failed }
    (s.errAt t (s.tileErr t 4 .weevil 6 0 s.wvReg 0 0)).drawn

/-! ## The HBM patrol and the clears (R435, R436) -/

/-- R422, R425, R436: what a read of a line of a stack finds, by the patrol or by any other access. (log 92, DEDUCED) -/
def State.patrol (s : State) (n a : Nat) (f : ScrubFind) : State :=
  if !stackList.contains n ∨ stackOf a ≠ n ∨ Config.hbmUnits * 2 ^ 28 ≤ a ∨ !s.serves (domHbm n) ∨ s.hbmP (a / 64) then s else
  let o := dbgBase + 0x800 + 4 * n
  let p := s.ownerOf a
  match f with
  | .clean => s
  | .corrected syn _ => let s := s.incReg o 15 0 1; s.errHead (n / 2) (s.unitErr p 1 .hbm 1 (a / 64 * 64) syn.toNat n)
  | .uncorrectable syn _ =>
    let s := (s.markHbm (a / 64) true).incReg o 31 16 1
    s.errHead (n / 2) (s.unitErr p (if p.isSome then 2 else 5) .hbm 2 (a / 64 * 64) syn.toNat n)

/-- R435: TIL_ECCCLR. -/
def State.tileEccClr (s : State) (t : TileId) : State := each s [0x1E40, 0x1E44, 0x1E48, 0x1E4C] fun s o => s.setTr t o 0

/-- R352, R402, R436, R473: PWR_CALLOW, PWR_CWAKE and DBG_COLECC stand in the colony block and name no writers: every requester that
reaches the block writes them, a virtual function through its colony access pair. -/
def State.colReq (s : State) (r : Req) (c : ColId) : Bool :=
  s.colAnswers c && (match r with
    | .vf p => decide (s.partOfCol c = some p)
    | .chitin => true
    | .pf => true
    | .tap => s.debugOk
    | .head _ => true
    | .core d => decide (d = c))

/-! ## The commands -/

/-- WEEVIL_PASS_START (R428, R430). -/
def execWeevilPassStart (t : TileId) (s : State) : Ans := .next (s.wvStart t)
/-- WEEVIL_SCRUB_ACCESS (R422, R428, R429). -/
def execWeevilScrubAccess (t : TileId) (find : ScrubFind) (s : State) : Ans := .next (s.wvScrub t find)
/-- WEEVIL_PASS_END (R428, R430). -/
def execWeevilPassEnd (t : TileId) (s : State) : Ans := .next (s.wvEnd t)
/-- SCRUB_FAULT (R430). -/
def execScrubFault (t : TileId) (why : ScrubCause) (s : State) : Ans := .next (s.wvFault t why)
/-- WEEVIL_RELOAD (R430). -/
def execWeevilReload (t : TileId) (ok : Bool) (s : State) : Ans := .next (s.wvReload t ok)
/-- HBM_PATROL_SCRUB (R436). -/
def execHbmPatrolScrub (n : BitVec 3) (addr : W64) (find : ScrubFind) (s : State) : Ans := .next (s.patrol n.toNat addr.toNat find)
/-- TILE_ECC_CLEAR (R435). -/
def execTileEccClear (by_ : Req) (t : TileId) (s : State) : Ans := .next (s.onTile by_ t .launch fun s => s.tileEccClr t)
/-- COLONY_ECC_CLEAR (R436). -/
def execColonyEccClear (by_ : Req) (c : ColId) (s : State) : Ans :=
  .next (s.via by_ (colBase c + 0x1D000) (s.colReq by_ c) fun s => s.setReg (colBase c + 0x1D000) 0)
/-- HBM_ECC_CLEAR (R436). -/
def execHbmEccClear (by_ : Req) (s : State) : Ans :=
  .next (s.via by_ dbgBase (s.dbgReq by_) fun s => each s (List.range 8) fun s n => s.setReg (dbgBase + 0x800 + 4 * n) 0)

end Sys2Proof.Machine
end

