-- ==== Sys2Proof/Machine/Weir.lean ====
section
/-!
DEFINITION. The weir's commands (R88 to R105): its slots, acceptance and completion of operations, the entries of list-mode
WEIR.GATHER, and the answers to its stop.
-/
namespace Sys2Proof.Machine

/-- R103: WEI_STOPCNT.clr. -/
def State.weiStopcntClear (s : State) (t : TileId) : State := s.setTr t 0x1A10 0

/-- WEIR_NOP (R91, Table 4-8). -/
def execWeirNop (t : TileId) (sigEn : Bool) (sem : SemId) (s : State) : Ans := .next (s.issueWord t 3 9 [slotWeirNop t sigEn sem])
/-- WEIR_SCORE (R88 to R93). -/
def execWeirScore (t : TileId) (f : WeirF) (s : State) : Ans := .next (s.issueWord t 3 9 [slotWeir t .score f])
/-- WEIR_ATTEND (R88 to R92, R94). -/
def execWeirAttend (t : TileId) (f : WeirF) (s : State) : Ans := .next (s.issueWord t 3 9 [slotWeir t .attend f])
/-- WEIR_TOPK (R88 to R92, R95). -/
def execWeirTopk (t : TileId) (f : WeirF) (s : State) : Ans := .next (s.issueWord t 3 9 [slotWeir t .topk f])
/-- WEIR_APPEND (R88 to R92, R96). -/
def execWeirAppend (t : TileId) (f : WeirF) (s : State) : Ans := .next (s.issueWord t 3 9 [slotWeir t .append f])
/-- WEIR_REUSE (R88 to R92, R98). -/
def execWeirReuse (t : TileId) (f : WeirF) (s : State) : Ans := .next (s.issueWord t 3 9 [slotWeir t .reuse f])
/-- WEIR_GATHER (R88 to R92, R97). -/
def execWeirGather (t : TileId) (f : WeirF) (s : State) : Ans := .next (s.issueWord t 3 9 [slotWeir t .gather f])
/-- WEIR_OP_ACCEPT (R88, R89). -/
def execWeirOpAccept (v : TileId) (s : State) : Ans := .next (s.weirAccept v)
/-- GATHER_LIST_ENTRY (R97, R99, R102). -/
def execGatherListEntry (v : TileId) (s : State) : Ans := .next (s.gatherNext v)
/-- WEIR_OP_COMPLETE (R89, R93 to R98). -/
def execWeirOpComplete (v : TileId) (s : State) : Ans := .next (s.weirComplete v)
/-- WEIR_STOP_RESUME (R104). -/
def execWeirStopResume (by_ : Req) (t : TileId) (s : State) : Ans := .next (s.onTile by_ t .open_ fun s => s.weirResume t)
/-- WEIR_STOP_FAULT (R104). -/
def execWeirStopFault (by_ : Req) (t : TileId) (code : Byte) (s : State) : Ans :=
  .next (s.onTile by_ t .open_ fun s => s.weirStopFault t code)
/-- WEI_STOPCNT_CLEAR (R103). -/
def execWeiStopcntClear (by_ : Req) (t : TileId) (s : State) : Ans := .next (s.onTile by_ t .open_ fun s => s.weiStopcntClear t)

end Sys2Proof.Machine
end

