-- ==== Sys2Proof/Machine/RegWrite.lean ====
section
/-!
DEFINITION. A register write by its address (R13, R18, R471 to R478): the plain writes, and each register with an effect of its own as the
command that its row names. A write that a register's writers do not cover is discarded.
-/
namespace Sys2Proof.Machine

/-! ## Tile blocks -/

/-- R242, R249: a write of MOV_STOPACT: a fault comes before a resume. -/
def State.movStopAct (s : State) (t : TileId) (w : W32) : State :=
  let q := fld w 1 0
  let s := if bit w 5 then (s.movStopFault t q (w.extractLsb' 8 8)).settleAts else if bit w 4 then s.movResume t q else s
  if bit w 16 then s.movStopcntClear t else s

/-- R106: a write of WEI_STOPACT. -/
def State.weiStopAct (s : State) (t : TileId) (w : W32) : State :=
  if bit w 1 then s.weirStopFault t (w.extractLsb' 8 8) else if bit w 0 then s.weirResume t else s

/-- R84: a write of CIS_PAGEOP. -/
def State.pageopWrite (s : State) (t : TileId) (w : W32) : State :=
  if bit w 31 then s.pageStart t (fld w 2 0) (w.extractLsb' 8 6) (w.extractLsb' 16 8) else s

/-- Table 4-4: a write of CIS_PAGEOP_STAT. -/
def State.pageStatWrite (s : State) (t : TileId) (w : W32) : State :=
  let tl := s.tileAt t
  s.setTile t { tl with poDone := tl.poDone && !bit w 1, poOverrun := tl.poOverrun && !bit w 4 }

/-- R456: a write of TIL_DBGCTL. -/
def State.dbgctlWrite (s : State) (t : TileId) (w : W32) : State := (s.unhaltMask t (w.extractLsb' 0 4) false).unhaltMask t (w.extractLsb' 4 4) true

/-- R116: a write of TIL_IMLD_STAT. -/
def State.imldStatWrite (s : State) (t : TileId) (w : W32) : State :=
  let s := s.plainWrite (tileBase t + 0x188) w
  if bit w 1 then s.imldClear t else s

/-- The tile registers that the colony core, chitin and the physical function alone write with a plain effect: the VXE's (R198) and the
mover's descriptors (R249). -/
def launchOnly (o : Nat) : Bool := (decide (0x1300 ≤ o) && decide (o < 0x1700))

/-- A write at offset `o` of a tile block. -/
def State.tileWrite (s : State) (r : Req) (t : TileId) (o : Nat) (w : W32) : State :=
  let on := fun (l : Lim) (f : State → State) => s.onTile r t l f
  let e : EngId := BitVec.ofNat 2 (o / 0x40)
  if o < 0x100 then
    (match o % 0x40 with
      | 0x00 => if bit w 0 then s.startReq r t e (w.extractLsb' 1 13) else s.startNone r t
      | 0x0C => on .open_ fun s => s.imctlWrite t e w
      | _ => s)
  else if o < 0x140 then on .open_ fun s => s.semWrite t (BitVec.ofNat 4 ((o - 0x100) / 4)) w
  else if 0x1710 ≤ o ∧ o < 0x1720 then on .open_ fun s => s.queueCfg t ((o - 0x1710) / 4) w
  else if 0x1730 ≤ o ∧ o < 0x1750 then on .open_ fun s => s.dstatWrite t ((o - 0x1730) / 4) w
  else match o with
    | 0x140 => s.onTileWake r t .open_ (.sempost t w) fun s => s.semPostWrite t w
    | 0x184 => on .open_ fun s => s.imemLoad t w
    | 0x188 => on .open_ fun s => s.imldStatWrite t w
    | 0x1700 => on .launch fun s => s.movCtrl t w
    | 0x1750 => on .open_ fun s => s.movStopAct t w
    | 0x1804 => on .open_ fun s => s.ageCfg t w
    | 0x1810 => on .open_ fun s => s.pageopWrite t w
    | 0x181C => on .open_ fun s => s.pageStatWrite t w
    | 0x1A0C => on .open_ fun s => s.weiStopAct t w
    | 0x1A10 => on .open_ fun s => if bit w 31 then s.weiStopcntClear t else s
    | 0x1BC4 => on .launch fun s => s.realignWrite t w
    | 0x1E04 => s.onTileWake r t .launch (.spown t w) fun s => s.spownNow t w
    | 0x1E0C => on .open_ fun s => if bit w 31 then s.setTr t o 0 else s
    | 0x1E10 => on .open_ fun s => if bit w 31 then s.setTr t o 0 else s
    | 0x1E54 => on .launch fun s => if bit w 0 then s.tileEccClr t else s
    | 0x1E60 => on .chitin fun s => s.setTr t o (w &&& 0x3FFFF)
    | 0x1E80 => on .open_ fun s => s.dbgctlWrite t w
    | 0x1F04 => on .open_ fun s => s.srseed t w
    | _ => on (if launchOnly o then .launch else .open_) fun s => s.plainWrite (tileBase t + o) w

/-- R443: a write of DBG_TCTL: the end is taken first. (log 82, DEDUCED) -/
def State.tctlWrite (s : State) (t : TileId) (w : W32) : State :=
  let s := if bit w 1 then s.windowEnd t else s
  if bit w 0 then s.windowStart t else s

/-- R446, R468: a write of an observation register. -/
def State.obsWrite (s : State) (r : Req) (t : TileId) (o : Nat) (w : W32) : State :=
  match o with
  | 0xE8 => if s.obsReq r t true then s.plainWrite (obsBase t + o) w else s
  | 0xEC => if s.obsReq r t false then s.tctlWrite t w else s
  | 0xFC => if s.obsReq r t true ∧ bit w 31 then s.setRegF (obsBase t + o) 15 0 0 else s
  | _ => if s.obsReq r t false then s.plainWrite (obsBase t + o) w else s

/-! ## Interrupt controllers -/

/-- R361: a write of INT_PRIOn: 14 and 15 store 13; the fields of sources 1 to 5 ignore writes. -/
def State.prioWrite (s : State) (c : CoreId) (n : Nat) (w : W32) : State :=
  let a := intBase c + 0x200 + 4 * n
  s.setReg a ((List.range 8).foldl (fun v j =>
    if n = 0 ∧ 1 ≤ j ∧ j ≤ 5 then v else setFld v (4 * j + 3) (4 * j) (min 13 (fld w (4 * j + 3) (4 * j)))) (s.reg a))

/-- R368, R371: a write of INT_ERRPOP. -/
def State.errPopWrite (s : State) (c : CoreId) (w : W32) : State :=
  let s := if bit w 0 then s.errPop c else s
  if bit w 1 then s.errLostClr c else s

/-- R371: a write of a controller's register. -/
def State.intWrite (s : State) (r : Req) (c : CoreId) (o : Nat) (w : W32) : State :=
  let a := intBase c + o
  let n := o / 4 % 8
  if o = 0x000 then s.intDoorbell c (fld w 8 0)
  else if o = 0x004 then (if bit w 31 then s.intStatClr c else s)
  else if o < 0x100 then s
  else if o < 0x120 then s.enSet c n w
  else if o < 0x140 then s.enClr c n w
  else if o < 0x160 then s.pendSet r c n w
  else if o < 0x180 then s.pendClr c n w
  else if o < 0x1C0 then
    let u := s.plainWrite a w
    s.modAgain (u.ordered c (((List.range 32).map fun j => 32 * (8 + n) + j).filter fun j => u.srcPending c j && !s.srcPending c j)) c (8 + n)
  else if 0x200 ≤ o ∧ o < 0x300 then s.prioWrite c ((o - 0x200) / 4) w
  else if o = 0x408 then s.errPopWrite c w
  else s.plainWrite a w

/-! ## Global blocks and ports -/

/-- R44: a write of the HGT_VERSION of a function. -/
def State.versionWrite (s : State) (r : Req) (p : PartId) (w : W32) : State := if fld w 9 8 = 0 then s else s.version r p (fld w 9 8)

/-- R414: a write of a register of the PWR block. -/
def State.pwrWrite (s : State) (r : Req) (o : Nat) (w : W32) : State :=
  match o with
  | 0x000 => s.capSet w
  | 0x004 => if bit w 24 then { s with gov := { s.gov with capRefused := false } } else s
  | 0x400 => if bit w 31 then s.powerReq (fld w 6 0) (fld w 10 8) else s
  | 0x600 => s.preset r w
  | 0x610 => if s.pfReq r ∧ bit w 31 ∧ fld w 15 0 = 0xD0E5 then s.deviceReset 4 true else s
  | _ => s.plainWrite (pwrBase + o) w

/-- R459, R464: a write of DBG_GSTOP. -/
def State.gstopWrite (s : State) (r : Req) (w : W32) : State :=
  let s := if bit w 0 then s.stopGo r w else s
  if bit w 1 then s.gsRelease else s

/-- R436, R470: a write of a register of the DBG block. -/
def State.dbgWrite (s : State) (r : Req) (o : Nat) (w : W32) : State :=
  match o with
  | 0x100 => if r = .chitin then s else s.gstopWrite r w
  | 0x824 => if bit w 0 then each s (List.range 8) fun s n => s.setReg (dbgBase + 0x800 + 4 * n) 0 else s
  | _ => s.plainWrite (dbgBase + o) w

/-- R386, R388: a write of the CHI public page. -/
def State.chiWrite (s : State) (o : Nat) (w : W32) : State :=
  match o with
  | 0x000 => if bit w 31 then each s (List.range 6) fun s n => s.setReg (chiBase + 0x10 + 4 * n) 0 else s
  | 0x030 => { s with chitin := { s.chitin with linkskip := s.chitin.linkskip &&& ~~~(w.extractLsb' 0 6) } }
  | 0x034 => if bit w 0 ∧ s.chitin.st = 2 then { s with chitin := { s.chitin with doneReleased := true } } else s
  | _ => s

/-- R297: a write of a register of a Vulor port. -/
def State.portWrite (s : State) (p : PortId) (o : Nat) (w : W32) : State :=
  match o with
  | 0x000 => let s := s.vulCtl p w; if bit w 2 then s.vulRetrain p else s
  | 0x01C => if bit w 0 then s.setPort p { s.portAt p with feccnt := 0, discarded := 0, tagfail := 0, retrains := 0, failures := 0 } else s
  | _ => s.plainWrite (portBase p + o) w

/-- R311: a write of a register of the FAB block. -/
def State.fabWrite (s : State) (o : Nat) (w : W32) : State :=
  if o = 0x00C then (if bit w 0 then s.fabClear else s) else s.plainWrite (fabBase + o) w

/-! ## Partition windows -/

/-- R449, R469: a write of DBG_TRCFG: the level is capped, and log2 stays while tracing is on. -/
def State.trcfgWrite (s : State) (p : PartId) (w : W32) : State :=
  let a := partBase p + 0x748
  let cap := match s.pcfg p with | none => 0 | some g => g.trace.toNat
  let w := setFld w 9 8 (min cap (fld w 9 8))
  s.plainWrite a (if bit (s.reg a) 10 then setFld w 4 0 (s.regF a 4 0) else w)

/-- R469: a write of DBG_TR. -/
def State.trWrite (s : State) (p : PartId) (o : Nat) (w : W32) : State :=
  if bit (s.reg (partBase p + 0x748)) 10 then s else s.plainWrite (partBase p + o) w

/-- The result of a command register whose op Table 13-8 does not list: the spec states none (log 50, DESIGN CHOICE). -/
def State.noOp (s : State) (f : State → Nat → State) (res : Nat) : State := if !s.hgtReady then f s resBusy else (f s res).drawn

/-- R323, R325: a write of HGT_CTXCMD. -/
def State.ctxCmd (s : State) (r : Req) (p : PartId) (w : W32) : State :=
  if !bit w 31 then s else
  match fld w 1 0 with
  | 1 => s.createCtx r p
  | 2 => s.destroyCmd r p (w.extractLsb' 8 8)
  | _ => s.noOp (fun s v => s.ctxResult p (w.extractLsb' 8 8) v) (s.draw 0 % 16)

/-- R326: a write of HGT_QCMD. -/
def State.queueCmd (s : State) (p : PartId) (w : W32) : State :=
  if !bit w 31 then s else
  match fld w 1 0 with
  | 1 => s.createQueue p
  | 2 => s.destroyQueue p (w.extractLsb' 16 10)
  | _ => s.noOp (fun s v => s.qResult p (w.extractLsb' 16 10) v) (s.draw 0 % 16)

/-- R318, R320: a write of HGT_OBJCMD. -/
def State.objCmd (s : State) (p : PartId) (w : W32) : State :=
  if !bit w 31 then s else
  match fld w 1 0 with
  | 1 => s.createObj p
  | 2 => s.objFree p
  | 3 => s.objQuery p
  | _ => s.noOp (fun s v => s.objResult p v) (s.draw 0 % 16)

/-- R335: a write of HGT_EVTCMD. -/
def State.evtCmd (s : State) (p : PartId) (w : W32) : State :=
  if !bit w 31 then s else
  match fld w 2 0 with
  | 1 => s.createEvt p (w.extractLsb' 8 8)
  | 2 => s.destroyEvt p
  | 3 => s.onEvt p fun s i => s.evtReset p i
  | 4 => s.onEvt p fun s i => s.evtSignal p i
  | 5 => s.onEvt p fun s _ => s
  | _ => s.noOp (fun s v => s.evtFail p v) (s.draw 0 % 16)

/-- R336: a write of HGT_TLSIGCMD. -/
def State.tlCmdWrite (s : State) (p : PartId) (w : W32) : State := if bit w 31 then ((s.tlCmd p).fireDue p).takeWaits p else s

/-- R338: a write of HGT_WS_CMD. -/
def State.wsCmd (s : State) (p : PartId) (w : W32) : State :=
  let slot : BitVec 14 := w.extractLsb' 0 14
  if !bit w 31 then s else if bit w 17 then s.disarmSlot p slot else s.armSlot p slot (bit w 16)

/-- A write at offset `o` of a partition window, but for the colony access pair's data. -/
def State.partWrite (s : State) (r : Req) (p : PartId) (o : Nat) (w : W32) : State :=
  let q := s.partAt p
  if 0x1000 ≤ o ∧ o < 0x2000 then (if o % 16 = 4 then s.nreadWrite p (BitVec.ofNat 8 ((o - 0x1000) / 16)) w else s)
  else if 0x20000 ≤ o then (if o % 0x80 = 0 then s.submit p (BitVec.ofNat 10 ((o - 0x20000) / 0x80)) (w.extractLsb' 0 16) else s)
  else match o with
    | 0x200 => (match r with | .vf _ => s.versionWrite r p w | _ => s)
    | 0x408 => s.mapInvalidate p w
    | 0x410 => if bit w 1 then s.setPart p { q with mapOverrun := false } else s
    | 0x538 => if bit w 31 then s.pattGo p else s
    | 0x53C => if bit w 4 then s.setPart p { q with pattOverrun := false } else s
    | 0x600 => s.pwake p w
    | 0x740 => s.trWrite p o w
    | 0x744 => s.trWrite p o w
    | 0x748 => s.trcfgWrite p w
    | 0x754 => if bit w 31 then s.setPart p { q with trLost := 0 } else s
    | 0x810 => s.ctxCmd r p w
    | 0x82C => s.queueCmd p w
    | 0x854 => s.objCmd p w
    | 0x860 => s.evtCmd p w
    | 0x87C => s.tlCmdWrite p w
    | 0x890 => s.wsCmd p w
    | 0xF08 => if bit w 0 then s.setPart p { q with vfRefused := false } else s
    | _ => s.plainWrite (partBase p + o) w

/-! ## By address -/

/-- R16: until the image is loaded the fields with reset "img" read 0 and have no effect: what is written to them is dropped. -/
def State.imgWord (s : State) (a : Nat) (w : W32) : W32 := if s.chitin.loadPassed then w else w &&& ~~~imgMask a

/-- A write of a register that the access reaches, with the register's own limits on its writers. -/
def State.writeAt (s : State) (r : Req) (a : Nat) (w : W32) : State :=
  if a % 4 ≠ 0 then s else
  let w := s.imgWord a w
  match locate a with
  | none => s
  | some (.feat, _) => s
  | some (.hgt, o) => if o < 0x100 ∧ s.fnKind r (BitVec.ofNat 6 (o / 4)) = some true then s.versionWrite r (BitVec.ofNat 6 (o / 4)) w else s
  | some (.pwr, o) => if s.pwrReq r then s.pwrWrite r o w else s
  | some (.dbg, o) => if s.dbgReq r then s.dbgWrite r o w else s
  | some (.fab, o) => if s.fabReq r then s.fabWrite o w else s
  | some (.chi, o) => if s.pfReq r then s.chiWrite o w else s
  | some (.int c, o) => s.onInt r c fun s => s.intWrite r c o w
  | some (.cmem c, o) => if s.cmemReq r c then s.cmemWrite c o w else s
  | some (.colpwr c, _) => if s.colReq r c then s.plainWrite a w else s
  | some (.colrel c, o) => if s.colReq r c ∧ o = 0 ∧ bit w 31 then s.setReg a 0 else s
  | some (.obs t, o) => s.obsWrite r t o w
  | some (.tile t, o) => s.tileWrite r t o w
  | some (.port p, o) => if s.pfReq r then s.portWrite p o w else s
  | some (.spine n, o) => if s.pfReq r ∧ o = 0x00C ∧ bit w 0 then (s.setReg (spineBase n.val + 4) 0).setReg (spineBase n.val + 8) 0 else s
  | some (.part p, o) => s.onPart r p fun s => s.partWrite r p o w

/-- R473: a write of DBG_VFDATA. (log 62, DEDUCED) -/
def State.pairWrite (s : State) (r : Req) (p : PartId) (w : W32) : State :=
  match s.pairAddr p with
  | some a => s.writeAt r a w
  | none => s.pairRefused p

/-- A register write by address (R472). -/
def State.regWrite (s : State) (r : Req) (a : Nat) (w : W32) : State :=
  if !s.reaches r a ∨ !s.pmpReg r 2 a then s.turnedAway r 7 a
  else match locate a with
  | some (.part p, 0xF04) => s.pairWrite r p w
  | _ => s.writeAt r a w

/-! ## A core's accesses (R351, R352, R424) -/

/-- HBM-window address of a core address. -/
def State.winAddr (s : State) (c : CoreId) (a : Nat) : Nat := fld (s.csr c 0x7C8) 9 0 * 2 ^ 30 + (a - 0x40000000)

/-- Table 14-2: where a core address leads. -/
inductive CorePlace
  /-- a colony core's own memories: offset in its colony block (R353) -/
  | own (o : Nat)
  /-- device HBM: the window, or a head core's firmware region, whose place the spec does not give -/
  | hbm (a : Nat)
  | reg (a : Nat)
  deriving DecidableEq, Repr

/-- R351, R352: where `n` bytes at an address lead; none: an access fault. -/
def State.corePlace (s : State) (c : CoreId) (fetch : Bool) (a n : Nat) : Option CorePlace :=
  let col : ColId := BitVec.ofNat 8 c.val
  if c.val < 256 then
    if a + n ≤ 0x8000 then some (.own a)
    else if fetch then none
    else if 0x10000 ≤ a ∧ a + n ≤ 0x20000 then some (.own (a - 0x8000))
    else if 0x40000000 ≤ a ∧ a + n ≤ 0x80000000 then
      (match s.partOfCol col with | none => none | some p => (s.hbmOf p (s.winAddr c a) n).map .hbm)
    else if 0x80000000 ≤ a ∧ s.colReach col (a - 0x80000000) then some (.reg (a - 0x80000000)) else none
  else
    if a + n ≤ 0x40000000 then some (.hbm (Config.headRegion (c.val - 256) + a))
    else if fetch then none
    else if 0x40000000 ≤ a ∧ a + n ≤ 0x80000000 then (if s.winAddr c a + n ≤ Config.hbmUnits * 2 ^ 28 then some (.hbm (s.winAddr c a)) else none)
    else if 0x80000000 ≤ a ∧ s.coreSees c (a - 0x80000000) then some (.reg (a - 0x80000000)) else none

/-- Bytes of an access. -/
def accBytes : CoreAccess → Nat
  | .fetch h _ => if h then 2 else 4
  | .load _ n _ _ | .store n _ => min 4 (2 ^ n.toNat)
  | .lr _ _ | .sc _ _ | .amo _ _ _ _ => 4
/-- Standard RISC-V cause of an access fault. -/
def faultCause : CoreAccess → W32
  | .fetch _ _ => 1 | .load _ _ _ _ | .lr _ _ => 5 | .store _ _ | .sc _ _ | .amo _ _ _ _ => 7
/-- Standard RISC-V cause of a misaligned access of the A extension; the others may stand anywhere. -/
def alignCause (a : Nat) : CoreAccess → Option W32
  | .lr _ _ => if a % 4 = 0 then none else some 4
  | .sc _ _ | .amo _ _ _ _ => if a % 4 = 0 then none else some 6
  | _ => none
/-- The command says that the word read is bad. -/
def accBad : CoreAccess → Bool
  | .fetch _ b | .load _ _ _ b | .lr _ b | .amo _ _ _ b => b | .store _ _ | .sc _ _ => false
def accFetch : CoreAccess → Bool
  | .fetch _ _ => true | _ => false
def accStore : CoreAccess → Bool
  | .store _ _ | .sc _ _ => true | _ => false
/-- What PMP must permit: 1 read, 2 write, 4 execute. -/
def accNeed : CoreAccess → Nat
  | .fetch _ _ => 4 | .load _ _ _ _ | .lr _ _ => 1 | .store _ _ | .sc _ _ => 2 | .amo _ _ _ _ => 3
/-- R350 to R352: where an access leads; none: an access fault. -/
def State.coreTarget (s : State) (c : CoreId) (k : CoreAccess) (a : Nat) : Option CorePlace :=
  if s.pmpOk c (s.accMode c (accFetch k)) (accNeed k) a (accBytes k) then s.corePlace c (accFetch k) a (accBytes k) else none

/-- R424: severity and cause of the error that a read meets: an uncorrectable word of a core's own memory, poison in the window, poison in
a head core's firmware region. -/
def State.corePoison (s : State) (c : CoreId) (k : CoreAccess) (a : Nat) (x : CorePlace) : Option (Nat × Nat) :=
  if accStore k then none else
  match x with
  | .own _ => if accBad k then some (4, 2) else none
  | .hbm h =>
    if c.val < 256 then (if s.hbmBad h (accBytes k) then some (4, 3) else none)
    else if a < 0x40000000 ∧ (accBad k ∨ s.hbmBad h (accBytes k)) then some (5, 3) else none
  | .reg _ => none

/-- A core's register x`i`: x0 reads 0. -/
def State.gpr (s : State) (c : CoreId) (i : Nat) : W32 := if i = 0 then 0 else (s.coreAt c).gpr.getD (i - 1) 0
/-- Write: x0 discards it. -/
def State.setGpr (s : State) (c : CoreId) (i : Nat) (v : W32) : State :=
  if i = 0 then s else s.setCore c { s.coreAt c with gpr := (s.coreAt c).gpr.set (i - 1) v }

/-- A loaded value of `n` bytes, extended to 32 bits. -/
def extend (n : Nat) (sgn : Bool) (v : Nat) : W32 :=
  let m := 2 ^ (8 * n)
  BitVec.ofNat 32 (if sgn ∧ m / 2 ≤ v % m then v % m + 2 ^ 32 - m else v % m)

/-- The requester that a core is. -/
def coreReq (c : CoreId) : Req := if c.val < 256 then .core (BitVec.ofNat 8 c.val) else .head (BitVec.ofNat 2 (c.val - 256))

/-- R405: an access to a stack that does not serve wakes it and waits. -/
def State.coreWaits (s : State) : CorePlace → Bool
  | .hbm h => !s.serves (domHbm (stackOf h))
  | _ => false

/-- R352: `n` bytes read; a narrow register access takes its bytes of the register's word (log 71, DEDUCED). -/
def State.coreRead (s : State) (c : CoreId) (x : CorePlace) (n : Nat) : State × Nat :=
  match x with
  | .own o => (s, leNat ((List.range n).map fun i => s.cmemB (BitVec.ofNat 8 c.val) (o + i)))
  | .hbm h => (s, leNat (s.hbmBytes h n))
  | .reg a => let s := s.readReg (coreReq c) (a / 4 * 4); (s, s.readData.toNat >>> (8 * (a % 4)))

/-- R352: the low `n` bytes of a word written; a narrow register access writes 0 beside them (log 71, DEDUCED). -/
def State.coreWrite (s : State) (c : CoreId) (x : CorePlace) (n : Nat) (w : W32) : State :=
  let v := w.toNat % 2 ^ (8 * n)
  match x with
  | .own o => each s (natLe n v).zipIdx fun s y => s.setCmemB (BitVec.ofNat 8 c.val) (o + y.2) y.1
  | .hbm h => s.putHbm h (natLe n v) false
  | .reg a => s.regWrite (coreReq c) (a / 4 * 4) (BitVec.ofNat 32 (v <<< (8 * (a % 4))))

/-- R350: what an operation of the A extension leaves in memory. -/
def amoRes (op : AmoOp) (old w : W32) : W32 :=
  match op with
  | .swap => w | .add => old + w | .xor => old ^^^ w | .and => old &&& w | .or => old ||| w
  | .min => if old.slt w then old else w
  | .max => if old.slt w then w else old
  | .minu => if old.ult w then old else w
  | .maxu => if old.ult w then w else old

/-- R350: SC.W stores: the core holds a reservation of the address, and nothing else has written there since, as far as the bytes show it; the
standard lets it fail even so, which a free value says (log 42, PRESUMED). -/
def State.scStores (s : State) (c : CoreId) (a : W32) (x : CorePlace) : Bool :=
  decide (s.draw 2 % 2 = 0) && ((s.coreAt c).resv.any fun v => decide (v.1 = a) && (match x with
    | .reg _ => true
    | _ => decide (v.2.toNat = (s.coreRead c x 4).2)))

/-- R350, R352: the access takes place. -/
def State.coreDo (s : State) (c : CoreId) (k : CoreAccess) (a : W32) (x : CorePlace) : State :=
  if s.coreWaits x then (match x with | .hbm h => s.askWake (domHbm (stackOf h)) | _ => s) else
  let n := accBytes k
  match k with
  | .fetch _ _ => s
  | .load rd _ sgn _ => let y := s.coreRead c x n; y.1.setGpr c rd.toNat (extend n sgn y.2)
  | .store _ w => s.coreWrite c x n w
  | .lr rd _ =>
    let y := s.coreRead c x 4
    let s := y.1.setGpr c rd.toNat (BitVec.ofNat 32 y.2)
    s.setCore c { s.coreAt c with resv := some (a, BitVec.ofNat 32 y.2) }
  | .sc rd w =>
    let ok := s.scStores c a x
    let s := (s.setCore c { s.coreAt c with resv := none }).drawn
    (if ok then s.coreWrite c x 4 w else s).setGpr c rd.toNat (if ok then 0 else 1)
  | .amo op rd w _ =>
    let y := s.coreRead c x 4
    (y.1.coreWrite c x 4 (amoRes op (BitVec.ofNat 32 y.2) w)).setGpr c rd.toNat (BitVec.ofNat 32 y.2)

/-- CORE_ACCESS_FAULT: the access of the instruction at `pc`: one that reaches nothing, or that meets poison, faults; any other takes place. -/
def State.coreAccess (s : State) (c : CoreId) (k : CoreAccess) (a pc : W32) : State :=
  if !s.coreRuns c then s
  else if (alignCause a.toNat k).isSome then (s.excTrap c ((alignCause a.toNat k).getD 0) (s.mtvalFree a) pc).drawn
  else match s.coreTarget c k a.toNat with
    | none => (s.excTrap c (faultCause k) (s.mtvalFree a) pc).drawn
    | some x => match s.corePoison c k a.toNat x with
      | none => (s.awake c).coreDo c k a x
      | some (sev, cause) =>
        let s := (s.excTrap c (faultCause k) (s.mtvalFree a) pc).drawn
        if c.val < 256 then
          let col : ColId := BitVec.ofNat 8 c.val
          let s := if cause = 2 then s.incReg (colBase col + 0x1D000) 30 16 1 else s
          s.errHead (dieOfCol col) (s.unitErr (s.partOfCol col) sev .core cause a.toNat 0 0)
        else s.errHead (c.val - 256) (s.unitErr none sev .head cause a.toNat 0 0)

/-! ## The commands -/

/-- R458: does REGACC accept the access? -/
def State.tapAccepts (s : State) (write : Bool) (a : Nat) : Bool :=
  s.debugOk || (!write && decide (chiBase ≤ a) && decide (a < chiBase + 0x100))

/-- R458: a REGACC access at Update-DR. -/
def State.tapAccess (s : State) (write : Bool) (a : Nat) (w : W32) : State :=
  let ok := s.tapAccepts write a
  let s : State := { s with chitin := { s.chitin with tapIr := 0x18, tapRefused := !ok } }
  if !ok then s else if write then s.regWrite .tap a w
  else
    let s := s.readReg .tap a
    { s with chitin := { s.chitin with tapData := s.readData } }

/-- Table 18-7. -/
inductive TapInstr | idcode | dtmcs | dmi | regacc | bypass
  deriving DecidableEq, Repr
/-- Table 18-7: what the instruction register selects; any other instruction selects BYPASS. -/
def tapInstr (ir : BitVec 5) : TapInstr :=
  match ir.toNat with
  | 0x01 => .idcode | 0x10 => .dtmcs | 0x11 => .dmi | 0x18 => .regacc | _ => .bypass
/-- Table 18-7: length and content of the data register at Capture-DR, for the registers whose form this specification gives. What REGACC captures
in [64:32] is not given: free. -/
def State.tapCapture (s : State) : Option (Nat × Nat) :=
  match tapInstr s.chitin.tapIr with
  | .idcode => some (32, 0x19F28C53)
  | .regacc => some (66, s.chitin.tapData.toNat + s.draw 0 % 2 ^ 33 * 2 ^ 32 + nat01 s.chitin.tapRefused * 2 ^ 65)
  | .bypass => some (1, 0)
  | .dtmcs | .dmi => none

/-- REGISTER_WRITE (R13, R18, R471, R472, R478). -/
def execRegisterWrite (by_ : Req) (l : RegLoc) (w : W32) (s : State) : Ans :=
  .next (match l with
    | .addr a => s.regWrite by_ a.toNat w
    | .csr c n => if reqCore by_ = some c then s.onCsr c n.toNat true fun s => s.csrSet c n.toNat w else s)
/-- VF_INDIRECT_READ (R473, R474). -/
def execVfIndirectRead (by_ : Req) (p : PartId) (s : State) : Ans := .next (s.onPartRead by_ p fun s => s.pairRead by_ p)
/-- VF_INDIRECT_WRITE (R473, R474, R478). -/
def execVfIndirectWrite (by_ : Req) (p : PartId) (w : W32) (s : State) : Ans := .next (s.onPart by_ p fun s => s.pairWrite by_ p w)
/-- TAP_REGACC (R458). -/
def execTapRegacc (write : Bool) (addr : W32) (data : W32) (s : State) : Ans := .next (s.tapAccess write addr.toNat data)
/-- LOW_WORD_READ (R356, R444): a read of any other register returns its word. -/
def execLowWordRead (by_ : Req) (l : RegLoc) (s : State) : Ans :=
  .next (match l with
    | .addr a => s.readReg by_ a.toNat
    | .csr c n => if reqCore by_ = some c then s.onCsr c n.toNat false fun s => s.csrRead c n.toNat else s)
/-- CORE_ACCESS_FAULT (R351, R352, R424). (log 71, DEDUCED) -/
def execCoreAccessFault (c : CoreId) (k : CoreAccess) (addr : W32) (pc : W32) (s : State) : Ans := .next (s.coreAccess c k addr pc)

end Sys2Proof.Machine
end

