-- ==== Sys2Proof/Machine/Dm.lean ====
section
/-!
DEFINITION. The Debug Module that the cores share (R355, R387, R457): the DMI registers of the RISC-V Debug Specification 1.0 that halting,
resuming, stepping and access to a hart's registers need (log 127, PRESUMED).
-/
namespace Sys2Proof.Machine

/-- R350, R355: the hart that hartsel names. -/
def Dm.hart (d : Dm) : Option CoreId := if h : d.hartsel.toNat < 260 then some ⟨d.hartsel.toNat, h⟩ else none

/-- dmstatus: version 1.0, authenticated; the state of the selected hart. -/
def State.dmStatus (s : State) : W32 :=
  let two := fun (b : Nat) (x : Bool) => [(b, nat01 x), (b + 1, nat01 x)]
  match s.dm.hart with
  | none => pack ([(0, 3), (7, 1)] ++ two 14 true)
  | some c =>
    let k := s.coreAt c
    pack ([(0, 3), (7, 1)] ++ two 8 k.halted ++ two 10 (s.coreRuns c) ++ two 12 (!k.halted && !s.coreRuns c) ++ two 16 k.resumeAck
      ++ two 18 k.haveReset)

/-- Halted harts among the 32 from `b`. -/
def State.haltedAt (s : State) (b : Nat) : W32 :=
  bitsWhere 32 fun i => if h : b + i < 260 then (s.coreAt ⟨b + i, h⟩).halted else false

/-- A read of a Debug Module register. -/
def State.dmWord (s : State) (a : Nat) : W32 :=
  let h := s.dm.hartsel.toNat
  match a with
  | 0x04 => s.dm.data0
  | 0x10 => pack [(0, nat01 s.dm.active), (1, nat01 s.dm.ndmReset), (29, nat01 s.dm.hartReset), (6, h / 1024), (16, h % 1024)]
  | 0x11 => s.dmStatus
  | 0x13 => bitsWhere 32 fun i => decide (s.haltedAt (h / 1024 * 1024 + 32 * i) ≠ 0)
  | 0x16 => pack [(0, 1), (8, s.dm.cmderr.toNat)]
  | 0x40 => s.haltedAt (h / 32 * 32)
  | _ => 0

/-- R457: a halt request: a hart out of reset halts, one in reset halts when it leaves it. -/
def State.dmHalt (s : State) (c : CoreId) : State :=
  let s := s.setCore c { s.coreAt c with haltReq := true }
  if (s.coreAt c).inReset ∨ (s.coreAt c).halted then s else s.enterDebug c 3

/-- A resume request: the hart goes on at dpc in the mode of dcsr; one whose step bit is set halts again after an instruction. A core that a
global stop holds goes on at its release alone (R464). -/
def State.dmResume (s : State) (c : CoreId) : State :=
  let k := s.coreAt c
  if !k.halted ∨ k.gstop then s else
  let d := s.csr c 0x7B0
  let s := s.setCore c { k with halted := false, resumeAck := true, pc := s.csr c 0x7B1, priv := d.extractLsb' 0 2 }
  if bit d 2 then s.enterDebug c 4 else s

/-- A hart that the Debug Module holds in reset: its CSRs are at their reset values. A hart in reset for another reason stays as it is. -/
def State.dmHold (s : State) (c : CoreId) : State :=
  let k := s.coreAt c
  if k.inReset then s else
  let s : State := { s with csrs := dropIf (fun a => decide (c.val * 4096 ≤ a) && decide (a < c.val * 4096 + 4096)) s.csrs }
  s.setCore c { haltReq := k.haltReq, dmReset := true }
/-- The hart leaves that reset. -/
def State.dmRelease (s : State) (c : CoreId) : State := if (s.coreAt c).dmReset then s.releaseCore c else s
/-- dmcontrol.hartreset of the selected hart and dmcontrol.ndmreset, which resets every hart: what of the platform beside the harts a reset of the
Debug Module reaches is not among the resets of R412 (log 127, PRESUMED). -/
def State.dmResets (s : State) (hart ndm : Bool) : State :=
  let all : List CoreId := (List.range 260).map coreId
  let s := if ndm then each s all fun s c => s.dmHold c
    else if s.dm.ndmReset then each s (all.filter fun c => !hart || decide (s.dm.hart ≠ some c)) fun s c => s.dmRelease c else s
  let s := match s.dm.hart with
    | none => s
    | some c => if hart then s.dmHold c else if s.dm.hartReset && !ndm then s.dmRelease c else s
  { s with dm := { s.dm with hartReset := hart, ndmReset := ndm } }

/-- A write of dmcontrol: dmactive 0 resets the module; a write that activates it does nothing else. -/
def State.dmControl (s : State) (w : W32) : State :=
  if !bit w 0 then
    let s := s.dmResets false false
    { s with dm := { out := s.dm.out }, core := mapIf (fun _ => {}) (fun _ => true) (fun k => { k with haltReq := false, resumeAck := false }) s.core }
  else if !s.dm.active then { s with dm := { s.dm with active := true } }
  else
    let sel : BitVec 20 := w.extractLsb' 6 10 ++ w.extractLsb' 16 10
    let s := if s.dm.hartsel ≠ sel then s.dmResets false s.dm.ndmReset else s
    let s : State := { s with dm := { s.dm with hartsel := sel } }
    let s := s.dmResets (bit w 29) (bit w 1)
    match s.dm.hart with
    | none => s
    | some c =>
      let s := if bit w 28 then s.setCore c { s.coreAt c with haveReset := false } else s
      if bit w 31 then s.dmHalt c
      else
        let s := s.setCore c { s.coreAt c with haltReq := false }
        if bit w 30 then (s.setCore c { s.coreAt c with resumeAck := false }).dmResume c else s

/-- A register of a halted hart, by the number of an abstract command: a CSR, or x0 to x31. -/
def State.dmReg (s : State) (c : CoreId) (n : Nat) : Option W32 :=
  if n < 0x1000 then (if csrKnown n ∨ n = 0x7B0 ∨ n = 0x7B1 then some (s.csrWord c n) else none)
  else if n < 0x1020 then some (s.gpr c (n - 0x1000)) else none
/-- The same written. -/
def State.setDmReg (s : State) (c : CoreId) (n : Nat) (w : W32) : State :=
  if n < 0x1000 then s.csrSet c n w else s.setGpr c (n - 0x1000) w

/-- A write of command: an access of one register of the selected hart, through data0; an error is kept in cmderr until it is cleared. -/
def State.dmCommand (s : State) (w : W32) : State :=
  let err := fun (e : Nat) => ({ s with dm := { s.dm with cmderr := BitVec.ofNat 3 e } } : State)
  if s.dm.cmderr ≠ 0 then s
  else if fld w 31 24 ≠ 0 ∨ fld w 22 20 ≠ 2 ∨ bit w 19 ∨ bit w 18 then err 2
  else match s.dm.hart with
    | none => err 4
    | some c =>
      if !(s.coreAt c).halted then err 4
      else if !bit w 17 then s
      else match s.dmReg c (fld w 15 0) with
        | none => err 3
        | some v =>
          if !bit w 16 then { s with dm := { s.dm with data0 := v } }
          else if fld w 15 0 < 0x1000 ∧ 0xC00 ≤ fld w 15 0 then err 3
          else s.setDmReg c (fld w 15 0) s.dm.data0

/-- A write of a Debug Module register; while the module is inactive only dmcontrol is written. -/
def State.dmWrite (s : State) (a : Nat) (w : W32) : State :=
  if a = 0x10 then s.dmControl w
  else if !s.dm.active then s
  else match a with
    | 0x04 => { s with dm := { s.dm with data0 := w } }
    | 0x16 => { s with dm := { s.dm with cmderr := s.dm.cmderr &&& ~~~(w.extractLsb' 8 3) } }
    | 0x17 => s.dmCommand w
    | _ => s

/-- R387: a DMI access: admitted, or completed with the error status and without effect. -/
def State.dmi (s : State) (op : DmiOp) : State :=
  let err := fun (s : State) (b : Bool) => ({ s with chitin := { s.chitin with tapIr := 0x11, dmiError := b } } : State)
  if !s.debugOk then err s true else
  let s := err s false
  match op with
  | .read a => { s with dm := { s.dm with out := s.dmWord a.toNat } }
  | .write a w => s.dmWrite a.toNat w

/-- DMI_ACCESS (R355, R387, R457). -/
def execDmiAccess (op : DmiOp) (s : State) : Ans := .next (s.dmi op)

end Sys2Proof.Machine
end

