-- ==== Sys2Proof/Machine/Molt.lean ====
section
/-!
DEFINITION. The molt snapshot of a global stop (R461 to R463, Tables 18-8 and 18-9). What the tables list for an area stands in it in the order of
the list, as 32-bit words without gaps, low word first; the rest of an area is free (log 37, DESIGN CHOICE).
-/
namespace Sys2Proof.Machine

/-- R463: device HBM that no partition's allocation holds. -/
def State.outsideParts (s : State) (a n : Nat) : Bool :=
  decide (a + n ≤ Config.hbmUnits * 2 ^ 28) && s.loadedParts.all fun p =>
    let b := (s.partAt p).hbmBase
    decide (a + n ≤ b) || decide (b + s.alloc p ≤ a)

/-- `n` bytes of the snapshot that no list fills: free values. -/
def State.moltFree (s : State) (base off n : Nat) : State :=
  s.setHbmBytes (base + off) ((List.range n).map fun i => BitVec.ofNat 8 (s.draw (off + i)))
/-- Words of the snapshot. -/
def State.moltWords (s : State) (a : Nat) (l : List W32) : State := s.setHbmBytes a (l.flatMap fun w => natLe 4 w.toNat)
/-- A 64-bit value as two words. -/
def twoWords (v : W64) : List W32 := [v.setWidth 32, v.extractLsb' 32 32]

/-- Table 18-8: the header. -/
def State.moltHeader (s : State) : List W32 :=
  [0x544C4F4D, s.devId.setWidth 32, pack [(0, nat01 s.gs.device), (4, s.gs.part.toNat)], pack [(0, s.gs.origin.toNat), (4, s.gs.originTile.toNat)]]
    ++ twoWords s.gs.time ++ twoWords (s.gs.first.getD 0) ++ twoWords (s.gs.last.getD 0)
    ++ [bitsWhere 6 fun p => if h : p < 6 then (s.portAt ⟨p, h⟩).stopSeen else false]
/-- Table 18-8: the areas of hardware queues and waiter slots have as many entries as the device; where a partition's begin: after those of
the partitions numbered below it. (log 37, DESIGN CHOICE) -/
def State.moltFirst (s : State) (p : PartId) (f : PartCfg → Nat) : Nat :=
  ((s.loadedParts.filter fun g => decide (g.toNat < p.toNat)).filterMap fun g => (s.pcfg g).map f).foldl (· + ·) 0
/-- Table 18-8: a hardware queue. -/
def State.moltQueue (s : State) (p : PartId) (q : QueueId) : List W32 :=
  let Q := s.queueAt p q
  let m := Q.cmds.find? fun m => m.isFetched && decide (m.wait ≠ 0)
  [s.queueWord p q 4, Q.tail.setWidth 32, s.queueWord p q 8] ++ (match m with
    | none => [0, 0, 0]
    | some m => [m.wait] ++ twoWords m.waitVal)
/-- Table 18-8: a waiter slot, in its four words: armed in bit 0, above it its target coded as HGT_WS_TGT codes a semaphore and a notice record;
the queue of a command stands in the semaphore's place with bit 17 set. (log 37, DESIGN CHOICE) -/
def State.moltWaiter (s : State) (p : PartId) (i : Nat) : List W32 :=
  let w := s.waiterAt p i
  [pack [(0, nat01 w.armed), (1, match w.tgt with
    | .sem t n => t.toNat + n.toNat * 2 ^ 12
    | .notice => 2 ^ 16
    | .command q => q.toNat + 2 ^ 17)], w.handle] ++ twoWords w.val
/-- Table 18-8: the queues and slots of a partition. -/
def State.moltPart (s : State) (s0 : State) (base : Nat) (p : PartId) : State :=
  match s0.pcfg p with
  | none => s
  | some g =>
    let s := each s (List.range g.queues.toNat) fun s q =>
      s.moltWords (base + 0x10000 + 64 * (s0.moltFirst p (·.queues.toNat) + q)) (s0.moltQueue p (BitVec.ofNat 10 q))
    each s (List.range g.waiters.toNat) fun s i => s.moltWords (base + 0x20000 + 16 * (s0.moltFirst p (·.waiters.toNat) + i)) (s0.moltWaiter p i)

/-- Table 18-8, R295, R462: a port, and the messages in flight: those that its channel buffers held when STOP arrived, or all that have arrived
where no STOP has. -/
def State.moltPort (s : State) (p : PortId) : List W32 :=
  let q := s.portAt p
  [s.portWord p 0x004] ++ ((List.range 5).map fun v => s.portWord p (0x020 + 4 * v)) ++ twoWords q.txSeq
    ++ twoWords (q.txSeq - BitVec.ofNat 64 (q.replay.length + 1))
    ++ (if q.stopSeen then q.inFlight else q.bufs).flatMap fun x => (msgToSlots x.2).flatMap fun b => (List.range 8).map fun i => b.extractLsb' (32 * i) 32

/-- Table 18-9: engine `e` of a tile. -/
def State.moltEngine (s : State) (t : TileId) (e : EngId) : List W32 :=
  ([0x04, 0x08, 0x34, 0x30] ++ ((List.range 4).map fun n => 0x10 + 4 * n) ++ (List.range 4).map fun n => 0x20 + 4 * n).map (s.engWord t e)
    ++ (List.range 16).map fun n => s.sregW t e n
/-- Table 18-9: a semaphore's poster beside its value, in 16 bits; one whose code does not fit them is free there. -/
def State.posterHalf (s : State) (t : TileId) (n : Nat) : Nat :=
  let v := (s.posterW t n).toNat
  if v < 65536 then v else s.draw (t.toNat * 16 + n) % 65536
/-- Table 18-9: the areas of a tile's record, by their offsets, but for its vector registers. -/
def State.moltAreas (s : State) (t : TileId) : List (Nat × List W32) :=
  [(0x000, [s.tileWord t 0x1E04, s.reg (obsBase t + 0xF0), s.reg (obsBase t + 0xF4)] ++ engines.flatMap fun e => twoWords (s.engAt t e).haltStamp)]
    ++ (engines.map fun e => (0x040 + 0x80 * e.toNat, s.moltEngine t e))
    ++ [(0x240, (List.range 16).map fun n => pack [(0, (s.tr t (0x100 + 4 * n)).toNat % 65536), (16, s.posterHalf t n)]),
        (0x280, ([0x1704] ++ ((List.range 4).map fun q => 0x1720 + 4 * q) ++ ((List.range 8).map fun d => 0x1730 + 4 * d)
          ++ ((List.range 4).flatMap fun q => (List.range 7).map fun w => 0x1780 + 0x20 * q + 4 * w) ++ [0x1754]).map (s.tileWord t)),
        (0x400, ([0x1A00, 0x1A04, 0x1A08, 0x1A14] ++ ((List.range 8).map fun k => 0x1B0C + 16 * k) ++ (List.range 4).map fun h => 0x1B8C + 16 * h).map (s.tileWord t)),
        (0x480, [s.tileWord t 0x1220, s.tileWord t 0x1304, s.tileWord t 0x1F08]),
        (0x500, (List.range 8).map fun p => s.pval t p)]
/-- Table 18-9: a tile's record. -/
def State.moltTile (s : State) (base : Nat) (t : TileId) : State :=
  let o := 0x1000000 + t.toNat * 0x2000
  let l := s.moltAreas t
  let v := (List.range 1024).map fun i => s.vregL t (i / 32) (i % 32)
  let s := each (s.moltFree base o 0x2000) l fun s x => s.moltWords (base + o + x.1) x.2
  s.moltWords (base + o + 0x1000) v

/-- R463: the snapshot is written. -/
def State.molt (s : State) (base : Nat) : State :=
  let s0 := s
  let s := ((s.moltFree base 0 64).moltFree base 0x10000 0x10000).moltFree base 0x20000 0x40000
  let s := s.moltWords base s0.moltHeader
  let s := each s s0.loadedParts fun s p => s.moltPart s0 base p
  let s := each s allPorts fun s p => (s.moltFree base (0x100000 + p.val * 0x200000) 0x200000).moltWords (base + 0x100000 + p.val * 0x200000) (s0.moltPort p)
  (each s s.scopeTiles fun s t => s.moltTile base t).drawn

/-- MOLT_SNAPSHOT_WRITE: the stop is complete; the snapshot is written where asked for and possible. -/
def State.moltWrite (s : State) : State :=
  if s.gs.st ≠ .stopping ∨ !s.stopSettled ∨ !s.portsClosed then s else
  let a := (s.reg64 (dbgBase + 0x120) (dbgBase + 0x124)).toNat
  let sz := fld (s.reg (dbgBase + 0x128)) 15 0 * 2 ^ 20
  if !bit (s.reg (dbgBase + 0x104)) 3 then { s with gs := { s.gs with st := .stopped, moltErr := false } }
  else if a % 65536 ≠ 0 ∨ sz < 48 * 2 ^ 20 ∨ !s.outsideParts a sz then { s with gs := { s.gs with st := .stopped, moltErr := true } }
  else
    let s := s.molt a
    { s with gs := { s.gs with st := .stopped, moltErr := false } }

/-- MOLT_SNAPSHOT_WRITE (R463). -/
def execMoltSnapshotWrite (s : State) : Ans := .next s.moltWrite

end Sys2Proof.Machine
end

