-- ==== Sys2Proof/Machine/Scalar.lean ====
section
/-!
DEFINITION. The scalar instructions as commands (R123 to R143): each is the issue of a word of 3 halfwords whose one slot
holds the instruction.
-/
namespace Sys2Proof.Machine

/-- SC_NOP (R124). -/
def execScNop (t : TileId) (e : EngId) (s : State) : Ans :=
  .next (s.issueWord t e 3 [{}])
/-- SC_ADD (R124). -/
def execScAdd (t : TileId) (e : EngId) (d a b : BitVec 4) (s : State) : Ans :=
  .next (s.issueWord t e 3 [slotAlu t e d a b (· + ·)])
/-- SC_SUB (R124). -/
def execScSub (t : TileId) (e : EngId) (d a b : BitVec 4) (s : State) : Ans :=
  .next (s.issueWord t e 3 [slotAlu t e d a b (· - ·)])
/-- SC_AND (R124). -/
def execScAnd (t : TileId) (e : EngId) (d a b : BitVec 4) (s : State) : Ans :=
  .next (s.issueWord t e 3 [slotAlu t e d a b (· &&& ·)])
/-- SC_OR (R124). -/
def execScOr (t : TileId) (e : EngId) (d a b : BitVec 4) (s : State) : Ans :=
  .next (s.issueWord t e 3 [slotAlu t e d a b (· ||| ·)])
/-- SC_XOR (R124). -/
def execScXor (t : TileId) (e : EngId) (d a b : BitVec 4) (s : State) : Ans :=
  .next (s.issueWord t e 3 [slotAlu t e d a b (· ^^^ ·)])
/-- SC_SLL (R124). -/
def execScSll (t : TileId) (e : EngId) (d a b : BitVec 4) (s : State) : Ans :=
  .next (s.issueWord t e 3 [slotAlu t e d a b (fun u v => u <<< (v.toNat % 32))])
/-- SC_SRL (R124). -/
def execScSrl (t : TileId) (e : EngId) (d a b : BitVec 4) (s : State) : Ans :=
  .next (s.issueWord t e 3 [slotAlu t e d a b (fun u v => u >>> (v.toNat % 32))])
/-- SC_SRA (R124). -/
def execScSra (t : TileId) (e : EngId) (d a b : BitVec 4) (s : State) : Ans :=
  .next (s.issueWord t e 3 [slotAlu t e d a b (fun u v => u.sshiftRight (v.toNat % 32))])
/-- SC_SLT (R124). -/
def execScSlt (t : TileId) (e : EngId) (d a b : BitVec 4) (s : State) : Ans :=
  .next (s.issueWord t e 3 [slotAlu t e d a b (fun u v => flagW (u.slt v))])
/-- SC_SLTU (R124). -/
def execScSltu (t : TileId) (e : EngId) (d a b : BitVec 4) (s : State) : Ans :=
  .next (s.issueWord t e 3 [slotAlu t e d a b (fun u v => flagW (u.ult v))])
/-- SC_MUL (R124). -/
def execScMul (t : TileId) (e : EngId) (d a b : BitVec 4) (s : State) : Ans :=
  .next (s.issueWord t e 3 [slotAlu t e d a b (· * ·)])
/-- SC_ADDI (R124). -/
def execScAddi (t : TileId) (e : EngId) (d a : BitVec 4) (imm : W16) (s : State) : Ans :=
  .next (s.issueWord t e 3 [slotImm t e d a (· + imm.signExtend 32)])
/-- SC_ANDI (R124): zero-extended. -/
def execScAndi (t : TileId) (e : EngId) (d a : BitVec 4) (imm : W16) (s : State) : Ans :=
  .next (s.issueWord t e 3 [slotImm t e d a (· &&& imm.setWidth 32)])
/-- SC_LI (R124). -/
def execScLi (t : TileId) (e : EngId) (d : BitVec 4) (imm : BitVec 20) (s : State) : Ans :=
  .next (s.issueWord t e 3 [slotLi t e d imm])
/-- SC_LIH (R124). -/
def execScLih (t : TileId) (e : EngId) (d : BitVec 4) (imm : BitVec 20) (s : State) : Ans :=
  .next (s.issueWord t e 3 [slotLih t e d imm])
/-- SC_LW (R126). -/
def execScLw (t : TileId) (e : EngId) (d a : BitVec 4) (imm : W16) (s : State) : Ans :=
  .next (s.issueWord t e 3 [slotLw t e d a imm])
/-- SC_SW (R126): the word is register d. -/
def execScSw (t : TileId) (e : EngId) (d a : BitVec 4) (imm : W16) (s : State) : Ans :=
  .next (s.issueWord t e 3 [slotSw t e d a imm])
/-- SC_RDIX (R124). -/
def execScRdix (t : TileId) (e : EngId) (d : BitVec 4) (depth : BitVec 2) (s : State) : Ans :=
  .next (s.issueWord t e 3 [slotRdix t e d depth.toNat])
/-- SC_BEQ (R125). -/
def execScBeq (t : TileId) (e : EngId) (a b : BitVec 4) (off : W16) (s : State) : Ans :=
  .next (s.issueWord t e 3 [slotBr t e a b off (· == ·)])
/-- SC_BNE (R125). -/
def execScBne (t : TileId) (e : EngId) (a b : BitVec 4) (off : W16) (s : State) : Ans :=
  .next (s.issueWord t e 3 [slotBr t e a b off (· != ·)])
/-- SC_BLT (R125). -/
def execScBlt (t : TileId) (e : EngId) (a b : BitVec 4) (off : W16) (s : State) : Ans :=
  .next (s.issueWord t e 3 [slotBr t e a b off BitVec.slt])
/-- SC_BGE (R125). -/
def execScBge (t : TileId) (e : EngId) (a b : BitVec 4) (off : W16) (s : State) : Ans :=
  .next (s.issueWord t e 3 [slotBr t e a b off (fun u v => !u.slt v)])
/-- SC_JMP (R125). -/
def execScJmp (t : TileId) (e : EngId) (off : W16) (s : State) : Ans :=
  .next (s.issueWord t e 3 [slotBranch t e off fun _ => true])
/-- SC_END (R113). -/
def execScEnd (t : TileId) (e : EngId) (s : State) : Ans :=
  .next (s.issueWord t e 3 [slotEnd t e])
/-- LP_BEGIN (R129, R130). -/
def execLpBegin (t : TileId) (e : EngId) (a : BitVec 4) (end_ : BitVec 13) (s : State) : Ans :=
  .next (s.issueWord t e 3 [slotLoop t e 3 a end_])
/-- AG_SET (R134). -/
def execAgSet (t : TileId) (e : EngId) (a : BitVec 4) (g : BitVec 3) (c : BitVec 2) (w : BitVec 3) (s : State) : Ans :=
  .next (s.issueWord t e 3 [slotAg t e a g c w])
/-- SEM_WAIT (R137). -/
def execSemWait (t : TileId) (e : EngId) (sem : SemId) (n : Byte) (s : State) : Ans :=
  .next (s.issueWord t e 3 [slotWait sem n])
/-- SEM_POST (R138, R141). -/
def execSemPost (t : TileId) (e : EngId) (sem : SemId) (n : Byte) (s : State) : Ans :=
  .next (s.issueWord t e 3 [slotPost t e sem n])
/-- SEM_RPOST (R141, R142). -/
def execSemRpost (t : TileId) (e : EngId) (sem : SemId) (n : Byte) (a : BitVec 4) (s : State) : Ans :=
  .next (s.issueWord t e 3 [slotRpost t e sem n a])
/-- EVT_SIG (R141, R143). -/
def execEvtSig (t : TileId) (e : EngId) (a : BitVec 4) (s : State) : Ans :=
  .next (s.issueWord t e 3 [slotEvt t e a])
/-- TL_SIG (R141, R143). -/
def execTlSig (t : TileId) (e : EngId) (a b : BitVec 4) (s : State) : Ans :=
  .next (s.issueWord t e 3 [slotTl t e a b])
/-- SC_FENCE (R141). -/
def execScFence (t : TileId) (e : EngId) (s : State) : Ans :=
  .next (s.issueWord t e 3 [slotFence t e])

end Sys2Proof.Machine
end

