-- ==== Sys2Proof/Machine/Vector.lean ====
section
/-!
DEFINITION. The VXE's instructions as commands (R173 to R197): each is the issue of a word of 3 halfwords whose one slot holds
the instruction, in the slot of its unit.
-/
namespace Sys2Proof.Machine

/-- VX_NOP (R180). -/
def execVxNop (t : TileId) (s : State) : Ans := .next (s.issueWord t 1 3 [{}])
/-- VX_FADD (R181, R186). -/
def execVxFadd (t : TileId) (f : VxV) (s : State) : Ans := .next (s.issueWord t 1 3 [slotFp t f 2 fpAdd])
/-- VX_FSUB (R181, R186). -/
def execVxFsub (t : TileId) (f : VxV) (s : State) : Ans := .next (s.issueWord t 1 3 [slotFp t f 2 fpSub])
/-- VX_FMUL (R181, R186). -/
def execVxFmul (t : TileId) (f : VxV) (s : State) : Ans := .next (s.issueWord t 1 3 [slotFp t f 2 fpMul])
/-- VX_FMA (R181, R186). -/
def execVxFma (t : TileId) (f : VxV) (s : State) : Ans := .next (s.issueWord t 1 3 [slotFp t f 3 fpFma])
/-- VX_FMS (R181, R186). -/
def execVxFms (t : TileId) (f : VxV) (s : State) : Ans := .next (s.issueWord t 1 3 [slotFp t f 3 fpFms])
/-- VX_FNMA (R181, R186). -/
def execVxFnma (t : TileId) (f : VxV) (s : State) : Ans := .next (s.issueWord t 1 3 [slotFp t f 3 fpFnma])
/-- VX_SCAN (R192). -/
def execVxScan (t : TileId) (f : VxV) (s : State) : Ans := .next (s.issueWord t 1 3 [slotScan t f])
/-- VX_TAPMV (R193). -/
def execVxTapmv (t : TileId) (f : VxV) (s : State) : Ans := .next (s.issueWord t 1 3 [slotTap t f])
/-- VX_MM (R195). -/
def execVxMm (t : TileId) (f : VxV) (s : State) : Ans := .next (s.issueWord t 1 3 [slotMm t f false false])
/-- VX_MMBT (R195). -/
def execVxMmbt (t : TileId) (f : VxV) (s : State) : Ans := .next (s.issueWord t 1 3 [slotMm t f false true])
/-- VX_MMAT (R195). -/
def execVxMmat (t : TileId) (f : VxV) (s : State) : Ans := .next (s.issueWord t 1 3 [slotMm t f true false])
/-- VX_CHOL (R195). -/
def execVxChol (t : TileId) (f : VxV) (s : State) : Ans := .next (s.issueWord t 1 3 [slotChol t f])
/-- VX_CHSV (R195). -/
def execVxChsv (t : TileId) (f : VxV) (s : State) : Ans := .next (s.issueWord t 1 3 [slotChsv t f])
/-- VX_IADD (R181, R186). -/
def execVxIadd (t : TileId) (f : VxV) (s : State) : Ans := .next (s.issueWord t 1 3 [slotInt t f 2 (fun _ a b => a + b)])
/-- VX_ISUB (R181, R186). -/
def execVxIsub (t : TileId) (f : VxV) (s : State) : Ans := .next (s.issueWord t 1 3 [slotInt t f 2 iSub])
/-- VX_IMUL (R181, R186). -/
def execVxImul (t : TileId) (f : VxV) (s : State) : Ans := .next (s.issueWord t 1 3 [slotInt t f 2 (fun _ a b => a * b)])
/-- VX_AND (R181, R186). -/
def execVxAnd (t : TileId) (f : VxV) (s : State) : Ans := .next (s.issueWord t 1 3 [slotInt t f 0 (fun _ a b => a &&& b)])
/-- VX_OR (R181, R186). -/
def execVxOr (t : TileId) (f : VxV) (s : State) : Ans := .next (s.issueWord t 1 3 [slotInt t f 0 (fun _ a b => a ||| b)])
/-- VX_XOR (R181, R186). -/
def execVxXor (t : TileId) (f : VxV) (s : State) : Ans := .next (s.issueWord t 1 3 [slotInt t f 0 (fun _ a b => a ^^^ b)])
/-- VX_SHL (R181, R186). -/
def execVxShl (t : TileId) (f : VxV) (s : State) : Ans := .next (s.issueWord t 1 3 [slotInt t f 2 iShl])
/-- VX_SHR (R181, R186). -/
def execVxShr (t : TileId) (f : VxV) (s : State) : Ans := .next (s.issueWord t 1 3 [slotInt t f 2 iShr])
/-- VX_SRA (R181, R186). -/
def execVxSra (t : TileId) (f : VxV) (s : State) : Ans := .next (s.issueWord t 1 3 [slotInt t f 2 iSra])
/-- VX_FMIN (R186, R477). -/
def execVxFmin (t : TileId) (f : VxV) (s : State) : Ans := .next (s.issueWord t 1 3 [slotFp t f 2 fpMin])
/-- VX_FMAX (R186, R477). -/
def execVxFmax (t : TileId) (f : VxV) (s : State) : Ans := .next (s.issueWord t 1 3 [slotFp t f 2 fpMax])
/-- VX_FABS (R186, R477). -/
def execVxFabs (t : TileId) (f : VxV) (s : State) : Ans := .next (s.issueWord t 1 3 [slotFp t f 1 fpAbs])
/-- VX_FNEG (R186, R477). -/
def execVxFneg (t : TileId) (f : VxV) (s : State) : Ans := .next (s.issueWord t 1 3 [slotFp t f 1 fpNeg])
/-- VX_CMP (R187). -/
def execVxCmp (t : TileId) (f : VxV) (s : State) : Ans := .next (s.issueWord t 1 3 [slotCmp t f])
/-- VX_SEL (Table 7-4): every lane written. -/
def execVxSel (t : TileId) (f : VxV) (s : State) : Ans := .next (s.issueWord t 1 3 [slotSel t f])
/-- VX_MOV (Table 7-4). -/
def execVxMov (t : TileId) (f : VxV) (s : State) : Ans := .next (s.issueWord t 1 3 [slotMove t f false fun s i => moved (s.vl t f.va.toNat i)])
/-- VX_BCS (Table 7-4). -/
def execVxBcs (t : TileId) (f : VxV) (s : State) : Ans := .next (s.issueWord t 1 3 [slotBcs t f])
/-- VX_BCL (Table 7-4). -/
def execVxBcl (t : TileId) (f : VxV) (s : State) : Ans := .next (s.issueWord t 1 3 [slotMove t f true fun s _ => moved (s.vl t f.va.toNat f.vb.toNat)])
/-- VX_PERM (Table 7-4). -/
def execVxPerm (t : TileId) (f : VxV) (s : State) : Ans := .next (s.issueWord t 1 3 [slotMove t f true fun s i => permLane s t f i])
/-- VX_GETL (Table 7-4). -/
def execVxGetl (t : TileId) (f : VxV) (s : State) : Ans := .next (s.issueWord t 1 3 [slotGetl t f])
/-- VX_LIDX (Table 7-4). -/
def execVxLidx (t : TileId) (f : VxV) (s : State) : Ans := .next (s.issueWord t 1 3 [(slotMove t f false fun _ i => moved (BitVec.ofNat 32 i, false)).need0 [f.va.toNat]])
/-- VX_CVT (R188). -/
def execVxCvt (t : TileId) (f : VxC) (s : State) : Ans := .next (s.issueWord t 1 3 [slotCvt t f])
/-- VX_PLOG (R187). -/
def execVxPlog (t : TileId) (f : VxV) (s : State) : Ans := .next (s.issueWord t 1 3 [slotPlog t f])
/-- VX_RSUM (R191). -/
def execVxRsum (t : TileId) (f : VxV) (s : State) : Ans := .next (s.issueWord t 1 3 [slotSum t f false])
/-- VX_RSUMA (R191). -/
def execVxRsuma (t : TileId) (f : VxV) (s : State) : Ans := .next (s.issueWord t 1 3 [slotSum t f true])
/-- VX_RMAX (R191). -/
def execVxRmax (t : TileId) (f : VxV) (s : State) : Ans := .next (s.issueWord t 1 3 [slotExt t f true])
/-- VX_RMIN (R191). -/
def execVxRmin (t : TileId) (f : VxV) (s : State) : Ans := .next (s.issueWord t 1 3 [slotExt t f false])
/-- VX_EXP (R189, R190). -/
def execVxExp (t : TileId) (f : VxV) (s : State) : Ans := .next (s.issueWord t 1 3 [slotTu t f 1 fun a _ => tu1 tuExp a])
/-- VX_EXP2 (R189, R190). -/
def execVxExp2 (t : TileId) (f : VxV) (s : State) : Ans := .next (s.issueWord t 1 3 [slotTu t f 1 fun a _ => tu1 tuExp2 a])
/-- VX_LOG (R189, R190). -/
def execVxLog (t : TileId) (f : VxV) (s : State) : Ans := .next (s.issueWord t 1 3 [slotTu t f 1 fun a _ => tuDom tuLog a])
/-- VX_LOG2 (R189, R190). -/
def execVxLog2 (t : TileId) (f : VxV) (s : State) : Ans := .next (s.issueWord t 1 3 [slotTu t f 1 fun a _ => tuDom tuLog2 a])
/-- VX_RCP (R189, R190). -/
def execVxRcp (t : TileId) (f : VxV) (s : State) : Ans := .next (s.issueWord t 1 3 [slotTu t f 1 fun a _ => tu1 tuRcp a])
/-- VX_RSQ (R189, R190). -/
def execVxRsq (t : TileId) (f : VxV) (s : State) : Ans := .next (s.issueWord t 1 3 [slotTu t f 1 fun a _ => tu1 tuRsq a])
/-- VX_SQRT (R189, R190). -/
def execVxSqrt (t : TileId) (f : VxV) (s : State) : Ans := .next (s.issueWord t 1 3 [slotTu t f 1 fun a _ => tuDom tuSqrt a])
/-- VX_DIV (R189, R190). -/
def execVxDiv (t : TileId) (f : VxV) (s : State) : Ans := .next (s.issueWord t 1 3 [slotTu t f 2 tuDiv])
/-- VX_TANH (R189). -/
def execVxTanh (t : TileId) (f : VxV) (s : State) : Ans := .next (s.issueWord t 1 3 [slotTu t f 1 fun a _ => tu1 tuTanh a])
/-- VX_SIGM (R189). -/
def execVxSigm (t : TileId) (f : VxV) (s : State) : Ans := .next (s.issueWord t 1 3 [slotTu t f 1 fun a _ => tu1 tuSigm a])
/-- VX_SIN (R189, R190). -/
def execVxSin (t : TileId) (f : VxV) (s : State) : Ans := .next (s.issueWord t 1 3 [slotTu t f 1 fun a _ => tuSinCos refSin a])
/-- VX_COS (R189, R190). -/
def execVxCos (t : TileId) (f : VxV) (s : State) : Ans := .next (s.issueWord t 1 3 [slotTu t f 1 fun a _ => tuSinCos refCos a])
/-- VX_LD (R182, R183). -/
def execVxLd (t : TileId) (f : VxM) (s : State) : Ans := .next (s.issueWord t 1 3 [slotLd t f 2 0])
/-- VX_LDL (R182, R183). -/
def execVxLdl (t : TileId) (f : VxM) (s : State) : Ans := .next (s.issueWord t 1 3 [slotLd t f 1 0])
/-- VX_LDU (R182, R183). -/
def execVxLdu (t : TileId) (f : VxM) (s : State) : Ans := .next (s.issueWord t 1 3 [slotLd t f 1 16])
/-- VX_GATH (R185). -/
def execVxGath (t : TileId) (f : VxG) (s : State) : Ans := .next (s.issueWord t 1 3 [slotGath t f])
/-- VX_ST (R182, R183). -/
def execVxSt (t : TileId) (f : VxM) (s : State) : Ans := .next (s.issueWord t 1 3 [slotSt t f 2 0])
/-- VX_STL (R182, R183). -/
def execVxStl (t : TileId) (f : VxM) (s : State) : Ans := .next (s.issueWord t 1 3 [slotSt t f 1 0])
/-- VX_STU (R182, R183). -/
def execVxStu (t : TileId) (f : VxM) (s : State) : Ans := .next (s.issueWord t 1 3 [slotSt t f 1 16])
/-- VX_SCAT (R185). -/
def execVxScat (t : TileId) (f : VxG) (s : State) : Ans := .next (s.issueWord t 1 3 [slotScat t f])

end Sys2Proof.Machine
end

