-- ==== Sys2Proof/Machine/Dispatch.lean ====
section
/-!
DEFINITION. What each command does: one arm for each row of the table, one call of its meaning.
-/
namespace Sys2Proof.Machine

/-- The effect of a command on everything but the queue. -/
def exec (i : Instr) (s : State) : Host.Outcome State Fault Refusal :=
  match i with
  | .registerWrite by_ l w => Sys2Proof.Machine.execRegisterWrite by_ l w s
  | .vfIndirectRead by_ p => Sys2Proof.Machine.execVfIndirectRead by_ p s
  | .vfIndirectWrite by_ p w => Sys2Proof.Machine.execVfIndirectWrite by_ p w s
  | .srseedWrite by_ t w => Sys2Proof.Machine.execSrseedWrite by_ t w s
  | .mapInvalidate by_ p w => Sys2Proof.Machine.execMapInvalidate by_ p w s
  | .mapInvalidateDone p => Sys2Proof.Machine.execMapInvalidateDone p s
  | .pageopInstall by_ t slot ctx => Sys2Proof.Machine.execPageopInstall by_ t slot ctx s
  | .pageopPromote by_ t slot ctx => Sys2Proof.Machine.execPageopPromote by_ t slot ctx s
  | .pageopDemote by_ t slot ctx => Sys2Proof.Machine.execPageopDemote by_ t slot ctx s
  | .pageopFree by_ t slot ctx => Sys2Proof.Machine.execPageopFree by_ t slot ctx s
  | .pageopInvalidOp by_ t op slot ctx => Sys2Proof.Machine.execPageopInvalidOp by_ t op slot ctx s
  | .pageopDataMove t => Sys2Proof.Machine.execPageopDataMove t s
  | .pageopDone t => Sys2Proof.Machine.execPageopDone t s
  | .agecfgWrite by_ t w => Sys2Proof.Machine.execAgecfgWrite by_ t w s
  | .ageTick t => Sys2Proof.Machine.execAgeTick t s
  | .vaultRefresh t => Sys2Proof.Machine.execVaultRefresh t s
  | .vaultRefreshRateChange t temp => Sys2Proof.Machine.execVaultRefreshRateChange t temp s
  | .vaultThrottle t temp => Sys2Proof.Machine.execVaultThrottle t temp s
  | .weirNop t sigEn sem => Sys2Proof.Machine.execWeirNop t sigEn sem s
  | .weirScore t f => Sys2Proof.Machine.execWeirScore t f s
  | .weirAttend t f => Sys2Proof.Machine.execWeirAttend t f s
  | .weirTopk t f => Sys2Proof.Machine.execWeirTopk t f s
  | .weirAppend t f => Sys2Proof.Machine.execWeirAppend t f s
  | .weirReuse t f => Sys2Proof.Machine.execWeirReuse t f s
  | .weirGather t f => Sys2Proof.Machine.execWeirGather t f s
  | .weirOpAccept v => Sys2Proof.Machine.execWeirOpAccept v s
  | .gatherListEntry v => Sys2Proof.Machine.execGatherListEntry v s
  | .weirOpComplete v => Sys2Proof.Machine.execWeirOpComplete v s
  | .weirStopResume by_ t => Sys2Proof.Machine.execWeirStopResume by_ t s
  | .weirStopFault by_ t code => Sys2Proof.Machine.execWeirStopFault by_ t code s
  | .weiStopcntClear by_ t => Sys2Proof.Machine.execWeiStopcntClear by_ t s
  | .slotScrubDone t sl => Sys2Proof.Machine.execSlotScrubDone t sl s
  | .programStart by_ t e pc => Sys2Proof.Machine.execProgramStart by_ t e pc s
  | .programEnd t e => Sys2Proof.Machine.execProgramEnd t e s
  | .imemLoadWrite by_ t w => Sys2Proof.Machine.execImemLoadWrite by_ t w s
  | .imemArm by_ t e => Sys2Proof.Machine.execImemArm by_ t e s
  | .imemDisarm by_ t e => Sys2Proof.Machine.execImemDisarm by_ t e s
  | .imldDropCountClear by_ t => Sys2Proof.Machine.execImldDropCountClear by_ t s
  | .engineWordIssue t e => Sys2Proof.Machine.execEngineWordIssue t e s
  | .scNop t e => Sys2Proof.Machine.execScNop t e s
  | .scAdd t e d a b => Sys2Proof.Machine.execScAdd t e d a b s
  | .scSub t e d a b => Sys2Proof.Machine.execScSub t e d a b s
  | .scAnd t e d a b => Sys2Proof.Machine.execScAnd t e d a b s
  | .scOr t e d a b => Sys2Proof.Machine.execScOr t e d a b s
  | .scXor t e d a b => Sys2Proof.Machine.execScXor t e d a b s
  | .scSll t e d a b => Sys2Proof.Machine.execScSll t e d a b s
  | .scSrl t e d a b => Sys2Proof.Machine.execScSrl t e d a b s
  | .scSra t e d a b => Sys2Proof.Machine.execScSra t e d a b s
  | .scSlt t e d a b => Sys2Proof.Machine.execScSlt t e d a b s
  | .scSltu t e d a b => Sys2Proof.Machine.execScSltu t e d a b s
  | .scMul t e d a b => Sys2Proof.Machine.execScMul t e d a b s
  | .scAddi t e d a imm => Sys2Proof.Machine.execScAddi t e d a imm s
  | .scAndi t e d a imm => Sys2Proof.Machine.execScAndi t e d a imm s
  | .scLi t e d imm => Sys2Proof.Machine.execScLi t e d imm s
  | .scLih t e d imm => Sys2Proof.Machine.execScLih t e d imm s
  | .scLw t e d a imm => Sys2Proof.Machine.execScLw t e d a imm s
  | .scSw t e d a imm => Sys2Proof.Machine.execScSw t e d a imm s
  | .scRdix t e d depth => Sys2Proof.Machine.execScRdix t e d depth s
  | .scBeq t e a b off => Sys2Proof.Machine.execScBeq t e a b off s
  | .scBne t e a b off => Sys2Proof.Machine.execScBne t e a b off s
  | .scBlt t e a b off => Sys2Proof.Machine.execScBlt t e a b off s
  | .scBge t e a b off => Sys2Proof.Machine.execScBge t e a b off s
  | .scJmp t e off => Sys2Proof.Machine.execScJmp t e off s
  | .scEnd t e => Sys2Proof.Machine.execScEnd t e s
  | .lpBegin t e a end_ => Sys2Proof.Machine.execLpBegin t e a end_ s
  | .agSet t e a g c w => Sys2Proof.Machine.execAgSet t e a g c w s
  | .semWait t e sem n => Sys2Proof.Machine.execSemWait t e sem n s
  | .semPost t e sem n => Sys2Proof.Machine.execSemPost t e sem n s
  | .semRpost t e sem n a => Sys2Proof.Machine.execSemRpost t e sem n a s
  | .evtSig t e a => Sys2Proof.Machine.execEvtSig t e a s
  | .tlSig t e a b => Sys2Proof.Machine.execTlSig t e a b s
  | .scFence t e => Sys2Proof.Machine.execScFence t e s
  | .postTakesEffect t e => Sys2Proof.Machine.execPostTakesEffect t e s
  | .engineSignalSend t e => Sys2Proof.Machine.execEngineSignalSend t e s
  | .remotePostArrival t => Sys2Proof.Machine.execRemotePostArrival t s
  | .semaphoreWrite by_ t n w => Sys2Proof.Machine.execSemaphoreWrite by_ t n w s
  | .sempostWrite by_ t w => Sys2Proof.Machine.execSempostWrite by_ t w s
  | .mxNop t => Sys2Proof.Machine.execMxNop t s
  | .mxProb t f => Sys2Proof.Machine.execMxProb t f s
  | .mxProbStart t => Sys2Proof.Machine.execMxProbStart t s
  | .mxProbComplete t => Sys2Proof.Machine.execMxProbComplete t s
  | .drNop t => Sys2Proof.Machine.execDrNop t s
  | .drWrite t f => Sys2Proof.Machine.execDrWrite t f s
  | .drWriteStart t => Sys2Proof.Machine.execDrWriteStart t s
  | .drWriteComplete t => Sys2Proof.Machine.execDrWriteComplete t s
  | .extBeatSend t => Sys2Proof.Machine.execExtBeatSend t s
  | .extResultDue t fsel result => Sys2Proof.Machine.execExtResultDue t fsel result s
  | .extStrayResult c => Sys2Proof.Machine.execExtStrayResult c s
  | .vxNop t => Sys2Proof.Machine.execVxNop t s
  | .vxFadd t f => Sys2Proof.Machine.execVxFadd t f s
  | .vxFsub t f => Sys2Proof.Machine.execVxFsub t f s
  | .vxFmul t f => Sys2Proof.Machine.execVxFmul t f s
  | .vxFma t f => Sys2Proof.Machine.execVxFma t f s
  | .vxFms t f => Sys2Proof.Machine.execVxFms t f s
  | .vxFnma t f => Sys2Proof.Machine.execVxFnma t f s
  | .vxScan t f => Sys2Proof.Machine.execVxScan t f s
  | .vxTapmv t f => Sys2Proof.Machine.execVxTapmv t f s
  | .vxMm t f => Sys2Proof.Machine.execVxMm t f s
  | .vxMmbt t f => Sys2Proof.Machine.execVxMmbt t f s
  | .vxMmat t f => Sys2Proof.Machine.execVxMmat t f s
  | .vxChol t f => Sys2Proof.Machine.execVxChol t f s
  | .vxChsv t f => Sys2Proof.Machine.execVxChsv t f s
  | .vxIadd t f => Sys2Proof.Machine.execVxIadd t f s
  | .vxIsub t f => Sys2Proof.Machine.execVxIsub t f s
  | .vxImul t f => Sys2Proof.Machine.execVxImul t f s
  | .vxAnd t f => Sys2Proof.Machine.execVxAnd t f s
  | .vxOr t f => Sys2Proof.Machine.execVxOr t f s
  | .vxXor t f => Sys2Proof.Machine.execVxXor t f s
  | .vxShl t f => Sys2Proof.Machine.execVxShl t f s
  | .vxShr t f => Sys2Proof.Machine.execVxShr t f s
  | .vxSra t f => Sys2Proof.Machine.execVxSra t f s
  | .vxFmin t f => Sys2Proof.Machine.execVxFmin t f s
  | .vxFmax t f => Sys2Proof.Machine.execVxFmax t f s
  | .vxFabs t f => Sys2Proof.Machine.execVxFabs t f s
  | .vxFneg t f => Sys2Proof.Machine.execVxFneg t f s
  | .vxCmp t f => Sys2Proof.Machine.execVxCmp t f s
  | .vxSel t f => Sys2Proof.Machine.execVxSel t f s
  | .vxMov t f => Sys2Proof.Machine.execVxMov t f s
  | .vxBcs t f => Sys2Proof.Machine.execVxBcs t f s
  | .vxBcl t f => Sys2Proof.Machine.execVxBcl t f s
  | .vxPerm t f => Sys2Proof.Machine.execVxPerm t f s
  | .vxGetl t f => Sys2Proof.Machine.execVxGetl t f s
  | .vxLidx t f => Sys2Proof.Machine.execVxLidx t f s
  | .vxCvt t f => Sys2Proof.Machine.execVxCvt t f s
  | .vxPlog t f => Sys2Proof.Machine.execVxPlog t f s
  | .vxRsum t f => Sys2Proof.Machine.execVxRsum t f s
  | .vxRsuma t f => Sys2Proof.Machine.execVxRsuma t f s
  | .vxRmax t f => Sys2Proof.Machine.execVxRmax t f s
  | .vxRmin t f => Sys2Proof.Machine.execVxRmin t f s
  | .vxExp t f => Sys2Proof.Machine.execVxExp t f s
  | .vxExp2 t f => Sys2Proof.Machine.execVxExp2 t f s
  | .vxLog t f => Sys2Proof.Machine.execVxLog t f s
  | .vxLog2 t f => Sys2Proof.Machine.execVxLog2 t f s
  | .vxRcp t f => Sys2Proof.Machine.execVxRcp t f s
  | .vxRsq t f => Sys2Proof.Machine.execVxRsq t f s
  | .vxSqrt t f => Sys2Proof.Machine.execVxSqrt t f s
  | .vxDiv t f => Sys2Proof.Machine.execVxDiv t f s
  | .vxTanh t f => Sys2Proof.Machine.execVxTanh t f s
  | .vxSigm t f => Sys2Proof.Machine.execVxSigm t f s
  | .vxSin t f => Sys2Proof.Machine.execVxSin t f s
  | .vxCos t f => Sys2Proof.Machine.execVxCos t f s
  | .vxLd t f => Sys2Proof.Machine.execVxLd t f s
  | .vxLdl t f => Sys2Proof.Machine.execVxLdl t f s
  | .vxLdu t f => Sys2Proof.Machine.execVxLdu t f s
  | .vxGath t f => Sys2Proof.Machine.execVxGath t f s
  | .vxSt t f => Sys2Proof.Machine.execVxSt t f s
  | .vxStl t f => Sys2Proof.Machine.execVxStl t f s
  | .vxStu t f => Sys2Proof.Machine.execVxStu t f s
  | .vxScat t f => Sys2Proof.Machine.execVxScat t f s
  | .spownWrite by_ t w => Sys2Proof.Machine.execSpownWrite by_ t w s
  | .quarantineClear t => Sys2Proof.Machine.execQuarantineClear t s
  | .phasecntClear by_ t => Sys2Proof.Machine.execPhasecntClear by_ t s
  | .spconfClear by_ t => Sys2Proof.Machine.execSpconfClear by_ t s
  | .movNop t => Sys2Proof.Machine.execMovNop t s
  | .movIssue t f => Sys2Proof.Machine.execMovIssue t f s
  | .movDrain t sigEn sem => Sys2Proof.Machine.execMovDrain t sigEn sem s
  | .movCtrlArm by_ t w => Sys2Proof.Machine.execMovCtrlArm by_ t w s
  | .streamStart t q => Sys2Proof.Machine.execStreamStart t q s
  | .transferAdmit t q x => Sys2Proof.Machine.execTransferAdmit t q x s
  | .transferRetire t q r => Sys2Proof.Machine.execTransferRetire t q r s
  | .transferRefused t q x => Sys2Proof.Machine.execTransferRefused t q x s
  | .moverStopRecord t q => Sys2Proof.Machine.execMoverStopRecord t q s
  | .prgResponse by_ index success => Sys2Proof.Machine.execPrgResponse by_ index success s
  | .moverStopResume by_ t q => Sys2Proof.Machine.execMoverStopResume by_ t q s
  | .moverStopFault by_ t q code => Sys2Proof.Machine.execMoverStopFault by_ t q code s
  | .moverStopcntClear by_ t => Sys2Proof.Machine.execMoverStopcntClear by_ t s
  | .queueCfgWrite by_ t q w => Sys2Proof.Machine.execQueueCfgWrite by_ t q w s
  | .overrunCountClear by_ t d => Sys2Proof.Machine.execOverrunCountClear by_ t d s
  | .rotationDeparture t k => Sys2Proof.Machine.execRotationDeparture t k s
  | .rotationHopComplete t k => Sys2Proof.Machine.execRotationHopComplete t k s
  | .realignStart by_ t w => Sys2Proof.Machine.execRealignStart by_ t w s
  | .realignDone t k => Sys2Proof.Machine.execRealignDone t k s
  | .haloSend t h => Sys2Proof.Machine.execHaloSend t h s
  | .haloSendComplete t h => Sys2Proof.Machine.execHaloSendComplete t h s
  | .portDomainUp p => Sys2Proof.Machine.execPortDomainUp p s
  | .vulCtlEnableWrite by_ p w => Sys2Proof.Machine.execVulCtlEnableWrite by_ p w s
  | .vulRetrain by_ p => Sys2Proof.Machine.execVulRetrain by_ p s
  | .linkTrainingComplete p tr => Sys2Proof.Machine.execLinkTrainingComplete p tr s
  | .trainingTimeout p => Sys2Proof.Machine.execTrainingTimeout p s
  | .keyingComplete p peer => Sys2Proof.Machine.execKeyingComplete p peer s
  | .keyingTimeout p => Sys2Proof.Machine.execKeyingTimeout p s
  | .culvertClose axis => Sys2Proof.Machine.execCulvertClose axis s
  | .portLeave p => Sys2Proof.Machine.execPortLeave p s
  | .laneLockLoss p => Sys2Proof.Machine.execLaneLockLoss p s
  | .peerLostTimeout p => Sys2Proof.Machine.execPeerLostTimeout p s
  | .flitReceive p f => Sys2Proof.Machine.execFlitReceive p f s
  | .flitData p f => Sys2Proof.Machine.execFlitData p f s
  | .flitIdle p f => Sys2Proof.Machine.execFlitIdle p f s
  | .flitLeave p f => Sys2Proof.Machine.execFlitLeave p f s
  | .flitKey p f => Sys2Proof.Machine.execFlitKey p f s
  | .keyEpochAdvance p => Sys2Proof.Machine.execKeyEpochAdvance p s
  | .msgWrite p vc => Sys2Proof.Machine.execMsgWrite p vc s
  | .msgRead p vc => Sys2Proof.Machine.execMsgRead p vc s
  | .msgSignal p vc => Sys2Proof.Machine.execMsgSignal p vc s
  | .msgAck p vc => Sys2Proof.Machine.execMsgAck p vc s
  | .msgReadData p vc => Sys2Proof.Machine.execMsgReadData p vc s
  | .msgNack p vc => Sys2Proof.Machine.execMsgNack p vc s
  | .msgTime p => Sys2Proof.Machine.execMsgTime p s
  | .msgStop p => Sys2Proof.Machine.execMsgStop p s
  | .vulorRequestTimeout tag => Sys2Proof.Machine.execVulorRequestTimeout tag s
  | .timeMessagePeriod p => Sys2Proof.Machine.execTimeMessagePeriod p s
  | .vulorCounterClear by_ p => Sys2Proof.Machine.execVulorCounterClear by_ p s
  | .canalCounterClear by_ n => Sys2Proof.Machine.execCanalCounterClear by_ n s
  | .ingressBeat q b => Sys2Proof.Machine.execIngressBeat q b s
  | .returnBeatTaken q => Sys2Proof.Machine.execReturnBeatTaken q s
  | .fabricDoorbell c o => Sys2Proof.Machine.execFabricDoorbell c o s
  | .gsrAssert => Sys2Proof.Machine.execGsrAssert s
  | .gsrDeassert => Sys2Proof.Machine.execGsrDeassert s
  | .gsrHoldExpiry => Sys2Proof.Machine.execGsrHoldExpiry s
  | .probeSend c fsel => Sys2Proof.Machine.execProbeSend c fsel s
  | .probeResultDue c fsel valid => Sys2Proof.Machine.execProbeResultDue c fsel valid s
  | .fabricCounterClear by_ => Sys2Proof.Machine.execFabricCounterClear by_ s
  | .bar2Access by_ addr op => Sys2Proof.Machine.execBar2Access by_ addr op s
  | .flrVf p => Sys2Proof.Machine.execFlrVf p s
  | .flrPf => Sys2Proof.Machine.execFlrPf s
  | .perst => Sys2Proof.Machine.execPerst s
  | .atsInvalidate pasid base size => Sys2Proof.Machine.execAtsInvalidate pasid base size s
  | .versionRequestFa1 by_ p => Sys2Proof.Machine.execVersionRequestFa1 by_ p s
  | .versionRequestFa2 by_ p => Sys2Proof.Machine.execVersionRequestFa2 by_ p s
  | .versionRequestReserved by_ p => Sys2Proof.Machine.execVersionRequestReserved by_ p s
  | .contextCreate by_ p => Sys2Proof.Machine.execContextCreate by_ p s
  | .contextDestroy by_ p c => Sys2Proof.Machine.execContextDestroy by_ p c s
  | .contextBecomesFree p c => Sys2Proof.Machine.execContextBecomesFree p c s
  | .queueCreate by_ p => Sys2Proof.Machine.execQueueCreate by_ p s
  | .queueDestroy by_ p q => Sys2Proof.Machine.execQueueDestroy by_ p q s
  | .objectCreate by_ p => Sys2Proof.Machine.execObjectCreate by_ p s
  | .objectFree by_ p => Sys2Proof.Machine.execObjectFree by_ p s
  | .objectQuery by_ p => Sys2Proof.Machine.execObjectQuery by_ p s
  | .objectRelease p idx => Sys2Proof.Machine.execObjectRelease p idx s
  | .eventCreate by_ p owner => Sys2Proof.Machine.execEventCreate by_ p owner s
  | .eventDestroy by_ p => Sys2Proof.Machine.execEventDestroy by_ p s
  | .eventReset by_ p => Sys2Proof.Machine.execEventReset by_ p s
  | .eventSignal by_ p => Sys2Proof.Machine.execEventSignal by_ p s
  | .eventQuery by_ p => Sys2Proof.Machine.execEventQuery by_ p s
  | .timelineSignal by_ p => Sys2Proof.Machine.execTimelineSignal by_ p s
  | .waiterArm by_ p slot tl => Sys2Proof.Machine.execWaiterArm by_ p slot tl s
  | .waiterDisarm by_ p slot => Sys2Proof.Machine.execWaiterDisarm by_ p slot s
  | .waiterFire p slot => Sys2Proof.Machine.execWaiterFire p slot s
  | .queueSubmit by_ p q tail => Sys2Proof.Machine.execQueueSubmit by_ p q tail s
  | .commandFetch p q r => Sys2Proof.Machine.execCommandFetch p q r s
  | .cmdNop p q => Sys2Proof.Machine.execCmdNop p q s
  | .cmdLaunch p q args => Sys2Proof.Machine.execCmdLaunch p q args s
  | .launchEngineStart p q => Sys2Proof.Machine.execLaunchEngineStart p q s
  | .launchComplete p q => Sys2Proof.Machine.execLaunchComplete p q s
  | .launchWatchdog p q => Sys2Proof.Machine.execLaunchWatchdog p q s
  | .commandSignalApply p q => Sys2Proof.Machine.execCommandSignalApply p q s
  | .noticeRecordWrite p c => Sys2Proof.Machine.execNoticeRecordWrite p c s
  | .noticeReadUpdate by_ p c w => Sys2Proof.Machine.execNoticeReadUpdate by_ p c w s
  | .intDoorbellWrite by_ c w => Sys2Proof.Machine.execIntDoorbellWrite by_ c w s
  | .intEnableSet by_ c n w => Sys2Proof.Machine.execIntEnableSet by_ c n w s
  | .intEnableClear by_ c n w => Sys2Proof.Machine.execIntEnableClear by_ c n w s
  | .intPendingSet by_ c n w => Sys2Proof.Machine.execIntPendingSet by_ c n w s
  | .intPendingClear by_ c n w => Sys2Proof.Machine.execIntPendingClear by_ c n w s
  | .intStatClear by_ c => Sys2Proof.Machine.execIntStatClear by_ c s
  | .timecmpWrite c hi w => Sys2Proof.Machine.execTimecmpWrite c hi w s
  | .timerCompareMatch c => Sys2Proof.Machine.execTimerCompareMatch c s
  | .moderationTimeout c g => Sys2Proof.Machine.execModerationTimeout c g s
  | .interruptClaim c b => Sys2Proof.Machine.execInterruptClaim c b s
  | .mret c => Sys2Proof.Machine.execMret c s
  | .errorRecordPop by_ c => Sys2Proof.Machine.execErrorRecordPop by_ c s
  | .errorLostcntClear by_ c => Sys2Proof.Machine.execErrorLostcntClear by_ c s
  | .coreAccessFault c k addr pc => Sys2Proof.Machine.execCoreAccessFault c k addr pc s
  | .coreMemoryExternalWrite by_ c off w => Sys2Proof.Machine.execCoreMemoryExternalWrite by_ c off w s
  | .powerOn => Sys2Proof.Machine.execPowerOn s
  | .resetNLow => Sys2Proof.Machine.execResetNLow s
  | .devresetWrite by_ w => Sys2Proof.Machine.execDevresetWrite by_ w s
  | .bootStart b => Sys2Proof.Machine.execBootStart b s
  | .doneLineRise => Sys2Proof.Machine.execDoneLineRise s
  | .doneReleaseWrite by_ => Sys2Proof.Machine.execDoneReleaseWrite by_ s
  | .linkskipClear by_ w => Sys2Proof.Machine.execLinkskipClear by_ w s
  | .bootCountersClear by_ => Sys2Proof.Machine.execBootCountersClear by_ s
  | .spdmGetVersion => Sys2Proof.Machine.execSpdmGetVersion s
  | .spdmGetCapabilities => Sys2Proof.Machine.execSpdmGetCapabilities s
  | .spdmNegotiateAlgorithms => Sys2Proof.Machine.execSpdmNegotiateAlgorithms s
  | .spdmGetDigests => Sys2Proof.Machine.execSpdmGetDigests s
  | .spdmGetCertificate offset len => Sys2Proof.Machine.execSpdmGetCertificate offset len s
  | .spdmChallenge nonce => Sys2Proof.Machine.execSpdmChallenge nonce s
  | .spdmGetMeasurements index => Sys2Proof.Machine.execSpdmGetMeasurements index s
  | .spdmKeyExchange exchange => Sys2Proof.Machine.execSpdmKeyExchange exchange s
  | .spdmFinish verified => Sys2Proof.Machine.execSpdmFinish verified s
  | .spdmHeartbeat => Sys2Proof.Machine.execSpdmHeartbeat s
  | .spdmKeyUpdate => Sys2Proof.Machine.execSpdmKeyUpdate s
  | .spdmEndSession => Sys2Proof.Machine.execSpdmEndSession s
  | .ideKmRequest stream key => Sys2Proof.Machine.execIdeKmRequest stream key s
  | .fuseProvision w counter => Sys2Proof.Machine.execFuseProvision w counter s
  | .attestationRequest by_ p => Sys2Proof.Machine.execAttestationRequest by_ p s
  | .attestationReportDone p => Sys2Proof.Machine.execAttestationReportDone p s
  | .dmiAccess op => Sys2Proof.Machine.execDmiAccess op s
  | .partitionReset by_ w => Sys2Proof.Machine.execPartitionReset by_ w s
  | .domainQuietEntry d => Sys2Proof.Machine.execDomainQuietEntry d s
  | .domainIdleTimeout d quietUs => Sys2Proof.Machine.execDomainIdleTimeout d quietUs s
  | .cwakeTimeReached d => Sys2Proof.Machine.execCwakeTimeReached d s
  | .domainWakeStart d => Sys2Proof.Machine.execDomainWakeStart d s
  | .domainWakeComplete d reloadOk => Sys2Proof.Machine.execDomainWakeComplete d reloadOk s
  | .closingComplete d => Sys2Proof.Machine.execClosingComplete d s
  | .lowStateEntryComplete d => Sys2Proof.Machine.execLowStateEntryComplete d s
  | .cisternIdleTimeout e => Sys2Proof.Machine.execCisternIdleTimeout e s
  | .powerRequestWake by_ dom => Sys2Proof.Machine.execPowerRequestWake by_ dom s
  | .powerRequestToState by_ dom target => Sys2Proof.Machine.execPowerRequestToState by_ dom target s
  | .partitionWakeWrite by_ p w => Sys2Proof.Machine.execPartitionWakeWrite by_ p w s
  | .governorSample watts watts1ms => Sys2Proof.Machine.execGovernorSample watts watts1ms s
  | .capWrite by_ w => Sys2Proof.Machine.execCapWrite by_ w s
  | .junctionThrottle temp => Sys2Proof.Machine.execJunctionThrottle temp s
  | .junctionHot temp => Sys2Proof.Machine.execJunctionHot temp s
  | .thermalTrip temp => Sys2Proof.Machine.execThermalTrip temp s
  | .hbmStackThrottle n temp => Sys2Proof.Machine.execHbmStackThrottle n temp s
  | .hbmRefreshDouble n temp => Sys2Proof.Machine.execHbmRefreshDouble n temp s
  | .weevilPassStart t => Sys2Proof.Machine.execWeevilPassStart t s
  | .weevilScrubAccess t find => Sys2Proof.Machine.execWeevilScrubAccess t find s
  | .weevilPassEnd t => Sys2Proof.Machine.execWeevilPassEnd t s
  | .scrubFault t why => Sys2Proof.Machine.execScrubFault t why s
  | .weevilReload t ok => Sys2Proof.Machine.execWeevilReload t ok s
  | .hbmPatrolScrub n addr find => Sys2Proof.Machine.execHbmPatrolScrub n addr find s
  | .tileEccClear by_ t => Sys2Proof.Machine.execTileEccClear by_ t s
  | .colonyEccClear by_ c => Sys2Proof.Machine.execColonyEccClear by_ c s
  | .hbmEccClear by_ => Sys2Proof.Machine.execHbmEccClear by_ s
  | .lightCounterSample energy => Sys2Proof.Machine.execLightCounterSample energy s
  | .windowMark by_ t => Sys2Proof.Machine.execWindowMark by_ t s
  | .windowEnd by_ t => Sys2Proof.Machine.execWindowEnd by_ t s
  | .tracePacketSend t => Sys2Proof.Machine.execTracePacketSend t s
  | .traceRingWrite p => Sys2Proof.Machine.execTraceRingWrite p s
  | .traceReadUpdate by_ p w => Sys2Proof.Machine.execTraceReadUpdate by_ p w s
  | .traceLostClear by_ p => Sys2Proof.Machine.execTraceLostClear by_ p s
  | .tileTraceLostClear by_ t => Sys2Proof.Machine.execTileTraceLostClear by_ t s
  | .fireflyBeacon => Sys2Proof.Machine.execFireflyBeacon s
  | .engineRelease by_ t m => Sys2Proof.Machine.execEngineRelease by_ t m s
  | .engineStep by_ t m => Sys2Proof.Machine.execEngineStep by_ t m s
  | .coreTriggerHit c => Sys2Proof.Machine.execCoreTriggerHit c s
  | .tapRegacc write addr data => Sys2Proof.Machine.execTapRegacc write addr data s
  | .globalStopGo by_ w => Sys2Proof.Machine.execGlobalStopGo by_ w s
  | .stopMarkerArrival t => Sys2Proof.Machine.execStopMarkerArrival t s
  | .vulorStopSend => Sys2Proof.Machine.execVulorStopSend s
  | .moltVwaitExpiry => Sys2Proof.Machine.execMoltVwaitExpiry s
  | .moltSnapshotWrite => Sys2Proof.Machine.execMoltSnapshotWrite s
  | .globalStopRelease by_ => Sys2Proof.Machine.execGlobalStopRelease by_ s
  | .partitionResetComplete p => Sys2Proof.Machine.execPartitionResetComplete p s
  | .lowWordRead by_ l => Sys2Proof.Machine.execLowWordRead by_ l s

end Sys2Proof.Machine
end

