-- ==== Sys2Proof/Machine/Tick.lean ====
section
/-!
DEFINITION. One idle step: an edge of the always-on clock (R438), and what no command carries: the local copies of the time stamp (R438), errors of
memories and registers that ordinary reads find (R420 to R425), progress of what is under way (R201, R228, R442), and the IDLE flits of the ports.
-/
namespace Sys2Proof.Machine

/-- R358: headgate work of a partition, and an HBM controller, raise sources at head cores, and no rule says when: at an edge in normal service one
of these sources, or none, is raised, as a free value says. (log 128, DESIGN CHOICE) -/
def State.openSource (s : State) : State :=
  if s.chitin.st ≠ 1 then s else
  let x := s.draw (2 ^ 58)
  let p : PartId := BitVec.ofNat 6 x
  let s := s.drawn
  if x < 64 then (if (s.partAt p).loaded then s.raise (headCore (s.partDie p)) (64 + x) else s)
  else if x < 72 ∧ Config.stacks.getLsbD (x - 64) then s.raise (headCore (dieOfStack (x - 64))) (24 + (x - 64))
  else s

/-! ## Local copies of the time stamp (R438) -/

/-- R438: after an edge a copy that is not ahead is equal to the always-on count, and counts on from its fast clock: what it shows in the period is
free. One that is still ahead holds its value. (log 141, DESIGN CHOICE) -/
def State.copyRuns (s : State) (q : Nat) : State :=
  if look (fun _ => 0) s.copies q = 0 then s.setCopy q (s.draw (2 ^ 60 + q) % 80) else s

/-- Numbers of the tiles that have an engine or operations. -/
def State.unitTiles (s : State) : List Nat :=
  ((s.tile.map fun (e : Nat × Tile) => e.1) ++ s.eng.map fun (e : Nat × Eng) => e.1 / 4).eraseDups

/-- The copies of the spines, and of the tiles that have an engine or operations and whose clock runs. -/
def State.copyUnits (s : State) : List Nat :=
  List.range 4 ++ (s.unitTiles.filter fun t => s.runs (BitVec.ofNat 12 t)).map fun t => 4 + t

/-! ## Errors that ordinary reads find (R420 to R425) -/

/-- What can be found in an edge's period: a place in a memory, and whether it is corrected; a register's parity error. -/
inductive SoftErr
  | spad (unc : Bool) | acc (unc : Bool) | cis (unc : Bool) | hbm (unc : Bool) | imem (unc : Bool) | vreg (unc : Bool)
  | parity | core | head | chitin
  deriving DecidableEq, Repr

/-- The free value's outcome: for most of them nothing. -/
def softErr (x : Nat) : Option SoftErr :=
  match x % 2 ^ 20 with
  | 0 => some (.spad false) | 1 => some (.spad true) | 2 => some (.acc false) | 3 => some (.acc true)
  | 4 => some (.cis false) | 5 => some (.cis true) | 6 => some (.hbm false) | 7 => some (.hbm true)
  | 8 => some (.imem false) | 9 => some (.imem true) | 10 => some (.vreg false) | 11 => some (.vreg true)
  | 12 => some .parity | 13 => some .core | 14 => some .head | 15 => some .chitin
  | _ => none

/-- An error of a tile's own memories: tile `t`, place `a`, syndrome `y`, bank or lane `w`. -/
def State.tileSoft (s : State) (t : TileId) (a : Nat) (y : BitVec 16) (w : Byte) (e : SoftErr) : State :=
  let f := fun (unc : Bool) => if unc then ScrubFind.uncorrectable y w else ScrubFind.corrected y w
  match e with
  | .spad unc =>
    let l := a / 16 % 4096
    if !s.memsUp t then s else s.wvFind t (f unc) 0x1E40 .spad (64 * l + 4 * (a % 16)) (s.spadP t l) fun s => s.markSpad t l true
  | .acc unc =>
    let i := a % 16384
    if !s.memsUp t then s else s.wvFind t (f unc) 0x1E44 .acc i (s.accP t i) fun s => s.markAcc t i true
  | .cis unc =>
    let sl := a % 64; let l := a / 64 % 1088
    if !s.serves (domCis t) then s
    else s.wvFind t (f unc) 0x1E48 .cis (cisRecAddr sl l) (s.cisP t (cisLine sl l)) fun s => s.markCis t (cisLine sl l) true
  | .imem unc =>
    let e : EngId := BitVec.ofNat 2 a; let b := decide (a / 4 % 2 = 1); let i := a / 8 % 4096
    if !s.memsUp t ∨ s.imemP t e b i then s
    else if unc then s.setImemP t e b i true
    else s.wvErr t 0x1E4C false .imem (e.toNat * 8192 + nat01 b * 4096 + i) y w
  | .vreg unc =>
    let r := a % 32; let l := a / 32 % 32
    if !s.memsUp t then s
    else s.wvFind t (f unc) 0x1E4C .regs (128 * r + 4 * l) (s.vregP t r l) fun s => s.setVregP t r l true
  | .parity =>
    let e : EngId := BitVec.ofNat 2 a
    if !s.memsUp t ∨ (s.engAt t e).st = .idle then s else s.setEng t e { s.engAt t e with parity := true }
  | _ => s

/-- R420 to R425: in normal service a read between two commands finds an error, or none, as free values say: which memory, where, and whether it
is corrected. An uncorrectable instruction word and a register's parity error stop the engine at its word. (log 96, DESIGN CHOICE) -/
def State.softErrs (s : State) : State :=
  if s.chitin.st ≠ 1 then s else
  let v := fun (k : Nat) => s.draw (2 ^ 59 + k)
  let t : TileId := BitVec.ofNat 12 (v 1); let c : ColId := BitVec.ofNat 8 (v 1); let a := v 2
  let y : BitVec 16 := BitVec.ofNat 16 (v 3); let w : Byte := BitVec.ofNat 8 (v 4)
  (match softErr (v 0) with
  | none => s
  | some (.hbm unc) => s.patrol (stackOf a) a (if unc then .uncorrectable y w else .corrected y w)
  | some .core =>
    if (s.coreAt (coreOfCol c)).inReset then s
    else (s.incReg (colBase c + 0x1D000) 15 0 1).errHead (dieOfCol c) (s.unitErr (s.partOfCol c) 1 .core 1 (a % 98304) y.toNat 0)
  | some .head => s.errHead (v 1 % 4) (s.unitErr none 1 .head 1 a 0 0)
  | some .chitin => s.errHead 0 (s.unitErr none 5 .chitin 2 (a % 524288) y.toNat 0)
  | some e => if (s.partOf t).isSome then s.tileSoft t a y w e else s).drawn

/-! ## Progress of what is under way -/

/-- R201: requests that a bank does not grant in its cycle; how many cycles they wait, at a tile where accesses are under way, is free.
(log 60, DESIGN CHOICE) -/
def State.deferAt (s : State) (t : TileId) : State :=
  let tl := s.tileAt t
  if !s.runs t ∨ (tl.mxq.isEmpty ∧ tl.drq.isEmpty ∧ tl.wei.isEmpty) then s
  else s.incReg (tileBase t + 0x1E10) 15 0 (s.draw (2 ^ 63 + t.toNat) % 1024)

/-- R228, R442: what is under way goes on: rows of problems pass, requests wait for their banks, transfers complete early. -/
def State.progress (s : State) : State :=
  let l := s.tile.map fun e => (BitVec.ofNat 12 e.1 : TileId)
  let s := (each s l fun s t => (s.mxPass t).deferAt t).drawn
  each s ((s.movq.filter fun e => !e.2.inflight.isEmpty).map (·.1)) fun s q => s.earlyXfers (BitVec.ofNat 12 (q / 4)) (q % 4)

/-- One edge of the always-on clock: what a step does when no command waits (log 1, DESIGN CHOICE). Each ACTIVE port sends an IDLE flit in it.
(log 125, DESIGN CHOICE) -/
def State.tick (s : State) : State :=
  let s := s.elapse 1
  let s := (each s s.copyUnits fun s q => s.copyRuns q).drawn
  each s.openSource.softErrs.progress (allPorts.filter fun p => decide ((s.portAt p).st = .active)) fun s p => s.sendIdle p

end Sys2Proof.Machine
end

