-- ==== Sys2Proof/Machine/Encode.lean ====
section
/-!
DEFINITION. The words of the engines' instructions, written from the spec's encoding tables (R118 to R120, R123, Tables 5-3, 5-5, 6-2, 6-5,
7-2 to 7-5, 9-3, 4-7): for each instruction of a slot, the word whose one present slot holds it. No command's meaning uses them; they say what
`State.issueNext` must read from instruction memory.
-/
namespace Sys2Proof.Machine

/-- Format R of Table 5-5. -/
def scR3 (op : Byte) (d a b : BitVec 4) : BitVec 32 := (0 : BitVec 12) ++ b ++ a ++ d ++ op
/-- Format I. -/
def scI (op : Byte) (d a : BitVec 4) (imm : W16) : BitVec 32 := imm ++ a ++ d ++ op
/-- Format L. -/
def scL (op : Byte) (d : BitVec 4) (imm : BitVec 20) : BitVec 32 := imm ++ d ++ op
/-- Semaphore instructions. -/
def scS (op : Byte) (sem : SemId) (n : Byte) (a : BitVec 4) : BitVec 32 := (0 : BitVec 8) ++ a ++ n ++ sem ++ op

/-- The 32 bits of a scalar instruction (Table 5-5); none for another command. -/
def scalarBits : Instr → Option (TileId × EngId × BitVec 32)
  | .scNop t e => some (t, e, 0)
  | .scAdd t e d a b => some (t, e, scR3 0x01 d a b)
  | .scSub t e d a b => some (t, e, scR3 0x02 d a b)
  | .scAnd t e d a b => some (t, e, scR3 0x03 d a b)
  | .scOr t e d a b => some (t, e, scR3 0x04 d a b)
  | .scXor t e d a b => some (t, e, scR3 0x05 d a b)
  | .scSll t e d a b => some (t, e, scR3 0x06 d a b)
  | .scSrl t e d a b => some (t, e, scR3 0x07 d a b)
  | .scSra t e d a b => some (t, e, scR3 0x08 d a b)
  | .scSlt t e d a b => some (t, e, scR3 0x09 d a b)
  | .scSltu t e d a b => some (t, e, scR3 0x0A d a b)
  | .scMul t e d a b => some (t, e, scR3 0x0B d a b)
  | .scAddi t e d a imm => some (t, e, scI 0x10 d a imm)
  | .scAndi t e d a imm => some (t, e, scI 0x11 d a imm)
  | .scLi t e d imm => some (t, e, scL 0x12 d imm)
  | .scLih t e d imm => some (t, e, scL 0x13 d imm)
  | .scLw t e d a imm => some (t, e, scI 0x14 d a imm)
  | .scSw t e d a imm => some (t, e, scI 0x15 d a imm)
  | .scRdix t e d depth => some (t, e, (0 : BitVec 14) ++ depth ++ (0 : BitVec 4) ++ d ++ (0x16 : Byte))
  | .scBeq t e a b off => some (t, e, scI 0x18 a b off)
  | .scBne t e a b off => some (t, e, scI 0x19 a b off)
  | .scBlt t e a b off => some (t, e, scI 0x1A a b off)
  | .scBge t e a b off => some (t, e, scI 0x1B a b off)
  | .scJmp t e off => some (t, e, scI 0x1C 0 0 off)
  | .scEnd t e => some (t, e, 0x1F)
  | .lpBegin t e a last => some (t, e, (0 : BitVec 7) ++ last ++ a ++ (0x20 : Byte))
  | .agSet t e a g c w => some (t, e, (0 : BitVec 12) ++ w ++ c ++ g ++ a ++ (0x28 : Byte))
  | .semWait t e sem n => some (t, e, scS 0x30 sem n 0)
  | .semPost t e sem n => some (t, e, scS 0x31 sem n 0)
  | .semRpost t e sem n a => some (t, e, scS 0x32 sem n a)
  | .evtSig t e a => some (t, e, scR3 0x38 0 a 0)
  | .tlSig t e a b => some (t, e, scR3 0x39 0 a b)
  | .scFence t e => some (t, e, 0x3F)
  | _ => none

/-- Table 7-2, format V. -/
def vBits (op : BitVec 7) (f : VxV) : BitVec 32 := f.pk ++ f.p ++ f.vc ++ f.vb ++ f.va ++ f.vd ++ op
/-- Format C. -/
def cBits (op : BitVec 7) (f : VxC) : BitVec 32 := (0 : BitVec 1) ++ f.p ++ f.nc ++ f.dst ++ f.src ++ f.va ++ f.vd ++ op
/-- Format M. -/
def mBits (op : BitVec 6) (f : VxM) : BitVec 32 := f.line ++ f.p ++ f.cb ++ f.ag ++ f.v ++ op
/-- Format G. -/
def gBits (op : BitVec 6) (f : VxG) : BitVec 32 := f.line ++ (0 : BitVec 1) ++ f.p ++ f.vi ++ f.v ++ op

/-- A VXE instruction: its tile, its slot (0 LD, 1 ST, 2 VA, 3 VB) and its 32 bits (Tables 7-3 to 7-5). -/
def vectorBits : Instr → Option (TileId × Nat × BitVec 32)
  | .vxFadd t f => some (t, 2, vBits 0x01 f)
  | .vxFsub t f => some (t, 2, vBits 0x02 f)
  | .vxFmul t f => some (t, 2, vBits 0x03 f)
  | .vxFma t f => some (t, 2, vBits 0x04 f)
  | .vxFms t f => some (t, 2, vBits 0x05 f)
  | .vxFnma t f => some (t, 2, vBits 0x06 f)
  | .vxScan t f => some (t, 2, vBits 0x08 f)
  | .vxTapmv t f => some (t, 2, vBits 0x09 f)
  | .vxMm t f => some (t, 2, vBits 0x10 f)
  | .vxMmbt t f => some (t, 2, vBits 0x11 f)
  | .vxMmat t f => some (t, 2, vBits 0x12 f)
  | .vxChol t f => some (t, 2, vBits 0x13 f)
  | .vxChsv t f => some (t, 2, vBits 0x14 f)
  | .vxIadd t f => some (t, 3, vBits 0x01 f)
  | .vxIsub t f => some (t, 3, vBits 0x02 f)
  | .vxImul t f => some (t, 3, vBits 0x03 f)
  | .vxAnd t f => some (t, 3, vBits 0x04 f)
  | .vxOr t f => some (t, 3, vBits 0x05 f)
  | .vxXor t f => some (t, 3, vBits 0x06 f)
  | .vxShl t f => some (t, 3, vBits 0x07 f)
  | .vxShr t f => some (t, 3, vBits 0x08 f)
  | .vxSra t f => some (t, 3, vBits 0x09 f)
  | .vxFmin t f => some (t, 3, vBits 0x0C f)
  | .vxFmax t f => some (t, 3, vBits 0x0D f)
  | .vxFabs t f => some (t, 3, vBits 0x0E f)
  | .vxFneg t f => some (t, 3, vBits 0x0F f)
  | .vxCmp t f => some (t, 3, vBits 0x10 f)
  | .vxSel t f => some (t, 3, vBits 0x11 f)
  | .vxMov t f => some (t, 3, vBits 0x12 f)
  | .vxBcs t f => some (t, 3, vBits 0x13 f)
  | .vxBcl t f => some (t, 3, vBits 0x14 f)
  | .vxPerm t f => some (t, 3, vBits 0x15 f)
  | .vxGetl t f => some (t, 3, vBits 0x16 f)
  | .vxLidx t f => some (t, 3, vBits 0x17 f)
  | .vxCvt t f => some (t, 3, cBits 0x18 f)
  | .vxPlog t f => some (t, 3, vBits 0x19 f)
  | .vxRsum t f => some (t, 3, vBits 0x20 f)
  | .vxRsuma t f => some (t, 3, vBits 0x21 f)
  | .vxRmax t f => some (t, 3, vBits 0x22 f)
  | .vxRmin t f => some (t, 3, vBits 0x23 f)
  | .vxExp t f => some (t, 3, vBits 0x28 f)
  | .vxExp2 t f => some (t, 3, vBits 0x29 f)
  | .vxLog t f => some (t, 3, vBits 0x2A f)
  | .vxLog2 t f => some (t, 3, vBits 0x2B f)
  | .vxRcp t f => some (t, 3, vBits 0x2C f)
  | .vxRsq t f => some (t, 3, vBits 0x2D f)
  | .vxSqrt t f => some (t, 3, vBits 0x2E f)
  | .vxDiv t f => some (t, 3, vBits 0x2F f)
  | .vxTanh t f => some (t, 3, vBits 0x30 f)
  | .vxSigm t f => some (t, 3, vBits 0x31 f)
  | .vxSin t f => some (t, 3, vBits 0x32 f)
  | .vxCos t f => some (t, 3, vBits 0x33 f)
  | .vxLd t f => some (t, 0, mBits 1 f)
  | .vxLdl t f => some (t, 0, mBits 2 f)
  | .vxLdu t f => some (t, 0, mBits 3 f)
  | .vxGath t f => some (t, 0, gBits 4 f)
  | .vxSt t f => some (t, 1, mBits 1 f)
  | .vxStl t f => some (t, 1, mBits 2 f)
  | .vxStu t f => some (t, 1, mBits 3 f)
  | .vxScat t f => some (t, 1, gBits 4 f)
  | _ => none

/-- Table 6-2: MX.PROB. -/
def mxBits (f : MxF) : BitVec 128 :=
  (0 : BitVec 26) ++ f.c ++ f.b ++ f.a ++ f.ktM1 ++ f.nM1 ++ f.rm ++ f.mM1 ++ (0 : BitVec 1) ++ f.pset ++ f.ag ++ f.sem
    ++ BitVec.ofBool f.sigEn ++ BitVec.ofBool f.msk ++ BitVec.ofBool f.acc ++ BitVec.ofBool f.vb ++ BitVec.ofBool f.va ++ f.fb ++ f.fa ++ (1 : Byte)
/-- Table 6-5: DR.WRITE. -/
def drBits (f : DrF) : BitVec 64 :=
  (0 : BitVec 6) ++ f.rm ++ f.dst ++ f.c ++ BitVec.ofBool f.ityp ++ BitVec.ofBool f.clr ++ f.dset ++ f.ag ++ f.sem ++ BitVec.ofBool f.sigEn
    ++ BitVec.ofBool f.msk ++ BitVec.ofBool f.hws ++ f.chain ++ BitVec.ofBool f.ovar ++ f.ofmt ++ f.nc ++ (1 : Byte)
/-- Table 9-3: MOV.ISSUE. -/
def issueBits (f : IssueF) : BitVec 64 :=
  (0 : BitVec 27) ++ f.rm ++ BitVec.ofBool f.rsig ++ f.sem ++ BitVec.ofBool f.sigEn ++ f.ag ++ f.line ++ (0 : BitVec 1) ++ f.desc ++ (1 : Byte)
/-- Table 9-3: MOV.DRAIN. -/
def drainBits (sigEn : Bool) (sem : SemId) : BitVec 64 := (0 : BitVec 32) ++ sem ++ BitVec.ofBool sigEn ++ (0 : BitVec 19) ++ (2 : Byte)
/-- Table 4-7: a weir instruction other than WEIR.NOP. -/
def weirBits (op : Byte) (f : WeirF) : BitVec 128 :=
  f.imm ++ (0 : BitVec 3) ++ f.ag ++ f.sem ++ f.aux ++ f.dst ++ f.src ++ f.rowCntM1 ++ f.rowFirst ++ f.lpn ++ f.pset ++ BitVec.ofBool f.sigEn
    ++ f.nc ++ op
/-- Table 4-7: WEIR.NOP. -/
def weirNopBits (sigEn : Bool) (sem : SemId) : BitVec 128 :=
  (0 : BitVec 22) ++ sem ++ (0 : BitVec 90) ++ BitVec.ofBool sigEn ++ (0 : BitVec 11)

/-- R118: a header: a control word or not, the mask of its present slots, and its length in halfwords. -/
def headerBits (ctrl : Bool) (mask : BitVec 5) (len : BitVec 4) : W16 := (0 : BitVec 6) ++ len ++ mask ++ BitVec.ofBool ctrl

/-- R118 to R120: the word of an instruction: tile, engine, length in halfwords, and the halfwords as a number, the header lowest. A scalar
instruction stands in slot 1 of a control word. -/
def wordOf (c : Instr) : Option (TileId × EngId × Nat × Nat) :=
  match c with
  | .mxProb t f => some (t, 0, 9, (headerBits false 1 9).toNat + 65536 * (mxBits f).toNat)
  | .mxNop t => some (t, 0, 9, (headerBits false 1 9).toNat)
  | .drWrite t f => some (t, 0, 5, (headerBits false 2 5).toNat + 65536 * (drBits f).toNat)
  | .drNop t => some (t, 0, 5, (headerBits false 2 5).toNat)
  | .movNop t => some (t, 2, 5, (headerBits false 1 5).toNat)
  | .movIssue t f => some (t, 2, 5, (headerBits false 1 5).toNat + 65536 * (issueBits f).toNat)
  | .movDrain t g n => some (t, 2, 5, (headerBits false 1 5).toNat + 65536 * (drainBits g n).toNat)
  | .weirNop t g n => some (t, 3, 9, (headerBits false 1 9).toNat + 65536 * (weirNopBits g n).toNat)
  | .weirScore t f => some (t, 3, 9, (headerBits false 1 9).toNat + 65536 * (weirBits 1 f).toNat)
  | .weirAttend t f => some (t, 3, 9, (headerBits false 1 9).toNat + 65536 * (weirBits 2 f).toNat)
  | .weirTopk t f => some (t, 3, 9, (headerBits false 1 9).toNat + 65536 * (weirBits 3 f).toNat)
  | .weirAppend t f => some (t, 3, 9, (headerBits false 1 9).toNat + 65536 * (weirBits 4 f).toNat)
  | .weirReuse t f => some (t, 3, 9, (headerBits false 1 9).toNat + 65536 * (weirBits 5 f).toNat)
  | .weirGather t f => some (t, 3, 9, (headerBits false 1 9).toNat + 65536 * (weirBits 6 f).toNat)
  | .vxNop t => some (t, 1, 3, (headerBits false 4 3).toNat)
  | c =>
    match scalarBits c, vectorBits c with
    | some (t, e, b), _ => some (t, e, 3, (headerBits true 1 3).toNat + 65536 * b.toNat)
    | none, some (t, i, b) => some (t, 1, 3, (headerBits false (BitVec.ofNat 5 (2 ^ i)) 3).toNat + 65536 * b.toNat)
    | none, none => none

end Sys2Proof.Machine
end

