-- ==== Sys2Proof/Safety.lean ====
section
/-!
DEFINITION. The terms that claims use: a safe step, the canonical form of the state's tables, and a word that nothing stops.
-/
namespace Sys2Proof.Machine

/-- A step is safe where it answers a next state: it neither faults nor refuses. -/
def Safe (s : State) : Prop := ∃ t, step s = .next t

/-- Every byte memory of the state is in its canonical form: keys rise, and no entry holds what an unlisted key reads as. -/
def State.Canonical (s : State) : Prop :=
  Memory.wf zeroByte s.spad ∧ Memory.wf zeroByte s.cis ∧ Memory.wf zeroByte s.side ∧ Memory.wf zeroByte s.hbm
    ∧ Memory.wf zeroByte s.host ∧ Memory.wf zeroByte s.cmem

/-- A word of `w` halfwords meets nothing that stops it before its slots' own checks: the engine can issue, no global stop, fence or
breakpoint stands before it, no register of the engine has a parity error, it is not being stepped, it lies inside its bank, and no active loop ends in it. -/
structure State.Ready (s : State) (t : TileId) (e : EngId) (w : Nat) : Prop where
  can : s.canIssue t e = true
  marker : s.tileStopped t = false
  parity : (s.engAt t e).parity = false
  fence : (s.engAt t e).fence = none
  brk : s.brkHit t e = false
  step : (s.engAt t e).stepping = false
  inside : s.pcOf t e + w ≤ 8192
  loops : ∀ l ∈ (s.engAt t e).loops, ¬(s.pcOf t e ≤ l.last.toNat ∧ l.last.toNat < s.pcOf t e + w)

/-- The engine as it issues a word. -/
def Eng.issuing (g : Eng) : Eng :=
  { g with st := .run, waitUnit := false, waits := [], waited := none, skipBreak := false }

/-- The engine after a word of `w` halfwords after which control goes on. -/
def Eng.past (g : Eng) (w : Nat) : Eng := { g.issuing with pc := BitVec.ofNat 14 (g.pc.toNat + w) }

/-- The state in which a word's slots take effect. -/
def State.issuing (s : State) (t : TileId) (e : EngId) : State := s.setEng t e (s.engAt t e).issuing

/-- A word of `w` halfwords that holds one slot with effect `f`, where nothing stops it: the effect, then control goes past the word, by the loops
that end in it (R129). -/
def State.pastWord (s : State) (t : TileId) (e : EngId) (w : Nat) (f : State → State) : State :=
  let u := f (s.issuing t e)
  u.setEng t e ((u.engAt t e).closeAt (s.pcOf t e) (s.pcOf t e + w))

end Sys2Proof.Machine
end

