-- ==== Sys2Proof/Certificates/Slice0/Obligations.lean ====
section
/-!
DEFINITION. The statements about the block.
-/

open Sys2Proof Sys2Proof.Machine

/-! ## The block (spec/INDEX.md; logs 1, 32) -/

/-- A step takes the command at the front of the queue and runs it on the state whose queue is the rest. The queue is the model's own. -/
def Obligations.StepRunsFrontCommand : Prop :=
  ∀ (c : Instr) (l : List Instr) (s : State), s.pending = c :: l → step s = exec c { s with pending := l }

/-- With no command waiting, one always-on period of 40 ns passes (the model's choice, log 1, DESIGN CHOICE): the time stamp gains 40. Where nothing is
under way on canal or furrow, no problem, drain, WEIR operation or transfer is under way, no port is ACTIVE and the machine is not in normal service,
only the sluices' buckets, the tiles' counters, the local copies of the stamp (log 141, DESIGN CHOICE), the fast-clock edges of the domains, the
cycles that engines have waited and the model's own count of free values change beside it. -/
def Obligations.IdleStepIsOneClockPeriod : Prop :=
  ∀ s : State, s.pending = [] → ∃ t, step s = .next t ∧ t.time = s.time + 40
    ∧ (s.canal.bufs = [] → s.canal.front = [] → (∀ e ∈ s.rset, e.2.departing = false ∧ e.2.landed = [] ∧ e.2.buf = []) →
        (∀ e ∈ s.halo, e.2.landed = []) → (∀ e ∈ s.tile, e.2.mxq = [] ∧ e.2.drq = [] ∧ e.2.wei = []) → (∀ e ∈ s.movq, e.2.inflight = []) →
        (∀ p, (s.portAt p).st ≠ .active) → s.chitin.st ≠ 1 →
        t = { s with time := t.time, bucket := t.bucket, regs := t.regs, copies := t.copies, dom := t.dom, eng := t.eng, fresh := t.fresh }
          ∧ (∀ d, t.domAt d = { s.domAt d with edges := (t.domAt d).edges })
          ∧ ∀ u e, t.engAt u e = { s.engAt u e with waited := (t.engAt u e).waited })

/-! ## Memories: what a write changes, byte by byte (R72, R199, R276) -/

/-- Reading back the bytes written to a scratchpad, a vault's pages or sidebands, and HBM gives them, and every byte outside them reads as before. -/
def Obligations.MemoryWritesAreExact : Prop :=
  ∀ (s : State) (t : TileId) (a : Nat) (bs : List Byte),
    ((s.setSpadBytes t a bs).spadBytes t a bs.length = bs
      ∧ ∀ (u : TileId) (i : Nat), (t.toNat * 262144 + a ≤ u.toNat * 262144 + i → t.toNat * 262144 + a + bs.length ≤ u.toNat * 262144 + i) →
          (s.setSpadBytes t a bs).spadB u i = s.spadB u i)
    ∧ ((s.setCisBytes t a bs).cisBytes t a bs.length = bs
      ∧ ∀ (u : TileId) (i : Nat), (t.toNat * 4194304 + a ≤ u.toNat * 4194304 + i → t.toNat * 4194304 + a + bs.length ≤ u.toNat * 4194304 + i) →
          (s.setCisBytes t a bs).cisB u i = s.cisB u i)
    ∧ ((s.setSideBytes t a bs).sideBytes t a bs.length = bs
      ∧ ∀ (u : TileId) (i : Nat), (t.toNat * 262144 + a ≤ u.toNat * 262144 + i → t.toNat * 262144 + a + bs.length ≤ u.toNat * 262144 + i) →
          (s.setSideBytes t a bs).sideB u i = s.sideB u i)
    ∧ ((s.setHbmBytes a bs).hbmBytes a bs.length = bs
      ∧ ∀ i : Nat, (a ≤ i → a + bs.length ≤ i) → (s.setHbmBytes a bs).hbmB i = s.hbmB i)

/-! ## Scalar instructions (R123 to R135) -/

/-- R123, R124: the arithmetic instructions of Table 5-5 write their register with the stated function of two registers, and control goes to the next
word. s0 takes nothing; nothing else changes but the issuing engine. R124: the instructions with an immediate, SC.LIH where its reserved field is 0,
SC.RDIX with the index of the loop at its depth (0 where there is none), and SC.NOP. -/
def Obligations.ScalarResults : Prop :=
  (∀ (s : State) (t : TileId) (e : EngId) (d a b : BitVec 4), s.Ready t e 3 →
     let x := s.sR t e a
     let y := s.sR t e b
     let is := fun (c : Instr) (v : W32) => exec c s = .next ((s.setSR t e d v).setEng t e ((s.engAt t e).past 3))
     is (.scAdd t e d a b) (x + y) ∧ is (.scSub t e d a b) (x - y) ∧ is (.scAnd t e d a b) (x &&& y) ∧ is (.scOr t e d a b) (x ||| y)
       ∧ is (.scXor t e d a b) (x ^^^ y) ∧ is (.scSll t e d a b) (x <<< (y.toNat % 32)) ∧ is (.scSrl t e d a b) (x >>> (y.toNat % 32))
       ∧ is (.scSra t e d a b) (x.sshiftRight (y.toNat % 32)) ∧ is (.scSlt t e d a b) (if x.toInt < y.toInt then 1 else 0)
       ∧ is (.scSltu t e d a b) (if x.toNat < y.toNat then 1 else 0) ∧ is (.scMul t e d a b) (x * y))
  ∧ (∀ (s : State) (t : TileId) (e : EngId) (d a : BitVec 4) (imm : W16) (i : BitVec 20) (k : BitVec 2), s.Ready t e 3 →
       let is := fun (c : Instr) (v : W32) => exec c s = .next ((s.setSR t e d v).setEng t e ((s.engAt t e).past 3))
       is (.scAddi t e d a imm) (s.sR t e a + imm.signExtend 32) ∧ is (.scAndi t e d a imm) (s.sR t e a &&& imm.setWidth 32)
         ∧ is (.scLi t e d i) (i.signExtend 32)
         ∧ (i.toNat < 4096 → is (.scLih t e d i) (BitVec.ofNat 32 (i.toNat * 2 ^ 20 + (s.sR t e d).toNat % 2 ^ 20)))
         ∧ is (.scRdix t e d k) (match (s.engAt t e).loops[k.toNat]? with | some l => l.index.setWidth 32 | none => 0)
         ∧ exec (.scNop t e) s = .next (s.setEng t e ((s.engAt t e).past 3)))

/-- R124, R126: SC.LW reads, and SC.SW writes, the little-endian word at s[a] + sext(imm), where that is aligned and inside the scratchpad, no QUARANTINE
holds its bytes and (of a load) its line is not poison. A load reads the scratchpad as writes under way leave it, each line old or new (R205).
SC.SW stores to those four bytes alone. R126: a scalar access whose address is not a multiple
of 4, or lies past the scratchpad, faults its engine with STREAM_OPERAND (0x3B), and nothing else of it takes
effect. -/
def Obligations.ScalarMemory : Prop :=
  (∀ (s : State) (t : TileId) (e : EngId) (d a : BitVec 4) (imm : W16), s.Ready t e 3 →
     let v := (s.sR t e a + imm.signExtend 32).toNat
     v % 4 = 0 → v < 262144 → s.quarHeld t v 4 = false →
       ((s.racy t .other).spadP t (v / 64) = false →
         exec (.scLw t e d a imm) s = .next ((s.setSR t e d ((s.racy t .other).spadW t v)).setEng t e ((s.engAt t e).past 3)))
       ∧ exec (.scSw t e d a imm) s
           = .next ((s.setSpadBytes t v (natLe 4 (s.sR t e d).toNat)).setEng t e ((s.engAt t e).past 3)))
  ∧ (∀ (s : State) (t : TileId) (e : EngId) (d a : BitVec 4) (imm : W16), s.Ready t e 3 →
       let v := (s.sR t e a + imm.signExtend 32).toNat
       (v % 4 ≠ 0 ∨ 262144 ≤ v) →
         exec (.scLw t e d a imm) s = .next (s.engFault t e 0x3B) ∧ exec (.scSw t e d a imm) s = .next (s.engFault t e 0x3B))

/-- R125: a taken branch goes to the word at its own address plus its offset where that lies in the bank and no loop is active; one not taken goes on to
the next word. SC.JMP is always taken. R113, R129, R130, R141: SC.END stops fetching; SC.FENCE waits for all that the engine has issued; LP.BEGIN with
a count from 1 to 1,048,575 enters a loop from the next word to the word at its offset, and with count 0 goes past that last word. Stated outside any
loop. R129: after a word that ends the innermost loop, a loop with iterations left goes back to its first word with its count down and its index up by
1; a loop on its last iteration closes, and the loops around it that end there follow. -/
def Obligations.ControlFlow : Prop :=
  (∀ (s : State) (t : TileId) (e : EngId) (a b : BitVec 4) (off : W16), s.Ready t e 3 → (s.engAt t e).loops = [] →
     let x := s.sR t e a
     let y := s.sR t e b
     let q : Int := (s.pcOf t e : Int) + off.toInt
     let on := exec
     let past := Host.Outcome.next (s.setEng t e ((s.engAt t e).past 3))
     let taken := Host.Outcome.next (s.setEng t e { (s.engAt t e).issuing with pc := BitVec.ofInt 14 q })
     let br := fun (c : Instr) (p : Prop) => (¬p → on c s = past) ∧ (p → 0 ≤ q → q < 8192 → on c s = taken)
       ∧ (p → (q < 0 ∨ 8192 ≤ q) → on c s = .next (s.engFault t e 0x39))
     br (.scBeq t e a b off) (x = y) ∧ br (.scBne t e a b off) (x ≠ y) ∧ br (.scBlt t e a b off) (x.toInt < y.toInt)
       ∧ br (.scBge t e a b off) (y.toInt ≤ x.toInt) ∧ br (.scJmp t e off) True)
  ∧ (∀ (s : State) (t : TileId) (e : EngId) (a : BitVec 4) (end_ : BitVec 13), s.Ready t e 3 → (s.engAt t e).loops = [] →
       let g := s.engAt t e
       let q := s.pcOf t e
       let n := (s.sR t e a).toNat
       exec (.scEnd t e) s = .next (s.setEng t e { g.past 3 with ending := true })
         ∧ exec (.scFence t e) s = .next (s.setEng t e { g.past 3 with fence := some g.seq })
         ∧ (3 ≤ end_.toNat → n ≤ 1048575 →
             (0 < n → exec (.lpBegin t e a end_) s = .next (s.setEng t e { g.past 3 with loops :=
                 [{ first := BitVec.ofNat 14 (q + 3), last := BitVec.ofNat 14 (q + end_.toNat), remaining := BitVec.ofNat 20 n, index := 0 }] }))
             ∧ (n = 0 → exec (.lpBegin t e a end_) s
                 = .next (s.setEng t e { g.issuing with pc := BitVec.ofNat 14 (q + end_.toNat + s.wordLen t e (q + end_.toNat)) }))))
  ∧ (∀ (g : Eng) (q next : Nat) (l : Loop) (r : List Loop), g.loops = r ++ [l] → l.last.toNat = q →
       (1 < l.remaining.toNat →
         g.closeAt q next = { g with loops := r ++ [{ l with remaining := l.remaining - 1, index := l.index + 1 }], pc := l.first })
       ∧ (l.remaining.toNat ≤ 1 → g.closeAt q next = ({ g with loops := r } : Eng).closeAt q next))

/-- R134: AG.SET writes the low 24 bits of its register to word w of a channel of a generator (g from 1 to 7, w from 0 to 4). -/
def Obligations.GeneratorWordSet : Prop :=
  ∀ (s : State) (t : TileId) (e : EngId) (a : BitVec 4) (g : BitVec 3) (c : BitVec 2) (w : BitVec 3), s.Ready t e 3 → g ≠ 0 → w.toNat ≤ 4 →
    exec (.agSet t e a g c w) s
      = .next ((s.setTr t (0x200 + e.toNat * 0x380 + ((g.toNat - 1) * 4 + c.toNat) * 0x20 + 4 * w.toNat)
          (BitVec.ofNat 32 ((s.sR t e a).toNat % 2 ^ 24))).setEng t e ((s.engAt t e).past 3))

/-! ## Semaphores, posts and signals (R136 to R143) -/

/-- R137, R139: SEM.WAIT of n at least 1 issues and subtracts n once the value has reached n, less what engines before it in the order MXE, VXE, MOV, WEI claim
of it in that test; below it the engine is in WAIT on that semaphore and count, at the same word. R138 to R140: a post whose sum stays at or below 65,535 gives the semaphore that sum and names its poster; one that passes it leaves 65,535
and the semaphore's overflow bit, and says so. -/
def Obligations.Semaphores : Prop :=
  (∀ (s : State) (t : TileId) (e : EngId) (n : SemId) (k : Byte), s.Ready t e 3 → k ≠ 0 → (s.engAt t e).waited = none →
     (k.toNat ≤ s.semLeft t e n →
       exec (.semWait t e n k) s = .next ((s.setSem t n (s.semVal t n - k.toNat)).setEng t e ((s.engAt t e).past 3)))
     ∧ (s.semLeft t e n < k.toNat → exec (.semWait t e n k) s
         = .next (s.setEng t e { s.engAt t e with st := .wait, waited := some 0, waitUnit := false, waits := [(n, k)] }))
     ∧ s.semLeft t 0 n = s.semVal t n)
  ∧ (∀ (s : State) (t : TileId) (n : SemId) (k : Nat) (who : W32),
       let v := s.semVal t n + k
       let r := s.addSem t n k who
       (v ≤ 65535 → r.2 = false ∧ r.1.semVal t n = v) ∧ (65535 < v → r.2 = true ∧ r.1.semVal t n = 65535)
         ∧ (65535 < v → bit (r.1.tr t 0x144) n.toNat = true) ∧ r.1.posterW t n.toNat = who)

/-- R141: SEM.POST, SEM.RPOST, EVT.SIG and TL.SIG issue and wait, behind what waits already, for the operations their engine has issued: each is entered
with the number its engine's next operation will take. R141, R142: of an engine's waiting posts the oldest, whatever signals stand before it, takes
effect once every operation numbered below it has completed: a SEM.POST adds to the tile's semaphore (the issuing tile's reload of R114 follows where
it is due), a SEM.RPOST sets out for its tile over the canal; where an operation is still outstanding nothing happens. A post that has reached its tile
while that runs adds to the semaphore. R143, R335, R336, R340: of an engine's waiting signals the oldest, whatever posts stand before it, is sent once
its operations have completed. An EVT.SIG signals its event and a TL.SIG on a local timeline raises it; one on a remote timeline sends its SIGNAL; a
TL.SIG whose handle no longer resolves is lost. Each leaves a SIGNAL trace record. -/
def Obligations.PostsAndSignals : Prop :=
  (∀ (s : State) (t : TileId) (e : EngId) (n : SemId) (k : Byte) (a b : BitVec 4), s.Ready t e 3 →
     let g := s.engAt t e
     let is := fun (c : Instr) (x : PendKind) =>
       exec c s = .next (s.setEng t e { g.past 3 with pend := g.pend ++ [{ seq := g.seq, kind := x }] })
     (k ≠ 0 → is (.semPost t e n k) (.post n k))
       ∧ (k ≠ 0 → ∀ d, s.rpostTo t (s.sR t e a) = some d → is (.semRpost t e n k a) (.rpost d n k))
       ∧ (s.evtCheck t (s.sR t e a) = .ok → is (.evtSig t e a) (.evt (s.sR t e a)))
       ∧ (1 ≤ b.toNat → b.toNat ≤ 14 → s.tlCheck t (s.sR t e a) = .ok →
           is (.tlSig t e a b) (.tl (s.sR t e a) (s.sR t e (b + 1) ++ s.sR t e b))))
  ∧ (∀ (s : State) (t : TileId) (e : EngId) (m l : List Pend) (x : Pend), (s.engAt t e).pend = m ++ x :: l →
       let g := s.engAt t e
       let s1 := s.setEng t e { g with pend := m ++ l }
       (∀ y ∈ m, (∃ h, y.kind = .evt h) ∨ ∃ h v, y.kind = .tl h v) →
         (∀ n k, x.kind = .post n k →
           (s.doneBelow t e x.seq = true → exec (.postTakesEffect t e) s
               = .next ((s1.post t n k.toNat (posterCode 1 e.toNat) t e).settle t))
           ∧ (s.doneBelow t e x.seq = false → exec (.postTakesEffect t e) s = .next s))
         ∧ (∀ d n k, x.kind = .rpost d n k →
             (s.doneBelow t e x.seq = true → exec (.postTakesEffect t e) s
                 = .next ((s1.sendPost t d { sem := n, n := k.toNat, src := t, eng := e }).settle t))
             ∧ (s.doneBelow t e x.seq = false → exec (.postTakesEffect t e) s = .next s)))
  ∧ (∀ (s : State) (t : TileId) (y : RPost) (r : List RPost), (s.tileAt t).rposts = y :: r → s.runs t = true →
       exec (.remotePostArrival t) s
         = .next ((s.setTile t { s.tileAt t with rposts := r }).post t y.sem y.n (posterCode 2 y.src.toNat) y.src y.eng))
  ∧ (∀ (s : State) (t : TileId) (e : EngId) (p : PartId) (m l : List Pend) (x : Pend), (s.engAt t e).pend = m ++ x :: l →
       (∀ y ∈ m, (∃ n k, y.kind = .post n k) ∨ ∃ d n k, y.kind = .rpost d n k) → s.partOf t = some p →
       let g := s.engAt t e
       let s1 := s.setEng t e { g with pend := m ++ l }
       (s.doneBelow t e x.seq = true →
         (∀ h, x.kind = .evt h → exec (.engineSignalSend t e) s
             = .next (((s1.trace t 0x02 e.toNat g.pc.toNat h.toNat).signal p false h 0 false).settle t))
         ∧ (∀ h v, x.kind = .tl h v →
             let s2 := s1.trace t 0x02 e.toNat g.pc.toNat (h.toNat + v.toNat % 2 ^ 32 * 2 ^ 32)
             (∀ o, s2.objResolve p (s2.ctxOf t) h [3] (s2.launchSeq p t) = .ok o → o.remote = false →
               exec (.engineSignalSend t e) s = .next ((s2.signal p true h v false).settle t))
             ∧ (∀ o, s2.objResolve p (s2.ctxOf t) h [3] (s2.launchSeq p t) = .ok o → o.remote = true →
               exec (.engineSignalSend t e) s = .next ((s2.sendSignal t p o v).settle t))
             ∧ (∀ c, s2.objResolve p (s2.ctxOf t) h [3] (s2.launchSeq p t) = .error c →
               exec (.engineSignalSend t e) s = .next (s2.settle t))))
       ∧ (s.doneBelow t e x.seq = false → ((∃ h, x.kind = .evt h) ∨ ∃ h v, x.kind = .tl h v) → exec (.engineSignalSend t e) s = .next s))

/-- R62, R116, R117, R138, R139, R147: the tile registers that act when they are written, by a requester that may write them at a tile that answers: the
seed's high word arms a reseed (a seed of 0 gives the constant), TIL_IMLD_DATA writes a word of instruction memory and moves its address on by 1, arm
and disarm set and clear the bank swap, a semaphore write replaces its value, and the drop count clears. R218, R226, R242, R249: the registers of a
tile's scratchpad and mover that writes clear: the counts of phase monitor and of conflicts, the stop count, and a descriptor's count of lost armings. -/
def Obligations.TileRegisters : Prop :=
  (∀ (s : State) (r : Req) (t : TileId) (e : EngId) (n : SemId) (w : W32), s.tileReq r t .open_ = true →
     exec (.imemArm r t e) s = .next (s.setEng t e { s.engAt t e with arm := true })
       ∧ exec (.imemDisarm r t e) s = .next (s.setEng t e { s.engAt t e with arm := false })
       ∧ exec (.semaphoreWrite r t n w) s = .next ((s.setTr t (0x100 + 4 * n.toNat) (w &&& 0xFFFF)).setPosterW t n.toNat 0)
       ∧ (∃ u, exec (.srseedWrite r t w) s = .next u ∧ u.tr t 0x1F04 = w
           ∧ (u.tileAt t).reseed = some (if (w ++ s.tr t 0x1F00 : W64) = 0 then 0x9E3779B97F4A7C15 else w ++ s.tr t 0x1F00))
       ∧ (∃ u, exec (.imldDropCountClear r t) s = .next u ∧ fld (u.tr t 0x188) 31 16 = 0)
       ∧ (∃ u, exec (.imemLoadWrite r t w) s = .next u ∧ u = ((s.imemWord t ((s.tr t 0x180).extractLsb' 0 2) (bit (s.tr t 0x180) 2)
             (fld (s.tr t 0x180) 15 4) w).setTr t 0x180 (setFld (s.tr t 0x180) 15 4 (fld (s.tr t 0x180) 15 4 + 1))))
       ∧ (s.runs t = true → fld w 15 8 ≠ 0 →
           exec (.sempostWrite r t w) s = .next (s.addSem t (w.extractLsb' 0 4) (fld w 15 8) (posterCode 5 0)).1))
  ∧ (∀ (s : State) (r : Req) (t : TileId) (d : BitVec 3), s.tileReq r t .open_ = true →
       exec (.phasecntClear r t) s = .next (s.setTr t 0x1E0C 0) ∧ exec (.spconfClear r t) s = .next (s.setTr t 0x1E10 0)
         ∧ exec (.moverStopcntClear r t) s = .next (s.setTr t 0x1704 (setFld (s.tr t 0x1704) 31 16 0))
         ∧ exec (.overrunCountClear r t d) s = .next (s.setMovd t d.toNat { s.movd_ t d.toNat with overrunCnt := 0 }))

/-- R111, R112, R215: a start at an engine of a running tile, by a requester that may launch there, with no QUARANTINE and no realignment: IDLE begins the
program (RUN at its address, code 0 and no loop, the bank swapped where a swap is armed; the MOV engine is STOPPED there while a queue of its tile holds a
valid stop record, R242); RUN or WAIT with no start pending keeps it pending; every other case
sets start_refused. R113: an engine whose SC.END has issued, with nothing outstanding and no post waiting, and no start pending, goes to IDLE with a
record of its end, which names where it started; with end_irq it raises its tile's source, and a LAUNCH's window closes where the tile then has nothing
left to do (R443). R456: a halted engine named by the mask, which no global stop holds, returns to the state
it halted from, at the same word, on a release and on a step, and a step also marks it to halt again
behind one word. Stated for a mask of one engine. -/
def Obligations.ProgramStartsAndEnds : Prop :=
  (∀ (s : State) (r : Req) (t : TileId) (e : EngId) (pc : BitVec 13),
     s.tileWriter r t .launch = true → s.colUp (colonyOf t) = true → s.runs t = true → (s.tileAt t).quar = none → (s.tileAt t).realign = 0 →
     let g := s.engAt t e
     let free := e ≠ 2 ∨ ∀ q, q < 4 → (s.movq_ t q).stop.valid = false
     (g.st = .idle → ∃ u, exec (.programStart r t e pc) s = .next u ∧ u = s.beginProgram t e pc ∧ (u.engAt t e).pc = pc.setWidth 14
          ∧ (u.engAt t e).loops = [] ∧ (u.engAt t e).bank = (g.bank != g.arm) ∧ (u.engAt t e).arm = false
          ∧ (free → (u.engAt t e).st = .run ∧ (u.engAt t e).code = 0) ∧ (¬free → (u.engAt t e).st = .stopped))
     ∧ (g.st = .run ∨ g.st = .wait →
         (g.pending = none → exec (.programStart r t e pc) s = .next (s.setEng t e { g with pending := some pc }))
         ∧ (g.pending ≠ none → exec (.programStart r t e pc) s = .next (s.setEng t e { g with startRefused := true })))
     ∧ (g.st = .stopped ∨ g.st = .halted ∨ g.st = .faulted →
         exec (.programStart r t e pc) s = .next (s.setEng t e { g with startRefused := true })))
  ∧ (∀ (s : State) (t : TileId) (e : EngId), (s.engAt t e).ending = true → ((s.engAt t e).st = .run ∨ (s.engAt t e).st = .wait) →
       s.oldest t e = none → (s.engAt t e).pend = [] → (s.engAt t e).pending = none →
       let g := s.engAt t e
       let s1 := (s.trace t 0x10 e.toNat g.startPc.toNat 1).setEng t e { g with st := .idle, ending := false, pending := none, fence := none }
       exec (.programEnd t e) s = .next ((if bit (s1.tr t (0x40 * e.toNat + 0x0C)) 3 then s1.raiseTile t 16 else s1).closeWindow t))
  ∧ (∀ (s : State) (r : Req) (t : TileId) (e : EngId), s.tileReq r t .open_ = true → (s.engAt t e).st = .halted → (s.engAt t e).gstop = false → s.tileStopped t = false →
       let m : BitVec 4 := BitVec.ofNat 4 (2 ^ e.toNat)
       let back := fun (step : Bool) => s.setEng t e { s.engAt t e with st := (s.engAt t e).before, gstop := false, stepping := step, skipBreak := true }
       exec (.engineRelease r t m) s = .next (back false) ∧ exec (.engineStep r t m) s = .next (back true))

/-- R118 to R124: ENGINE_WORD_ISSUE reads from instruction memory exactly the instruction that stands there: where the words at the engine's address are
those of the spec's encoding tables for an instruction of a slot, with every operand at any value of its field and no memory word of them
uncorrectable (R424), the issue is that instruction's command. R120, R121, R137, R145: a word fetched from the bank whose slots are legal together, whose
waits are met, whose slots wait for no unit and all pass their checks, made on the scratchpad as the engine sees it (R205), issues them together; a fetched SC.ADD, for one, writes its sum and goes on. -/
def Obligations.IssueReadsEncodedWord : Prop :=
  (∀ (c : Instr) (t : TileId) (e : EngId) (w x : Nat) (s : State), wordOf c = some (t, e, w, x) → s.imemNat t e (s.pcOf t e) w = x →
    s.fetchBad t e = none → exec (.engineWordIssue t e) s = exec c s)
  ∧ (∀ (s : State) (t : TileId) (e : EngId) (w : Nat) (ops : List SlotOp), s.fetchWord t e = some (w, ops) → s.fetchBad t e = none → s.Ready t e w →
      wordOk ops = true → s.met t e ops = true → (∀ o ∈ ops, o.check s ≠ .wait ∧ o.check (s.racy t .other) = .ok) →
      exec (.engineWordIssue t e) s = .next (s.issueSlots (s.racy t .other) t e (s.pcOf t e) w ops))
  ∧ (∀ (s : State) (t : TileId) (e : EngId) (d a b : BitVec 4) (x : Nat), wordOf (.scAdd t e d a b) = some (t, e, 3, x) →
      s.imemNat t e (s.pcOf t e) 3 = x → s.fetchBad t e = none → s.Ready t e 3 →
      exec (.engineWordIssue t e) s = .next ((s.setSR t e d (s.sR t e a + s.sR t e b)).setEng t e ((s.engAt t e).past 3)))

/-! ## Matrix engine, drain and fabric extension (R149 to R172, R304 to R309) -/

/-- R150, R153, R160: MX.PROB and DR.WRITE whose fields are legal, and whose checks find room in their queue, enter it behind what waits, with offsets
applied; a problem latches its parameter set. MX.NOP and DR.NOP only take their place in the program. R154, R158, R159, R163: the first
queued problem starts where the interlock lets it and its start checks pass, and halts the engine where a line of its mask is poison (R424); the oldest running problem completes: its entries are written and it
leaves the queue. A queued drain starts under the interlock, its set latched now, and a drain whose values have passed its chain writes its rows and
leaves: of two such, either. Lines of a block that change while it is read are read old or new (R205). -/
def Obligations.ProblemsAndDrains : Prop :=
  (∀ (s : State) (t : TileId) (f : MxF) (g : DrF),
     (s.Ready t 0 9 → exec (.mxNop t) s = .next (s.setEng t 0 ((s.engAt t 0).past 9))
       ∧ (f.legal = true → s.mxCheck t f = .ok → ∃ u o, exec (.mxProb t f) s = .next u ∧ (u.tileAt t).mxq = (s.tileAt t).mxq ++ [o]
           ∧ f.offset s t = some o.f ∧ o.seq = (s.engAt t 0).seq ∧ o.running = false ∧ o.setRow = s.tr t (0x1000 + 16 * f.pset.toNat)
           ∧ u.spad = s.spad ∧ u.acc = s.acc ∧ u.regs = s.regs))
     ∧ (s.Ready t 0 5 → exec (.drNop t) s = .next (s.setEng t 0 ((s.engAt t 0).past 5))
       ∧ (g.legal = true → s.drCheck t g = .ok → ∃ u o, exec (.drWrite t g) s = .next u ∧ (u.tileAt t).drq = (s.tileAt t).drq ++ [o]
           ∧ drOffset s t g = some o.f ∧ o.seq = (s.engAt t 0).seq ∧ o.running = false ∧ u.spad = s.spad ∧ u.acc = s.acc ∧ u.regs = s.regs)))
  ∧ (∀ (s : State) (t : TileId), s.runs t = true →
       (∀ o, ((s.tileAt t).mxq.find? fun o => !o.running) = some o → s.mxHold t o = false → o.startFault = 0 →
         let bad := (s.racy t .other).maskPoison t o.f.msk (o.f.a.toNat + sx 16 (fld o.setMsk 15 0)) o.rows
         (bad = none → exec (.mxProbStart t) s = .next (s.setTile t { s.tileAt t with
           mxq := (s.tileAt t).mxq.map fun x => if x.seq = o.seq then { x with running := true, since := s.edges t, old := s.snap t } else x }))
         ∧ ∀ l, bad = some l → exec (.mxProbStart t) s = .next (s.mxePoison t o.seq o.pc l))
       ∧ (∀ o l, (s.tileAt t).mxq = o :: l → o.running = true →
           let v := (s.racy t .other).mixed t o.old
           let s1 := ((o.result s v t).vxeAccess t).tcnt t o.f.counter ((o.sel v t).length * o.f.n * o.f.k - o.counted)
           let s2 := (s1.setTile t { s1.tileAt t with mxq := l }).trace t 0x11 0 o.f.a.toNat
             ((o.sel v t).length + (s1.setTile t { s1.tileAt t with mxq := l }).cyclesSince t o.since % 2 ^ 32 * 2 ^ 32)
           exec (.mxProbComplete t) s = .next ((s2.opPost t o.f.sigEn o.f.sem 0 0).settle t))
       ∧ (∀ o, ((s.tileAt t).drq.find? fun o => !o.running) = some o → s.drHold t o = false → (o.latch s t).startFault s t = 0 →
           s.portHeld t (o.latch s t).chain = false →
           let bad := (s.racy t (.drain o.seq)).maskPoison t o.f.msk (o.latch s t).maskLine o.rows
           (bad = none → exec (.drWriteStart t) s = .next (s.drRun t (o.latch s t)))
           ∧ ∀ l, bad = some l → exec (.drWriteStart t) s = .next (s.mxePoison t o.seq o.pc l))
       ∧ (∀ o, ((s.tileAt t).drq.filter fun o => o.ready) = [o] → exec (.drWriteComplete t) s = .next (s.drDone t o))
       ∧ (∀ o o' l, ((s.tileAt t).drq.filter fun o => o.ready) = o :: o' :: l →
           exec (.drWriteComplete t) s = .next (s.drawn.drDone t o) ∨ exec (.drWriteComplete t) s = .next (s.drawn.drDone t o')))

/-- R169, R304 to R307: the tile that holds the grant of its colony's port sends the next beat of its running drain, which stands behind its sent beats from
then on, unless a stage of the chain has FAILED: then the drain faults with EXT_TIMING (0x44). A result for the oldest beat out is taken, and the rows
it completes are written; a missing result, and any result of a beat that was out at a GSR (R170), faults the drain the same way; a stray result is
counted and nothing else. -/
def Obligations.ExtensionBeats : Prop :=
  ∀ (s : State) (t : TileId) (c : ColId),
    (∀ o i b, s.portGrant (colonyOf t) = some t → s.tileBeat t = some (o, i, b) →
        let s1 := s.setTurn (colonyOf t) (BitVec.ofNat 4 (indexOf t + 1))
        (s.portFailed t o.chain = false → ∃ u, exec (.extBeatSend t) s = .next u ∧ u = s1.sendBeat t o i b
            ∧ ∃ f, (u.tileAt t).extSent = (s.tileAt t).extSent ++ [(f, o.seq, i, false)])
        ∧ (s.portFailed t o.chain = true → exec (.extBeatSend t) s = .next (s1.extFault t o false)))
    ∧ (∀ f q i k o b v, ((s.tileAt t).extSent.find? fun x => decide (x.1 = f)) = some (f, q, i, k) →
        ((s.tileAt t).drq.find? fun o => decide (o.seq = q)) = some o → o.beats[i]? = some b →
        let s1 := s.setTile t { s.tileAt t with extSent := (s.tileAt t).extSent.erase (f, q, i, k) }
        (k = false → exec (.extResultDue t f (some v)) s = .next (s1.takeResult t o i b v)
          ∧ exec (.extResultDue t f none) s = .next (s1.extFault t o true))
        ∧ (k = true → ∀ r, exec (.extResultDue t f r) s = .next (s1.extFault t o true)))
    ∧ exec (.extStrayResult c) s = .next (s.setReg (xstat c) (incFld (s.reg (xstat c)) 23 16 1))

/-! ## Vector engine (R173 to R197) -/

/-- R181, R186, R442: a floating-point instruction of the packing pk takes each lane whose predicate bit is 1 to its exact result rounded once, element by
element, and counts the lanes in tile counter 3. R181, R186: an integer instruction wraps within its element; the bitwise ones take whole lanes (pk
0); a shift's count is the low bits of its operand. -/
def Obligations.VectorArithmetic : Prop :=
  (∀ (s : State) (t : TileId) (f : VxV), s.Ready t 1 3 → f.pk.toNat ≤ 2 →
     let is := fun (c : Instr) (n : Nat) (g : Fp → Fp → Fp → Fp) =>
       exec c s = .next (s.pastWord t 1 3 fun u => (s.vxFp u t f n g).tcnt t 3 (s.lanes t f.p * 2 ^ f.pk.toNat * (if n = 3 then 2 else 1)))
     (is (.vxFma t f) 3 (fun a b c => (a.mul b).add c) ∧ is (.vxFms t f) 3 (fun a b c => (a.mul b).add c.negate)
       ∧ is (.vxFnma t f) 3 (fun a b c => c.add (a.mul b).negate))
     ∧ (f.vc = 0 → is (.vxFadd t f) 2 (fun a b _ => a.add b) ∧ is (.vxFsub t f) 2 (fun a b _ => a.add b.negate)
         ∧ is (.vxFmul t f) 2 (fun a b _ => a.mul b) ∧ is (.vxFmin t f) 2 (fun a b _ => a.min b) ∧ is (.vxFmax t f) 2 (fun a b _ => a.max b))
     ∧ (f.vc = 0 → f.vb = 0 → is (.vxFabs t f) 1 fpAbs ∧ is (.vxFneg t f) 1 (fun a _ _ => a.negate)))
  ∧ (∀ (s : State) (t : TileId) (f : VxV), s.Ready t 1 3 → f.vc = 0 →
       let is := fun (c : Instr) (g : Nat → Nat → Nat → Nat) => exec c s = .next (s.pastWord t 1 3 fun u => s.vxInt u t f g)
       (f.pk.toNat ≤ 2 → is (.vxIadd t f) (fun _ a b => a + b) ∧ is (.vxIsub t f) (fun w a b => a + 2 ^ w - b) ∧ is (.vxImul t f) (fun _ a b => a * b)
         ∧ is (.vxShl t f) (fun w a b => a * 2 ^ (b % w)) ∧ is (.vxShr t f) (fun w a b => a / 2 ^ (b % w)) ∧ is (.vxSra t f) iSra)
       ∧ (f.pk = 0 → is (.vxAnd t f) (fun _ a b => a &&& b) ∧ is (.vxOr t f) (fun _ a b => a ||| b) ∧ is (.vxXor t f) (fun _ a b => a ^^^ b)))

/-- R174, R181: what an integer instruction leaves in the registers (pk 0, no source lane poisoned): a lane whose predicate bit is 1 holds the result of
its own lanes, every other lane of every register of every tile reads as before; p0 lets every lane take part. -/
def Obligations.VectorLaneResult : Prop :=
  ∀ (s : State) (t : TileId) (f : VxV) (g : Nat → Nat → Nat → Nat), f.pk = 0 →
    (∀ i, i < 32 → s.vregP t f.va.toNat i = false ∧ s.vregP t f.vb.toNat i = false) →
    let u := s.vxInt s t f g
    (∀ i, i < 32 → u.vregL t f.vd.toNat i = if (s.pval t f.p.toNat).getLsbD i
        then BitVec.ofNat 32 (g 32 (s.vregL t f.va.toNat i).toNat (s.vregL t f.vb.toNat i).toNat) else s.vregL t f.vd.toNat i)
      ∧ (∀ (v : TileId) (r : BitVec 5) (i : Nat), i < 32 → (v, r) ≠ (t, f.vd) → u.vregL v r.toNat i = s.vregL v r.toNat i)
      ∧ (f.p = 0 → s.pval t f.p.toNat = 0xFFFFFFFF)

/-- R181, R187: moves, selection, broadcast, permutation, lane index, comparison and predicate logic. R188 to R196: conversion, reductions, the scan,
transcendentals and the small matrices, each with its legal fields, take effect as their operations state, and count in their tile counter (R442); VX.RSUMA with no lane, which writes nothing, counts nothing. -/
def Obligations.VectorMovesAndFunctions : Prop :=
  (∀ (s : State) (t : TileId) (f : VxV), s.Ready t 1 3 → f.pk = 0 →
     let is := fun (c : Instr) (g : State → State) => exec c s = .next (s.pastWord t 1 3 g)
     (f.vc = 0 →
       is (.vxSel t f) (fun u => u.putLanes t f.vd.toNat 0xFFFFFFFF ((List.range 32).map fun i =>
           moved (if (s.pval t f.p.toNat).getLsbD i then s.vl t f.va.toNat i else s.vl t f.vb.toNat i)))
       ∧ is (.vxBcl t f) (fun u => s.vxMove u t f fun _ => moved (s.vl t f.va.toNat f.vb.toNat))
       ∧ is (.vxPerm t f) (fun u => s.vxMove u t f fun i => permLane s t f i)
       ∧ (f.vb = 0 → is (.vxMov t f) (fun u => s.vxMove u t f fun i => moved (s.vl t f.va.toNat i))
           ∧ (f.va = 0 → is (.vxLidx t f) (fun u => s.vxMove u t f fun i => moved (BitVec.ofNat 32 i, false)))
           ∧ (f.va.toNat < 16 → is (.vxBcs t f) (fun u => s.vxMove u t f fun _ => moved (s.sR t 1 (f.va.setWidth 4), false))))
       ∧ (f.p = 0 → f.vd.toNat < 16 → s.vregP t f.va.toNat f.vb.toNat = false →
           is (.vxGetl t f) (fun u => u.setSR t 1 (f.vd.setWidth 4) (s.vregL t f.va.toNat f.vb.toNat))))
     ∧ (f.vd ≠ 0 → f.vd.toNat < 8 → f.vc.toNat % 8 ≠ 7 → f.vc.toNat < 24 → is (.vxCmp t f) (fun u => s.vxCmpOp u t f))
     ∧ (f.p = 0 → f.vd ≠ 0 → f.vd.toNat < 8 → f.va.toNat < 8 → f.vb.toNat < 8 → f.vc.toNat ≤ 4 → is (.vxPlog t f) (fun u =>
         let a := s.pval t f.va.toNat
         let b := s.pval t f.vb.toNat
         u.setPval t f.vd.toNat (match f.vc.toNat with | 0 => a &&& b | 1 => a ||| b | 2 => a ^^^ b | 3 => a &&& ~~~b | _ => ~~~a))))
  ∧ (∀ (s : State) (t : TileId) (f : VxV) (h : VxC), s.Ready t 1 3 →
       let is := fun (c : Instr) (k n : Nat) (g : State → State) => exec c s = .next (s.pastWord t 1 3 fun u => (g u).tcnt t k n)
       let tu := fun (c : Instr) (g : Nat → Nat → Res) => is c 4 (s.lanes t f.p) fun u => s.vxTu u t f 1 fun a _ => g a
       (f.pk = 0 → f.vb = 0 → f.vc = 0 →
         tu (.vxExp t f) (tu1 tuExp) ∧ tu (.vxExp2 t f) (tu1 tuExp2) ∧ tu (.vxLog t f) (tuDom tuLog) ∧ tu (.vxLog2 t f) (tuDom tuLog2)
           ∧ tu (.vxRcp t f) (tu1 tuRcp) ∧ tu (.vxRsq t f) (tu1 tuRsq) ∧ tu (.vxSqrt t f) (tuDom tuSqrt) ∧ tu (.vxTanh t f) (tu1 tuTanh)
           ∧ tu (.vxSigm t f) (tu1 tuSigm) ∧ tu (.vxSin t f) (tuSinCos refSin) ∧ tu (.vxCos t f) (tuSinCos refCos))
       ∧ (f.pk = 0 → f.vc = 0 → is (.vxDiv t f) 4 (s.lanes t f.p) fun u => s.vxTu u t f 2 tuDiv)
       ∧ (f.pk.toNat ≤ 1 → f.vb = 0 → f.vc = 0 →
         is (.vxRsum t f) 3 1 (fun u => s.vxSumOp u t f false) ∧ is (.vxRsuma t f) 3 (if s.lanes t f.p = 0 then 0 else 1) (fun u => s.vxSumOp u t f true)
           ∧ is (.vxRmax t f) 3 1 (fun u => s.vxExtOp u t f true) ∧ is (.vxRmin t f) 3 1 (fun u => s.vxExtOp u t f false))
       ∧ (f.pk = 0 → is (.vxScan t f) 3 32 fun u => s.vxScanOp u t f)
       ∧ (mmLegal f = true → is (.vxMm t f) 3 (matK f * matK f) (fun u => s.vxMmOp u t f false false)
           ∧ is (.vxMmbt t f) 3 (matK f * matK f) (fun u => s.vxMmOp u t f false true)
           ∧ is (.vxMmat t f) 3 (matK f * matK f) (fun u => s.vxMmOp u t f true false))
       ∧ (cholLegal f = true → is (.vxChol t f) 3 (matK f * matK f) fun u => s.vxCholOp u t f)
       ∧ (chsvLegal f = true → is (.vxChsv t f) 3 (2 * matK f) fun u => s.vxChsvOp u t f)
       ∧ (cvtLegal h = true → is (.vxCvt t h) 3
           (if h.dst = 2 ∨ h.dst = 11 then 0 else s.lanes t h.p * (VxCspan h).2 * (32 / cvtW h.dst.toNat)) fun u => s.vxCvtOp u t h))

/-- R182 to R185, R193: loads, stores, gathers and scatters whose lines lie in the scratchpad and are held by no QUARANTINE, and VX.TAPMV on a consistent
circular buffer; what arrives meanwhile at the lines of a tile overlaps with an access (R208), and a line that a write under way changes is read old
or new (R205). VX.NOP only takes its place. R182, R183, R197: a plain line access (no generator, no circular buffer) that would pass the last line
faults with VX_OPERAND (0x48), and one inside the scratchpad with no QUARANTINE passes its check. -/
def Obligations.VectorScratchpad : Prop :=
  (∀ (s : State) (t : TileId) (f : VxM) (g : VxG) (h : VxV), s.Ready t 1 3 →
     let is := fun (c : Instr) (k : State → State) => exec c s = .next (s.pastWord t 1 3 k)
     let y := s.racy t .other
     exec (.vxNop t) s = .next (s.setEng t 1 ((s.engAt t 1).past 3))
     ∧ (s.vxMCheck t f 2 0 = .ok → is (.vxLd t f) fun u => (y.vxLoad u t f 2 0).vxeAccess t)
     ∧ (s.vxMCheck t f 1 0 = .ok → is (.vxLdl t f) (fun u => (y.vxLoad u t f 1 0).vxeAccess t) ∧ is (.vxLdu t f) (fun u => (y.vxLoad u t f 1 16).vxeAccess t))
     ∧ (s.vxMCheck t f 2 1 = .ok → is (.vxSt t f) fun u => (y.vxStore u t f 2 0).vxeAccess t)
     ∧ (s.vxMCheck t f 1 1 = .ok → is (.vxStl t f) (fun u => (y.vxStore u t f 1 0).vxeAccess t) ∧ is (.vxStu t f) (fun u => (y.vxStore u t f 1 16).vxeAccess t))
     ∧ (s.vxGCheck t g = .ok → is (.vxGath t g) (fun u => (y.vxGather u t g).vxeAccess t) ∧ is (.vxScat t g) (fun u => (y.vxScatter u t g).vxeAccess t))
     ∧ (h.pk = 0 → h.vc = 0 → h.vb.toNat % 8 ≠ 0 → s.tapCheck t h = .ok →
         is (.vxTapmv t h) fun u => ((y.vxTapOp u t h).vxeAccess t).tcnt t 3 (s.lanes t h.p)))
  ∧ (∀ (s : State) (t : TileId) (f : VxM) (n ch : Nat), f.ag = 0 → f.cb = 0 → n ≤ 2 → (s.tileAt t).quar = none →
       (f.line.toNat + n ≤ 4096 → s.vxMCheck t f n ch = .ok)
       ∧ (4096 < f.line.toNat + n → s.vxMCheck t f n ch = vxFault t 0x48 0 0 0))

/-! ## Weir and context store (R72 to R109) -/

/-- R88 to R98: a legal weir instruction whose checks all pass issues: it takes a number and one of the 4 places of issued operations, and is sent to the
weir of its page's vault. A list-mode WEIR.GATHER that finds its class does not issue yet: its word waits while its entries resolve. R88, R92: what an
issued operation leaves: it stands last among its tile's issued operations, with its set latched and its page resolved; it is last in the line of the
weir of its own tile's vault, or on the canal to the vault of another. R88 fixes only that a weir takes operations in the order of their arrival: that
an operation of the own vault has arrived when it issues is the model's choice (log 109, DESIGN CHOICE). -/
def Obligations.WeirIssue : Prop :=
  (∀ (s : State) (t : TileId) (f : WeirF), s.Ready t 3 9 →
     let is := fun (c : Instr) (k : WeirKind) => f.legal k = true → s.weirCheck t k f = .ok →
       exec c s = .next (s.pastWord t 3 9 fun u => u.weirIssue t k f)
     is (.weirScore t f) .score ∧ is (.weirAttend t f) .attend ∧ is (.weirTopk t f) .topk ∧ is (.weirAppend t f) .append
       ∧ is (.weirReuse t f) .reuse ∧ is (.weirGather t f) .gather
       ∧ (∀ (g : Bool) (n : SemId), (g = true → (s.tileAt t).wei.length < 4) →
           exec (.weirNop t g n) s = .next (s.pastWord t 3 9 fun u => u.weirNopIssue t g n))
       ∧ (∀ s' o, f.legal .gather = true → (s.tileAt t).walk = none → (s.tileAt t).wei.length < 4 → s.weirPlan t .gather f = (s', .ok o) →
           o.f.list = true → exec (.weirGather t f) s = .next (s'.weirBegin t o)))
  ∧ (∀ (s s' : State) (t : TileId) (k : WeirKind) (f : WeirF) (o : WeirOp), (s.tileAt t).walk = none → s.weirPlan t k f = (s', .ok o) →
       let u := s.weirIssue t k f
       (u.tileAt t).wei = (s'.tileAt t).wei ++ [o]
         ∧ (o.page.tile = t → (u.tileAt t).weirArrived = (s'.tileAt t).weirArrived ++ [(t, o.seq)])
         ∧ (o.page.tile ≠ t → ∃ x ∈ u.canal.pkts, x.2.load = .weir o.page.tile t o.seq ∧ x.2.src = .tile t ∧ x.2.dst = .tile o.page.tile)
         ∧ (u.engAt t 3).seq = (s.engAt t 3).seq + 1)

/-- R88, R89: a free weir whose operation's vaults serve, and whose pages no other running operation writes or reads against it, takes the operation that arrived first; the operation it runs writes its results and leaves, with
its semaphore; what it reads of the scratchpad it reads old or new where writes are under way (R205). A list-mode WEIR.GATHER writes one row for each entry: an empty entry (score minus infinity, row and LPN all ones) gives the row of no page. R103, R104: an
answer to a valid stop record of a STOPPED weir engine clears it: a resume lets the engine reissue its word, a fault gives its code where that lies
from 0x20 to 0x7F and 0x34 elsewhere. The stop count clears. -/
def Obligations.WeirRunsAndStops : Prop :=
  (∀ (s : State) (v t : TileId) (o : WeirOp),
     (∀ q l, s.running v = none → (s.tileAt v).weirArrived = (t, q) :: l → (s.tileAt t).weirOp q = some o → o.sent = none → s.weirServed o = true →
         s.weirClash v o = false →
         let s1 := s.setTile v { s.tileAt v with weirArrived := l, weirRunning := some (t, q) }
         exec (.weirOpAccept v) s = .next ((s1.setTile t ((s1.tileAt t).setWeirOp { o with accepted := true, old := s1.snap t })).weirTouch o))
     ∧ (s.running v = some (t, o) → ((s.tileAt t).walk.any fun x => decide (x.seq = o.seq)) = false → s.weirServed o = true →
         let y := ((s.racy t (.weir t o.seq)).mixed t o.old).weirLinks t o
         (o.done = false → exec (.weirOpComplete v) s
             = .next (((((s.weirRun y v t o).weirTouch o).inboundLines t o.lands).weirAnswer v t o).weirFinish v t o))
         ∧ (o.done = true → exec (.weirOpComplete v) s = .next (s.weirFinish v t o)))
     ∧ (∀ p, s.running v = some (t, o) → ((s.tileAt t).walk.any fun x => decide (x.seq = o.seq)) = true → o.entry < o.f.rows → s.partOf t = some p →
         let a := o.f.aux.toNat * 64 + 16 * o.entry
         let y := s.racy t (.weir t o.seq)
         o.sent = none → y.spadBad t a 16 = false → y.spadW t a = 0xFF800000 → y.spadW t (a + 4) = 0xFFFFFFFF → y.spadW t (a + 8) = 0xFFFFFFFF →
         let s1 := s.gatherRow t o o.entry none
         exec (.gatherListEntry v) s = .next ((s1.setTile t ((s1.tileAt t).setWeirOp { o with entry := o.entry + 1 })).inboundLines t (o.entryLines o.entry))))
  ∧ (∀ (s : State) (r : Req) (t : TileId) (code : Byte), s.tileReq r t .open_ = true →
       let w := (s.tileAt t).wstop
       (w.valid = true → (s.engAt t 3).st = .stopped →
         let s1 := s.setTile t { s.tileAt t with wstop := { w with valid := false } }
         let s2 := s1.trace t 0x05 3 w.lpn.toNat (0x10 + w.reason.toNat * 256)
         exec (.weirStopResume r t) s = .next (s2.setEng t 3 { s2.engAt t 3 with st := .run })
           ∧ exec (.weirStopFault r t code) s
               = .next ((s.setTile t { s.tileAt t with wstop := { w with valid := false }, weirFrom := 0 }).engFault t 3
                   (if 0x20 ≤ code.toNat ∧ code.toNat ≤ 0x7F then code.toNat else 0x34)))
         ∧ exec (.weiStopcntClear r t) s = .next (s.setTr t 0x1A10 0))

/-- R83 to R85: a go write of CIS_PAGEOP with no operation in progress whose checks pass starts the operation and marks its slot busy; one whose checks
fail, or whose op is not listed, ends at once with its result, done and the source; one during an operation sets overrun and nothing else. R84, R85,
R86: a page operation that no admitted access holds moves its data, once its packets have crossed the canal, of whose beats one may come poisoned (a
free outcome, log 123, DESIGN CHOICE); when it has moved, it ends: the slot's tag is filled with context and
LPN after INSTALL and PROMOTE and cleared after DEMOTE and FREE, its result says whether poison came with the data. -/
def Obligations.PageOperations : Prop :=
  (∀ (s : State) (r : Req) (t : TileId) (sl : SlotId) (c : CtxId) (op : BitVec 3), s.tileReq r t .open_ = true →
     let tl := s.tileAt t
     let frame := (s.tr t 0x1818).extractLsb' 0 23
     let lpn := (s.tr t 0x1814).extractLsb' 0 24
     let starts := fun (i : Instr) (n : Nat) =>
       (tl.pageop = none → s.pageCheck t n sl c frame = 0 → exec i s = .next ((s.setTile t { tl with
           pageop := some { op := BitVec.ofNat 3 n, slot := sl, ctx := c, lpn := lpn, frame := frame, moved := false, poison := false } }).setBusy t sl.toNat true))
       ∧ (tl.pageop = none → s.pageCheck t n sl c frame ≠ 0 → exec i s = .next (s.pageResult t (s.pageCheck t n sl c frame)))
       ∧ (tl.pageop ≠ none → exec i s = .next (s.setTile t { tl with poOverrun := true }))
     starts (.pageopInstall r t sl c) 1 ∧ starts (.pageopPromote r t sl c) 2 ∧ starts (.pageopDemote r t sl c) 3 ∧ starts (.pageopFree r t sl c) 4
       ∧ (op.toNat = 0 ∨ 4 < op.toNat → tl.pageop = none → exec (.pageopInvalidOp r t op sl c) s = .next (s.pageResult t 2)))
  ∧ (∀ (s : State) (t : TileId) (o : PageOp), (s.tileAt t).pageop = some o →
       (o.moved = false → s.slotUsed t o.slot = false → s.pageServed t (decide (o.op = 2) || decide (o.op = 3)) = true →
         let s0 := s.pageCross t o
         let e := if o.op = 2 ∨ o.op = 3 then s0.linkErr (2 ^ 22) else .none
         let m := s0.pageMove t o
         let s1 := ((m.1.pageHurt t o e).linkCount t .can e).drawn
         exec (.pageopDataMove t) s = .next (s1.setTile t { s1.tileAt t with
           pageop := some { o with moved := true, poison := m.2 || decide (e = .poisoned) } }))
       ∧ (o.moved = true → (s.tileAt t).scrub.contains o.slot = false →
         let s1 := if o.op = 1 ∨ o.op = 2 then s.fillTag t o.slot.toNat o.ctx o.lpn else s.clearTag t o.slot.toNat
         exec (.pageopDone t) s = .next ((s1.setTile t { s.tileAt t with pageop := none, lastCisAccess := s.time }).pageResult t (if o.poison then 3 else 0))))

/-- R80: a write of WEI_MAPINV with go begins an invalidation, or sets overrun where one is under way; it ends when it has reached every tile (R271) and no access uses an entry it covers, and
no covered entry stays cached. R86, R106, R107: a write of CIS_AGECFG sets the period and restarts the counter; each expiry ages every valid slot by
1, up to 255; a vault's temperature sets doubled refresh above 85 °C and the throttle from 95 °C; a refresh takes time alone. -/
def Obligations.MapAndVault : Prop :=
  (∀ (s : State) (r : Req) (p : PartId) (w : W32), s.partReq r p = true → bit w 31 = true →
     ((s.partAt p).mapInv = none → ∃ u, exec (.mapInvalidate r p w) s = .next u ∧ (u.partAt p).mapInv
         = some { ctx := w.extractLsb' 0 8, all := bit w 8, root := bit w 9, lpn := (s.reg (partBase p + 0x40C)).extractLsb' 0 24 })
     ∧ ((s.partAt p).mapInv ≠ none → exec (.mapInvalidate r p w) s = .next (s.setPart p { s.partAt p with mapOverrun := true }))
     ∧ (∀ v, (s.partAt p).mapInv = some v → (∀ x ∈ s.canal.pkts, x.2.load ≠ .inval p) → s.mapUsed p v = false → ∃ u, exec (.mapInvalidateDone p) s = .next u ∧ (u.partAt p).mapInv = none
         ∧ ∀ e ∈ (u.partAt p).mapCache, v.covers e = false))
  ∧ (∀ (s : State) (r : Req) (t : TileId) (w : W32) (c : Byte) (i : Nat),
       (s.tileReq r t .open_ = true → exec (.agecfgWrite r t w) s
         = .next ((s.setTr t 0x1804 (w &&& 0xFFFF)).setTile t { s.tileAt t with ageFrom := s.time }))
       ∧ (i < 64 → fld (s.tr t 0x1804) 15 0 ≠ 0 → tagValid (s.tag t i) = true →
           ∃ u, exec (.ageTick t) s = .next u ∧ tagAge (u.tag t i) = min 255 (tagAge (s.tag t i) + 1))
       ∧ exec (.vaultRefresh t) s = .next s
       ∧ (∃ u, exec (.vaultRefreshRateChange t c) s = .next u ∧ bit (u.tr t 0x1800) 2 = decide (85 < c.toNat) ∧ fld (u.tr t 0x1800) 15 8 = c.toNat)
       ∧ (95 ≤ c.toNat → ∃ u, exec (.vaultThrottle t c) s = .next u ∧ bit (u.tr t 0x1800) 3 = true))

/-! ## Residency (R109, R212 to R218) -/

/-- R212: a write of TIL_SPOWN, by a requester that may make it, at a tile in RUN: bit 10 clears refused; an engine that is not IDLE, a QUARANTINE or a
context past the quota refuses it; an unowned tile takes its owner at once, the owner's own number changes nothing, and another's begins a QUARANTINE.
R109, R214: a handover's QUARANTINE ends once nothing outstanding reaches the tile: the working region of its scratchpad, every accumulator entry,
vector register and predicate reads 0, and the incoming context owns it. A slot scrub that no access holds zeroes its slot, and leaves its tag
invalid. -/
def Obligations.Residency : Prop :=
  (∀ (s : State) (r : Req) (t : TileId) (w : W32), s.tileWriter r t .launch = true → s.colUp (colonyOf t) = true → s.runs t = true →
     let tl := s.tileAt t
     let c : CtxId := w.extractLsb' 0 8
     let quota := match (s.partOf t).bind s.pcfg with | none => 0 | some g => g.contexts.toNat
     let idle := ∀ e : EngId, (s.engAt t e).st = .idle
     (bit w 10 = true → exec (.spownWrite r t w) s = .next (s.setTile t { tl with spRefused := false }))
     ∧ (bit w 10 = false → ((∃ e : EngId, (s.engAt t e).st ≠ .idle) ∨ tl.quar ≠ none ∨ quota ≤ c.toNat) →
         exec (.spownWrite r t w) s = .next (s.setTile t { tl with spRefused := true }))
     ∧ (bit w 10 = false → idle → tl.quar = none → c.toNat < quota → tl.owned = false →
         exec (.spownWrite r t w) s = .next (s.setTile t { tl with ctx := c, owned := true }))
     ∧ (bit w 10 = false → idle → tl.quar = none → c.toNat < quota → tl.owned = true → c = tl.ctx → exec (.spownWrite r t w) s = .next s)
     ∧ (bit w 10 = false → idle → tl.quar = none → c.toNat < quota → tl.owned = true → c ≠ tl.ctx →
         ∃ u, exec (.spownWrite r t w) s = .next u ∧ (u.tileAt t).quar = some (.handover c) ∧ u.ctxOf t = s.ctxOf t))
  ∧ (∀ (s : State) (t : TileId) (sl : SlotId) (c : CtxId),
       ((s.tileAt t).quar = some (.handover c) → (s.tileAt t).quarWait = [] → s.runs t = true → s.quiesced t = true → s.inbound t = false → s.haloInto t = false →
         ∃ u, exec (.quarantineClear t) s = .next u ∧ u.ctxOf t = c ∧ (u.tileAt t).quar = none
           ∧ (∀ b, 64 * s.regF (tileBase t + 0x1E00) 27 16 ≤ b → b < 262144 → u.spadB t b = 0)
           ∧ (∀ b, b < 64 * s.regF (tileBase t + 0x1E00) 27 16 → u.spadB t b = s.spadB t b)
           ∧ (∀ i, i < 16384 → u.accW t i = 0) ∧ (∀ i l, i < 32 → l < 32 → u.vregL t i l = 0) ∧ ∀ i, i < 8 → u.pregW t i = 0)
       ∧ ((s.tileAt t).scrub = [sl] → s.slotUsed t sl = false → (s.tileAt t).pageop = none → s.serves (domCis t) = true →
         ∃ u, exec (.slotScrubDone t sl) s = .next u ∧ tagValid (u.tag t sl.toNat) = false ∧ (u.tileAt t).scrub = []
           ∧ ∀ b, b < 65536 → u.cisB t (sl.toNat * 65536 + b) = 0))

/-! ## Mover (R219 to R249) -/

/-- R225, R226, R231, R246: MOV.ISSUE arms its descriptor with the line, semaphore and signals of its fields and, where rm names one, c1 from a register;
MOV.DRAIN, once no descriptor is armed or running and no pending slot is full, signals and goes on; MOV_CTRL with go arms its descriptor. An arming
enters its queue where the descriptor is neither armed nor running, its pending slot where that is empty, and is counted as lost else. A queue's limit
takes 1 to 64 while the queue is empty. -/
def Obligations.MoverArming : Prop :=
  ∀ (s : State) (t : TileId) (f : IssueF) (g : Bool) (n : SemId) (r : Req) (w : W32) (q : BitVec 2) (a : Arm),
    (s.Ready t 2 5 →
      exec (.movNop t) s = .next (s.setEng t 2 ((s.engAt t 2).past 5))
      ∧ (s.armOf t f = some a → exec (.movIssue t f) s
          = .next (s.pastWord t 2 5 fun u => (u.setEng t 2 { u.engAt t 2 with seq := (u.engAt t 2).seq + 1 }).arm t a))
      ∧ (s.moverIdle t = true → exec (.movDrain t g n) s = .next (s.pastWord t 2 5 fun u => u.opPost t g n 2 0)))
    ∧ (f.ag = 0 → s.armOf t f = some { desc := f.desc, line := f.line, sem := f.sem, sigEn := f.sigEn, rsig := f.rsig,
                                          n1 := if f.rm = 0 then none else some (s.sR t 2 f.rm).toNat, farOfs := 0, mlineOfs := 0, seq := some (s.engAt t 2).seq })
    ∧ (s.tileReq r t .launch = true → bit w 31 = true → exec (.movCtrlArm r t w) s
        = .next (s.arm t { desc := w.extractLsb' 0 3, line := w.extractLsb' 3 12, sem := w.extractLsb' 15 4, sigEn := bit w 19, rsig := false,
                           n1 := none, farOfs := 0, mlineOfs := 0, seq := none }))
    ∧ (let v := s.movd_ t a.desc.toNat
       let q := fld (s.tr t (0x1500 + 0x40 * a.desc.toNat + 8)) 8 7
       let m := s.movq_ t q
       (v.armed = false → v.running = false → s.arm t a = (s.setMovq t q { m with arms := m.arms ++ [a] }).setMovd t a.desc.toNat { v with armed := true })
       ∧ ((v.armed = true ∨ v.running = true) → v.pending = none → s.arm t a = s.setMovd t a.desc.toNat { v with pending := some a })
       ∧ ((v.armed = true ∨ v.running = true) → v.pending ≠ none → s.arm t a
            = s.setMovd t a.desc.toNat { v with rearmOverrun := true, overrunCnt := BitVec.ofNat 16 (min 0xFFFF (v.overrunCnt.toNat + 1)) }))
    ∧ (s.tileReq r t .open_ = true →
        let m := s.movq_ t q.toNat
        (bit w 8 = true → exec (.queueCfgWrite r t q w) s = .next (s.setMovq t q.toNat { m with cfgRefused := false }))
        ∧ (bit w 8 = false → m.arms = [] → m.streams = [] → 1 ≤ fld w 6 0 → fld w 6 0 ≤ 64 →
            exec (.queueCfgWrite r t q w) s = .next (s.setTr t (0x1710 + 4 * q.toNat) (BitVec.ofNat 32 (fld w 6 0))))
        ∧ (bit w 8 = false → (m.arms ≠ [] ∨ m.streams ≠ [] ∨ fld w 6 0 = 0 ∨ 64 < fld w 6 0) →
            exec (.queueCfgWrite r t q w) s = .next (s.setMovq t q.toNat { m with cfgRefused := true })))

/-- R219, R222, R223, R228: a running queue whose streams have all admitted their transfers starts its first arming, where no generator moves it: with
every check of the descriptor passed and no mask, the stream stands last in its queue with the descriptor's words latched and its first transfer next;
where a check fails, the queue faults with that check's code. -/
def Obligations.StreamsStart : Prop :=
  ∀ (s : State) (t : TileId) (q : BitVec 2) (a : Arm) (l : List Arm) (p : PartId),
    let m := s.movq_ t q.toNat
    let w := s.descWords t a.desc.toNat
    let d := descOf w
    let n1 := a.n1.getD d.c1
    let x : Stream := { arm := a, words := w, n1 := n1, mask := [], next := none, parts := d.parts, bytes := 0, fabStarted := false }
    m.arms = a :: l → s.partOf t = some p → m.runs = true → s.runs t = true → (∀ y ∈ m.streams, y.next = none ∧ y.arm.desc ≠ a.desc) → a.farOfs = 0 → a.mlineOfs = 0 →
      (s.startFault t p a w d n1 = 0 → d.msk = false → x.first ≠ none → ∃ u, exec (.streamStart t q) s = .next u
          ∧ (u.movq_ t q.toNat).streams.getLast? = some { x with next := x.first } ∧ (u.movd_ t a.desc.toNat).running = true)
      ∧ (s.startFault t p a w d n1 ≠ 0 → ∃ u, exec (.streamStart t q) s = .next u ∧ (u.movq_ t q.toNat).faulted = true
          ∧ (u.movq_ t q.toNat).code = BitVec.ofNat 8 (s.startFault t p a w d n1))

/-- R228, R230 to R233, R245: the next transfer of a running queue is admitted while its queue is under its limit and its bucket holds tokens: for the
scratchpad and HBM once the far domains serve, for the host with a translation that allows it. R231: no queue whose turn comes before has one to admit. It
goes in flight, the stream's next moves on and the bucket pays the unit. A transfer that the host's translation refuses outright, or whose host answers
with an error, faults the queue with 0x53. The oldest in flight retires once the canal has brought what it waits for, and what it reads from another
tile's scratchpad, unchanged since its admission, with no poison about, nothing else in flight and no write under way there (R205), lands in its own. -/
def Obligations.TransfersAdmitAndRetire : Prop :=
  ∀ (s : State) (t : TileId) (q : BitVec 2) (x : Xlat) (hr : HostResp),
    let m := s.movq_ t q.toNat
    (∀ i y p, m.upcoming = some (i, y, p) → m.runs = true → s.runs t = true → m.inflight.length < s.outLimit t q.toNat → s.hasToken t (y.d.cls t) = true →
        s.xferWaits t y.d (y.xfer i p) = false → s.turnComes t q.toNat = true →
      let admits := ∃ u g, exec (.transferAdmit t q x) s = .next u ∧ u = (s.enterXfer t q.toNat i y (y.xfer i p)).settleAts
        ∧ (u.movq_ t q.toNat).inflight = m.inflight ++ [g] ∧ g.stream = i ∧ g.pos = p ∧ g.refused = false ∧ g.done = false
        ∧ (u.movq_ t q.toNat).streams = m.streams.set (i - m.base) { y with next := y.after p, fabStarted := true }
        ∧ u.bucketOf t (y.d.cls t) = s.bucketOf t (y.d.cls t) + (100 * y.d.unit : Nat)
      ((y.d.space = 0 ∨ y.d.space = 3) → (∀ z ∈ s.farDoms t y.d (y.xfer i p), s.serves z.1 = true) → admits)
        ∧ (y.d.space = 4 → x = .ok → admits)
        ∧ (y.d.space = 4 → x = .refused → ∃ u, exec (.transferAdmit t q x) s = .next u ∧ (u.movq_ t q.toNat).faulted = true ∧ (u.movq_ t q.toNat).code = 0x53))
    ∧ (∀ f l y, m.inflight = f :: l → m.streams[f.stream - m.base]? = some y → f.refused = false → f.done = false → f.legs = 0 → s.xferHeld t y.d f = false →
        (y.d.space ≠ 4 → y.d.space ≠ 5 → exec (.transferRetire t q hr) s = .next (s.retireXfer t q.toNat y f hr).settleAts)
        ∧ (∀ bs, y.d.space = 4 → hr = .data bs → exec (.transferRetire t q hr) s = .next (s.retireXfer t q.toNat y f hr).settleAts)
        ∧ (y.d.space = 4 → hr = .error → ∃ u, exec (.transferRetire t q hr) s = .next u ∧ (u.movq_ t q.toNat).faulted = true
            ∧ (u.movq_ t q.toNat).code = 0x53)
        ∧ (∀ g, y.d.space = 0 → y.d.out = false → y.d.imem = false → y.d.tiles = [g] → f.lost = [] → f.page = none → l = [] → f.hurt = false →
            (let r : Reader := .xfer (t.toNat * 4 + q.toNat) f.stream f.pos
             s.drainsOf g r = [] ∧ s.xfersTo g r = [] ∧ s.weirsTo g r = []) →
            f.old = (s.spadBytes g f.far.toNat f.len, false) → s.spadBad t f.loc f.len = false → s.spadBad g f.far.toNat f.len = false →
            ∃ u, exec (.transferRetire t q hr) s = .next u ∧ u.spadBytes t f.loc f.len = s.spadBytes g f.far.toNat f.len))

/-- R237 to R242: a host transfer that finds no translation stops its queue; once nothing admitted is outstanding the stop record is written (valid, with
code, reason and the far address the queue stands at), the running MOV engine stops; an answer to the page request group that
the record names says whether it succeeded; resume clears the record, fault makes it the queue's fault with the answered code, 0x34 or 0x56. -/
def Obligations.MoverStops : Prop :=
  ∀ (s : State) (t : TileId) (q : BitVec 2) (code : Byte) (r : Req),
    let m := s.movq_ t q.toNat
    (∀ i y p, m.faulted = false → m.stop.valid = false → m.inflight = [] → m.upcoming = some (i, y, p) → m.runs = true → s.runs t = true →
        0 < s.outLimit t q.toNat → s.hasToken t (y.d.cls t) = true → y.d.space = 4 →
        let why : StopWhy := { code := 0x12, reason := 0, kind := 0, dom := 0, pages := [(y.farAt p &&& ~~~0xFFF, !y.d.out, y.d.out)] }
        exec (.transferRefused t q .notPresent) s = .next (s.setMovq t q.toNat { m with why := some why }))
    ∧ (∀ w i y p, m.why = some w → m.inflight = [] → m.upcoming = some (i, y, p) → m.streams[i - m.base]? = some y →
        ∃ u, exec (.moverStopRecord t q) s = .next u ∧ (u.movq_ t q.toNat).stop.valid = true ∧ (u.movq_ t q.toNat).stop.code = w.code
          ∧ (u.movq_ t q.toNat).stop.reason = w.reason ∧ (u.movq_ t q.toNat).stop.addr = y.farAt p ∧ (u.movq_ t q.toNat).why = none
          ∧ ((s.engAt t 2).st = .run → (u.engAt t 2).st = .stopped))
    ∧ (∀ (fn : Option PartId) (ix : BitVec 9) (ok : Bool), (s.prg.find? fun g => decide (g.1 = fn) && decide (g.2.1 = ix)) = some (fn, ix, t, q) →
        m.stop.prg = 1 → m.stop.prgi = ix → (r = match fn with | none => .pf | some p => .vf p) →
        ∃ u, exec (.prgResponse r ix ok) s = .next u ∧ (u.movq_ t q.toNat).stop.prg = if ok then 2 else 3)
    ∧ (s.tileReq r t .open_ = true → m.stop.valid = true →
        (m.stop.prg ≠ 1 → exec (.moverStopResume r t q) s = .next (((s.setMovq t q.toNat { m with stop := { m.stop with valid := false } }).trace t 0x05 2
            m.stop.addr.toNat (m.stop.code.toNat + m.stop.reason.toNat * 256 + q.toNat * 2 ^ 11)).movEngineGo t))
        ∧ (m.stop.prg = 1 → exec (.moverStopResume r t q) s = .next s)
        ∧ (∃ u, exec (.moverStopFault r t q code) s = .next u ∧ (u.movq_ t q.toNat).faulted = true ∧ (u.movq_ t q.toNat).stop.valid = false
            ∧ (u.movq_ t q.toNat).code = if 0x20 ≤ code.toNat ∧ code.toNat ≤ 0x7F then code else if m.stop.code = 0x10 then 0x34 else 0x56))

/-! ## Furrow (R250 to R263) -/

/-- R253, R254: a tile that holds a set's sliver departs once its gsem, less what engines and the sets and channels before it claim in that test (R139), is at
least 1: the departure consumes 1. When its last line is written at a successor that holds none, the hop completes: both ends' counts advance and the
successor's asem is posted. The lines of a hop reach the successor's location. R259: a realignment with every engine of the ring IDLE and none under
way for the set on it marks every tile of the ring; one under way or an engine that is not IDLE refuses it. Once the count has returned to 0 at every
tile that the realignment holds, with no hop touching it, it ends: seat and rep are 0. R260, R262: an enabled halo channel that is not busy, with a
neighbour in the partition and its gsem, so counted, at least 1, sends: it is busy and its gsem has lost 1. The send ends when its last line is written:
the channel is free, its sends are counted, and both ends are posted. -/
def Obligations.FurrowMoves : Prop :=
  (∀ (s : State) (t : TileId) (k : BitVec 3),
     let n := k.toNat
     let r := s.rsetAt t n
     let v := s.succTile t
     (s.holding t n = true → r.departing = false → s.runs t = true → s.ringStopped t = false → (s.tileAt t).realign.getLsbD n = false →
       1 ≤ s.furLeft t n (s.setGsem t n) →
       ∃ u, exec (.rotationDeparture t k) s = .next u ∧ (u.rsetAt t n).departing = true ∧ (u.rsetAt t n).count = r.count
         ∧ u.semVal t (s.setGsem t n) = s.semVal t (s.setGsem t n) - 1)
     ∧ (r.departing = true → s.ring t ≠ [] → s.holding v n = false → (s.rsetAt v n).early = false → s.runs v = true →
       let s1 := s.carry t n ((List.range (s.setLines t n)).filter fun j => !r.landed.contains j) []
       let r1 := s1.rsetAt t n
       let s2 := ((s1.setRset t n { r1 with departing := false, posts := false, landed := [], buf := [], early := false }).advanceSet t n).advanceSet v n
       let s3 := if (s2.rsetAt v n).departing then s2.setRset v n { s2.rsetAt v n with early := true } else s2
       exec (.rotationHopComplete t k) s = .next (if r1.posts then s3.furPost v (s3.setAsem v n) n else s3))
     ∧ (∀ j, r.departing = true → s.ring t ≠ [] → s.holding v n = false → (s.rsetAt v n).early = false → s.runs v = true → r.landed = [] → r.buf = [] →
         v ≠ t → s.setLoc v n + s.setLines t n ≤ 4096 → s.setLoc t n + s.setLines t n ≤ 4096 → j < s.setLines t n → s.spadP t (s.setLoc t n + j) = false →
       ∃ u, exec (.rotationHopComplete t k) s = .next u
         ∧ u.spadBytes v (64 * (s.setLoc v n + j)) 64 = s.spadBytes t (64 * (s.setLoc t n + j)) 64))
  ∧ (∀ (s : State) (r : Req) (t : TileId) (k : BitVec 3),
       let n := k.toNat
       let w : W32 := BitVec.ofNat 32 (2 ^ n)
       (s.tileReq r t .launch = true →
         ((∀ u ∈ s.ring t, (∀ e : EngId, (s.engAt u e).st = .idle) ∧ (s.tileAt u).realign.getLsbD n = false) →
           ∃ u, exec (.realignStart r t w) s = .next u ∧ (∀ v ∈ s.ring t, (u.tileAt v).realign.getLsbD n = true)
             ∧ ∀ v, v ∉ s.ring t → u.tileAt v = s.tileAt v)
         ∧ ((∃ u ∈ s.ring t, (∃ e : EngId, (s.engAt u e).st ≠ .idle) ∨ (s.tileAt u).realign.getLsbD n = true) →
             exec (.realignStart r t w) s = .next (s.setTr t 0x1BC8 (setBit (s.tr t 0x1BC8) 8 true))))
       ∧ ((s.tileAt t).realign.getLsbD n = true → (s.rsetAt (s.predTile t) n).departing = false →
           (∀ u ∈ s.ring t, (s.tileAt u).realign.getLsbD n = true → (s.rsetAt u n).count = 0 ∧ (s.rsetAt u n).departing = false) →
           ∃ u, exec (.realignDone t k) s = .next u ∧ (u.rsetAt t n).seat = 0 ∧ (u.rsetAt t n).rep = 0
             ∧ (u.tileAt t).realign.getLsbD n = false))
  ∧ (∀ (s : State) (t v : TileId) (h : BitVec 2),
       let n := h.toNat
       let w := s.tr t (haloOff n + 8)
       let g : SemId := w.extractLsb' 0 4
       s.haloTo t n = some v →
         (bit w 12 = true → (s.haloAt t n).busy = false → 1 ≤ s.furLeft t (n + 8) g → s.runs t = true → s.tileStopped t = false →
           ∃ u, exec (.haloSend t h) s = .next u ∧ (u.haloAt t n).busy = true ∧ u.semVal t g = s.semVal t g - 1)
         ∧ ((s.haloAt t n).busy = true → ((s.haloAt t n).lateAt ≠ [] → s.haloHeld t v n = false) → s.runs v = true →
           let s1 := s.haloCopy t v n ((List.range (fld (s.tr t (haloOff n)) 23 12)).filter fun j => !(s.haloAt t n).landed.contains j)
           let s2 := s1.setHalo t n { busy := false, landed := [], lateAt := [], sends := BitVec.ofNat 16 (min 0xFFFF ((s.haloAt t n).sends.toNat + 1)) }
           exec (.haloSendComplete t h) s = .next ((s2.furPost v (w.extractLsb' 4 4) (n + 8)).furPost t (w.extractLsb' 8 4) (n + 8))))

/-! ## Vulor ports (R279 to R299) -/

/-- R280 to R283, R286, R288, R297, R400, Table 11-4: the transitions of a port's state: an enabled port's domain comes up to CULVERTED; VUL_CTL has no
effect before the image is loaded (R16); a retrain from CULVERTED trains, from ACTIVE retrains and is counted, as a lost lane or a lost peer does; trained lanes
key, an admitted peer makes the port ACTIVE with its ID taken and its distance along the axis as the span, and an attempt that fails, as every one does
while the axis's culvert is closed (R280), leaves an enabled port whose domain is not to power down CULVERTED with its reason and count. A leaving port that has delivered everything sends LEAVE and falls; a
culvert whose conditions have gone closes for both ports; the key epoch of an ACTIVE port advances, with the key of the next epoch, once 2^32 flits of the
epoch have been sent, and not before. -/
def Obligations.PortStates : Prop :=
  ∀ (s : State) (r : Req) (p : PortId) (w : W32) (tr : Training) (h : PeerHello) (a : Fin 3),
    let q := s.portAt p
    let stays := s.vulEn p = true ∧ (s.domAt (domVul p)).target ≠ 2
    let fails := fun (c : Instr) (k : BitVec 4) => ∃ u, exec c s = .next u ∧ (u.portAt p).st = .culverted ∧ (u.portAt p).fail = k
      ∧ (u.portAt p).failures = BitVec.ofNat 16 (min 0xFFFF (q.failures.toNat + 1))
    let retrains := fun (c : Instr) => ∃ u, exec c s = .next u ∧ (u.portAt p).st = .retrain ∧ (u.portAt p).width = 0
      ∧ (u.portAt p).retrains = BitVec.ofNat 16 (min 0xFFFF (q.retrains.toNat + 1))
    (q.st = .off → s.vulEn p = true → ∃ u, exec (.portDomainUp p) s = .next u ∧ (u.portAt p).st = .culverted ∧ (u.domAt (domVul p)).st = 0)
    ∧ (s.pfReq r = true →
        (s.chitin.loadPassed = false → exec (.vulCtlEnableWrite r p w) s = .next s)
        ∧ (s.chitin.loadPassed = true → bit w 0 = true → exec (.vulCtlEnableWrite r p w) s = .next (s.plainWrite (portBase p) w))
        ∧ (s.chitin.loadPassed = true → bit w 0 = false → q.st = .active →
            ∃ u, exec (.vulCtlEnableWrite r p w) s = .next u ∧ (u.portAt p).leaving = true ∧ (u.portAt p).st = .active)
        ∧ (q.st = .culverted → s.vulEn p = true → ∃ u, exec (.vulRetrain r p) s = .next u ∧ (u.portAt p).st = .training)
        ∧ (q.st = .active → retrains (.vulRetrain r p)))
    ∧ (q.st = .active → retrains (.laneLockLoss p) ∧ retrains (.peerLostTimeout p))
    ∧ (q.st = .training →
        (q.isOpen = true → tr.signal = true → linkWidth tr.good tr.peerGood ≠ none → ∃ u, exec (.linkTrainingComplete p tr) s = .next u ∧ (u.portAt p).st = .keying
          ∧ linkWidth tr.good tr.peerGood = some (u.portAt p).width ∧ (u.portAt p).gen2 = (!bit (s.reg (portBase p)) 1 && tr.peerGen2))
        ∧ (stays → fails (.trainingTimeout p) 3 ∧ (q.isOpen = false → fails (.linkTrainingComplete p tr) 3)
            ∧ (q.isOpen = true → tr.signal = false → fails (.linkTrainingComplete p tr) 1)
            ∧ (q.isOpen = true → tr.signal = true → linkWidth tr.good tr.peerGood = none → fails (.linkTrainingComplete p tr) 2)))
    ∧ (q.st = .keying →
        (q.isOpen = true → s.admits p h = true → ∃ u, exec (.keyingComplete p h) s = .next u ∧ (u.portAt p).st = .active ∧ (u.portAt p).peer = h.id
          ∧ (u.portAt p).span = s.spanTo p h.id ∧ (u.portAt p).peerValid = true ∧ (u.portAt p).epochNo = 0)
        ∧ (stays → fails (.keyingTimeout p) 3 ∧ (q.isOpen = false → fails (.keyingComplete p h) 3)
            ∧ (q.isOpen = true → s.admits p h = false → fails (.keyingComplete p h) 4)))
    ∧ (q.st = .active → q.leaving = true → q.replay = [] → q.bufs = [] → q.rxPart = [] → q.rxFlit = none →
        exec (.portLeave p) s = .next ((s.sendFlit p .leave []).fall p))
    ∧ (s.mayOpen (axisPort a.val 0) = false → ∃ u, exec (.culvertClose a) s = .next u ∧ (u.portAt (axisPort a.val 0)).isOpen = false
        ∧ (u.portAt (axisPort a.val 1)).isOpen = false)
    ∧ (q.st = .active →
        (q.epochNo < q.txSeq.toNat / 2 ^ 32 → exec (.keyEpochAdvance p) s
            = .next (s.setPort p { q with epoch := !q.epoch, epochNo := q.epochNo + 1, txKey := epochKey q.txKey (q.epochNo + 1) }))
        ∧ (q.txSeq.toNat / 2 ^ 32 ≤ q.epochNo → exec (.keyEpochAdvance p) s = .next s))

/-- R284 to R288: an ACTIVE port accepts an arriving flit whose codewords and tag hold and that carries the next sequence number, and discards any other,
counted; a KEY flit, which is in the clear, is accepted in KEYING, RETRAIN and ACTIVE where its codewords are whole. What arrives is `received`: of a flit laid
out, sealed under the receive key and salt by its own number and put on the lanes as it is sent, it is that flit, with nothing to correct (log 142, DESIGN
CHOICE: the operand carries what the FEC decoder and the decryption compute). A port takes an accepted flit by its type: a READ, SIGNAL, ACK,
NACK or STOP in the first slot of a DATA flit enters its channel's buffer with every field; IDLE and KEY carry nothing further, and LEAVE
retrains. -/
def Obligations.FlitsReceived : Prop :=
  ∀ (s : State) (p : PortId) (x : FlitArrival) (f : Flit) (m : Msg),
    let q := s.portAt p
    let g := s.received p x
    (q.st = .active → q.rxFlit = none → flitType g.flit ≠ some .key →
      (g.uncorrectable = false → g.tagOk = true → flitSeq g.flit = q.rxNext → ∃ u, exec (.flitReceive p x) s = .next u
          ∧ (u.portAt p).rxNext = q.rxNext + 1 ∧ (u.portAt p).rxFlit = some g.flit ∧ (u.portAt p).tagRun = 0)
      ∧ (g.uncorrectable = true ∨ g.tagOk = false ∨ flitSeq g.flit ≠ q.rxNext →
          ∃ u, exec (.flitReceive p x) s = .next u
          ∧ (u.portAt p).rxNext = q.rxNext ∧ (u.portAt p).rxFlit = none
          ∧ (u.portAt p).feccnt = BitVec.ofNat 32 (min 0xFFFFFFFF (q.feccnt.toNat + g.corrected))
          ∧ (u.portAt p).discarded = BitVec.ofNat 16 (min 0xFFFF (q.discarded.toNat + 1))))
    ∧ (q.st = .active ∨ q.st = .keying ∨ q.st = .retrain → q.rxFlit = none → flitType g.flit = some .key → g.uncorrectable = false →
        ∃ u, exec (.flitReceive p x) s = .next u ∧ (u.portAt p).rxNext = q.rxNext ∧ (u.portAt p).rxFlit = some g.flit)
    ∧ (f.slots.length = 7 →
        s.received p { lanes := lanesOf (laneCount q.width) (flitBytes f q.rxKey q.rxSalt), body := (flitBytes f q.rxKey q.rxSalt).take 256,
                       plain := f.slots.flatMap fun b => natLe 32 b.toNat } = { corrected := 0, uncorrectable := false, flit := f, tagOk := true })
    ∧ (q.rxFlit = some f →
      let s1 := s.setPort p { q with rxFlit := none }
      (flitType f = some .idle → exec (.flitIdle p f) s = .next s1) ∧ (flitType f = some .key → exec (.flitKey p f) s = .next s1)
        ∧ (flitType f = some .leave → exec (.flitLeave p f) s = .next (s1.retrain p 0))
        ∧ (flitType f = some .data → exec (.flitData p f) s = .next (s1.takeSlots p f.slots))
        ∧ (flitType f = some .data → f.slots = hdrSlot m :: List.replicate 6 0 → q.rxPart = [] → hasData m.ty = false → m.ty ≠ .time → m.data = [] →
            ∃ u, exec (.flitData p f) s = .next u ∧ (u.portAt p).bufs = q.bufs ++ [(BitVec.ofNat 3 (s1.arrivalVc p m), m)]))

/-- R285, R296, Tables 11-7 and 11-8: a message comes out of its slots as it went in: for every message type and every value of its fields, with the data
its length names, reading the slots it is written as gives it back, in as many slots as its type and length take. -/
def Obligations.MessageSlotsRoundTrip : Prop :=
  ∀ (m : Msg), (m.data.length = if hasData m.ty then m.lenM1.toNat + 1 else 0) →
    slotsToMsg (msgToSlots m) = some m ∧ (msgToSlots m).length = msgSlots m.ty m.lenM1.toNat

/-- R290 to R295: the first message of a channel, where no device stop holds it, leaves its buffer: a request that its place does not hold is served here
or passed on, an answer at its source completes its request, TIME leaves a record in every tracing partition, STOP begins a device stop where the
device accepts it. A WRITE to device HBM writes its bytes. -/
def Obligations.MessagesArrive : Prop :=
  ∀ (s : State) (p : PortId) (vc : BitVec 3) (m : Msg),
    let q := s.portAt p
    let s1 := s.setPort p (q.take vc.toNat m)
    let came : Option (Nat × Bool) := some (axisOf p, decide (vc.toNat % 2 = 0 ∧ vc.toNat ≠ 0))
    let waits := (s.partHere (some p) m).isSome = true ∧ s.reqHeld m = true
    let hops := fun (c : Instr) => (¬waits → exec c s = .next (s1.requestHop p m came)) ∧ (waits → exec c s = .next (s.wakeFor m))
    s.vulHeld = false →
      (q.headOf vc.toNat = some m →
        (m.ty = .write → hops (.msgWrite p vc)) ∧ (m.ty = .read → hops (.msgRead p vc)) ∧ (m.ty = .signal → hops (.msgSignal p vc))
        ∧ (m.ty = .ack → exec (.msgAck p vc) s = .next (s1.sendReply m came)) ∧ (m.ty = .nack → exec (.msgNack p vc) s = .next (s1.sendReply m came))
        ∧ (m.ty = .readData → exec (.msgReadData p vc) s = .next ((s1.readPoison p m).sendReply m came))
        ∧ (∀ g a, m.ty = .write → m.dst = s.devId → m.mcount = 0 → s.reqPlace m = .ok (g, .hbm g a) → s.reqHeld m = false →
            m.data.length = m.lenM1.toNat + 1 → s.hbmBad a (m.lenM1.toNat + 1) = false →
            ∃ u, exec (.msgWrite p vc) s = .next u ∧ u.hbmBytes a (m.lenM1.toNat + 1) = m.data))
      ∧ (q.headOf 0 = some m → m.ty = .time → ∃ u, exec (.msgTime p) s = .next u ∧ u.portAt p = q.take 0 m ∧ u.time = s.time)
      ∧ (∀ k, (q.bufs.find? fun x => decide (x.2.ty = .stop)) = some (k, m) → s.gs.st = .running →
          (bit (s.reg (dbgBase + 0x104)) 1 = true → ∃ u, exec (.msgStop p) s = .next u ∧ u.gs.st ≠ .running ∧ u.gs.device = true ∧ u.gs.origin = 3)
          ∧ (bit (s.reg (dbgBase + 0x104)) 1 = false → exec (.msgStop p) s = .next (s.setPort p (q.take k.toNat m))))

/-- R292, R294, R297, R299: a request whose time has run out stands no longer: a SIGNAL's context is lost with REMOTE_ERROR (0x54). An ACTIVE port
whose period is set sends TIME to its peer once that many flits have left since the last, and none before. The counters of a port and of a spine canal clear on their writes. -/
def Obligations.VulorTimersAndCounters : Prop :=
  ∀ (s : State) (r : Req) (p : PortId) (n : BitVec 2) (tag : BitVec 16) (v : VulReq),
    (s.vulHeld = false → (s.vulReqs.find? fun x => decide (x.tag = tag)) = some v → ∃ u, exec (.vulorRequestTimeout tag) s = .next u ∧ (∀ x ∈ u.vulReqs, x.tag ≠ tag)
        ∧ (v.ty = .signal → v.parts = 1 → (∀ f ∈ (s.movq_ v.tile v.q.toNat).inflight, f.tag ≠ some tag) → (s.ctxAt v.part v.ctx).st = .active →
            (u.ctxAt v.part v.ctx).st = .lost ∧ (u.ctxAt v.part v.ctx).code = 0x54))
    ∧ (let q := s.portAt p
       let n := s.regF (portBase p + 0x40) 23 0
       (n ≠ 0 → q.timeSeq.toNat + n ≤ q.txSeq.toNat → q.st = .active →
         ∃ m : Msg, exec (.timeMessagePeriod p) s = .next ((s.setPort p { q with timeSeq := q.txSeq }).emit p 0 m)
           ∧ m.ty = .time ∧ m.dst = q.peer ∧ m.src = s.devId)
       ∧ (n = 0 ∨ q.txSeq.toNat < q.timeSeq.toNat + n → exec (.timeMessagePeriod p) s = .next s))
    ∧ (s.pfReq r = true → exec (.vulorCounterClear r p) s
          = .next (s.setPort p { s.portAt p with feccnt := 0, discarded := 0, tagfail := 0, retrains := 0, failures := 0 })
        ∧ exec (.canalCounterClear r n) s = .next ((s.setReg (spineBase n.toNat + 4) 0).setReg (spineBase n.toNat + 8) 0))

/-! ## Fabric boundary (R300 to R311) -/

/-- R301, R303, R308 to R311: a beat enters the FIFO of an ingress port some partition names, with room and no GSR, and is counted; a return beat taken
leaves its FIFO; a doorbell raises source 256 + o, one that is discarded is counted. GSR discards every FIFO's beats and holds every stage; after its
hold the declared stages probe, the probe leaves on the outbound port, and a probe that comes back valid opens its stage. The counters clear. -/
def Obligations.FabricBoundary : Prop :=
  ∀ (s : State) (r : Req) (q : BitVec 4) (b : IngressBeat) (c : CoreId) (o : Byte) (k : ColId) (f v : Bool),
    let n := q.toNat
    (s.gsr = false →
      (s.ingressNamed n = true → (s.ingressAt n).length < 512 →
        exec (.ingressBeat q b) s = .next ((s.setIngress n (s.ingressAt n ++ [b])).incReg (fabBase + 0x108 + 16 * n) 31 0 1))
      ∧ (s.bellDropped c o.toNat = false → exec (.fabricDoorbell c o) s = .next (s.raise c (256 + o.toNat)))
      ∧ (s.bellDropped c o.toNat = true → exec (.fabricDoorbell c o) s = .next (s.bellDrop c))
      ∧ (∃ u, exec .gsrAssert s = .next u ∧ u.reg fabBase = 3 ∧ (∀ i, i < 16 → u.ingressAt i = [] ∧ u.retAt i = []) ∧ u.probes = []
          ∧ fld (u.reg (fabBase + 0x400 + 4 * k.toNat)) 3 0 = 0))
    ∧ exec (.returnBeatTaken q) s = .next (s.setRet n ((s.retAt n).drop 1))
    ∧ (s.gsr = true → exec .gsrDeassert s = .next (s.setReg fabBase 2))
    ∧ (s.reg fabBase = 2 → ∃ u, exec .gsrHoldExpiry s = .next u ∧ u.reg fabBase = 0
        ∧ ∀ p g, p ∈ s.loadedParts → s.pcfg p = some g → k ∈ s.colsOf p → nat01 f < g.fabStages.toNat →
            fld (u.reg (fabBase + 0x400 + 4 * k.toNat)) (2 * nat01 f + 1) (2 * nat01 f) = 1)
    ∧ (fld (s.reg (fabBase + 0x400 + 4 * k.toNat)) (2 * nat01 f + 1) (2 * nat01 f) = 1 → s.probes.contains (k, f) = false → (s.domAt (1 + tdomOfCol k)).st = 0 →
        exec (.probeSend k f) s = .next (({ s with probes := s.probes ++ [(k, f)] } : State).send (.extSlot k (probeSlot f))))
    ∧ (s.probes.contains (k, f) = true → exec (.probeResultDue k f v) s
        = .next (State.setRegF { s with probes := s.probes.erase (k, f) } (fabBase + 0x400 + 4 * k.toNat) (2 * nat01 f + 1) (2 * nat01 f) (if v then 2 else 3)))
    ∧ (s.fabReq r = true → ∃ u, exec (.fabricCounterClear r) s = .next u ∧ u.reg (fabBase + 0x108 + 16 * n) = 0 ∧ fld (u.reg (fabBase + 0x104 + 16 * n)) 31 16 = 0
        ∧ fld (u.reg (fabBase + 0x10C + 16 * n)) 31 16 = 0 ∧ u.reg (fabBase + 0x800) = 0)

/-! ## Host port and headgate (R44 to R46, R312 to R349) -/

/-- R314, R315, R316, R398, R400, R412: a BAR2 access to bytes of the function's own memory, where nothing holds it, reads or writes device HBM, and one outside
completes as Unsupported Request; one in an IDE stream whose keys chitin does not hold does not reach the block. A function reset sets every context that the function created to DYING; a reset of the physical function ends its
IDE streams; PERST is one of every function and resets the host port's domain, which stays OFF while PWR_HOSTCFG.off is 1. An ATS invalidation that covers no transfer in flight is answered at
once. -/
def Obligations.HostAccesses : Prop :=
  ∀ (s : State) (p : PartId) (a : W64) (n h : Nat) (bs : List Byte) (v : Option (BitVec 20)) (size : W64),
    let barOk := fun (r : Req) (m : Nat) (h : Nat) => (r = .vf p ∧ s.hbmOf p a.toNat m = some h) ∨ (r = .pf ∧ a.toNat + m ≤ Config.hbmUnits * 2 ^ 28 ∧ h = a.toNat)
    let dies := fun (u : State) (p : PartId) (pf : Bool) => ∀ c, (s.ctxAt p c).byPf = pf → (s.ctxAt p c).st ≠ .free → (u.ctxAt p c).st = .dying
    (∀ r k, s.carries k = true → barOk r n h → s.barWaits h n = false → exec (.bar2Access r a { op := .read n, stream := k }) s = .next (s.send (.bar2 (s.hbmBytes h n) (s.hbmBad h n))))
    ∧ (∀ r k, s.carries k = true → barOk r bs.length h → s.barWaits h bs.length = false →
        exec (.bar2Access r a { op := .write bs, stream := k }) s = .next (s.putHbm h bs false))
    ∧ (∀ k, s.carries k = true → s.hbmOf p a.toNat n = none → exec (.bar2Access (.vf p) a { op := .read n, stream := k }) s = .next (s.send .unsupported))
    ∧ (∀ r k op, s.carries (some k) = false → exec (.bar2Access r a { op := op, stream := some k }) s = .next s)
    ∧ (s.gs.st = .running →
        (∃ u, exec (.flrVf p) s = .next u ∧ dies u p false)
        ∧ (∃ u, exec .flrPf s = .next u ∧ u.chitin.ide = [] ∧ ∀ q ∈ s.loadedParts, dies u q true)
        ∧ (∃ u, exec .perst s = .next u ∧ u.domAt 95 = (if bit (s.reg (pwrBase + 0x10)) 0 then { st := 2 } else {}) ∧ ∀ q ∈ s.loadedParts, dies u q true ∧ dies u q false))
    ∧ exec (.atsInvalidate v a size) s = .next (State.settleAts { s with atsWait := s.atsWait ++ [s.atsCovered v a.toNat size.toNat] })
    ∧ (s.atsWait = [] → s.atsCovered v a.toNat size.toNat = [] → exec (.atsInvalidate v a size) s = .next (s.send .atsInvalidateDone))

/-- R45, R323, R325: a version request of a function with no context, once DONE has been seen high, is granted, but FA1 in TIMELINE mode and reserved
codes; with a context it is refused. CREATE takes the lowest FREE number, ACTIVE with the ring of its registers. DESTROY of an ACTIVE or
LOST context sets it DYING and answers BUSY; a DYING context with nothing left of it becomes FREE, and its answer OK. -/
def Obligations.VersionsAndContexts : Prop :=
  ∀ (s : State) (r : Req) (p : PartId) (pf : Bool) (c : CtxId) (i : Nat), s.fnKind r p = some pf → s.hgtReady = true →
    let a := verReg pf p
    let no := fun (k : Nat) => s.setRegF a 15 14 k
    let b := partBase p
    let cfg := s.reg (b + 0x808)
    let x := s.ctxAt p c
    (s.ownedCtxs p pf = [] →
      exec (.versionRequestFa1 r p) s = .next (if s.timelineMode p then no 3 else (s.setRegF a 13 12 1).setRegF a 15 14 1)
        ∧ exec (.versionRequestFa2 r p) s = .next ((s.setRegF a 13 12 2).setRegF a 15 14 1) ∧ exec (.versionRequestReserved r p) s = .next (no 3))
    ∧ (s.ownedCtxs p pf ≠ [] → exec (.versionRequestFa1 r p) s = .next (no 2) ∧ exec (.versionRequestFa2 r p) s = .next (no 2)
        ∧ exec (.versionRequestReserved r p) s = .next (no 2))
    ∧ (s.pcfg p ≠ none → i < s.ctxCap p → (∀ j, j < i → (s.ctxAt p (BitVec.ofNat 8 j)).st ≠ .free) → (s.ctxAt p (BitVec.ofNat 8 i)).st = .free →
        6 ≤ fld cfg 4 0 → fld cfg 4 0 ≤ 16 → (pf = true ∨ fld cfg 16 8 ≤ 255) → (s.regF a 13 12 ≠ 0 ∨ s.timelineMode p = false) →
        ∃ u, exec (.contextCreate r p) s = .next u ∧ (u.ctxAt p (BitVec.ofNat 8 i)).st = .active ∧ (u.ctxAt p (BitVec.ofNat 8 i)).byPf = pf
          ∧ (u.ctxAt p (BitVec.ofNat 8 i)).ring = s.reg64 (b + 0x800) (b + 0x804) ∧ (u.ctxAt p (BitVec.ofNat 8 i)).nlog2.toNat = fld cfg 4 0
          ∧ fld (u.reg (b + 0x814)) 11 8 = 1 ∧ fld (u.reg (b + 0x814)) 7 0 = i % 256)
    ∧ (s.pcfg p ≠ none → (∀ j, j < s.ctxCap p → (s.ctxAt p (BitVec.ofNat 8 j)).st ≠ .free) → exec (.contextCreate r p) s = .next (s.ctxResult p 0 2))
    ∧ (s.partReq r p = true →
        (x.st = .free → exec (.contextDestroy r p c) s = .next (s.ctxResult p c 3)) ∧ (x.st = .dying → exec (.contextDestroy r p c) s = .next (s.ctxResult p c 5))
        ∧ ((x.st = .active ∨ x.st = .lost) → s.partStopped p = false →
            ∃ u, exec (.contextDestroy r p c) s = .next u ∧ (u.ctxAt p c).st = .dying ∧ fld (u.reg (b + 0x814)) 11 8 = 5))
    ∧ (x.st = .dying → x.killing = false → (s.partAt p).resetting = false → x.waiting = [] → (∀ t ∈ s.tilesIn p, s.killGoesOn t c = false) →
        exec (.contextBecomesFree p c) s = .next (if fld (s.reg (b + 0x814)) 7 0 = c.toNat ∧ fld (s.reg (b + 0x814)) 11 8 = 5 then (s.setCtx p c {}).ctxResult p c 1
          else s.setCtx p c {}))

/-- R319, R326, R327, R345: CREATE of a queue in an ACTIVE context takes the lowest free number with the ring of its registers; DESTROY of an open queue
with nothing left closes it, and one in the scope of a global stop waits for the release (R465); a tail write adds the entries up to it under the partition's next sequence. A fetched entry of an ACTIVE context joins
its queue, or completes with the status of the check it fails; of a LOST one it completes with CONTEXT_LOST (3); a read that fails loses the context
(0x53). -/
def Obligations.QueuesAndFetch : Prop :=
  ∀ (s : State) (r : Req) (p : PartId) (q : QueueId) (i : Nat) (tail : W16), s.partReq r p = true →
    let b := partBase p
    let cfg := s.reg (b + 0x828)
    let Q := s.queueAt p q
    let size := 2 ^ Q.qlog2.toNat
    let n := (tail.toNat % size + size - Q.tail.toNat) % size
    (s.hgtReady = true →
      (s.pcfg p ≠ none → (s.ctxAt p (cfg.extractLsb' 0 8)).st = .active → 4 ≤ fld cfg 12 8 → fld cfg 12 8 ≤ 16 → (s.ctxQueues p (cfg.extractLsb' 0 8)).length < 16 →
        (firstBelow (s.queueCap p) fun j => !(s.queueAt p (BitVec.ofNat 10 j)).isOpen && (s.queueAt p (BitVec.ofNat 10 j)).cmds.isEmpty) = some i →
        exec (.queueCreate r p) s = .next ((s.setQueue p (BitVec.ofNat 10 i) { isOpen := true, ctx := cfg.extractLsb' 0 8, prio := cfg.extractLsb' 16 2,
                                                                               qlog2 := cfg.extractLsb' 8 5, ring := s.reg64 (b + 0x820) (b + 0x824) }).qResult p (BitVec.ofNat 10 i) 1))
      ∧ (Q.isOpen = true → s.partStopped p = false → Q.head = Q.tail → (∀ m ∈ Q.cmds, m.isDone = true) →
        exec (.queueDestroy r p q) s = .next ((s.setQueue p q { Q with isOpen := false, stopped := false, wsWait := false }).qResult p q 1))
      ∧ (Q.isOpen = true → s.partStopped p = false → (Q.head ≠ Q.tail ∨ ∃ m ∈ Q.cmds, m.isDone = false) → exec (.queueDestroy r p q) s = .next (s.qResult p q 5))
      ∧ (Q.isOpen = true → s.partStopped p = true →
        exec (.queueDestroy r p q) s = .next (({ s with gs := { s.gs with held := s.gs.held ++ [.destroyQueue p q] } } : State).qResult p q 5))
      ∧ (Q.isOpen = false → exec (.queueDestroy r p q) s = .next (s.qResult p q 3)))
    ∧ (Q.isOpen = true → (s.ctxAt p Q.ctx).st ≠ .dying → n ≠ 0 →
        exec (.queueSubmit r p q tail) s = .next ((s.setPart p { s.partAt p with subSeq := (s.partAt p).subSeq + 1 }).setQueue p q
          { Q with tail := BitVec.ofNat 16 (tail.toNat % size), subs := Q.subs ++ [(n, (s.partAt p).subSeq + 1)] }))
    ∧ (∀ k seq l g bs, Q.subs = (k, seq) :: l → s.pcfg p = some g → Q.isOpen = true → s.mayFetch p Q = true →
        let x := s.ctxAt p Q.ctx
        let s1 := s.setQueue p q Q.advance
        let raw := (bs ++ List.replicate 128 0).take x.cmdBytes
        let full := if x.fa1 then fa1Bytes raw else raw
        let m := cmdOf full seq s.time
        (x.st = .active →
          (s1.fetchStatus p g x Q.ctx raw full m = none →
            exec (.commandFetch p q (.data bs)) s = .next ((s1.setQueue p q { s1.queueAt p q with cmds := (s1.queueAt p q).cmds ++ [m] }).takeWaits p))
          ∧ (∀ st, s1.fetchStatus p g x Q.ctx raw full m = some st →
            exec (.commandFetch p q (.data bs)) s = .next (s1.finishCmd p q (s1.lawfulSignal p g x Q.ctx m) st true))
          ∧ exec (.commandFetch p q .error) s = .next (s1.loseCtx p Q.ctx 0x53 .none 0 0 0))
        ∧ (x.st = .lost → exec (.commandFetch p q (.data bs)) s = .next (s1.finishCmd p q (s1.lawfulSignal p g x Q.ctx m) 3 false)))

/-- R317, R318, R320: CREATE of an object takes the lowest FREE entry with the handle of its index and generation, but for staged arguments that the partition cannot hold or, in an EVENT-mode partition, a timeline of another
device (R35), which are INVALID (3); FREE of a LIVE object marks it FREEING
with the next submission sequence, and once every command before that has completed it is FREE with its generation advanced. QUERY answers the state
and the commands that name it, and FREE of a handle that does not stand answers STALE (6). -/
def Obligations.MemoryObjects : Prop :=
  ∀ (s : State) (r : Req) (p : PartId) (i : Nat), s.partReq r p = true → s.hgtReady = true →
    let b := partBase p
    let cfg := s.reg (b + 0x850)
    let h := s.reg (b + 0x858)
    let sub := (s.partAt p).subSeq + 1
    let away := fld cfg 9 8 = 3 ∧ bit (s.reg (b + 0x848)) 31 = true ∧ s.timelineMode p = false
    (s.pcfg p ≠ none → s.objArgsOk p = true → ¬away → (firstBelow (s.objCap p) fun j => decide ((s.objAt p j).st = .free)) = some i →
      ∃ u, exec (.objectCreate r p) s = .next u ∧ (u.objAt p i).st = .live ∧ (u.objAt p i).gen = (s.objAt p i).gen ∧ (u.objAt p i).kind = cfg.extractLsb' 8 2
        ∧ (u.objAt p i).owner = some (cfg.extractLsb' 0 8) ∧ (u.objAt p i).addr = s.reg64 (b + 0x840) (b + 0x844) ∧ (u.objAt p i).len = s.reg64 (b + 0x848) (b + 0x84C)
        ∧ u.reg (b + 0x858) = mkHandle i (s.objAt p i).gen ∧ fld (u.reg (b + 0x85C)) 3 0 = 1)
    ∧ (s.pcfg p = none ∨ s.objArgsOk p = false ∨ away → exec (.objectCreate r p) s = .next (s.objResult p 3))
    ∧ (s.pcfg p ≠ none → s.objArgsOk p = true → ¬away → (∀ j, j < s.objCap p → (s.objAt p j).st ≠ .free) → exec (.objectCreate r p) s = .next (s.objResult p 2))
    ∧ (s.objNamed p = some i → (s.objAt p i).st = .live →
      exec (.objectFree r p) s = .next (((s.setPart p { s.partAt p with subSeq := sub }).setObj p i { s.objAt p i with st := .freeing, freeSeq := sub }).objResult p 1)
      ∧ exec (.objectQuery r p) s = .next (s.setReg (b + 0x85C) (BitVec.ofNat 32 (1 + 1 * 16 + min 0xFFFF (s.pendingUses p h) * 2 ^ 16))))
    ∧ (s.objNamed p = none → exec (.objectFree r p) s = .next (s.objResult p 6))
    ∧ (∀ x : BitVec 24, (s.objAt p x.toNat).st = .freeing → s.doneBefore p (s.objAt p x.toNat).freeSeq = true →
        exec (.objectRelease p x) s = .next (s.setObj p x.toNat { gen := nextGen (s.objAt p x.toNat).gen }))

/-- R335, R336: CREATE of an event takes the lowest free entry, not signalled; DESTROY frees it with its generation advanced, or waits for the release of a global stop (R465), RESET clears it, SIGNAL sets
it, QUERY answers it. A write of HGT_TLSIGCMD on a live local timeline whose stack serves raises its word to the maximum, with the error bits or-ed. R336: the update of
a timeline's word takes the greater value of the two in bits 62:0 and the or of their error bits. -/
def Obligations.EventsAndTimelineWords : Prop :=
  (∀ (s : State) (r : Req) (p : PartId) (c : CtxId) (i : Nat) (e : Evt), s.partReq r p = true → s.hgtReady = true →
     let b := partBase p
     let h := s.reg (b + 0x864)
     let t := s.reg (b + 0x870)
     (s.pcfg p ≠ none → c.toNat < s.ctxCap p → (s.ctxAt p c).st ≠ .free → (firstBelow (s.evtCap p) fun j => !(s.evtAt p j).live) = some i →
       ∃ u, exec (.eventCreate r p c) s = .next u ∧ u.evtAt p i = { live := true, gen := (s.evtAt p i).gen, owner := some c } ∧ u.reg (b + 0x864) = mkHandle i (s.evtAt p i).gen)
     ∧ (s.evtResolve p h = .ok e →
       (s.partStopped p = false →
         exec (.eventDestroy r p) s = .next ((s.setEvt p (hIdx h) { gen := nextGen (s.evtAt p (hIdx h)).gen }).evtResult p { gen := nextGen (s.evtAt p (hIdx h)).gen }))
       ∧ (s.partStopped p = true →
         exec (.eventDestroy r p) s = .next (({ s with gs := { s.gs with held := s.gs.held ++ [.destroyEvent p h] } } : State).evtFail p 5))
       ∧ (∃ u, exec (.eventReset r p) s = .next u ∧ (u.evtAt p (hIdx h)).signalled = false ∧ (u.evtAt p (hIdx h)).error = false)
       ∧ (∃ u, exec (.eventSignal r p) s = .next u ∧ (u.evtAt p (hIdx h)).signalled = true)
       ∧ exec (.eventQuery r p) s = .next (s.evtResult p (s.evtAt p (hIdx h))))
     ∧ (∀ d, hIdx t < s.objCap p → (s.objAt p (hIdx t)).gen = hGen t → (s.objAt p (hIdx t)).st ≠ .free → (s.objAt p (hIdx t)).kind = 3 → (s.objAt p (hIdx t)).remote = false →
         s.hbmOf p (s.objAt p (hIdx t)).addr.toNat 8 = some d → s.serves (domHbm (stackOf d)) = true →
         ∃ u, exec (.timelineSignal r p) s = .next u
           ∧ u.tlRead p (s.objAt p (hIdx t)).addr = tlMax (s.tlRead p (s.objAt p (hIdx t)).addr) (s.reg64 (b + 0x874) (b + 0x878))))
  ∧ (∀ (o v : W64), (tlMax o v).toNat % 2 ^ 63 = max (o.toNat % 2 ^ 63) (v.toNat % 2 ^ 63) ∧ (tlMax o v).msb = (o.msb || v.msb)
       ∧ tlMax (tlMax o v) v = tlMax o v ∧ tlMax o v = tlMax v o)

/-- R338, R341 to R343: arming a free slot on a live event of the partition that is not signalled arms it; a DISARM disarms one that no command holds. A
due slot fires: it disarms and adds 1 to its semaphore, or brings a notice. The oldest notice of a context whose ring has room is written there and
counted, with its message; a context's read index takes the value written. -/
def Obligations.WaitersAndNotices : Prop :=
  ∀ (s : State) (r : Req) (p : PartId) (k : BitVec 14) (c : CtxId) (w : W32),
    let b := partBase p
    let h := s.reg (b + 0x880)
    let tgt := s.reg (b + 0x88C)
    let y := s.waiterAt p k.toNat
    (s.partReq r p = true → s.hgtReady = true → k.toNat < s.slotCap p →
      (∀ e, y.armed = false → fld tgt 31 24 < s.ctxCap p → (bit tgt 16 = true ∨ s.partOf (tgt.extractLsb' 0 12) = some p) → s.evtResolve p h = .ok e → e.signalled = false →
        exec (.waiterArm r p k false) s = .next ((s.wsResult p k 1).setWaiter p k.toNat
          { y with armed := true, handle := h, tl := false, val := s.reg64 (b + 0x884) (b + 0x888), owner := tgt.extractLsb' 24 8,
                   tgt := if bit tgt 16 then .notice else .sem (tgt.extractLsb' 0 12) (tgt.extractLsb' 12 4) }))
      ∧ (y.armed = true → exec (.waiterArm r p k false) s = .next (s.wsResult p k 5))
      ∧ (y.armed = true → (∀ q, y.tgt ≠ .command q) → exec (.waiterDisarm r p k) s = .next (((s.disarm p k.toNat).wsResult p k 1).takeWaits p)))
    ∧ (y.armed = true → y.due = true →
      let s1 := (s.disarm p k.toNat).traceUnit p 0x03 5 0 k.toNat (some y.owner)
      (∀ t n, y.tgt = .sem t n → s1.runs t = true → exec (.waiterFire p k) s = .next (((s1.addSem t n 1 (posterCode 4 k.toNat)).1).takeWaits p))
      ∧ (y.tgt = .notice → exec (.waiterFire p k) s
          = .next ((s1.notice p y.owner { s1.blankNotice p 3 0 y.owner true with tag := mkHandle k.toNat y.gen }).takeWaits p)))
    ∧ (∀ n l, let x := s.ctxAt p c
      x.waiting = n :: l → x.st ≠ .free → x.full = false →
      let s1 := (s.hostWrite x.pasidOf (x.ring.toNat + 64 * (x.nwrite.toNat % 2 ^ x.nlog2.toNat)) (n.bytes x.phase)).setCtx p c { x with waiting := l, nwrite := x.nwrite + 1 }
      exec (.noticeRecordWrite p c) s = .next (match noticeVector p x n with | none => s1 | some o => s1.send o))
    ∧ (s.partReq r p = true →
        exec (.noticeReadUpdate r p c w) s = .next (s.setCtx p c { s.ctxAt p c with nread := w.extractLsb' 0 17 }))

/-- R327 to R334, R339: the next command of a queue whose turn it is dispatches: a NOP completes with OK (0), with FENCE_ERROR (8) where its fence carries
an error; a LAUNCH whose package is sound and whose domains serve is staged on its rectangle, and one whose package is not completes with
INVALID_PROGRAM (7). A staged LAUNCH whose streams are done starts the engines its package has code for; one whose tiles are done completes; one that
runs past the watchdog loses its context (0x22). A completed command's signal of an event is applied, with error where it ended in one. -/
def Obligations.CommandsRun : Prop :=
  ∀ (s : State) (p : PartId) (q : QueueId) (m : Cmd),
    let Q := s.queueAt p q
    let tiles := fun (b : LaunchBody) => (s.launchCols p b).flatMap tilesOfCol
    (Q.next = some m → s.turn p q = true →
      (m.launch = none → exec (.cmdNop p q) s = .next (((s.served p q).finishNext p q m (if m.waitErr then 8 else 0) false).takeWaits p))
      ∧ (∀ b k slot args, m.launch = some b → s.headReady p Q m = true → m.waitErr = false → s.freeStage p = some slot → s.launchAsleep p b slot = [] → b.args = 0 →
          let s1 := s.served p q
          s1.readPkg p (s1.objAt p (hIdx b.prog)) = some k →
          (s1.pkgOk (s1.ctxAt p Q.ctx) k (tiles b) = true → exec (.cmdLaunch p q args) s = .next ((s1.stageLaunch p q m b k slot args).takeWaits p))
          ∧ (s1.pkgOk (s1.ctxAt p Q.ctx) k (tiles b) = false → (∃ c ∈ s.launchCols p b, s.packageAt c ≠ b.prog) →
              exec (.cmdLaunch p q args) s = .next ((s1.finishNext p q m 7 true).takeWaits p))))
    ∧ (∀ b, m.launch = some b →
      ((Q.cmds.find? fun m => decide (m.st = .staging) && m.launch.any fun b => (tiles b).all fun t => s.staged t) = some m →
        (∀ y ∈ m.shapes, y.2.2.toNat ≤ y.2.1.toNat ∧ (y.1 = false ∨ y.2.2 ≠ 0)) →
        exec (.launchEngineStart p q) s = .next (each (s.setQueue p q (Q.swap m { m with st := .running })) (tiles b) fun u t =>
          each (if m.engs = 0 then u else u.identify t m.tag m.layer m.operator (s.ctxAt p Q.ctx).fa1) engines fun u e =>
            if m.engs.getLsbD e.toNat then u.startOp t e 0 else u))
      ∧ ((Q.cmds.find? fun m => decide (m.st = .running) && m.launch.any fun b => (tiles b).all fun t => s.tileDone t) = some m →
        exec (.launchComplete p q) s = .next (((each s (tiles b) fun u t => u.closeWindow t).complete p fun q' _ m' => if q' = q ∧ m' = m then some 0 else none).takeWaits p))
      ∧ ((Q.cmds.find? fun m => m.isRunning && m.launch.isSome) = some m → s.regF (partBase p + 0x8B8) 23 0 ≠ 0 →
        exec (.launchWatchdog p q) s
          = .next ((s.reach (m.since + BitVec.ofNat 64 (s.regF (partBase p + 0x8B8) 23 0 * 1000 + 1))).loseCtx p Q.ctx 0x22 (.cmd q m) 0 0 0)))
    ∧ (∀ st, (Q.cmds.find? (·.isDone)) = some m → m.st = .done st → m.sigTl = false →
        exec (.commandSignalApply p q) s = .next ((((s.setQueue p q { Q with cmds := Q.cmds.erase m }).signal p false m.signal m.sigVal (decide (1 < st.toNat))).fireDue p).takeWaits p))

/-! ## Control cores and interrupt controllers (R350 to R371) -/

/-- R356 to R359, R364, R368, R371: writes of an interrupt controller by its writers: the doorbell raises a source 256 to 447 and counts any other as bad;
enables and pending bits are set and cleared but those that the spec fixes (source 0; 3 to 5 enabled; 1 to 5 pending; a source that the controller has not, and
source 7 by a colony core, are not set); counters clear, and a pop drops
the oldest record of its severity. The compare match raises source 6 once, until a write of INT_TIMECMP re-arms it; a group's moderation runs out
while an enabled source of it is pending. -/
def Obligations.InterruptControllers : Prop :=
  ∀ (s : State) (r : Req) (c : CoreId) (n : BitVec 3) (g : BitVec 4) (w : W32) (hi : Bool),
    let en := intBase c + 0x100 + 4 * n.toNat
    let pd := intBase c + 0x140 + 4 * n.toNat
    let m := fun (fixed : W32) => if n = 0 then w &&& ~~~fixed else w
    let k := s.ctlAt c
    (s.intReq r c = true →
      (256 ≤ fld w 8 0 → fld w 8 0 < 448 → exec (.intDoorbellWrite r c w) s = .next (s.raise c (fld w 8 0)))
      ∧ ((fld w 8 0 < 256 ∨ 448 ≤ fld w 8 0) → exec (.intDoorbellWrite r c w) s = .next (s.incReg (intBase c + 4) 7 0 1))
      ∧ exec (.intEnableSet r c n w) s = .next (if s.chitin.loadPassed then s.setReg en (s.reg en ||| m 0x39) else s)
      ∧ exec (.intPendingSet r c n w) s = .next (s.setReg pd (s.reg pd ||| (w &&& pendMask r c n.toNat)))
      ∧ (∃ u, exec (.intEnableClear r c n w) s = .next u ∧ u.reg en = s.reg en &&& ~~~(m 0x39))
      ∧ (∃ u, exec (.intPendingClear r c n w) s = .next u ∧ u.reg pd = s.reg pd &&& ~~~(m 0x3F))
      ∧ exec (.intStatClear r c) s = .next (s.setReg (intBase c + 4) 0)
      ∧ exec (.errorLostcntClear r c) s = .next (s.setReg (intBase c + 0x400) (setFld (s.reg (intBase c + 0x400)) 31 16 0))
      ∧ (∀ x l, k.fifo = x :: l → x.sev.toNat = fld (s.reg (intBase c + 0x404)) 2 0 → exec (.errorRecordPop r c) s = .next (s.setCtl c { k with fifo := l })))
    ∧ (k.timerFired = false → ∃ u, exec (.timerCompareMatch c) s = .next u ∧ (u.ctlAt c).timerFired = true ∧ u.srcPending c 6 = true)
    ∧ (k.timerFired = true → exec (.timerCompareMatch c) s = .next s)
    ∧ (s.coreRuns c = true → (s.coreAt c).priv = 3 → ∃ u, exec (.timecmpWrite c hi w) s = .next u ∧ (u.ctlAt c).timerFired = false
        ∧ u.timecmp c = if hi then w ++ s.csr c 0x7C5 else s.csr c 0x7C6 ++ w)
    ∧ (s.groupCount c g.toNat ≠ 0 → ∃ u, exec (.moderationTimeout c g) s = .next u ∧ (u.ctlAt c).modExpired.getLsbD g.toNat = true)

/-- R368, R370, R433: the error record FIFO of a controller. An arriving record whose severity, unit, cause, tile and address are those of the newest
record of its severity is merged into that: its repeat goes up (to 127 at most) and all else stays. Any other enters at the end while there is room (8
records at a colony core, 32 at a head core); at a full FIFO lost is set and lostcnt counts up to 0xFFFF, and the record takes the place of the newest
record of the lowest severity held where its own is higher, or is discarded. Sources 1 to 5 are pending exactly while a record of their severity is held. -/
def Obligations.ErrorRecordFifos : Prop :=
  ∀ (s : State) (c : CoreId) (r : ErrRec),
    let l := (s.ctlAt c).fifo
    let u := s.arriveErr c r
    let a := intBase c + 0x400
    let alike := fun (x : ErrRec) => x.sev = r.sev ∧ x.unit = r.unit ∧ x.cause = r.cause ∧ x.tile = r.tile ∧ x.addr = r.addr
    let fresh := ∀ pre x post, l = pre ++ x :: post → x.sev = r.sev → (∀ y ∈ post, y.sev ≠ r.sev) → ¬alike x
    (∀ pre x post, l = pre ++ x :: post → alike x → (∀ y ∈ post, y.sev ≠ r.sev) →
        (u.ctlAt c).fifo = pre ++ { x with rep := BitVec.ofNat 7 (min 127 (x.rep.toNat + 1)) } :: post ∧ u.reg a = s.reg a)
    ∧ (fresh → l.length < (if c.val < 256 then 8 else 32) → (u.ctlAt c).fifo = l ++ [r] ∧ u.reg a = s.reg a)
    ∧ (fresh → (if c.val < 256 then 8 else 32) ≤ l.length →
        bit (u.reg a) 8 = true ∧ fld (u.reg a) 31 16 = min 0xFFFF (fld (s.reg a) 31 16 + 1)
        ∧ (∀ pre x post, l = pre ++ x :: post → (∀ y ∈ l, x.sev.toNat ≤ y.sev.toNat) → (∀ y ∈ post, y.sev ≠ x.sev) →
            (u.ctlAt c).fifo = if x.sev.toNat < r.sev.toNat then pre ++ post ++ [r] else l))
    ∧ (∀ k, 1 ≤ k → k ≤ 5 → (s.srcPending c k = true ↔ ∃ x ∈ l, x.sev.toNat = k))

/-- R350 to R353, R362, R363: a claim by a core that executes, with its interrupts open, presents the highest source: the ranks stack, mepc, mcause and
mstatus save as the standard has it, and the pc is the vector of the source; from WFI moderation holds nothing back. MRET undoes it. An access that
reaches nothing, or that PMP denies, and a misaligned one of the A extension trap to mtvec with the standard's cause; a load of the core's own memory fills its
register, an AMO there leaves its result as well, a store in the HBM window writes device memory. A write from outside reaches a colony core's memory. -/
def Obligations.TrapsAndReturns : Prop :=
  ∀ (s : State) (r : Req) (c : CoreId) (pc a : W32) (k : CoreAccess) (col : ColId) (off : BitVec 17) (w : W32) (wfi : Bool),
    let v := s.setCore c { s.coreAt c with wfi := wfi }
    let place := s.coreTarget c k a.toNat
    let old := BitVec.ofNat 32 (leNat ((List.range 4).map fun i => s.cmemB (BitVec.ofNat 8 c.val) (a.toNat + i)))
    let traps := fun (cause : W32) => ∃ u, exec (.coreAccessFault c k a pc) s = .next u ∧ u.csr c 0x342 = cause ∧ u.csr c 0x341 = pc &&& 0xFFFFFFFE
      ∧ (u.coreAt c).pc = s.csr c 0x305 &&& 0xFFFFFFFC ∧ (u.coreAt c).priv = 3
    (s.coreRuns c = true →
      ((bit (s.csr c 0x300) 3 = true ∨ (s.coreAt c).priv = 0) → ∃ u, exec (.interruptClaim c ⟨pc, wfi⟩) s = .next u
        ∧ u.csr c 0x7C3 = s.csr c 0xFC0 ∧ u.csr c 0x7C4 = s.csr c 0x7C2 ∧ u.csr c 0xFC0 = BitVec.ofNat 32 (v.presented c)
        ∧ (v.presented c ≠ 0 → u.csr c 0x7C2 = BitVec.ofNat 32 (s.srcPrio c (v.presented c)))
        ∧ u.csr c 0x341 = pc &&& 0xFFFFFFFE ∧ u.csr c 0x342 = 0x8000000B ∧ bit (u.csr c 0x300) 3 = false ∧ bit (u.csr c 0x300) 7 = bit (s.csr c 0x300) 3
        ∧ fld (u.csr c 0x300) 12 11 = (s.coreAt c).priv.toNat ∧ (u.coreAt c).priv = 3
        ∧ (u.coreAt c).pc = (s.csr c 0x7C0 &&& 0xFFFFFFF0) + BitVec.ofNat 32 (16 * v.presented c))
      ∧ ((s.coreAt c).priv = 3 → ∃ u, exec (.mret c) s = .next u ∧ u.csr c 0xFC0 = s.csr c 0x7C3 ∧ u.csr c 0x7C2 = s.csr c 0x7C4 ∧ (u.coreAt c).pc = s.csr c 0x341
        ∧ (u.coreAt c).priv.toNat = fld (s.csr c 0x300) 12 11 ∧ bit (u.csr c 0x300) 3 = bit (s.csr c 0x300) 7 ∧ bit (u.csr c 0x300) 7 = true)
      ∧ (alignCause a.toNat k = none → place = none → traps (faultCause k)) ∧ (∀ x, alignCause a.toNat k = some x → traps x)
      ∧ (∀ o rd n sgn, place = some (.own o) → k = .load rd n sgn false → exec (.coreAccessFault c k a pc) s = .next ((s.awake c).setGpr c rd.toNat
          (extend (accBytes k) sgn (leNat ((List.range (accBytes k)).map fun i => s.cmemB (BitVec.ofNat 8 c.val) (o + i))))))
      ∧ (∀ op rd x, place = some (.own a.toNat) → k = .amo op rd x false → a.toNat % 4 = 0 → exec (.coreAccessFault c k a pc) s
          = .next (((s.awake c).coreWrite c (.own a.toNat) 4 (amoRes op old x)).setGpr c rd.toNat old))
      ∧ (∀ h n x, place = some (.hbm h) → k = .store n x → s.serves (domHbm (stackOf h)) = true →
          exec (.coreAccessFault c k a pc) s = .next ((s.awake c).putHbm h (natLe (accBytes k) (x.toNat % 2 ^ (8 * accBytes k))) false)))
    ∧ (s.cmemReq r col = true → off.toNat < 0x18000 → ∃ u, exec (.coreMemoryExternalWrite r col off w) s = .next u ∧ u.cmemW col off.toNat = w)

/-! ## Registers by address (R13, R18, R444, R458, R472 to R474) -/

/-- R18, R350, R352, R356, R446, R472, R473, R458: a write that does not reach a register leaves the machine as it is, and so does a read, but that one of a
tile's observation registers reads 0; a core's own access there, or where PMP denies it, raises an access
fault (load 5, store 7), and a CSR that its mode does not open an illegal instruction (2); an unoccupied address discards writes and reads 0. The
headgate's staged registers of a partition take and give the whole word for its virtual function. The colony access pair writes and reads what its
address names where that is in reach and marks itself refused elsewhere, a REGACC access that its lock does not let through marks itself so. -/
def Obligations.RegisterAccess : Prop :=
  ∀ (s : State) (r : Req) (p : PartId) (a w : W32) (o : Nat),
    let k := (s.setPart p { s.partAt p with vfRefused := true })
    let traps := fun (i : Instr) (c : CoreId) (cause : W32) => ∃ u, exec i s = .next u ∧ u.csr c 0x342 = cause ∧ (u.coreAt c).pc = s.csr c 0x305 &&& 0xFFFFFFFC
      ∧ (u.coreAt c).priv = 3 ∧ u.regs = s.regs
    (s.reaches r a.toNat = false → reqCore r = none → exec (.registerWrite r (.addr a) w) s = .next s
        ∧ exec (.lowWordRead r (.addr a)) s = .next (s.readsZero r a.toNat)
        ∧ (∀ t i, r ≠ .tap → locate a.toNat = some (.obs t, i) → s.readsZero r a.toNat = { s with readData := 0 }))
    ∧ (∀ c, s.reaches r a.toNat = false → reqCore r = some c → s.coreRuns c = true → s.coreSees c a.toNat = false →
        traps (.registerWrite r (.addr a) w) c 7 ∧ traps (.lowWordRead r (.addr a)) c 5)
    ∧ (∀ c, reqCore r = some c → s.coreRuns c = true → (s.pmpReg r 2 a.toNat = false → traps (.registerWrite r (.addr a) w) c 7)
        ∧ (s.pmpReg r 1 a.toNat = false → traps (.lowWordRead r (.addr a)) c 5))
    ∧ (∀ c n, reqCore r = some c → s.coreRuns c = true → (s.csrMay c n.toNat true = true → exec (.registerWrite r (.csr c n) w) s = .next ((s.awake c).csrSet c n.toNat w))
        ∧ (s.csrMay c n.toNat false = false → traps (.lowWordRead r (.csr c n)) c 2))
    ∧ (s.reaches r a.toNat = true → s.pmpReg r 1 a.toNat = true → s.pmpReg r 2 a.toNat = true → locate a.toNat = none →
        exec (.registerWrite r (.addr a) w) s = .next s
        ∧ (s.answersRead r a.toNat = true → (a.toNat < 4 ∨ isLow (a.toNat - 4) = false) → ∃ u, exec (.lowWordRead r (.addr a)) s = .next u ∧ u.readData = 0))
    ∧ (o ∈ [0x800, 0x804, 0x820, 0x824, 0x840, 0x844, 0x874, 0x878, 0x884, 0x888] →
        exec (.registerWrite (.vf p) (.addr (BitVec.ofNat 32 (partBase p + o))) w) s = .next (s.plainWrite (partBase p + o) w)
        ∧ exec (.lowWordRead (.vf p) (.addr (BitVec.ofNat 32 (partBase p + o)))) s = .next { s with readData := s.reg (partBase p + o) })
    ∧ (∀ b, s.pairAddr p = some b → exec (.vfIndirectWrite (.vf p) p w) s = .next (s.writeAt (.vf p) b w) ∧ exec (.vfIndirectRead (.vf p) p) s = .next (s.readAt (.vf p) b))
    ∧ (s.pairAddr p = none → exec (.vfIndirectWrite (.vf p) p w) s = .next k ∧ exec (.vfIndirectRead (.vf p) p) s = .next { k with readData := 0 })
    ∧ (∀ wr, s.tapAccepts wr a.toNat = false →
        exec (.tapRegacc wr a w) s = .next { s with chitin := { s.chitin with tapIr := 0x18, tapRefused := true } })
    ∧ (let s1 : State := { s with chitin := { s.chitin with tapIr := 0x18, tapRefused := false } }
       (s.tapAccepts true a.toNat = true → exec (.tapRegacc true a w) s = .next (s1.regWrite .tap a.toNat w))
       ∧ (s.tapAccepts false a.toNat = true → ∃ u, exec (.tapRegacc false a w) s = .next u ∧ u.readData = (s1.readReg .tap a.toNat).readData
           ∧ u.chitin.tapData = u.readData))

/-! ## Observation (R438 to R470) -/

/-- R443, R445, R446, R452, R454, R468, R469: a window mark copies the tile's counters and starts them from 0, its end copies them and closes the window;
a light sample adds its energy; a tile's packet carries its two oldest records over the canal to the sink, and the sink's oldest goes to the ring where that has
room, else it is lost and counted; the read index and lost counts take their writes; a beacon counts itself. -/
def Obligations.TraceAndWindows : Prop :=
  ∀ (s : State) (r : Req) (t : TileId) (p : PartId) (w : W32) (mJ i : Nat),
    (s.obsReq r t false = true → i < 16 →
      (∃ u, exec (.windowMark r t) s = .next u ∧ u.reg (obsBase t + 4 * i) = 0 ∧ u.reg (obsBase t + 0x40 + 4 * i) = s.reg (obsBase t + 4 * i) ∧ (u.tileAt t).inwin = true)
      ∧ (∃ u, exec (.windowEnd r t) s = .next u ∧ u.reg (obsBase t + 0x80 + 4 * i) = s.reg (obsBase t + 4 * i) ∧ (u.tileAt t).inwin = false))
    ∧ (∃ u, exec (.lightCounterSample mJ) s = .next u ∧ u.reg64 (dbgBase + 48) (dbgBase + 52) = s.reg64 (dbgBase + 48) (dbgBase + 52) + BitVec.ofNat 64 mJ)
    ∧ ((s.tileAt t).fifo ≠ [] → (s.tileAt t).fifoLost = 0 → s.partOf t = some p → exec (.tracePacketSend t) s
        = .next ((s.setTile t { s.tileAt t with fifo := (s.tileAt t).fifo.drop 2, fifoLost := 0 }).inject
            { cls := .trace, src := .tile t, dst := .spine (BitVec.ofNat 2 (dieOf t)), data := 1, load := .traces p ((s.tileAt t).fifo.take 2), bad := false }))
    ∧ (∀ g l (k : CanPkt), k.load = .traces g l → ((s.canalArrive k).partAt g).sink = (s.partAt g).sink ++ l)
    ∧ (∀ x l, let s1 := s.bringTrace p
        (∀ d ∈ s1.ringDom p, s1.serves d = true) → (s1.partAt p).trLostPend = 0 → (s1.partAt p).sink = x :: l →
        (s1.trFull p = false → exec (.traceRingWrite p) s = .next ((s1.setPart p { s1.partAt p with sink := l }).ringPut p x))
        ∧ (s1.trFull p = true → exec (.traceRingWrite p) s = .next (s1.setPart p { s1.partAt p with
            sink := l, trLostPend := (s1.partAt p).trLostPend + 1, trLost := BitVec.ofNat 16 (min 0xFFFF ((s1.partAt p).trLost.toNat + 1)) })))
    ∧ (s.partReq r p = true → exec (.traceReadUpdate r p w) s = .next (s.plainWrite (partBase p + 0x750) w)
        ∧ exec (.traceLostClear r p) s = .next (s.setPart p { s.partAt p with trLost := 0 }))
    ∧ (s.obsReq r t true = true → exec (.tileTraceLostClear r t) s = .next (s.setReg (obsBase t + 0xFC) (setFld (s.reg (obsBase t + 0xFC)) 15 0 0)))
    ∧ (fld (s.reg (dbgBase + 0x140)) 23 0 ≠ 0 → ∃ u, exec .fireflyBeacon s = .next u ∧ u.reg (dbgBase + 0x144) = s.reg (dbgBase + 0x144) + 1)

/-- R457, R459 to R464: a stop begins when it is asked for, and one asked for during a stop is merged; a trigger halts its core. The marker halts every
engine of its tile that is, as it arrives over the canal, in RUN, WAIT or STOPPED. On a device stop that sends STOP, each ACTIVE port sends it. Once everything has settled the
machine is stopped, with no snapshot asked for none is written; a release lets every engine that the stop halted go on from where it stood. -/
def Obligations.GlobalStops : Prop :=
  ∀ (s : State) (r : Req) (t : TileId) (c : CoreId) (e : EngId) (w : W32) (p : PortId),
    (s.dbgReq r = true → r ≠ .chitin →
      (s.gs.st = .running → ∃ u, exec (.globalStopGo r w) s = .next u ∧ u.gs.st = .stopping ∧ u.gs.device = bit w 2 ∧ u.gs.part.toNat = fld w 9 4)
      ∧ (s.gs.st ≠ .running → exec (.globalStopGo r w) s = .next { s with gs := { s.gs with merged := BitVec.ofNat 16 (min 0xFFFF (s.gs.merged.toNat + 1)) } })
      ∧ (s.gs.st = .stopped → s.gs.held = [] → t ∈ s.scopeTiles → ∃ u, exec (.globalStopRelease r) s = .next u ∧ u.gs.st = .running ∧ (u.tileAt t).marker = false
          ∧ ((s.engAt t e).st = .halted → (s.engAt t e).gstop = true → (u.engAt t e).st = (s.engAt t e).before ∧ (u.engAt t e).pc = (s.engAt t e).pc)))
    ∧ ((s.coreAt c).inReset = false → (s.coreAt c).halted = false → ∃ u, exec (.coreTriggerHit c) s = .next u ∧ (u.coreAt c).halted = true)
    ∧ (s.gs.st = .stopping →
      (s.stoppedOver t = true → (s.tileAt t).marker = false → let g := (s.bring fun x => x.canal.marks.contains t).engAt t e
        ∃ u, exec (.stopMarkerArrival t) s = .next u ∧ (u.tileAt t).marker = true
        ∧ ((g.st = .run ∨ g.st = .wait ∨ g.st = .stopped) → (u.engAt t e).st = .halted ∧ (u.engAt t e).before = g.st)
        ∧ ((g.st = .idle ∨ g.st = .faulted ∨ g.st = .halted) → u.engAt t e = g))
      ∧ (s.gs.device = true → bit (s.reg (dbgBase + 0x104)) 2 = true → (s.portAt p).st = .active → ∃ u, exec .vulorStopSend s = .next u ∧ (u.portAt p).stopSent = true)
      ∧ exec .moltVwaitExpiry s = .next { s with gs := { s.gs with vwait := true } }
      ∧ (s.stopSettled = true → s.portsClosed = true → bit (s.reg (dbgBase + 0x104)) 3 = false →
          exec .moltSnapshotWrite s = .next { s with gs := { s.gs with st := .stopped, moltErr := false } }))

/-! ## Chitin: resets, boot, identity (R372 to R398, R412) -/

/-- R388, R409, R412: RESET_N, a keyed write of PWR_DEVRESET, a sensor at 110 °C and power-up reset the device: the memories, engines,
tiles, partitions, contexts, ports, global stop and image take their reset values, and the cause is recorded. Fuses, time stamp, boot record and what has left the device stay, but power-up starts the time
stamp from 0. A write without the key, or of another function, does nothing. -/
def Obligations.DeviceResets : Prop :=
  ∀ (s : State) (r : Req) (w : W32) (temp : Byte),
    let reset := fun (u : State) (cause : Nat) => u.reg (pwrBase + 0x614) = BitVec.ofNat 32 cause ∧ u.spad = [] ∧ u.cis = [] ∧ u.hbm = [] ∧ u.eng = [] ∧ u.tile = State.reset.tile
      ∧ u.part = State.reset.part ∧ u.ctx = [] ∧ u.gs = State.reset.gs ∧ u.port = State.reset.port ∧ u.chitin.image = none ∧ u.chitin.loadPassed = false
      ∧ u.chitin.fuses = s.chitin.fuses ∧ u.out = s.out ∧ u.host = s.host ∧ u.pending = s.pending
    let keeps := fun (u : State) => u.time = s.time ∧ ∀ a, bootRecord a = true → u.reg a = s.reg a
    (∃ u, exec .resetNLow s = .next u ∧ reset u 1 ∧ keeps u ∧ u.chitin.attempts = 0 ∧ u.chitin.st = 0)
    ∧ (s.pfReq r = true → bit w 31 = true → fld w 15 0 = 0xD0E5 → ∃ u, exec (.devresetWrite r w) s = .next u ∧ reset u 4 ∧ keeps u ∧ u.chitin.st = 0)
    ∧ ((s.pfReq r = true ∨ reqCore r = none) → (s.pfReq r = false ∨ fld w 15 0 ≠ 0xD0E5) → exec (.devresetWrite r w) s = .next s)
    ∧ (110 ≤ temp.toNat → ∃ u, exec (.thermalTrip temp) s = .next u ∧ reset u 3 ∧ keeps u ∧ u.gov.trip = true ∧ u.gov.tjMax = temp)
    ∧ (∃ u, exec .powerOn s = .next u ∧ u.time = 0 ∧ u.chitin.attempts = 0 ∧ u.chitin.linkskip = 0 ∧ u.chitin.fuses = s.chitin.fuses
        ∧ fld (u.reg (chiBase + 0x10)) 15 0 = 0)

/-- R375, R381 to R388, R355: a start whose steps all pass loads the image and releases DONE; one whose boot ROM or fuses fail is counted with its step,
and the fourth such attempt leaves the device FAILED (2); after a thermal trip none begins until every sensor reads below 95 °C (R409). DONE high makes it OPERATIONAL (1) and tells the head cores. The page's writes act; the
Debug Module halts and resumes a core where debug is allowed. -/
def Obligations.BootAndDebug : Prop :=
  ∀ (s : State) (r : Req) (i : BootInput) (m : Image) (w : W32) (c : CoreId) (d : Nat),
    let tries := if s.chitin.attempts = 7 then 7 else s.chitin.attempts + 1
    let s0 : State := { s with chitin := { s.chitin with attempts := tries, slotB := s.chitin.nextB } }
    let s1 := ((s0.hbmUp).selfTest i).atStep 5
    let failed := fun (u : State) (step : Nat) => fld (u.reg chiBase) 15 12 = step ∧ u.chitin.attempts = tries ∧ u.chitin.failed = s.chitin.failed + 1
      ∧ u.chitin.st = (if 4 ≤ s.chitin.failed + 1 then 2 else 0) ∧ u.chitin.doneReleased = false
    (s.gov.trip = true → exec (.bootStart i) s = .next s)
    ∧ (s.chitin.st = 0 → s.chitin.doneReleased = false → s.gov.trip = false →
      (i.romOk = false → ∃ u, exec (.bootStart i) s = .next u ∧ failed u 0)
      ∧ (i.romOk = true → i.fusesOk = false → ∃ u, exec (.bootStart i) s = .next u ∧ failed u 1)
      ∧ (i.romOk = true → i.fusesOk = true → i.refClocks = true → i.pllsLock = true → i.stacksTrained = Config.stacks → (∀ n ∈ stackList, i.stacksTrained.getLsbD n = true) →
          i.image = some m → s1.imageFails (some m) i.checks = none → i.checks.segmentsAgain = true → i.checks.stagingReadable = true → i.keysDrawn = true → i.coresReleased = true →
          ∃ u, exec (.bootStart i) s = .next u ∧ u.chitin.doneReleased = true ∧ u.chitin.image = some m ∧ u.chitin.imgSvn = imgSvn m ∧ u.chitin.step = 11 ∧ u.chitin.st = 0))
    ∧ (s.chitin.st = 0 → s.chitin.doneReleased = true → s.chitin.doneLine = false → d < 4 →
        ∃ u, exec .doneLineRise s = .next u ∧ u.chitin.st = 1 ∧ u.chitin.doneLine = true ∧ u.srcPending (headCore d) 33 = true)
    ∧ (s.pfReq r = true →
        (s.chitin.st = 2 → exec (.doneReleaseWrite r) s = .next { s with chitin := { s.chitin with doneReleased := true } })
        ∧ exec (.linkskipClear r w) s = .next { s with chitin := { s.chitin with linkskip := s.chitin.linkskip &&& ~~~(w.extractLsb' 0 6) } }
        ∧ ∃ u, exec (.bootCountersClear r) s = .next u ∧ (∀ n, n < 6 → u.reg (chiBase + 0x10 + 4 * n) = 0) ∧ u.reg chiBase = s.reg chiBase)
    ∧ (s.debugOk = true → s.dm.active = true → (s.coreAt c).inReset = false → (s.coreAt c).dmReset = false → (s.coreAt c).gstop = false →
        let ctl := fun (n : Nat) => Instr.dmiAccess (.write 0x10 (BitVec.ofNat 32 (n * 2 ^ 30 + c.val * 2 ^ 16 + 1)))
        ∃ u v, exec (ctl 2) s = .next u ∧ (u.coreAt c).halted = true ∧ u.chitin.dmiError = false ∧ u.dm.hart = some c
          ∧ exec (ctl 1) s = .next v ∧ v.chitin.dmiError = false
          ∧ ((s.coreAt c).halted = true → bit (s.csr c 0x7B0) 2 = false → (v.coreAt c).halted = false ∧ (v.coreAt c).pc = s.csr c 0x7B1))
    ∧ (s.debugOk = false → ∀ op, exec (.dmiAccess op) s = .next { s with chitin := { s.chitin with dmiError := true } })

/-- R375, R395, R396, R398: before IMAGE_LOAD has passed SPDM requests other than the version and capabilities are answered Busy. After it, each request
in its turn moves the responder on and is answered; the model's codes and states are of log 9, PRESUMED. The end of a session discards every IDE key; a fuse
request with the current counter blows its fuses, the other way never. An attestation request of a loaded partition runs, and ends with its report at
the address asked for. -/
def Obligations.SpdmAndAttestation : Prop :=
  ∀ (s : State) (r : Req) (p : PartId) (k : IdeStream) (key : BitVec 256) (x : BitVec 768) (n : BitVec 256) (ix : Byte) (o l : W16) (fw : FuseWrite) (a : Nat),
    let st := s.chitin.spdm
    (∃ u, exec .spdmGetVersion s = .next u ∧ u.chitin.spdm = .version ∧ u.chitin.resp = .version 0x12)
    ∧ (st ≠ .start → ∃ u, exec .spdmGetCapabilities s = .next u ∧ u.chitin.spdm = .capabilities ∧ u.chitin.resp = .capabilities)
    ∧ (s.chitin.loadPassed = false → ∀ c ∈ [Instr.spdmNegotiateAlgorithms, .spdmGetDigests, .spdmGetCertificate o l, .spdmChallenge n, .spdmGetMeasurements ix, .spdmKeyExchange x,
          .spdmFinish true, .spdmHeartbeat, .spdmKeyUpdate, .spdmEndSession, .ideKmRequest k key, .fuseProvision fw s.chitin.fuses.svn],
        exec c s = .next { s with chitin := { s.chitin with resp := .busy } })
    ∧ (s.chitin.loadPassed = true →
      (st = .capabilities → ∃ u, exec .spdmNegotiateAlgorithms s = .next u ∧ u.chitin.spdm = .algorithms ∧ u.chitin.resp = .algorithms)
      ∧ (st.ready = true →
        exec .spdmGetDigests s = .next (s.answer (.digests (natLe 48 (Config.sha384 s.certChain).toNat)))
        ∧ exec (.spdmGetCertificate o l) s = .next (s.answer (.certificate ((s.certChain.drop o.toNat).take l.toNat)))
        ∧ (∃ u b, exec (.spdmChallenge n) s = .next u ∧ u.chitin.resp = .challengeAuth (natLe 32 n.toNat ++ b))
        ∧ (∀ m, s.chitin.image = some m → s.measureOk ix.toNat = true →
            exec (.spdmGetMeasurements ix) s = .next (s.answer (.measurements ix (natLe 48 (s.measurement m ix.toNat).toNat))))
        ∧ (∀ v c, v = s.chitin.fuses.svn → (∃ u, exec (.fuseProvision fw v) s = .next u ∧ u.chitin.fuses = s.chitin.fuses.provision fw)
            ∧ (c ≠ v → ∃ u, exec (.fuseProvision fw c) s = .next u ∧ u.chitin.fuses = s.chitin.fuses ∧ u.chitin.resp = .invalid)))
      ∧ (st = .algorithms → ∃ u b, exec (.spdmKeyExchange x) s = .next u ∧ u.chitin.spdm = .exchanged ∧ u.chitin.resp = .keyExchange b)
      ∧ (st = .exchanged → ∃ u, exec (.spdmFinish true) s = .next u ∧ u.chitin.spdm = .session ∧ u.chitin.resp = .finish)
      ∧ (st = .session →
        (∃ u, exec .spdmHeartbeat s = .next u ∧ u.chitin.resp = .heartbeat ∧ u.chitin.spdm = .session)
        ∧ (∃ u, exec .spdmKeyUpdate s = .next u ∧ u.chitin.resp = .keyUpdate ∧ u.chitin.spdm = .session)
        ∧ (∃ u, exec .spdmEndSession s = .next u ∧ u.chitin.ide = [] ∧ u.chitin.spdm = .algorithms)
        ∧ (∃ u, exec (.ideKmRequest k key) s = .next u ∧ (k, key) ∈ u.chitin.ide ∧ (∀ y ∈ u.chitin.ide, y.1 = k → y.2 = key))))
    ∧ (s.partReq r p = true → (s.partAt p).loaded = true →
        ((s.partAt p).pattBusy = false → exec (.attestationRequest r p) s = .next (s.setPart p { s.partAt p with pattBusy := true, pattResult := 0 }))
        ∧ ((s.partAt p).pattBusy = true → exec (.attestationRequest r p) s = .next (s.setPart p { s.partAt p with pattOverrun := true })))
    ∧ ((s.partAt p).pattBusy = true → (s.partAt p).resetting = false →
        (s.pattPlace p = none → exec (.attestationReportDone p) s = .next (s.setPart p { s.partAt p with pattBusy := false, pattResult := 2 }))
        ∧ (s.pattPlace p = some a → (∀ i ∈ stacksAt a 512, s.serves (domHbm i) = true) → s.hbmBad a 512 = false →
            ∃ u, exec (.attestationReportDone p) s = .next u ∧ (u.partAt p).pattBusy = false ∧ (u.partAt p).pattResult = 1
              ∧ u.hbmBytes a 48 = (List.range 12).flatMap fun q => natLe 4 (s.reg (partBase p + 0x500 + 4 * q)).toNat))

/-- R391, R392, R412: a write of PWR_PRESET resets a loaded partition that is not being reset and that no stop holds: its ACTIVE contexts are LOST with
code 0x20, and an attestation under way ends with result 3. It completes once all it admitted has: the partition has a key of its own draw, caches no mapping, and its
version grants are 0. -/
def Obligations.PartitionResets : Prop :=
  ∀ (s : State) (r : Req) (p : PartId) (w : W32) (g : PartCfg) (m : Image),
    (s.pwrReq r = true → r ≠ .chitin → bit w 31 = true → p = w.extractLsb' 0 6 → (s.partAt p).loaded = true → (s.partAt p).resetting = false → s.partStopped p = false →
      ∃ u, exec (.partitionReset r w) s = .next u ∧ (u.partAt p).resetting = true ∧ (∀ c, (s.ctxAt p c).st = .active → (u.ctxAt p c).st = .lost ∧ (u.ctxAt p c).code = 0x20)
        ∧ ((s.partAt p).pattBusy = true → (u.partAt p).pattBusy = false ∧ (u.partAt p).pattResult = 3))
    ∧ ((s.partAt p).resetting = true → s.pcfg p = some g → s.chitin.image = some m → s.resetReady p = true →
      ∃ u, exec (.partitionResetComplete p) s = .next u ∧ (u.partAt p).resetting = false ∧ (u.partAt p).mapCache = [] ∧ (u.partAt p).keyDraw = s.chitin.draws + 1
        ∧ fld (u.reg (verReg false p)) 13 12 = 0 ∧ fld (u.reg (verReg true p)) 13 12 = 0)

/-! ## Power (R399 to R415) -/

/-- R401 to R407, R414, R415: a quiet tile domain in RUN enters IDLE and its cores wait; one quiet long enough closes toward SLEEP, or naps, as its limit
allows; a cistern domain idles. A domain whose gate has closed enters its target once all is complete, or opens again where its wake was asked for
meanwhile; a wake starts and ends with the domain in RUN. A request for a wake, or for a low state of a quiet domain, is accepted and acts. -/
def Obligations.PowerDomains : Prop :=
  ∀ (s : State) (r : Req) (d : Fin 64) (e : Fin 16) (z : DomId) (n : BitVec 7) (us : Nat) (p : PartId) (w : W32),
    let k := 1 + d.val
    let q := s.domAt k
    let y := s.domAt z.val
    let cfg := s.reg (pwrBase + 0x300 + 4 * d.val)
    (q.st = 0 → q.phase = 0 → q.gate = false → s.domQuiet k = true → ∃ u, exec (.domainQuietEntry d) s = .next u ∧ (u.domAt k).st = 1 ∧ (u.domAt k).quiet = true
        ∧ ∀ c ∈ domCols k, (s.coreAt (coreOfCol c)).inReset = false → (u.coreAt (coreOfCol c)).wfi = true)
    ∧ (q.quiet = true → q.phase = 0 → q.wakeReq = false → q.st = 1 → s.domQuiet k = true → s.cwakeOf k = none →
        q.quietSince.toNat + 1000 * us ≤ (s.reach (BitVec.ofNat 64 (q.quietSince.toNat + 1000 * us))).time.toNat →
        (s.limitOf k = 2 → fld cfg 23 12 ≤ us → ∃ u, exec (.domainIdleTimeout d us) s = .next u ∧ (u.domAt k).phase = 1 ∧ (u.domAt k).gate = true ∧ (u.domAt k).target = 3)
        ∧ (s.limitOf k = 1 → fld cfg 11 0 ≤ us → ∃ u, exec (.domainIdleTimeout d us) s = .next u ∧ (u.domAt k).st = 2))
    ∧ ((s.domAt (65 + e.val)).st = 0 → (s.domAt (65 + e.val)).phase = 0 → (s.domAt (65 + e.val)).gate = false →
        ∃ u, exec (.cisternIdleTimeout e) s = .next u ∧ (u.domAt (65 + e.val)).st = 1)
    ∧ (y.phase = 1 → y.entering = false →
        (y.wakeReq = false → s.domEligible z.val = false → exec (.closingComplete z) s = .next (s.setDom z.val { y with entering := true }))
        ∧ (y.wakeReq = true → exec (.closingComplete z) s = .next (s.opened z.val)))
    ∧ (y.phase = 1 → y.entering = true → ∃ u, exec (.lowStateEntryComplete z) s = .next u ∧ (u.domAt z.val).st = y.target ∧ (u.domAt z.val).entering = false
        ∧ (u.domAt z.val).phase = if y.wakeReq then 2 else 0)
    ∧ (s.wakes z.val = true → y.wakeReq = true → y.phase = 0 → y.st ≠ 0 → exec (.domainWakeStart z) s = .next (s.setDom z.val { y with phase := 2, wakeReq := false, quiet := false }))
    ∧ (y.phase = 2 → y.st ≠ 4 → exec (.domainWakeComplete z true) s = .next (s.opened z.val))
    ∧ (∀ v, s.cwakeOf k = some v → exec (.cwakeTimeReached d) s = .next ((s.reach (BitVec.ofNat 64 v)).wakeUp k))
    ∧ (s.pwrReq r = true → 1 ≤ n.toNat → n.toNat ≤ 64 → s.domOwned n.toNat = true → s.domStopped n.toNat = false → s.domResetting n.toNat = false →
        exec (.powerRequestWake r n) s = .next ((s.reqResult 1).wakeUp n.toNat)
        ∧ ((s.domAt n.toNat).phase = 0 → (s.domAt n.toNat).wakeReq = false → (s.domAt n.toNat).st.toNat ≤ 2 → s.mayLeave n.toNat 3 = true →
            exec (.powerRequestToState r n 3) s = .next ((s.close n.toNat 3).reqResult 1)))
    ∧ (s.partReq r p = true → bit w 31 = true → fld w 9 8 = 0 → 1 + fld w 7 0 ∈ s.tdomsOf p →
        exec (.partitionWakeWrite r p w) s = .next ((s.setPart p { s.partAt p with pwakeDom := 1 + fld w 7 0 }).wakeUp (1 + fld w 7 0)))

/-- R408, R409, R411: the governor at its sample: a hot die or a lowered cap sets every stage to its lowest, a draw above the cap or a throttle lowers one
step, one far below it restores one; before the image is loaded PWR_CAP has no effect (what the governor compares with then is log 103's choice); a cap outside 600 to 1800 W is refused. A junction at 105 °C is hot until it reads below 100 °C, one at 100 °C
throttles until below 97 °C; an HBM stack at 95 °C runs at half rate until below 92 °C, above 85 °C at doubled refresh. -/
def Obligations.GovernorAndThermal : Prop :=
  ∀ (s : State) (r : Req) (c : Byte) (n : BitVec 3) (w : W32) (x m : Nat),
    let g := s.gov
    let cap := if s.chitin.loadPassed then s.regF pwrBase 10 0 else 2 * max x m + 1
    let t := c.toNat
    let a := pwrBase + 0x700 + 4 * n.toNat
    let done := fun (u : State) => ({ u with gov := { u.gov with capLowered := false, pkgW := BitVec.ofNat 11 (min 2047 m), floorOver := u.atFloor && decide (cap < m) } } : State)
    let junction := fun (i : Instr) => ∃ u, exec i s = .next u ∧ u.gov.tjMax = c ∧ u.gov.hot = (decide (105 ≤ t) || (g.hot && decide (100 ≤ t)))
      ∧ u.gov.jThrottle = (decide (100 ≤ t) || (g.jThrottle && decide (97 ≤ t)))
      ∧ u.gov.thermCnt = if u.gov.hot && !g.hot then BitVec.ofNat 16 (min 0xFFFF (g.thermCnt.toNat + 1)) else g.thermCnt
    let stack := fun (i : Instr) => ∃ u, exec i s = .next u ∧ fld (u.reg a) 7 0 = t ∧ bit (u.reg a) 8 = decide (85 < t) ∧ bit (u.reg a) 9 = (decide (95 ≤ t) || (bit (s.reg a) 9 && decide (92 ≤ t)))
    ((g.hot = true ∨ g.capLowered = true) → exec (.governorSample x m) s = .next (done s.allLowest))
    ∧ (g.hot = false → g.capLowered = false →
      ((cap < x ∨ g.jThrottle = true) → exec (.governorSample x m) s = .next (done s.lowerStep))
      ∧ (x ≤ cap → g.jThrottle = false → x * 100 < cap * (100 - s.regF (pwrBase + 0x008) 11 8) → exec (.governorSample x m) s = .next (done s.raiseStep)))
    ∧ (s.chitin.loadPassed = false → (s.pwrReq r = true ∨ reqCore r = none) → exec (.capWrite r w) s = .next s)
    ∧ (s.pwrReq r = true → s.chitin.loadPassed = true → (fld w 10 0 < 600 ∨ 1800 < fld w 10 0 → exec (.capWrite r w) s = .next { s with gov := { g with capRefused := true } })
        ∧ (600 ≤ fld w 10 0 → fld w 10 0 ≤ 1800 → ∃ u, exec (.capWrite r w) s = .next u ∧ u.reg pwrBase = BitVec.ofNat 32 (fld w 10 0)
            ∧ u.gov.capLowered = (g.capLowered || decide (fld w 10 0 < cap))))
    ∧ junction (.junctionThrottle c) ∧ junction (.junctionHot c)
    ∧ (n.toNat ∈ stackList → stack (.hbmStackThrottle n c) ∧ stack (.hbmRefreshDouble n c))

/-! ## Reliability (R420 to R436) -/

/-- R422, R428 to R431, R435, R436: a working weevil starts a pass with a flipped bit in its canary; a scrub of a clean granule moves on alone, one that
corrects is counted and recorded as well, one that cannot is poison from then on; a pass whose canary was fixed ends counted, else, as at a parity
error, the weevil halts until chitin's reload; no pass ends and no parity error stops it while the tile's domain is below IDLE, and no pass ends in QUARANTINE. The HBM patrol counts and marks a line alike. The counters clear. -/
def Obligations.WeevilAndPatrol : Prop :=
  ∀ (s : State) (r : Req) (t : TileId) (c : ColId) (n : BitVec 3) (a : W64) (syn : BitVec 16) (place : Byte),
    let tl := s.tileAt t
    let i := tl.wvIndex.toNat
    let o := dbgBase + 0x800 + 4 * n.toNat
    let next := fun (u : State) => u.setTile t ((u.tileAt t).wvNext (bit (s.tr t 0x1E60) 16) (bit (s.tr t 0x1E60) 17 && s.serves (domCis t)))
    (s.wvWorks t = true →
      (tl.wvIn = false → ∃ u, exec (.weevilPassStart t) s = .next u ∧ (u.tileAt t).wvIn = true ∧ (u.tileAt t).wvRegion = 0 ∧ (u.tileAt t).canary.getLsbD (tl.wvPassNo % 8) = true)
      ∧ (tl.wvIn = true → tl.wvDone = false → exec (.weevilScrubAccess t .clean) s = .next (next s)
        ∧ (tl.wvRegion = 1 → s.spadP t i = false →
            exec (.weevilScrubAccess t (.corrected syn place)) s = .next (next (s.wvErr t 0x1E40 false .spad (64 * i + 4 * tl.wvSub.toNat) syn place))
            ∧ exec (.weevilScrubAccess t (.uncorrectable syn place)) s
                = .next (next ((s.markSpad t i true).wvErr t 0x1E40 true .spad (64 * i + 4 * tl.wvSub.toNat) syn place)))
        ∧ (tl.wvRegion = 1 → s.spadP t i = true → exec (.weevilScrubAccess t (.corrected syn place)) s = .next (next s))))
    ∧ (s.wvWorks t = false → exec (.weevilPassEnd t) s = .next s) ∧ (s.wvUp t = false → exec (.scrubFault t .parity) s = .next s)
    ∧ (s.wvWorks t = true → tl.wvIn = true → tl.wvDone = true →
      (tl.wvCanaryFixed = true → ∃ u, exec (.weevilPassEnd t) s = .next u ∧ (u.tileAt t).wvIn = false ∧ (u.tileAt t).wvPasses = BitVec.ofNat 16 (min 0xFFFF (tl.wvPasses.toNat + 1)))
      ∧ (tl.wvCanaryFixed = false → exec (.weevilPassEnd t) s = .next (s.scrubFault t .canaryMissed) ∧ exec (.scrubFault t .canaryMissed) s = .next (s.scrubFault t .canaryMissed)))
    ∧ (s.wvUp t = true → ∃ u, exec (.scrubFault t .parity) s = .next u ∧ (u.tileAt t).wv = .halted ∧ (u.tileAt t).wvParity = true)
    ∧ (tl.wv = .halted → (∃ u, exec (.weevilReload t true) s = .next u ∧ (u.tileAt t).wv = .run ∧ (u.tileAt t).wvIn = false)
        ∧ ∃ u, exec (.weevilReload t false) s = .next u ∧ (u.tileAt t).wv = .failed)
    ∧ (n.toNat ∈ stackList → stackOf a.toNat = n.toNat → a.toNat < Config.hbmUnits * 2 ^ 28 → s.serves (domHbm n.toNat) = true → s.hbmP (a.toNat / 64) = false →
        exec (.hbmPatrolScrub n a .clean) s = .next s
        ∧ (∃ u, exec (.hbmPatrolScrub n a (.corrected syn place)) s = .next u ∧ fld (u.reg o) 15 0 = min 0xFFFF (fld (s.reg o) 15 0 + 1) ∧ u.hbm = s.hbm)
        ∧ ∃ u, exec (.hbmPatrolScrub n a (.uncorrectable syn place)) s = .next u ∧ fld (u.reg o) 31 16 = min 0xFFFF (fld (s.reg o) 31 16 + 1) ∧ u.hbmP (a.toNat / 64) = true)
    ∧ (s.tileReq r t .launch = true → ∃ u, exec (.tileEccClear r t) s = .next u ∧ ∀ x ∈ [0x1E40, 0x1E44, 0x1E48, 0x1E4C], u.tr t x = 0)
    ∧ (s.colReq r c = true → exec (.colonyEccClear r c) s = .next (s.setReg (colBase c + 0x1D000) 0))
    ∧ (s.dbgReq r = true → ∃ u, exec (.hbmEccClear r) s = .next u ∧ u.reg o = 0)

/-! ## Reset and invariants -/

/-- Reset leaves no command waiting, the machine starting (0) and not stopped, every engine IDLE at word 0 of bank 0 with no loop, semaphores and scalar
registers 0, no context, no partition loaded, every port OFF, the compare registers all ones and the vector bases 0, and every memory canonical. Where
the spec gives no reset value the model's choice is of log 4, DESIGN CHOICE. -/
def Obligations.ResetValues : Prop :=
  let s := State.reset
  s.pending = [] ∧ s.time = 0 ∧ s.chitin.st = 0 ∧ s.chitin.doneReleased = false ∧ s.gs.st = .running
    ∧ (∀ t e, (s.engAt t e).st = .idle ∧ (s.engAt t e).code = 0 ∧ (s.engAt t e).bank = false ∧ (s.engAt t e).loops = [])
    ∧ (∀ t n, s.semVal t n = 0) ∧ (∀ t e r, s.sR t e r = 0) ∧ (∀ t, (s.tileAt t).owned = false ∧ (s.tileAt t).quar = none)
    ∧ (∀ p c, (s.ctxAt p c).st = .free) ∧ (∀ p, (s.partAt p).loaded = false) ∧ (∀ p, (s.portAt p).st = .off)
    ∧ (∀ c, s.timecmp c = 0xFFFFFFFFFFFFFFFF ∧ s.csr c 0x7C0 = 0)
    ∧ s.Canonical

/-- Every step keeps each byte memory of the machine in its canonical form: keys rise, and no byte is listed that reads as an unlisted one does, so equal
memories are equal data. -/
def Obligations.StepsKeepMemoriesCanonical : Prop :=
  ∀ s t : State, s.Canonical → step s = .next t → t.Canonical

/-- No command stops the machine: from every state, with any command at the front of its queue, the step answers a next state. -/
def Obligations.EveryStepGoesOn : Prop :=  ∀ (s : State), Safe s

/-! ## Frames over families -/

/-- What is commanded of control cores' interrupt controllers, fabric, ports' counters, governor, page of chitin and SPDM touches no byte of any memory:
scratchpads, cisterns with their sidebands, HBM, host memory and core memories read as before, and so do accumulators and vector and predicate
registers. -/
def Obligations.ControlCommandsKeepMemories : Prop :=
  ∀ (s u : State) (r : Req) (c : CoreId) (p : PortId) (t : TileId) (w : W32) (n : BitVec 3) (g : BitVec 4) (k : BitVec 2) (q : BitVec 4) (b : IngressBeat) (o : Byte) (x m : Nat) (hi : Bool)
    (col : ColId) (f v wfi : Bool) (stream : IdeStream) (key : BitVec 256) (e : EngId) (sem : SemId),
    ∀ i ∈ [Instr.intDoorbellWrite r c w, .intEnableSet r c n w, .intEnableClear r c n w, .intPendingSet r c n w, .intPendingClear r c n w, .intStatClear r c, .timecmpWrite c hi w, .timerCompareMatch c,
        .moderationTimeout c g, .interruptClaim c ⟨w, wfi⟩, .mret c, .errorRecordPop r c, .errorLostcntClear r c, .ingressBeat q b, .returnBeatTaken q, .fabricDoorbell c o, .gsrAssert, .gsrDeassert, .gsrHoldExpiry,
        .probeSend col f, .probeResultDue col f v, .fabricCounterClear r, .vulorCounterClear r p, .canalCounterClear r k, .keyEpochAdvance p, .vulCtlEnableWrite r p w, .timeMessagePeriod p,
        .governorSample x m, .capWrite r w, .junctionThrottle o, .junctionHot o, .hbmStackThrottle n o, .hbmRefreshDouble n o, .doneLineRise, .doneReleaseWrite r, .linkskipClear r w, .bootCountersClear r,
        .spdmGetVersion, .spdmGetCapabilities, .spdmNegotiateAlgorithms, .spdmGetDigests, .spdmKeyExchange 0, .spdmFinish v, .spdmHeartbeat, .spdmKeyUpdate, .spdmEndSession, .ideKmRequest stream key,
        .imemArm r t e, .imemDisarm r t e, .semaphoreWrite r t sem w, .srseedWrite r t w, .imemLoadWrite r t w, .windowMark r t, .windowEnd r t, .stopMarkerArrival t, .moltVwaitExpiry,
        .tileEccClear r t, .colonyEccClear r col, .hbmEccClear r],
      exec i s = .next u → u.spad = s.spad ∧ u.cis = s.cis ∧ u.side = s.side ∧ u.hbm = s.hbm ∧ u.host = s.host ∧ u.cmem = s.cmem ∧ u.acc = s.acc ∧ u.vreg = s.vreg ∧ u.preg = s.preg

/-- What a function commands of the headgate's tables (versions, contexts' creation, queues and their tails, objects, the creation,
destruction, reset and query of events, the disarming of waiter slots, read indices)
changes no memory, no engine and no tile's state: scratchpads, cisterns and sidebands, HBM, host memory, accumulators, vector, predicate and scalar
registers and instruction memory read as before. The creation of a context alone takes a tile's owner away: one of the context's number that outlived
its last holder (log 126, DEDUCED). -/
def Obligations.HeadgateCommandsKeepTiles : Prop :=
  ∀ (s u : State) (r : Req) (p : PartId) (c : CtxId) (q : QueueId) (tail : W16) (k : BitVec 14) (x : BitVec 24) (w : W32),
    ∀ i ∈ [Instr.versionRequestFa1 r p, .versionRequestFa2 r p, .versionRequestReserved r p, .contextCreate r p, .queueCreate r p, .queueDestroy r p q, .queueSubmit r p q tail,
        .objectCreate r p, .objectFree r p, .objectQuery r p, .objectRelease p x, .eventCreate r p c, .eventDestroy r p, .eventReset r p, .eventQuery r p,
        .waiterDisarm r p k, .noticeReadUpdate r p c w, .traceReadUpdate r p w, .traceLostClear r p],
      exec i s = .next u → u.spad = s.spad ∧ u.cis = s.cis ∧ u.side = s.side ∧ u.hbm = s.hbm ∧ u.host = s.host ∧ u.cmem = s.cmem ∧ u.acc = s.acc ∧ u.vreg = s.vreg ∧ u.preg = s.preg
        ∧ u.sreg = s.sreg ∧ u.imem = s.imem ∧ u.eng = s.eng ∧ (i ≠ .contextCreate r p → u.tile = s.tile)
        ∧ ∀ t, u.tileAt t = { s.tileAt t with owned := (u.tileAt t).owned }

/-- R5, R31, R199: an instruction of a tile's program, whichever engine issues it and whatever it meets, writes no byte of another tile's scratchpad, no
accumulator entry and no vector or predicate register of another tile. -/
def Obligations.ProgramsKeepToTheirTile : Prop :=
  ∀ (c : Instr) (t : TileId) (e : EngId) (w x : Nat) (s u : State), wordOf c = some (t, e, w, x) → exec c s = .next u →
    ∀ v : TileId, v ≠ t →
      (∀ a, a < 262144 → u.spadB v a = s.spadB v a) ∧ (∀ i, i < 16384 → u.accW v i = s.accW v i)
        ∧ (∀ r l, r < 32 → l < 32 → u.vregL v r l = s.vregL v r l) ∧ ∀ r, r < 8 → u.pregW v r = s.pregW v r
end

