-- ==== Sys2Proof/Laws/Canal.lean ====
section
/-!
SUPPORT. The laws of the canal: what a packet's sending and an arrival's wait can change.
-/
namespace Sys2Proof.Machine

@[simp] theorem Canal.setBuf_pkts (c : Canal) (r : TileId) (k i : Nat) (l : List CanBeat) : (c.setBuf r k i l).pkts = c.pkts := rfl

/-- A packet that sets out changes the canal alone. -/
theorem State.inject_frame (s : State) (p : CanPkt) : s.inject p = { s with canal := (s.inject p).canal } := rfl

@[simp] theorem State.inject_pkts (s : State) (p : CanPkt) : (s.inject p).canal.pkts = s.canal.pkts ++ [(s.canal.next, p)] := rfl

/-- A load cut into packets changes the canal alone. -/
theorem State.injectCut_frame (part : CanLoad) (n : Nat) :
    ∀ (s : State) (p : CanPkt), s.injectCut p part n = { s with canal := (s.injectCut p part n).canal } := by
  induction n with
  | zero => exact fun _ _ => rfl
  | succ n ih =>
    intro s p
    unfold State.injectCut
    split
    · rfl
    · rw [ih, State.inject_frame s]

/-- Nothing under way: cycles of the canal change nothing. -/
theorem State.canalRun_quiet (n : Nat) (s : State) (hb : s.canal.bufs = []) (hf : s.canal.front = []) : State.canalRun n s = s := by
  cases n with
  | zero => rfl
  | succ n => simp [State.canalRun, hb, hf]

/-- What a command waits for has arrived: no cycle passes. -/
@[simp] theorem State.bring_arrived (s : State) (want : State → Bool) (h : want s = true) : s.bring want = s := by
  simp [State.bring, h]

/-- Nothing under way: a cycle changes nothing. -/
theorem State.canalCycle_quiet (s : State) (n : Bool) (hb : s.canal.bufs = []) (hf : s.canal.front = []) : s.canalCycle n = s := by
  simp [State.canalCycle, hb, hf]

/-- Nothing under way: no wait changes anything. -/
theorem State.canalUntil_quiet (want : State → Bool) (n : Nat) (s : State) (hb : s.canal.bufs = []) (hf : s.canal.front = []) :
    State.canalUntil want n s = s := by
  induction n with
  | zero => rfl
  | succ n ih =>
    unfold State.canalUntil
    split
    · rfl
    · rw [State.canalCycle_quiet s false hb hf, ih]

/-- Nothing under way: there is nothing to wait for. -/
theorem State.bring_quiet (s : State) (want : State → Bool) (hb : s.canal.bufs = []) (hf : s.canal.front = []) : s.bring want = s := by
  unfold State.bring
  split
  · rfl
  · exact State.canalUntil_quiet _ _ _ hb hf

theorem State.bringPost_arrived (s : State) (t : TileId) (h : (s.tileAt t).rposts ≠ []) : s.bringPost t = s := by
  apply State.bring_arrived
  cases hr : (s.tileAt t).rposts with
  | nil => exact absurd hr h
  | cons x l => simp

end Sys2Proof.Machine
end

