-- ==== Sys2Proof/Laws/Flits.lean ====
section
/-!
SUPPORT. What a flit's bytes go through (R284): numbers laid out in bytes, lanes, and codewords that arrive whole.
-/
namespace Sys2Proof.Machine

/-! ## Numbers in bytes -/

@[simp] theorem natLe_length : ∀ n v, (natLe n v).length = n
  | 0, _ => rfl
  | n + 1, v => by simp [natLe, natLe_length n]

theorem leNat_natLe : ∀ n v, leNat (natLe n v) = v % 256 ^ n
  | 0, v => by simp [natLe, leNat, Nat.mod_one]
  | n + 1, v => by
    have h : leNat (natLe (n + 1) v) = v % 256 + 256 * leNat (natLe n (v / 256)) := rfl
    rw [h, leNat_natLe n, Nat.pow_succ', Nat.mod_mul]

/-- A list that has its length is not changed by being fitted to it. -/
theorem fit_self (l : List Byte) : fit l.length l = l := by
  apply List.ext_getElem
  · simp [fit]
  · intro i h1 h2
    simp [fit, h2]

@[simp] theorem fit_length (n : Nat) (l : List Byte) : (fit n l).length = n := by simp [fit]

/-! ## Lanes -/

/-- Which bytes of 272 a lane carries. -/
def laneIdx (w k : Nat) : List Nat := ((List.range 272).zipIdx.filter fun x => decide (x.2 % w = k)).map (·.1)

theorem lanesOf_map (w : Nat) (g : Nat → Byte) : lanesOf w ((List.range 272).map g) = (List.range w).map fun k => (laneIdx w k).map g := by
  unfold lanesOf laneIdx
  apply List.map_congr_left
  intro k _
  rw [List.zipIdx_map, List.filter_map, List.map_map, List.map_map]
  rfl

theorem laneIdx_at : ∀ w ∈ [4, 8], ∀ i ∈ List.range 272, i % w < w ∧ (laneIdx w (i % w))[i / w]? = some i := by decide +kernel

/-- What comes out of the lanes is what went in. -/
theorem ofLanes_lanesOf (w : Nat) (hw : w ∈ [4, 8]) (l : List Byte) (hl : l.length = 272) : ofLanes w (lanesOf w l) = l := by
  have h : l = (List.range 272).map fun i => l.getD i 0 := by
    apply List.ext_getElem
    · simp [hl]
    · intro i h1 h2
      simp [h1]
  generalize hg : (fun i => l.getD i 0) = g at h
  rw [h, lanesOf_map]
  unfold ofLanes
  apply List.map_congr_left
  intro i hi
  obtain ⟨h1, h2⟩ := laneIdx_at w hw i hi
  simp [List.getD, h1, h2]

/-! ## Codewords -/

theorem symbolErrors_self (l : List Byte) : symbolErrors l l = 0 := by
  unfold symbolErrors
  induction l with
  | nil => rfl
  | cons a l ih => simpa using ih

@[simp] theorem rsBytes_length (l : List Byte) : (rsBytes l).length = 8 := natLe_length _ _

/-- A body that arrives with its check bytes has no symbol errors in either codeword. -/
theorem wordErrors_whole (body : List Byte) (h : body.length = 256) (k : Nat) (hk : k = 0 ∨ k = 1) : wordErrors (body ++ checkBytes body) body k = 0 := by
  have h1 : (body ++ checkBytes body).take 256 = body := by rw [← h, List.take_left]
  have h2 : ((body ++ checkBytes body).drop (256 + 8 * k)).take 8 = rsBytes (everySecond (body.drop k)) := by
    rw [← h, ← List.drop_drop, List.drop_left]
    rcases hk with rfl | rfl
    · exact List.take_left' (rsBytes_length _)
    · exact (congrArg (List.take 8) (List.drop_left' (rsBytes_length _))).trans (List.take_of_length_le (by simp))
  unfold wordErrors
  rw [h1, h2, symbolErrors_self]

end Sys2Proof.Machine
end

