-- ==== Sys2Proof/Laws/Sparse.lean ====
section
/-!
SUPPORT. The laws of the sparse table: a read after a write, a write elsewhere, and that every write keeps the canonical form.
-/
namespace Sys2Proof.Machine

variable {α : Type}

theorem look_enter_same (d : Nat → α) (m : Sparse α) (k : Nat) (v : α) : look d (enter m k v) k = v := by
  induction m with
  | nil => simp [enter, look]
  | cons x m ih =>
    obtain ⟨j, w⟩ := x
    simp only [enter]
    split
    · simp [look]
    · split
      · simp [look]
      · rename_i h
        have h' : ¬ j = k := fun e => h e.symm
        simp [look, h', ih]

theorem look_enter_other (d : Nat → α) (m : Sparse α) {k j : Nat} (v : α) (h : j ≠ k) :
    look d (enter m k v) j = look d m j := by
  have h' : ¬ k = j := fun e => h e.symm
  induction m with
  | nil => simp [enter, look, h']
  | cons x m ih =>
    obtain ⟨i, w⟩ := x
    simp only [enter]
    split
    · simp [look, h']
    · split
      · rename_i e; subst e; simp [look, h']
      · simp only [look, ih]

theorem look_drop_same (d : Nat → α) (m : Sparse α) (k : Nat) : look d (drop m k) k = d k := by
  induction m with
  | nil => rfl
  | cons x m ih =>
    obtain ⟨j, w⟩ := x
    simp only [drop]
    split
    · exact ih
    · simp_all [look]

theorem look_drop_other (d : Nat → α) (m : Sparse α) {k j : Nat} (h : j ≠ k) : look d (drop m k) j = look d m j := by
  have h' : ¬ k = j := fun e => h e.symm
  induction m with
  | nil => rfl
  | cons x m ih =>
    obtain ⟨i, w⟩ := x
    simp only [drop]
    split
    · rename_i e; subst e; simp [look, h', ih]
    · simp only [look, ih]

/-- A read of the key written gives the value written. -/
@[simp] theorem look_put_same [DecidableEq α] (d : Nat → α) (m : Sparse α) (k : Nat) (v : α) : look d (put d m k v) k = v := by
  unfold put
  split
  · rename_i e; rw [look_drop_same, e]
  · exact look_enter_same d m k v

/-- A read of another key gives what it gave before. -/
theorem look_put_other [DecidableEq α] (d : Nat → α) (m : Sparse α) {k j : Nat} (v : α) (h : j ≠ k) :
    look d (put d m k v) j = look d m j := by
  unfold put
  split
  · exact look_drop_other d m h
  · exact look_enter_other d m v h

theorem enter_enter (m : Sparse α) (k : Nat) (v w : α) : enter (enter m k v) k w = enter m k w := by
  induction m with
  | nil => simp [enter]
  | cons x m ih =>
    obtain ⟨j, u⟩ := x
    simp only [enter]
    split
    · simp [enter]
    · split
      · simp [enter]
      · rename_i h1 h2; simp [enter, h1, h2, ih]

theorem drop_enter (m : Sparse α) (k : Nat) (v : α) : drop (enter m k v) k = drop m k := by
  induction m with
  | nil => simp [enter, drop]
  | cons x m ih =>
    obtain ⟨j, u⟩ := x
    simp only [enter]
    split
    · simp [drop]
    · split
      · rename_i e; subst e; simp [drop]
      · rename_i h1 h2
        have h3 : ¬ j = k := fun e => h2 e.symm
        simp [drop, h3, ih]

/-- Of two writes of one key the later stands, where the earlier wrote no default. -/
theorem put_put [DecidableEq α] (d : Nat → α) (m : Sparse α) (k : Nat) (v w : α) (h : v ≠ d k) :
    put d (put d m k v) k w = put d m k w := by
  unfold put
  simp only [h, if_false]
  split
  · exact drop_enter m k v
  · exact enter_enter m k v w

theorem wfFrom_mono [DecidableEq α] (d : Nat → α) {lo lo' : Nat} (h : lo' ≤ lo) {m : Sparse α} (w : wfFrom d lo m = true) :
    wfFrom d lo' m = true := by
  cases m with
  | nil => rfl
  | cons x m =>
    simp only [wfFrom, Bool.and_eq_true, decide_eq_true_eq] at w ⊢
    exact ⟨⟨by omega, w.1.2⟩, w.2⟩

theorem wfFrom_enter [DecidableEq α] (d : Nat → α) {k : Nat} {v : α} (hv : v ≠ d k) :
    ∀ {m : Sparse α} {lo : Nat}, lo ≤ k → wfFrom d lo m = true → wfFrom d lo (enter m k v) = true := by
  intro m
  induction m with
  | nil => intro lo hk _; simp [enter, wfFrom, hk, hv]
  | cons x m ih =>
    obtain ⟨j, w⟩ := x
    intro lo hk hw
    simp only [wfFrom, Bool.and_eq_true, decide_eq_true_eq] at hw
    simp only [enter]
    split
    · rename_i hlt
      simp only [wfFrom, Bool.and_eq_true, decide_eq_true_eq]
      exact ⟨⟨hk, hv⟩, ⟨by omega, hw.1.2⟩, hw.2⟩
    · split
      · rename_i e; subst e
        simp only [wfFrom, Bool.and_eq_true, decide_eq_true_eq]
        exact ⟨⟨hk, hv⟩, hw.2⟩
      · simp only [wfFrom, Bool.and_eq_true, decide_eq_true_eq]
        exact ⟨hw.1, ih (by omega) hw.2⟩

theorem wfFrom_drop [DecidableEq α] (d : Nat → α) (k : Nat) :
    ∀ {m : Sparse α} {lo : Nat}, wfFrom d lo m = true → wfFrom d lo (drop m k) = true := by
  intro m
  induction m with
  | nil => intro lo h; exact h
  | cons x m ih =>
    obtain ⟨j, w⟩ := x
    intro lo hw
    simp only [wfFrom, Bool.and_eq_true, decide_eq_true_eq] at hw
    simp only [drop]
    split
    · exact ih (wfFrom_mono d (by omega) hw.2)
    · simp only [wfFrom, Bool.and_eq_true, decide_eq_true_eq]
      exact ⟨hw.1, ih hw.2⟩

/-- A write keeps the canonical form. -/
theorem wf_put [DecidableEq α] (d : Nat → α) {m : Sparse α} (k : Nat) (v : α) (h : Memory.wf d m = true) :
    Memory.wf d (put d m k v) = true := by
  unfold put
  split
  · exact wfFrom_drop d k h
  · rename_i hv; exact wfFrom_enter d hv (Nat.zero_le k) h

/-- Consecutive writes keep the canonical form. -/
theorem wf_putL [DecidableEq α] (d : Nat → α) : ∀ (vs : List α) {m : Sparse α} (k : Nat), Memory.wf d m = true →
    Memory.wf d (putL d m k vs) = true
  | [], _, _, h => h
  | v :: vs, _, k, h => wf_putL d vs (k + 1) (wf_put d k v h)

theorem wfFrom_dropIf [DecidableEq α] (d : Nat → α) (p : Nat → Bool) :
    ∀ {m : Sparse α} {lo : Nat}, wfFrom d lo m = true → wfFrom d lo (dropIf p m) = true := by
  intro m
  induction m with
  | nil => intro lo h; exact h
  | cons x m ih =>
    obtain ⟨j, w⟩ := x
    intro lo hw
    simp only [wfFrom, Bool.and_eq_true, decide_eq_true_eq] at hw
    simp only [dropIf]
    split
    · exact ih (wfFrom_mono d (by omega) hw.2)
    · simp only [wfFrom, Bool.and_eq_true, decide_eq_true_eq]
      exact ⟨hw.1, ih hw.2⟩

/-- Leaving keys out keeps the canonical form. -/
theorem wf_dropIf [DecidableEq α] (d : Nat → α) (p : Nat → Bool) {m : Sparse α} (h : Memory.wf d m = true) :
    Memory.wf d (dropIf p m) = true := wfFrom_dropIf d p h

theorem wfFrom_mapIf [DecidableEq α] (d : Nat → α) (p : Nat → Bool) (f : α → α) :
    ∀ {m : Sparse α} {lo : Nat}, wfFrom d lo m = true → wfFrom d lo (mapIf d p f m) = true := by
  intro m
  induction m with
  | nil => intro lo h; exact h
  | cons x m ih =>
    obtain ⟨j, w⟩ := x
    intro lo hw
    simp only [wfFrom, Bool.and_eq_true, decide_eq_true_eq] at hw
    simp only [mapIf]
    split
    · split
      · exact ih (wfFrom_mono d (by omega) hw.2)
      · rename_i hf
        simp only [wfFrom, Bool.and_eq_true, decide_eq_true_eq]
        exact ⟨⟨hw.1.1, hf⟩, ih hw.2⟩
    · simp only [wfFrom, Bool.and_eq_true, decide_eq_true_eq]
      exact ⟨hw.1, ih hw.2⟩

/-- Changing listed values keeps the canonical form. -/
theorem wf_mapIf [DecidableEq α] (d : Nat → α) (p : Nat → Bool) (f : α → α) {m : Sparse α} (h : Memory.wf d m = true) :
    Memory.wf d (mapIf d p f m) = true := wfFrom_mapIf d p f h

/-- Reading outside a span of writes gives what it gave before. -/
theorem look_putL_other [DecidableEq α] (d : Nat → α) : ∀ (vs : List α) (m : Sparse α) (k j : Nat), (j < k ∨ k + vs.length ≤ j) →
    look d (putL d m k vs) j = look d m j
  | [], _, _, _, _ => rfl
  | v :: vs, m, k, j, h => by
    simp only [List.length_cons] at h
    have hj : j ≠ k := by omega
    rw [putL, look_putL_other d vs _ (k + 1) j (by omega), look_put_other d m v hj]

/-- Reading back a span of writes. -/
theorem lookN_putL [DecidableEq α] (d : Nat → α) : ∀ (vs : List α) (m : Sparse α) (k : Nat),
    lookN d (putL d m k vs) k vs.length = vs
  | [], _, _ => rfl
  | v :: vs, m, k => by
    simp only [List.length_cons, lookN, putL]
    rw [lookN_putL d vs, look_putL_other d vs _ (k + 1) k (by omega), look_put_same]

end Sys2Proof.Machine
end

