-- ==== Sys2Proof/Laws/State.lean ====
section
/-!
SUPPORT. The laws of the named reads and writes: a read of what was written gives it, a write elsewhere leaves it. What a write leaves of
every other field of the state is said by the lemmas that `@[simps]` makes beside each write in `Machine/Ops.lean`.
-/
namespace Sys2Proof.Machine

/-! ## A read of what was written -/

@[simp] theorem State.reg_setReg (s : State) (a : Nat) (w : W32) : (s.setReg a w).reg a = w := look_put_same _ _ _ _

theorem State.reg_setReg_other (s : State) {a b : Nat} (w : W32) (h : b ≠ a) : (s.setReg a w).reg b = s.reg b :=
  look_put_other _ _ _ h

@[simp] theorem State.tr_setTr (s : State) (t : TileId) (o : Nat) (w : W32) : (s.setTr t o w).tr t o = w :=
  look_put_same _ _ _ _

@[simp] theorem State.copies_setCopy_look (s : State) (q n : Nat) : look (fun _ => 0) (s.setCopy q n).copies q = n :=
  look_put_same _ _ _ _

@[simp] theorem State.csr_setCsr (s : State) (c : CoreId) (n : Nat) (v : W32) : (s.setCsr c n v).csr c n = v :=
  look_put_same _ _ _ _
@[simp] theorem State.spadB_setSpadB (s : State) (t : TileId) (a : Nat) (v : Byte) : (s.setSpadB t a v).spadB t a = v :=
  look_put_same _ _ _ _
@[simp] theorem State.cisB_setCisB (s : State) (t : TileId) (a : Nat) (v : Byte) : (s.setCisB t a v).cisB t a = v :=
  look_put_same _ _ _ _
@[simp] theorem State.sideB_setSideB (s : State) (t : TileId) (a : Nat) (v : Byte) : (s.setSideB t a v).sideB t a = v :=
  look_put_same _ _ _ _
@[simp] theorem State.hbmB_setHbmB (s : State) (a : Nat) (v : Byte) : (s.setHbmB a v).hbmB a = v :=
  look_put_same _ _ _ _
@[simp] theorem State.imemH_setImemH (s : State) (t : TileId) (e : EngId) (b : Bool) (a : Nat) (v : W16) : (s.setImemH t e b a v).imemH t e b a = v :=
  look_put_same _ _ _ _
@[simp] theorem State.accW_setAccW (s : State) (t : TileId) (i : Nat) (v : W32) : (s.setAccW t i v).accW t i = v :=
  look_put_same _ _ _ _
@[simp] theorem State.vregL_setVregL (s : State) (t : TileId) (r : Nat) (l : Nat) (v : W32) : (s.setVregL t r l v).vregL t r l = v :=
  look_put_same _ _ _ _
@[simp] theorem State.pregW_setPregW (s : State) (t : TileId) (r : Nat) (v : W32) : (s.setPregW t r v).pregW t r = v :=
  look_put_same _ _ _ _
@[simp] theorem State.sregW_setSregW (s : State) (t : TileId) (e : EngId) (r : Nat) (v : W32) : (s.setSregW t e r v).sregW t e r = v :=
  look_put_same _ _ _ _
@[simp] theorem State.cmemB_setCmemB (s : State) (c : ColId) (a : Nat) (v : Byte) : (s.setCmemB c a v).cmemB c a = v :=
  look_put_same _ _ _ _
@[simp] theorem State.spadP_setSpadP (s : State) (t : TileId) (l : Nat) (v : Bool) : (s.setSpadP t l v).spadP t l = v :=
  look_put_same _ _ _ _
@[simp] theorem State.accP_setAccP (s : State) (t : TileId) (i : Nat) (v : Bool) : (s.setAccP t i v).accP t i = v :=
  look_put_same _ _ _ _
@[simp] theorem State.vregP_setVregP (s : State) (t : TileId) (r : Nat) (l : Nat) (v : Bool) : (s.setVregP t r l v).vregP t r l = v :=
  look_put_same _ _ _ _
@[simp] theorem State.cisP_setCisP (s : State) (t : TileId) (l : Nat) (v : Bool) : (s.setCisP t l v).cisP t l = v :=
  look_put_same _ _ _ _
@[simp] theorem State.hbmP_setHbmP (s : State) (l : Nat) (v : Bool) : (s.setHbmP l v).hbmP l = v :=
  look_put_same _ _ _ _
@[simp] theorem State.posterW_setPosterW (s : State) (t : TileId) (n : Nat) (v : W32) : (s.setPosterW t n v).posterW t n = v :=
  look_put_same _ _ _ _
@[simp] theorem State.engAt_setEng (s : State) (t : TileId) (e : EngId) (v : Eng) : (s.setEng t e v).engAt t e = v :=
  look_put_same _ _ _ _
@[simp] theorem State.tileAt_setTile (s : State) (t : TileId) (v : Tile) : (s.setTile t v).tileAt t = v :=
  look_put_same _ _ _ _
@[simp] theorem State.movqAt_setMovq (s : State) (t : TileId) (q : Nat) (v : MovQ) : (s.setMovq t q v).movq_ t q = v :=
  look_put_same _ _ _ _
@[simp] theorem State.movdAt_setMovd (s : State) (t : TileId) (d : Nat) (v : MovD) : (s.setMovd t d v).movd_ t d = v :=
  look_put_same _ _ _ _
@[simp] theorem State.bucketOf_setBucket (s : State) (t : TileId) (k : Nat) (v : Int) : (s.setBucket t k v).bucketOf t k = v :=
  look_put_same _ _ _ _
@[simp] theorem State.rsetAt_setRset (s : State) (t : TileId) (k : Nat) (v : RSet) : (s.setRset t k v).rsetAt t k = v :=
  look_put_same _ _ _ _
@[simp] theorem State.haloAt_setHalo (s : State) (t : TileId) (h : Nat) (v : Halo) : (s.setHalo t h v).haloAt t h = v :=
  look_put_same _ _ _ _
@[simp] theorem State.coreAt_setCore (s : State) (c : CoreId) (v : Core) : (s.setCore c v).coreAt c = v :=
  look_put_same _ _ _ _
@[simp] theorem State.ctlAt_setCtl (s : State) (c : CoreId) (v : Ctl) : (s.setCtl c v).ctlAt c = v :=
  look_put_same _ _ _ _
@[simp] theorem State.partAt_setPart (s : State) (p : PartId) (v : Part) : (s.setPart p v).partAt p = v :=
  look_put_same _ _ _ _
@[simp] theorem State.ctxAt_setCtx (s : State) (p : PartId) (c : CtxId) (v : Ctx) : (s.setCtx p c v).ctxAt p c = v :=
  look_put_same _ _ _ _
@[simp] theorem State.queueAt_setQueue (s : State) (p : PartId) (q : QueueId) (v : Queue) : (s.setQueue p q v).queueAt p q = v :=
  look_put_same _ _ _ _
@[simp] theorem State.objAt_setObj (s : State) (p : PartId) (i : Nat) (v : Obj) : (s.setObj p i v).objAt p i = v :=
  look_put_same _ _ _ _
@[simp] theorem State.evtAt_setEvt (s : State) (p : PartId) (i : Nat) (v : Evt) : (s.setEvt p i v).evtAt p i = v :=
  look_put_same _ _ _ _
@[simp] theorem State.waiterAt_setWaiter (s : State) (p : PartId) (i : Nat) (v : Waiter) : (s.setWaiter p i v).waiterAt p i = v :=
  look_put_same _ _ _ _
@[simp] theorem State.packageAt_setPackage (s : State) (c : ColId) (v : W32) : (s.setPackage c v).packageAt c = v :=
  look_put_same _ _ _ _
@[simp] theorem State.portAt_setPort (s : State) (p : PortId) (v : Port) : (s.setPort p v).portAt p = v :=
  look_put_same _ _ _ _
@[simp] theorem State.ingressAt_setIngress (s : State) (q : Nat) (v : List IngressBeat) : (s.setIngress q v).ingressAt q = v :=
  look_put_same _ _ _ _
@[simp] theorem State.retAt_setRet (s : State) (q : Nat) (v : List RetBeat) : (s.setRet q v).retAt q = v :=
  look_put_same _ _ _ _
@[simp] theorem State.domAt_setDom (s : State) (d : Nat) (v : Dom) : (s.setDom d v).domAt d = v :=
  look_put_same _ _ _ _
@[simp] theorem State.imemP_setImemP (s : State) (t : TileId) (e : EngId) (b : Bool) (w : Nat) (v : Bool) : (s.setImemP t e b w v).imemP t e b w = v :=
  look_put_same _ _ _ _
@[simp] theorem State.turnOf_setTurn (s : State) (c : ColId) (v : BitVec 4) : (s.setTurn c v).turnOf c = v :=
  look_put_same _ _ _ _
@[simp] theorem State.shadowAt_setShadow (s : State) (r : Nat) (v : W32) : (s.setShadow r v).shadowAt r = v :=
  look_put_same _ _ _ _

/-- Of two writes of an engine the later stands, where the earlier wrote another engine than a reset one. -/
theorem State.setEng_setEng (s : State) (t : TileId) (e : EngId) (v w : Eng) (h : v ≠ {}) :
    (s.setEng t e v).setEng t e w = s.setEng t e w := by
  simp only [State.setEng]
  rw [put_put (fun _ => ({} : Eng)) s.eng _ v w h]

/-! ## A read of something else -/

theorem State.engAt_setEng_other (s : State) (t u : TileId) (e f : EngId) (v : Eng) (h : (u, f) ≠ (t, e)) :
    (s.setEng t e v).engAt u f = s.engAt u f := by
  apply look_put_other
  intro k
  apply h
  have h1 := e.isLt
  have h2 := f.isLt
  have ht : u.toNat = t.toNat := by omega
  have he : f.toNat = e.toNat := by omega
  rw [BitVec.eq_of_toNat_eq ht, BitVec.eq_of_toNat_eq he]

theorem State.tileAt_setTile_other (s : State) {t u : TileId} (v : Tile) (h : u ≠ t) : (s.setTile t v).tileAt u = s.tileAt u :=
  look_put_other _ _ _ fun k => h (BitVec.eq_of_toNat_eq k)

theorem State.coreAt_setCore_other (s : State) {c d : CoreId} (v : Core) (h : d ≠ c) : (s.setCore c v).coreAt d = s.coreAt d :=
  look_put_other _ _ _ fun k => h (Fin.ext k)

theorem State.ctlAt_setCtl_other (s : State) {c d : CoreId} (v : Ctl) (h : d ≠ c) : (s.setCtl c v).ctlAt d = s.ctlAt d :=
  look_put_other _ _ _ fun k => h (Fin.ext k)

theorem State.partAt_setPart_other (s : State) {p q : PartId} (v : Part) (h : q ≠ p) : (s.setPart p v).partAt q = s.partAt q :=
  look_put_other _ _ _ fun k => h (BitVec.eq_of_toNat_eq k)

theorem State.ctxAt_setCtx_other (s : State) (p q : PartId) (c d : CtxId) (v : Ctx) (h : (q, d) ≠ (p, c)) :
    (s.setCtx p c v).ctxAt q d = s.ctxAt q d := by
  apply look_put_other
  intro k
  apply h
  have h1 := c.isLt
  have h2 := d.isLt
  have hp : q.toNat = p.toNat := by omega
  have hc : d.toNat = c.toNat := by omega
  rw [BitVec.eq_of_toNat_eq hp, BitVec.eq_of_toNat_eq hc]

theorem State.domAt_setDom_other (s : State) {d e : Nat} (v : Dom) (h : e ≠ d) : (s.setDom d v).domAt e = s.domAt e :=
  look_put_other _ _ _ h

theorem State.sR_setSR (s : State) (t : TileId) (e : EngId) (r : BitVec 4) (v : W32) :
    (s.setSR t e r v).sR t e r = if r = 0 then 0 else v := by
  unfold State.setSR State.sR
  split <;> simp

theorem State.sR_setSR_other (s : State) (t : TileId) (e : EngId) {r q : BitVec 4} (v : W32) (h : q ≠ r) :
    (s.setSR t e r v).sR t e q = s.sR t e q := by
  unfold State.setSR State.sR
  split
  · rfl
  · split
    · rfl
    · exact look_put_other _ _ _ fun k => h (BitVec.eq_of_toNat_eq (by omega))

end Sys2Proof.Machine
end

