-- ==== Sys2Proof/Laws/Issue.lean ====
section
/-!
SUPPORT. The laws of issue (R118 to R131): what a word of one slot does where nothing stops it.
-/
namespace Sys2Proof.Machine

theorem closeLoops_past (q n : Nat) (l : List Loop) (h : ∀ x ∈ l, x.last.toNat ≠ q) : closeLoops q n l = (l, n) := by
  cases l with
  | nil => rfl
  | cons x l => simp [closeLoops, h x (by simp)]

theorem Eng.closeAt_past (g : Eng) (q n : Nat) (h : ∀ x ∈ g.loops, x.last.toNat ≠ q) :
    g.closeAt q n = { g with pc := BitVec.ofNat 14 n } := by
  have hr : ∀ x ∈ g.loops.reverse, x.last.toNat ≠ q := fun x hx => h x (by simpa using hx)
  simp [Eng.closeAt, closeLoops_past q n _ hr]

/-- What stands before a word lets it through. -/
theorem State.Ready.beforeWord {s : State} {t : TileId} {e : EngId} {w : Nat} (h : s.Ready t e w) (l : List (SemId × Byte))
    (f : State → State) : s.beforeWord t e l f = f s := by
  simp [State.beforeWord, h.can, h.marker, h.parity, h.fence, h.brk]

theorem State.Ready.loopBroken {s : State} {t : TileId} {e : EngId} {w : Nat} (h : s.Ready t e w) (hw : 0 < w) (ops : List SlotOp) :
    (s.engAt t e).loopBroken (s.pcOf t e) w ops = false := by
  simp only [Eng.loopBroken, List.any_eq_false, Bool.or_eq_true, Bool.and_eq_true, decide_eq_true_eq]
  intro l hl
  have := h.loops l hl
  omega

/-- A slot with no waits: nothing is consumed, and no wait is recorded. -/
theorem State.waitRecords_none (s : State) (t : TileId) (e : EngId) (x : Option Nat) (o : SlotOp) (h : o.need = none) :
    s.waitRecords t e x [o] = s := by
  unfold State.waitRecords
  split
  · dsimp only
    split
    · rfl
    · simp [each, h]
  · rfl

/-! ## What a reader sees of the scratchpad (R205) -/

/-- The state that a reader reads the scratchpad in differs in the scratchpad alone. -/
theorem State.racy_frame (s : State) (t : TileId) (r : Reader) :
    s.racy t r = { s with spad := (s.racy t r).spad, spadPoison := (s.racy t r).spadPoison } := by
  unfold State.racy
  split <;> rfl

/-- With no write under way at the tile a reader reads what stands there. -/
theorem State.racy_still (s : State) (t : TileId) (r : Reader) (hd : s.drainsOf t r = []) (hx : s.xfersTo t r = []) (hw : s.weirsTo t r = []) :
    s.racy t r = s := by
  simp [State.racy, hd, hx, hw]

/-- With no drain, transfer or weir operation under way that writes the tile's scratchpad, the view is the state. -/
theorem State.racy_quiet (s : State) (t : TileId) (r : Reader) (hd : s.drainsOf t r = []) (hx : s.xfersTo t r = []) (hw : s.weirsTo t r = []) :
    s.racy t r = s := by
  simp [State.racy, hd, hx, hw]
@[simp] theorem State.racy_engAt (s : State) (t u : TileId) (r : Reader) (e : EngId) : (s.racy t r).engAt u e = s.engAt u e := by rw [State.racy_frame]; rfl
@[simp] theorem State.racy_tileAt (s : State) (t u : TileId) (r : Reader) : (s.racy t r).tileAt u = s.tileAt u := by rw [State.racy_frame]; rfl
@[simp] theorem State.racy_sR (s : State) (t u : TileId) (r : Reader) (e : EngId) (i : BitVec 4) : (s.racy t r).sR u e i = s.sR u e i := by
  rw [State.racy_frame]; rfl
@[simp] theorem State.racy_pcOf (s : State) (t u : TileId) (r : Reader) (e : EngId) : (s.racy t r).pcOf u e = s.pcOf u e := by rw [State.racy_frame]; rfl
@[simp] theorem State.racy_tr (s : State) (t u : TileId) (r : Reader) (o : Nat) : (s.racy t r).tr u o = s.tr u o := by rw [State.racy_frame]; rfl
@[simp] theorem State.racy_partOf (s : State) (t u : TileId) (r : Reader) : (s.racy t r).partOf u = s.partOf u := by rw [State.racy_frame]; rfl
@[simp] theorem State.racy_movq (s : State) (t u : TileId) (r : Reader) (q : Nat) : (s.racy t r).movq_ u q = s.movq_ u q := by rw [State.racy_frame]; rfl
@[simp] theorem State.racy_fresh (s : State) (t : TileId) (r : Reader) : (s.racy t r).fresh = s.fresh := by rw [State.racy_frame]

/-- R121, R145: a word of one slot that is legal, passes its checks, waits for nothing and leaves control to go on. The slot reads the scratchpad as
writes under way leave it for the engine to see (R205). -/
theorem State.issueWord_one {s : State} {t : TileId} {e : EngId} {w : Nat} (h : s.Ready t e w) (hw : 0 < w) (o : SlotOp)
    (hl : o.legal = true) (hn : o.writes.Nodup) (hv : o.check s = .ok) (hc : o.check (s.racy t .other) = .ok) (hd : o.need = none) (hg : o.goto s = none)
    (hk : o.skip s = none) :
    s.issueWord t e w [o]
      = (o.apply (s.racy t .other) (s.issuing t e)).setEng t e
          (((o.apply (s.racy t .other) (s.issuing t e)).engAt t e).closeAt (s.pcOf t e) (s.pcOf t e + w)) := by
  have hin : ¬ 8192 < s.pcOf t e + w := by have := h.inside; omega
  have hok : wordOk [o] = true := by
    cases hu : o.use <;> cases hct : o.ctl <;> simp [wordOk, useIn, writesOk, hl, hn, hu, hct]
  have hun : s.met t e [o] = true := by simp [State.met, waitsOf, hd]
  rw [State.issueWord, h.beforeWord]
  simp only [hin, if_false]
  rw [State.tryWord]
  simp only [hok, Bool.not_true, Bool.false_eq_true, if_false, h.loopBroken hw, hun]
  have huw : unitWait s [o] = false := by simp [unitWait, hv]
  have hfb : firstBad (s.racy t .other) [o] = none := by simp [firstBad, hc]
  simp only [huw, Bool.false_eq_true, if_false, hfb]
  simp only [State.issueSlots, State.waitRecords_none _ _ _ _ _ hd]
  simp [State.consume, each, hd, h.step, State.advance, hg, hk, State.issuing, Eng.issuing]

end Sys2Proof.Machine
end

