-- ==== Sys2Proof/WellFormed.lean ====
section
/-!
DEFINITION. Which commands are well formed: the limits on operands that the rows state and the operand types do not. A command that is not
well formed is no row's command; `exec` answers it all the same, with no effect of the row where the operand selects none.
-/
namespace Sys2Proof

/-- R471: a register address: a word's, inside the register space. -/
def RegLoc.wf : RegLoc → Bool
  | .addr a => decide (a.toNat % 4 = 0) && decide (a.toNat < 0x08000000)
  | .csr _ _ => true

/-- R284: a flit carries seven slots. -/
def Flit.wf (f : Flit) : Bool := decide (f.slots.length = 7)

/-- R284: 272 bytes on four or eight lanes; a body of 256 bytes and a message area of 224. -/
def FlitArrival.wf (a : FlitArrival) : Bool :=
  (decide (a.lanes.length = 4) || decide (a.lanes.length = 8)) && a.lanes.all (fun l => decide (l.length * a.lanes.length = 272))
    && decide (a.body.length = 256) && decide (a.plain.length = 224)

/-- R314: an access of BAR2 is 1 to 4,096 bytes long. -/
def Bar2Op.wf : Bar2Op → Bool
  | .read n => decide (1 ≤ n) && decide (n ≤ 4096)
  | .write b => decide (1 ≤ b.length) && decide (b.length ≤ 4096)

/-- R287: a message stands on one of the five channels. -/
def vcOk (vc : BitVec 3) : Bool := decide (vc.toNat < 5)

/-- R376, R377, R381: a start's inputs name each port and each failing colony once; an image's header has 4 KiB and its tag table is padded. -/
def BootInput.wf (i : BootInput) : Bool :=
  decide (i.links.map fun x => x.1).Nodup && decide (i.selfTestFails.map fun x => x.1).Nodup
    && i.image.all fun m => decide (m.header.length = 4096) && decide (m.table.length % 4096 = 0)

/-- Well-formed commands. -/
def Instr.wf : Instr → Bool
  | .registerWrite _ l _ => l.wf
  | .lowWordRead _ l => l.wf
  | .tapRegacc _ a _ => (RegLoc.addr a).wf
  | .mapInvalidate _ _ w => w.getLsbD 31
  | .pageopInvalidOp _ _ op _ _ => decide (op.toNat < 1) || decide (4 < op.toNat)
  | .movCtrlArm _ _ w => w.getLsbD 31
  | .partitionReset _ w => w.getLsbD 31
  | .partitionWakeWrite _ _ w => w.getLsbD 31
  | .devresetWrite _ w => w.getLsbD 31
  | .globalStopGo _ w => w.getLsbD 0
  | .flitReceive _ a => a.wf
  | .flitData _ f => f.wf && decide (f.hdr.extractLsb' 112 4 = 0)
  | .flitIdle _ f => f.wf && decide (f.hdr.extractLsb' 112 4 = 1)
  | .flitLeave _ f => f.wf && decide (f.hdr.extractLsb' 112 4 = 2)
  | .flitKey _ f => f.wf && decide (f.hdr.extractLsb' 112 4 = 3)
  | .msgWrite _ vc => vcOk vc
  | .msgRead _ vc => vcOk vc
  | .msgSignal _ vc => vcOk vc
  | .msgAck _ vc => vcOk vc
  | .msgReadData _ vc => vcOk vc
  | .msgNack _ vc => vcOk vc
  | .bar2Access _ _ op => op.op.wf
  | .coreMemoryExternalWrite _ _ off _ => decide (off.toNat < 0x18000) && decide (off.toNat % 4 = 0)
  | .bootStart i => i.wf
  | .hbmPatrolScrub _ a _ => decide (a.toNat % 64 = 0)
  | .powerRequestToState _ _ target => decide (target ≠ 0)
  | _ => true

end Sys2Proof
end

