-- ==== Sys2Proof/Tests/Slice0.lean ====
section
/-!
SUPPORT. Own tests: a term that each check of well-formedness refuses, and for each statement of Obligations.lean a state and operands that
meet its hypotheses, clause by clause, with what the command then does there. Expected values come from the rules named beside them.
-/

set_option maxRecDepth 100000
set_option Elab.async false

namespace Sys2Proof.Tests
open Sys2Proof Sys2Proof.Machine

/-! ## Well-formedness: a term that each check refuses -/

theorem test_wf_register_misaligned : (Instr.registerWrite .pf (.addr 0x2) 0).wf = false := by decide
theorem test_wf_register_outside : (Instr.lowWordRead .pf (.addr 0x08000000)).wf = false := by decide
theorem test_wf_regacc_misaligned : (Instr.tapRegacc true 0x1 0).wf = false := by decide
theorem test_wf_mapinv_without_go : (Instr.mapInvalidate .pf 0 0x7FFFFFFF).wf = false := by decide
theorem test_wf_pageop_listed : (Instr.pageopInvalidOp .pf 0 4 0 0).wf = false := by decide
theorem test_wf_movctrl_without_go : (Instr.movCtrlArm .pf 0 0).wf = false := by decide
theorem test_wf_preset_without_go : (Instr.partitionReset .pf 0).wf = false := by decide
theorem test_wf_pwake_without_go : (Instr.partitionWakeWrite .pf 0 0).wf = false := by decide
theorem test_wf_devreset_without_go : (Instr.devresetWrite .pf 0xD0E5).wf = false := by decide
theorem test_wf_gstop_without_go : (Instr.globalStopGo .pf 2).wf = false := by decide

/-- A flit of a type with `n` null slots. -/
def flitOf (ty : FlitType) (n : Nat) : Flit :=
  { hdr := flitHdr 0 0 false false 5 0 false ty, slots := List.replicate n 0 }

theorem test_wf_flit_slots : (Instr.flitData 0 (flitOf .data 6)).wf = false := by decide
theorem test_wf_flit_types : (Instr.flitData 0 (flitOf .idle 7)).wf = false ∧ (Instr.flitIdle 0 (flitOf .data 7)).wf = false
    ∧ (Instr.flitLeave 0 (flitOf .data 7)).wf = false ∧ (Instr.flitKey 0 (flitOf .data 7)).wf = false := by decide
/-- What arrives on `n` lanes of `k` bytes. -/
def onLanes (n k : Nat) : FlitArrival := { lanes := List.replicate n (List.replicate k 0), body := List.replicate 256 0, plain := List.replicate 224 0 }
theorem test_wf_flit_lanes : (Instr.flitReceive 0 (onLanes 8 33)).wf = false ∧ (Instr.flitReceive 0 (onLanes 2 136)).wf = false
    ∧ (Instr.flitReceive 0 { onLanes 8 34 with body := [] }).wf = false := by decide +kernel
theorem test_wf_channels : (Instr.msgWrite 0 5).wf = false ∧ (Instr.msgRead 0 5).wf = false ∧ (Instr.msgSignal 0 5).wf = false
    ∧ (Instr.msgAck 0 5).wf = false ∧ (Instr.msgReadData 0 5).wf = false ∧ (Instr.msgNack 0 5).wf = false := by decide
theorem test_wf_bar2_length : (Instr.bar2Access .pf 0 { op := .read 0 }).wf = false ∧ (Instr.bar2Access .pf 0 { op := .read 4097 }).wf = false
    ∧ (Instr.bar2Access .pf 0 { op := .write [] }).wf = false := by decide
theorem test_wf_core_memory : (Instr.coreMemoryExternalWrite .pf 0 0x18000 0).wf = false
    ∧ (Instr.coreMemoryExternalWrite .pf 0 2 0).wf = false := by decide

/-- A start whose steps all pass, with no image. -/
def bootInputs : BootInput :=
  { romOk := true, fusesOk := true, refClocks := true, pllsLock := true, stacksTrained := 0xFF, selfTestFails := [], image := none,
    checks := { flashAnswers := true, signature := true, segmentsAgain := true, stagingReadable := true }, keysDrawn := true,
    links := [], coresReleased := true }

theorem test_wf_boot_names_once : (Instr.bootStart { bootInputs with selfTestFails := [(0, 1), (0, 2)] }).wf = false := by decide
theorem test_wf_patrol_line : (Instr.hbmPatrolScrub 0 32 .clean).wf = false := by decide
theorem test_wf_power_target : (Instr.powerRequestToState .pf 1 0).wf = false := by decide

/-! ## States -/

/-- What a command leaves. -/
def after (c : Instr) (s : State) : State := match exec c s with | .next t => t | _ => s

/-- A partition of one colony. -/
def geo : PartCfg :=
  { cx := 0, cy := 0, width := 1, height := 1, reloc := false, resident := 0, rd := 10, wr := 10, rm := 10, fence := true, trace := 0, tracePct := 0,
    stages := 0, fabStages := 1, ingress := 1, contexts := 4, queues := 4, events := 8, waiters := 8, hbmUnits := 1, lat0 := 4, lat1 := 4, group := 1 }

/-- An operational machine: partition 0 holds colony 0, whose tile domain, cistern domain and first HBM stack run. -/
def live : State :=
  let s := (State.reset.setPart 0 { loaded := true, cfg := some geo }).setReg 0x40 1
  let s := ((s.setDom 1 { st := 0 }).setDom 65 { st := 0 }).setDom 81 { st := 0 }
  { s with chitin := { st := 1, doneReleased := true, doneLine := true, loadPassed := true } }

/-- Engine `e` of tile 0 runs a program. -/
def running (e : EngId) : State := live.setEng 0 e { st := .run }

theorem test_ready_mx : (running 0).Ready 0 0 9 :=
  ⟨by decide, by decide, by decide, by decide, by decide, by decide, by decide, by decide⟩
theorem test_ready_vx : (running 1).Ready 0 1 3 :=
  ⟨by decide, by decide, by decide, by decide, by decide, by decide, by decide, by decide⟩
theorem test_ready_mov : (running 2).Ready 0 2 5 :=
  ⟨by decide, by decide, by decide, by decide, by decide, by decide, by decide, by decide⟩
theorem test_ready_wei : (running 3).Ready 0 3 9 :=
  ⟨by decide, by decide, by decide, by decide, by decide, by decide, by decide, by decide⟩
theorem test_ready_dr : (running 0).Ready 0 0 5 :=
  ⟨by decide, by decide, by decide, by decide, by decide, by decide, by decide, by decide⟩

/-! ## The block, scalar instructions, semaphores -/

/-- Registers s1 and s2 of engine 0 of tile 0 hold `x` and `y`. -/
def regs2 (x y : W32) : State := ((running 0).setSR 0 0 1 x).setSR 0 0 2 y

theorem test_front_command : (({ live with pending := [.imemArm .pf 0 1, .powerOn] } : State)).pending = .imemArm .pf 0 1 :: [.powerOn]
    ∧ (match step { live with pending := [.imemArm .pf 0 1, .powerOn] } with | .next t => (t.engAt 0 1).arm && decide (t.pending = [.powerOn]) | _ => false) = true := by
  decide
/-- Before DONE, with nothing under way, only time passes. -/
def quiet : State := { live with chitin := { live.chitin with st := 0 } }
theorem test_idle_clock : quiet.pending = [] ∧ (quiet.canal.bufs = [] ∧ quiet.canal.front = [] ∧ quiet.rset = [] ∧ quiet.halo = [] ∧ quiet.movq = [])
    ∧ (∀ e ∈ quiet.tile, e.2.mxq = [] ∧ e.2.drq = [] ∧ e.2.wei = []) ∧ quiet.port = State.reset.port
    ∧ quiet.chitin.st ≠ 1 ∧ (quiet.elapse 1).time = 40 := by decide +kernel
theorem test_memory_write : (live.setSpadBytes 4095 262143 [1, 2]).spadBytes 4095 262143 2 = [1, 2]
    ∧ (live.setSpadBytes 4095 262143 [1, 2]).spadB 4095 262142 = 0 := by decide
theorem test_ready_regs2 : (regs2 5 7).Ready 0 0 3 :=
  ⟨by decide, by decide, by decide, by decide, by decide, by decide, by decide, by decide⟩
theorem test_scalar_sub : ((after (.scSub 0 0 3 1 2) (regs2 5 7)).sR 0 0 3, (after (.scSub 0 0 3 1 2) (regs2 5 7)).pcOf 0 0) = (0xFFFFFFFE, 3) := by decide
theorem test_scalar_sra : (after (.scSra 0 0 3 1 2) (regs2 0x80000000 33)).sR 0 0 3 = 0xC0000000 := by decide
theorem test_scalar_s0 : (after (.scAdd 0 0 0 1 2) (regs2 5 7)).sR 0 0 0 = 0 := by decide
theorem test_scalar_lih : (4095 : BitVec 20).toNat < 4096 ∧ (after (.scLih 0 0 1 4095) (regs2 0xABCDE 0)).sR 0 0 1 = 0xFFFABCDE := by decide
theorem test_scalar_addi : (after (.scAddi 0 0 3 1 0xFFFF) (regs2 5 7)).sR 0 0 3 = 4 := by decide
/-- The last word of the scratchpad is in reach. -/
theorem test_scalar_memory_last : let s := regs2 262140 0xA1B2C3D4
    let v := (s.sR 0 0 1 + (0 : W16).signExtend 32).toNat
    v % 4 = 0 ∧ v < 262144 ∧ s.quarHeld 0 v 4 = false ∧ (s.racy 0 .other).spadP 0 (v / 64) = false
      ∧ (after (.scSw 0 0 2 1 0) s).spadB 0 262143 = 0xA1 ∧ (after (.scLw 0 0 3 1 0) (after (.scSw 0 0 2 1 0) s)).sR 0 0 3 = 0xA1B2C3D4 := by decide
theorem test_scalar_memory_fault : let s := regs2 262141 262144
    ((s.sR 0 0 1 + (0 : W16).signExtend 32).toNat % 4 ≠ 0) ∧ 262144 ≤ (s.sR 0 0 2 + (0 : W16).signExtend 32).toNat
      ∧ ((after (.scLw 0 0 3 1 0) s).engAt 0 0).code = 0x3B ∧ ((after (.scSw 0 0 3 2 0) s).engAt 0 0).code = 0x3B
      ∧ ((after (.scSw 0 0 3 2 0) s).engAt 0 0).st = .faulted := by decide
/-- The running engine stands at word `p`. -/
def atWord (s : State) (p : BitVec 14) : State := s.setEng 0 0 { s.engAt 0 0 with pc := p }
theorem test_ready_last_word : (atWord (regs2 5 7) 8189).Ready 0 0 3 :=
  ⟨by decide, by decide, by decide, by decide, by decide, by decide, by decide, by decide⟩
theorem test_branch_targets : let s := atWord (regs2 5 7) 8
    (s.engAt 0 0).loops = [] ∧ (after (.scBlt 0 0 1 2 0xFFF8) s).pcOf 0 0 = 0 ∧ (after (.scBlt 0 0 2 1 0xFFF8) s).pcOf 0 0 = 11
      ∧ ((after (.scBlt 0 0 1 2 0xFFF7) s).engAt 0 0).code = 0x39 ∧ (after (.scJmp 0 0 8183) s).pcOf 0 0 = 8191
      ∧ ((after (.scJmp 0 0 8184) s).engAt 0 0).code = 0x39 := by decide
theorem test_loop_begin : let s := regs2 1048575 0
    3 ≤ (3 : BitVec 13).toNat ∧ s.pcOf 0 0 + (3 : BitVec 13).toNat < 8192 ∧ (s.sR 0 0 1).toNat ≤ 1048575 ∧ 0 < (s.sR 0 0 1).toNat ∧ (s.sR 0 0 2).toNat = 0
      ∧ ((after (.lpBegin 0 0 1 3) s).engAt 0 0).loops = [{ first := 3, last := 3, remaining := 1048575, index := 0 }]
      ∧ (after (.lpBegin 0 0 2 8188) s).pcOf 0 0 = 8188 + s.wordLen 0 0 8188 := by decide
theorem test_end_fence : ((after (.scEnd 0 0) (running 0)).engAt 0 0).ending = true ∧ ((after (.scFence 0 0) (running 0)).engAt 0 0).fence = some 0 := by decide
theorem test_loop_close : let o : Loop := { first := 0, last := 6, remaining := 2, index := 0 }
    let i : Loop := { first := 3, last := 6, remaining := 1, index := 4 }
    let g : Eng := { loops := [o, i] }
    g.loops = [o] ++ [i] ∧ i.last.toNat = 6 ∧ i.remaining.toNat ≤ 1 ∧ 1 < o.remaining.toNat
      ∧ (g.closeAt 6 9).loops = [{ first := 0, last := 6, remaining := 1, index := 1 }] ∧ (g.closeAt 6 9).pc = 0 := by decide
theorem test_ag_set : (7 : BitVec 3) ≠ 0 ∧ (4 : BitVec 3).toNat ≤ 4
    ∧ (after (.agSet 0 0 1 7 3 4) (regs2 0xFF123456 0)).tr 0 (0x200 + (6 * 4 + 3) * 0x20 + 16) = 0x123456 := by decide
theorem test_semaphore_wait : let s := live.setSem 0 2 255
    let s := s.setEng 0 0 { st := .run }
    (255 : Byte) ≠ 0 ∧ (s.engAt 0 0).waited = none ∧ (255 : Byte).toNat ≤ s.semLeft 0 0 2 ∧ s.semLeft 0 0 3 < (1 : Byte).toNat
      ∧ (after (.semWait 0 0 2 255) s).semVal 0 2 = 0 ∧ ((after (.semWait 0 0 3 1) s).engAt 0 0).st = .wait := by decide
theorem test_semaphore_overflow : let s := live.setSem 0 2 65534
    (s.addSem 0 2 1 7).2 = false ∧ (s.addSem 0 2 1 7).1.semVal 0 2 = 65535 ∧ (s.addSem 0 2 2 7).2 = true ∧ (s.addSem 0 2 2 7).1.semVal 0 2 = 65535 := by decide

/-! ## Posts, tile registers, programs, issue -/

/-- Engine 0 of tile 0 has two posts waiting and no operation outstanding. -/
def posts (k : PendKind) : State := live.setEng 0 0 { st := .run, seq := 1, pend := [{ seq := 1, kind := k }, { seq := 1, kind := .post 0 1 }] }
theorem test_post_issue : let s := running 0
    (255 : Byte) ≠ 0 ∧ s.rpostTo 0 (s.sR 0 0 1) = some 0
      ∧ ((after (.semPost 0 0 3 255) s).engAt 0 0).pend = [{ seq := 0, kind := .post 3 255 }]
      ∧ ((after (.semRpost 0 0 3 255 1) s).engAt 0 0).pend = [{ seq := 0, kind := .rpost 0 3 255 }] := by decide
theorem test_post_effect : let s := posts (.post 3 255)
    s.doneBelow 0 0 1 = true ∧ (after (.postTakesEffect 0 0) s).semVal 0 3 = 255 ∧ ((after (.postTakesEffect 0 0) s).engAt 0 0).pend.length = 1 := by decide
/-- A problem that stands in the matrix engine's queue under number `n`. -/
def problem (n : Nat) (run : Bool) : MxOp :=
  { seq := n, f := { fa := 2, fb := 2, va := false, vb := false, acc := false, msk := false, sigEn := true, sem := 4, ag := 0, pset := 0, mM1 := 0, rm := 0,
                     nM1 := 0, ktM1 := 0, a := 0, b := 1, c := 0 }, rows := 1, setRow := 1, setScl := 0, setMsk := 0, running := run, since := 0 }
theorem test_post_waits : let s := posts (.post 3 1)
    let s := s.setTile 0 { s.tileAt 0 with mxq := [problem 0 true] }
    s.doneBelow 0 0 1 = false ∧ (after (.postTakesEffect 0 0) s).semVal 0 3 = 0 := by decide
theorem test_remote_post : let s := posts (.rpost 2 3 5)
    (s.doneBelow 0 0 1 = true ∧ s.runs 2 = true ∧ (after (.postTakesEffect 0 0) s).canal.pkts.map (fun x => x.2.dst) = [.tile 2])
      ∧ (after (.remotePostArrival 2) (after (.postTakesEffect 0 0) s)).semVal 2 3 = 5 := by decide
/-- Partition 0 has a live event, number 7, and a live timeline, object 0, of context 0, whose word stands at the start of its HBM. -/
def objects : State :=
  let s := ((live.setEvt 0 7 { live := true, owner := some 0 }).setObj 0 0 { st := .live, kind := 3, owner := some 0, addr := 0, len := 8 })
  (s.setCtx 0 0 { st := .active, ring := 0x1000, nlog2 := 6 }).setReg (partBase 0 + 0x8A8) 1
theorem test_signals_issue : let s := (objects.setEng 0 0 { st := .run }).setSR 0 0 1 (mkHandle 7 1)
    let s := (s.setSR 0 0 2 (mkHandle 0 1)).setSR 0 0 15 1
    (match s.evtCheck 0 (s.sR 0 0 1), s.tlCheck 0 (s.sR 0 0 2) with | .ok, .ok => true | _, _ => false) = true ∧ (14 : BitVec 4).toNat ≤ 14
      ∧ ((after (.evtSig 0 0 1) s).engAt 0 0).pend = [{ seq := 0, kind := .evt (mkHandle 7 1) }]
      ∧ ((after (.tlSig 0 0 2 14) s).engAt 0 0).pend = [{ seq := 0, kind := .tl (mkHandle 0 1) (2 ^ 32) }] := by decide
theorem test_signal_event : let s := objects.setEng 0 0 { st := .run, pend := [{ seq := 0, kind := .evt (mkHandle 7 1) }] }
    s.doneBelow 0 0 0 = true ∧ s.partOf 0 = some 0 ∧ ((after (.engineSignalSend 0 0) s).evtAt 0 7).signalled = true := by decide
theorem test_signal_timeline : let s := objects.setEng 0 0 { st := .run, pend := [{ seq := 0, kind := .tl (mkHandle 0 1) 9 }] }
    let r := s.objResolve 0 (s.ctxOf 0) (mkHandle 0 1) [3] (s.launchSeq 0 0)
    (match r with | .ok o => !o.remote | _ => false) = true ∧ (after (.engineSignalSend 0 0) s).tlRead 0 0 = 9 := by decide
set_option maxRecDepth 8000 in
theorem test_signal_remote : let s := objects.setEng 0 0 { st := .run, pend := [{ seq := 0, kind := .tl (mkHandle 0 1) 9 }] }
    let s := (s.setObj 0 0 { s.objAt 0 0 with remote := true, dev := 5 }).setReg (portBase 0 + 0x104) 7
    let r := s.objResolve 0 (s.ctxOf 0) (mkHandle 0 1) [3] (s.launchSeq 0 0)
    (match r with | .ok o => o.remote | _ => false) = true ∧ (after (.engineSignalSend 0 0) s).tlRead 0 0 = 0 ∧ ((after (.engineSignalSend 0 0) s).ctxAt 0 0).code = 0x54 := by decide
theorem test_tile_registers : let s := live
    s.tileReq .pf 0 .open_ = true ∧ s.runs 0 = true ∧ fld (0x103 : W32) 15 8 ≠ 0
      ∧ (after (.semaphoreWrite .pf 0 3 0x12345) s).semVal 0 3 = 0x2345 ∧ (after (.sempostWrite .pf 0 0x103) s).semVal 0 3 = 1
      ∧ ((after (.srseedWrite .pf 0 0) s).tileAt 0).reseed = some 0x9E3779B97F4A7C15
      ∧ ((after (.imemDisarm .pf 0 2) (after (.imemArm .pf 0 2) s)).engAt 0 2).arm = false
      ∧ (after (.moverStopcntClear .pf 0) (s.setTr 0 0x1704 0xFFFF0001)).tr 0 0x1704 = 1 := by decide
theorem test_program_start : let s := live
    s.tileWriter .pf 0 .launch = true ∧ s.colUp (colonyOf 0) = true ∧ s.runs 0 = true ∧ (s.tileAt 0).quar = none ∧ (s.tileAt 0).realign = 0
      ∧ (s.engAt 0 0).st = .idle ∧ ((after (.programStart .pf 0 0 8191) s).engAt 0 0).pc = 8191 ∧ ((after (.programStart .pf 0 0 8191) s).engAt 0 0).st = .run := by decide
theorem test_mover_start : let s := live.setMovq 0 3 { stop := { valid := true, code := 0x10 } }
    (s.engAt 0 2).st = .idle ∧ (∀ q, q < 4 → (live.movq_ 0 q).stop.valid = false) ∧ (s.movq_ 0 3).stop.valid = true
      ∧ ((after (.programStart .pf 0 2 6) s).engAt 0 2).st = .stopped ∧ ((after (.programStart .pf 0 2 6) live).engAt 0 2).st = .run := by decide
theorem test_program_start_again : let s := live.setEng 0 0 { st := .wait }
    (s.engAt 0 0).pending = none ∧ ((after (.programStart .pf 0 0 6) s).engAt 0 0).pending = some 6
      ∧ ((after (.programStart .pf 0 0 7) (after (.programStart .pf 0 0 6) s)).engAt 0 0).startRefused = true
      ∧ ((after (.programStart .pf 0 0 6) (live.setEng 0 0 { st := .faulted })).engAt 0 0).startRefused = true := by decide
theorem test_program_end : let s := live.setEng 0 1 { st := .run, ending := true, pc := 9 }
    s.oldest 0 1 = none ∧ (s.engAt 0 1).pend = [] ∧ ((after (.programEnd 0 1) s).engAt 0 1).st = .idle := by decide
theorem test_halted_engine : let s := live.setEng 0 1 { st := .halted, before := .wait, pc := 9 }
    s.tileReq .pf 0 .open_ = true ∧ (s.engAt 0 1).gstop = false ∧ s.tileStopped 0 = false ∧ ((after (.engineRelease .pf 0 2) s).engAt 0 1).st = .wait
      ∧ ((after (.engineStep .pf 0 2) s).engAt 0 1).stepping = true := by decide
/-- The instruction memory holds SC.ADDI s3, s1, −1 at the last word of the bank, as wordOf lays it out: the issue adds −1 to 5. -/
theorem test_word_issue : let c := Instr.scAddi 0 0 3 1 0xFFFF
    (match wordOf c with
      | some (t, e, w, x) =>
        let s := atWord (regs2 5 7) 8189
        let s := { s with imem := (List.range w).foldl (fun m i => put (fun _ => 0) m (8189 + i) (BitVec.ofNat 16 (x / 65536 ^ i))) s.imem }
        decide (t = 0) && decide (e = 0) && decide (s.imemNat 0 0 (s.pcOf 0 0) w = x) && decide (s.fetchBad 0 0 = none)
          && (match s.fetchWord 0 0 with | some (n, ops) => decide (n = w) && wordOk ops && s.met 0 0 ops && ops.all (fun o => (match o.check s with | .wait => false | _ => true) && match o.check (s.racy 0 .other) with | .ok => true | _ => false) | none => false)
          && decide ((after (.engineWordIssue 0 0) s).sR 0 0 3 = 4)
      | none => false) = true := by decide

/-! ## Matrix and vector engines -/

/-- A drain of one row of 16 values to line 64, FP32. -/
def drainF : DrF := { nc := 0, ofmt := 10, ovar := false, chain := 0, hws := false, msk := false, sigEn := true, sem := 4, ag := 0, dset := 0, clr := false, ityp := true, c := 0, dst := 64, rm := 0 }
theorem test_word_add : let c := Instr.scAdd 0 0 3 1 2
    (match wordOf c with
      | some (_, _, w, x) =>
        let s := { regs2 5 7 with imem := (List.range w).foldl (fun m i => put (fun _ => 0) m i (BitVec.ofNat 16 (x / 65536 ^ i))) live.imem }
        decide (w = 3) && decide (s.imemNat 0 0 (s.pcOf 0 0) 3 = x) && decide (s.fetchBad 0 0 = none) && decide ((after (.engineWordIssue 0 0) s).sR 0 0 3 = 12)
      | none => false) = true := by decide
theorem test_problem_issue : let s := running 0
    let f := (problem 0 false).f
    f.legal = true ∧ (match s.mxCheck 0 f with | .ok => true | _ => false) = true ∧ ((after (.mxProb 0 f) s).tileAt 0).mxq = [{ problem 0 false with setRow := 0 }]
      ∧ drainF.legal = true ∧ (match s.drCheck 0 drainF with | .ok => true | _ => false) = true
      ∧ ((after (.drWrite 0 drainF) s).tileAt 0).drq.map (fun o => (o.f, o.running)) = [(drainF, false)] := by decide +kernel
/-- Tile 0 holds a problem of one row: row 0 of A is 32 bytes of 3 in line 0; B, from line 1, is bytes of 2. -/
def matrix (run : Bool) : State :=
  let s := (live.setSpadBytes 0 0 (List.replicate 32 3)).setSpadBytes 0 64 (List.replicate 512 2)
  s.setTile 0 { s.tileAt 0 with mxq := [problem 0 run] }
theorem test_problem_start : let s := matrix false
    s.runs 0 = true ∧ ((s.tileAt 0).mxq.find? fun o => !o.running) = some (problem 0 false) ∧ s.mxHold 0 (problem 0 false) = false
      ∧ (problem 0 false).startFault = 0 ∧ (s.racy 0 .other).maskPoison 0 false 0 1 = none ∧ ((after (.mxProbStart 0) s).tileAt 0).mxq = [{ problem 0 true with old := s.snap 0 }] := by decide +kernel
/-- A problem and a drain of one row whose mask line, line 5, is poison: each halts its engine at its start. -/
def maskedP : MxOp := { problem 0 false with f := { (problem 0 false).f with msk := true }, setMsk := 5 }
theorem test_problem_mask_poison : let s := ((matrix false).markSpad 0 5 true).setEng 0 0 { st := .run }
    let s := s.setTile 0 { s.tileAt 0 with mxq := [maskedP] }
    s.runs 0 = true ∧ ((s.tileAt 0).mxq.find? fun o => !o.running) = some maskedP ∧ s.mxHold 0 maskedP = false ∧ maskedP.startFault = 0
      ∧ (s.racy 0 .other).maskPoison 0 maskedP.f.msk (maskedP.f.a.toNat + sx 16 (fld maskedP.setMsk 15 0)) maskedP.rows = some 5
      ∧ ((after (.mxProbStart 0) s).tileAt 0).mxq.all (fun o => !o.running) = true ∧ ((after (.mxProbStart 0) s).engAt 0 0).st = .faulted := by decide +kernel
theorem test_problem_complete : let s := matrix true
    (s.tileAt 0).mxq = [problem 0 true] ∧ (problem 0 true).running = true := by decide +kernel
/-- A queued drain of FP32, and the state it runs in: entry 3 of tile 0 holds 96. -/
def drainO (run : Bool) (beats : List Beat) : DrOp :=
  { seq := 0, f := drainF, rows := 1, mskOfs := 0, vofs := 0, running := run, shape := 0x100000, aux := 0, sws := 0, chain := [], stat := false, beats := beats, since := 0 }
/-- The state with the drain queued. -/
def drain : State :=
  let s := (live.setAccW 0 3 96).setTr 0 0x1080 0x100000
  let s := { s with accTy := put (fun _ => 0) s.accTy 3 2 }
  s.setTile 0 { s.tileAt 0 with drq := [drainO false []] }
theorem test_drain_start : let s := drain
    let o := drainO false []
    s.runs 0 = true ∧ ((s.tileAt 0).drq.find? fun o => !o.running) = some o ∧ s.drHold 0 o = false ∧ (o.latch s 0).startFault s 0 = 0
      ∧ s.portHeld 0 (o.latch s 0).chain = false ∧ (s.racy 0 (.drain 0)).maskPoison 0 o.f.msk (o.latch s 0).maskLine o.rows = none ∧ ((after (.drWriteStart 0) s).tileAt 0).drq.map (·.running) = [true] := by decide +kernel
def maskedD : DrOp := { drainO false [] with f := { drainF with msk := true } }
theorem test_drain_mask_poison : let s := (drain.markSpad 0 0 true).setEng 0 0 { st := .run }
    let s := s.setTile 0 { s.tileAt 0 with drq := [maskedD] }
    ((s.tileAt 0).drq.find? fun o => !o.running) = some maskedD ∧ s.drHold 0 maskedD = false ∧ (maskedD.latch s 0).startFault s 0 = 0
      ∧ s.portHeld 0 (maskedD.latch s 0).chain = false
      ∧ (s.racy 0 (.drain 0)).maskPoison 0 maskedD.f.msk (maskedD.latch s 0).maskLine maskedD.rows = some 0
      ∧ ((after (.drWriteStart 0) s).engAt 0 0).st = .faulted := by decide +kernel
theorem test_drain_complete : let s := after (.drWriteStart 0) drain
    ((s.tileAt 0).drq.filter fun o => o.ready).length = 1 ∧ (s.tileAt 0).drq.length = 1 ∧ (after (.drWriteComplete 0) s).spadW 0 (64 * 64 + 12) = 0x42C00000 ∧ ((after (.drWriteComplete 0) s).tileAt 0).drq = [] := by
  decide
/-- A running drain whose one beat stands before a fabric stage (kind 12, stage 0), both of colony 0's stages open. -/
def extO (sent : Bool) : DrOp :=
  { drainO true [{ row := 0, col := 0, vals := List.replicate 16 (5, false), stage := 0, sent := sent }] with chain := [(12, 0)] }
def extS (sent : Bool) : State :=
  let s := ((running 0).setReg (xstat 0) 0xA).setReg fabBase 0
  s.setTile 0 { s.tileAt 0 with drq := [extO sent], extSent := if sent then [(false, 0, 0, false)] else [] }
theorem test_ext_send : let s := extS false
    let w := s.setReg (xstat 0) 0xB
    s.portGrant (colonyOf 0) = some 0 ∧ s.tileBeat 0 = some (extO false, 0, { row := 0, col := 0, vals := List.replicate 16 (5, false), stage := 0, sent := false })
      ∧ s.portFailed 0 (extO false).chain = false ∧ ((after (.extBeatSend 0) s).tileAt 0).extSent = [(false, 0, 0, false)]
      ∧ w.portGrant 0 = some 0 ∧ w.portFailed 0 (extO false).chain = true ∧ ((after (.extBeatSend 0) w).engAt 0 0).code = 0x44 := by decide +kernel
theorem test_ext_result : let s := extS true
    ((s.tileAt 0).extSent.find? fun x => decide (x.1 = false)) = some (false, 0, 0, false) ∧ ((s.tileAt 0).drq.find? fun o => decide (o.seq = 0)) = some (extO true)
      ∧ ((extO true).beats[0]?).isSome = true
      ∧ ((after (.extResultDue 0 false none) s).engAt 0 0).code = 0x44
      ∧ ((after (.extResultDue 0 false (some 0)) (after .gsrAssert s)).engAt 0 0).code = 0x44 ∧ fld ((after (.extStrayResult 0) s).reg (xstat 0)) 23 16 = 1 := by decide +kernel

/-- Engine 1 of tile 0 runs; lane i of v1 holds 32 − i and lane i of v2 holds 0x40400000, the binary32 number 3; p1 selects the lower 16 lanes. -/
def lanes : State :=
  let s := each (running 1) (List.range 32) fun s i => (s.setVregL 0 1 i (BitVec.ofNat 32 (32 - i))).setVregL 0 2 i 0x40400000
  s.setPval 0 1 0xFFFF
theorem test_ready_lanes : lanes.Ready 0 1 3 :=
  ⟨by decide, by decide, by decide, by decide, by decide, by decide, by decide, by decide⟩
/-- A V word less its op: pk 0, no third source. -/
def vF (d a b p : Nat) : VxV := { vd := BitVec.ofNat 5 d, va := BitVec.ofNat 5 a, vb := BitVec.ofNat 5 b, vc := 0, p := BitVec.ofNat 3 p, pk := 0 }
theorem test_vector_iadd : let s := lanes
    (vF 3 1 1 1).pk = 0 ∧ (vF 3 1 1 1).vc = 0 ∧ (s.vregP 0 1 31 = false ∧ s.vregP 0 2 31 = false)
      ∧ (after (.vxIadd 0 (vF 3 1 1 1)) s).vregL 0 3 15 = 34 ∧ (after (.vxIadd 0 (vF 3 1 1 1)) s).vregL 0 3 16 = 0
      ∧ (after (.vxIadd 0 (vF 1 1 1 0)) s).vregL 0 1 31 = 2 := by decide +kernel
theorem test_vector_shift : (after (.vxShl 0 (vF 3 1 1 0)) lanes).vregL 0 3 0 = 32 ∧ (after (.vxShl 0 (vF 3 1 1 0)) lanes).vregL 0 3 1 = 0x80000000 * 31 := by decide +kernel
theorem test_vector_fadd : (vF 3 2 2 0).vc = 0 ∧ (after (.vxFadd 0 (vF 3 2 2 0)) lanes).vregL 0 3 31 = 0x40C00000 := by decide +kernel
theorem test_vector_fneg : (vF 3 2 0 0).vb = 0 ∧ (after (.vxFneg 0 (vF 3 2 0 0)) lanes).vregL 0 3 31 = 0xC0400000 := by decide +kernel
theorem test_vector_sel : (after (.vxSel 0 (vF 3 1 2 1)) lanes).vregL 0 3 15 = 17 ∧ (after (.vxSel 0 (vF 3 1 2 1)) lanes).vregL 0 3 16 = 0x40400000 := by decide +kernel
theorem test_vector_lidx : (vF 3 0 0 0).va = 0 ∧ (after (.vxLidx 0 (vF 3 0 0 0)) lanes).vregL 0 3 31 = 31 := by decide +kernel
theorem test_vector_bcs : (vF 3 15 0 0).va.toNat < 16 ∧ (after (.vxBcs 0 (vF 3 15 0 0)) (lanes.setSR 0 1 15 7)).vregL 0 3 31 = 7 := by decide +kernel
theorem test_vector_getl : let f := vF 15 1 31 0
    f.p = 0 ∧ f.vd.toNat < 16 ∧ lanes.vregP 0 f.va.toNat f.vb.toNat = false ∧ (after (.vxGetl 0 f) lanes).sR 0 1 15 = 1 := by decide +kernel
theorem test_vector_cmp : let f := { vF 7 1 1 1 with vc := 22 }
    f.vd ≠ 0 ∧ f.vd.toNat < 8 ∧ f.vc.toNat % 8 ≠ 7 ∧ f.vc.toNat < 24 := by decide +kernel
theorem test_vector_plog : let f := { vF 7 1 0 0 with vc := 4 }
    f.p = 0 ∧ f.vd ≠ 0 ∧ f.vd.toNat < 8 ∧ f.va.toNat < 8 ∧ f.vb.toNat < 8 ∧ f.vc.toNat ≤ 4 ∧ (after (.vxPlog 0 f) lanes).pval 0 7 = 0xFFFF0000 := by decide +kernel
theorem test_vector_functions : let m := { vF 0 8 16 0 with vc := 31 }
    let h : VxC := { vd := 3, va := 2, src := 10, dst := 8, nc := 0, p := 0 }
    (vF 3 2 0 0).vb = 0 ∧ (vF 3 2 0 0).vc = 0 ∧ (vF 3 2 2 0).pk = 0 ∧ mmLegal m = true ∧ cholLegal (vF 0 0 0 0) = true ∧ chsvLegal (vF 31 0 0 0) = true
      ∧ (cvtLegal h = true ∨ cvtLegal { h with vd := 4 } = true) := by decide +kernel
theorem test_vector_rmax : (vF 3 2 0 0).pk.toNat ≤ 1 ∧ (after (.vxRmax 0 (vF 3 2 0 0)) lanes).vregL 0 3 0 = 0x40400000 := by decide +kernel
/-- An M word less its op. -/
def mF (line : Nat) : VxM := { v := 1, ag := 0, cb := 0, p := 0, line := BitVec.ofNat 12 line }
theorem test_vector_line_check : let s := lanes
    (mF 4094).ag = 0 ∧ (mF 4094).cb = 0 ∧ (s.tileAt 0).quar = none ∧ (mF 4094).line.toNat + 2 ≤ 4096 ∧ 4096 < (mF 4095).line.toNat + 2
      ∧ (match s.vxMCheck 0 (mF 4094) 2 0, s.vxMCheck 0 (mF 4095) 1 0, s.vxMCheck 0 (mF 4094) 2 1, s.vxMCheck 0 (mF 4095) 1 1 with
          | .ok, .ok, .ok, .ok => true | _, _, _, _ => false) = true
      ∧ (after (.vxSt 0 (mF 4094)) s).spadW 0 262140 = 1 ∧ ((after (.vxSt 0 (mF 4095)) s).engAt 0 1).code = 0x48 := by decide +kernel
theorem test_vector_gather : let s := each lanes (List.range 32) fun s i => s.setVregL 0 4 i 65535
    let g : VxG := { v := 5, vi := 4, p := 0, line := 0 }
    (match s.vxGCheck 0 g with | .ok => true | _ => false) = true
      ∧ (after (.vxGath 0 g) (s.setSpadBytes 0 262140 [1, 2, 3, 4])).vregL 0 5 31 = 0x04030201 := by decide +kernel
theorem test_vector_tapmv : let s := (lanes.setTr 0 0x1310 0x2000).setTr 0 0x1380 1
    let h := vF 3 1 1 0
    h.vb.toNat % 8 ≠ 0 ∧ (match s.tapCheck 0 h with | .ok => true | _ => false) = true := by decide +kernel

/-! ## Weir, context store, residency -/

/-- Context 0 of partition 0 has a map (R75 to R77): root table at 0, header at 0x800 with class 0 (32 elements of BF16) and class 1 (SIG64), directory at
0x8000, one leaf table at 0x10000, LPN 0 in slot 3 of tile 0 and LPN 1 in slot 4; parameter set 0 of tile 0 names class 0 with one head of 32 elements. -/
def mapped : State :=
  let d := fun (s : State) (a v : Nat) => s.setHbmBytes a (natLe 8 v)
  let s := d (d (d (d live 0 0x800) 0x800 0x12F00002028) 0x840 0x8000) 0x848 0x20000
  let s := d (d (d (d s 0x850 16) 0x8000 0x10001) 0x10000 (1 + 3 * 2 ^ 20 + 0x10 * 2 ^ 32)) 0x10008 (1 + 4 + 4 * 2 ^ 20 + 0x11 * 2 ^ 32)
  let s := (s.fillTag 0 3 0 0).fillTag 0 4 0 1
  (s.setTr 0 0x1900 0x842180).setEng 0 3 { st := .run }
/-- A weir word less its op: one row, of LPN `l`. -/
def wF (l imm : Nat) : WeirF :=
  { nc := 0, sigEn := true, pset := 0, lpn := BitVec.ofNat 24 l, rowFirst := 0, rowCntM1 := 0, src := 0, dst := 64, aux := 128, sem := 4, ag := 0, imm := BitVec.ofNat 16 imm }
theorem test_ready_mapped : mapped.Ready 0 3 9 :=
  ⟨by decide, by decide, by decide, by decide, by decide, by decide, by decide, by decide⟩
/-- A verdict lets its slot go. -/
def goes (v : Verdict) : Bool := match v with | .ok => true | _ => false
theorem test_weir_checks : (wF 0 0).legal .score = true ∧ goes (mapped.weirCheck 0 .score (wF 0 0)) = true
    ∧ (wF 0 0).legal .attend = true ∧ goes (mapped.weirCheck 0 .attend (wF 0 0)) = true
    ∧ (wF 0 64).legal .topk = true ∧ goes (mapped.weirCheck 0 .topk (wF 0 64)) = true := by decide +kernel
theorem test_weir_checks_rows : (wF 0 8).legal .append = true ∧ goes (mapped.weirCheck 0 .append (wF 0 8)) = true
    ∧ (wF 1 0).legal .reuse = true ∧ goes (mapped.weirCheck 0 .reuse (wF 1 0)) = true
    ∧ (wF 0 8).legal .gather = true ∧ goes (mapped.weirCheck 0 .gather (wF 0 8)) = true := by decide +kernel
/-- WEIR.APPEND of one row: bytes 1 to 64 of line 0. -/
def append : State := after (.weirAppend 0 (wF 0 8)) (mapped.setSpadBytes 0 0 ((List.range 64).map fun i => BitVec.ofNat 8 (i + 1)))
theorem test_weir_issue : (mapped.tileAt 0).walk = none ∧ (match mapped.weirPlan 0 .append (wF 0 8) with | (_, .ok _) => true | _ => false) = true
    ∧ (append.tileAt 0).wei.length = 1 ∧ (append.tileAt 0).weirArrived = [(0, 0)] ∧ (append.engAt 0 3).seq = 1 := by decide +kernel
/-- LPN 0 stands at tile 1: the operation goes there over the canal. -/
theorem test_weir_issue_remote : let s := ((mapped.setTr 0 0x1708 0x40000).setHbmBytes 0x10000 (natLe 8 (1 + 0x100 + 3 * 2 ^ 20 + 0x10 * 2 ^ 32))).fillTag 1 3 0 0
    (match s.weirPlan 0 .append (wF 0 8) with | (_, .ok o) => decide (o.page.tile = 1) && decide (o.seq = 0) | _ => false) = true
      ∧ (s.weirIssue 0 .append (wF 0 8)).canal.pkts.map (fun x => (x.2.src, x.2.dst, x.2.load)) = [(.tile 0, .tile 1, .weir 1 0 0)] := by decide +kernel
theorem test_weir_list_begins : let f := wF 0 0x108
    f.legal .gather = true ∧ (mapped.tileAt 0).wei.length < 4 ∧ (match mapped.weirPlan 0 .gather f with | (_, .ok o) => o.f.list | _ => false) = true
      ∧ ((after (.weirGather 0 f) mapped).engAt 0 3).st = .wait ∧ ((after (.weirGather 0 f) mapped).tileAt 0).walk.isSome = true := by decide +kernel
theorem test_weir_accepts : append.running 0 = none ∧ (append.tileAt 0).weirArrived = [(0, 0)]
    ∧ (match (append.tileAt 0).weirOp 0 with | some o => append.weirServed o && !append.weirClash 0 o && decide (o.sent = none) | none => false) = true
    ∧ ((after (.weirOpAccept 0) append).tileAt 0).weirRunning = some (0, 0) := by decide +kernel
theorem test_weir_completes : let s := after (.weirOpAccept 0) append
    (match s.running 0 with | some (t, o) => decide (t = 0) && !o.done && s.weirServed o && !((s.tileAt 0).walk.any fun x => decide (x.seq = o.seq)) | none => false) = true
      ∧ (after (.weirOpComplete 0) s).cisBytes 0 (3 * 65536 + 62) 2 = [63, 64] ∧ (after (.weirOpComplete 0) s).semVal 0 4 = 1
      ∧ ((after (.weirOpComplete 0) s).tileAt 0).wei = [] := by decide +kernel
theorem test_gather_empty_entry : let s := mapped.setSpadBytes 0 (128 * 64) ([0, 0, 0x80, 0xFF] ++ List.replicate 8 0xFF)
    let s := after (.weirOpAccept 0) (after (.weirGather 0 (wF 0 0x108)) s)
    (match s.running 0 with
      | some (t, o) => decide (t = 0) && ((s.tileAt 0).walk.any fun x => decide (x.seq = o.seq)) && decide (o.entry < o.f.rows) && decide (o.f.aux.toNat * 64 = 8192) && decide (o.sent = none)
        && (let y := s.racy 0 (.weir 0 o.seq); !y.spadBad 0 8192 16 && decide (y.spadW 0 8192 = 0xFF800000 ∧ y.spadW 0 8196 = 0xFFFFFFFF ∧ y.spadW 0 8200 = 0xFFFFFFFF))
      | none => false) = true
      ∧ s.partOf 0 = some 0 := by decide +kernel
theorem test_weir_stop : let s := (running 3).setEng 0 3 { st := .stopped, pc := 9 }
    let s := s.setTile 0 { s.tileAt 0 with wstop := { valid := true, code := 0x10, lpn := 7 } }
    s.tileReq .pf 0 .open_ = true ∧ (s.tileAt 0).wstop.valid = true ∧ ((after (.weirStopResume .pf 0) s).engAt 0 3).st = .run
      ∧ ((after (.weirStopFault .pf 0 0x7F) s).engAt 0 3).code = 0x7F ∧ ((after (.weirStopFault .pf 0 0x80) s).engAt 0 3).code = 0x34
      ∧ ((after (.weirStopFault .pf 0 0x1F) s).engAt 0 3).code = 0x34 := by decide +kernel
theorem test_page_operation : let s := mapped.setTr 0 0x1818 0x12
    s.tileReq .pf 0 .open_ = true ∧ (s.tileAt 0).pageop = none ∧ s.pageCheck 0 1 5 0 0x12 = 0 ∧ s.pageCheck 0 2 63 0 0x12 = 0 ∧ s.pageCheck 0 3 3 0 0x12 = 0
      ∧ s.pageCheck 0 4 4 0 0x12 = 0 ∧ s.pageCheck 0 1 3 0 0x12 = 1
      ∧ ((after (.pageopFree .pf 0 4 0) s).tileAt 0).pageop.isSome = true ∧ tagBusy ((after (.pageopFree .pf 0 4 0) s).tag 0 4) = true
      ∧ ((after (.pageopInvalidOp .pf 0 5 3 0) s).tileAt 0).poResult = 2
      ∧ ((after (.pageopFree .pf 0 3 0) (after (.pageopFree .pf 0 4 0) s)).tileAt 0).poOverrun = true := by decide +kernel
theorem test_page_operation_ends : let s := after (.pageopFree .pf 0 4 0) mapped
    let o : PageOp := { op := 4, slot := 4, ctx := 0, lpn := 0, frame := 0, moved := false, poison := false }
    (s.tileAt 0).pageop = some o ∧ s.slotUsed 0 4 = false ∧ s.pageServed 0 false = true ∧ (s.tileAt 0).scrub.contains o.slot = false
      ∧ tagValid ((after (.pageopDone 0) (after (.pageopDataMove 0) s)).tag 0 4) = false := by decide +kernel
theorem test_map_invalidate : let s := live.setPart 0 { live.partAt 0 with mapCache := [{ tile := 0, unit := .weir, kind := 2, ctx := 0, index := 0, value := 1 }] }
    let u := after (.mapInvalidate .pf 0 0x80000100) s
    let v : MapInv := { ctx := 0, all := true, root := false, lpn := 0 }
    s.partReq .pf 0 = true ∧ bit (0x80000100 : W32) 31 = true ∧ (s.partAt 0).mapInv = none
      ∧ ((after (.mapInvalidate .pf 0 0x80000100) u).partAt 0).mapOverrun = true
      ∧ (u.partAt 0).mapInv = some v := by decide +kernel
theorem test_map_invalidate_done : let v : MapInv := { ctx := 0, all := true, root := false, lpn := 0 }
    let u := live.setPart 0 { live.partAt 0 with mapInv := some v }
    (u.partAt 0).mapInv = some v ∧ u.canal.pkts = [] ∧ u.mapUsed 0 v = false ∧ ((after (.mapInvalidateDone 0) u).partAt 0).mapInv = none := by decide +kernel
theorem test_map_invalidate_waits : append.mapUsed 0 { ctx := 0, all := true, root := false, lpn := 0 } = true := by decide +kernel
theorem test_vault_age : let s := mapped.setTr 0 0x1804 1
    (63 : Nat) < 64 ∧ fld (s.tr 0 0x1804) 15 0 ≠ 0 ∧ tagValid (s.tag 0 3) = true ∧ tagAge ((after (.ageTick 0) s).tag 0 3) = 1
      ∧ bit ((after (.vaultRefreshRateChange 0 86) s).tr 0 0x1800) 2 = true ∧ bit ((after (.vaultRefreshRateChange 0 85) s).tr 0 0x1800) 2 = false
      ∧ bit ((after (.vaultThrottle 0 95) s).tr 0 0x1800) 3 = true := by decide +kernel
theorem test_owner_write : let s := live
    s.tileWriter .pf 0 .launch = true ∧ s.colUp (colonyOf 0) = true ∧ s.runs 0 = true ∧ (∀ e : EngId, (s.engAt 0 e).st = .idle) ∧ (s.tileAt 0).quar = none
      ∧ ((3 : W32).extractLsb' 0 8 : CtxId).toNat < 4 ∧ (s.tileAt 0).owned = false ∧ (after (.spownWrite .pf 0 3) s).ctxOf 0 = 3
      ∧ ((after (.spownWrite .pf 0 4) s).tileAt 0).spRefused = true ∧ ((after (.spownWrite .pf 0 0x400) (after (.spownWrite .pf 0 4) s)).tileAt 0).spRefused = false := by decide +kernel
theorem test_owner_handover : let s := after (.spownWrite .pf 0 3) live
    let s := (s.setSpadBytes 0 64 [7]).setVregL 0 1 1 9
    let u := after (.spownWrite .pf 0 2) s
    (s.tileAt 0).owned = true ∧ (2 : CtxId) ≠ (s.tileAt 0).ctx ∧ (u.tileAt 0).quar = some (.handover 2) ∧ (u.tileAt 0).quarWait = [] ∧ u.runs 0 = true
      ∧ u.quiesced 0 = true ∧ u.inbound 0 = false ∧ u.haloInto 0 = false ∧ (after (.quarantineClear 0) u).spadB 0 64 = 0 ∧ (after (.quarantineClear 0) u).vregL 0 1 1 = 0
      ∧ (after (.quarantineClear 0) u).ctxOf 0 = 2 ∧ (after (.spownWrite .pf 0 3) s).ctxOf 0 = 3 := by decide +kernel
theorem test_slot_scrub : let s := (mapped.setTile 0 { mapped.tileAt 0 with scrub := [3] }).setCisBytes 0 (3 * 65536 + 65535) [1]
    (s.tileAt 0).scrub = [3] ∧ s.slotUsed 0 3 = false ∧ (s.tileAt 0).pageop = none ∧ s.serves (domCis 0) = true
      ∧ (after (.slotScrubDone 0 3) s).cisB 0 (3 * 65536 + 65535) = 0 := by decide +kernel

/-! ## Mover and furrow -/

/-- Descriptor 2 of tile 0: two rows of 64 bytes, 64 bytes apart, from byte 0 of tile 1's scratchpad, on queue 0, whose limit is 4; `space` and `far` vary. -/
def descriptor (space : Nat) (far : Nat) : State :=
  let w := fun (s : State) (i v : Nat) => s.setTr 0 (0x1580 + 4 * i) (BitVec.ofNat 32 v)
  let s := w (w (w (w (w (w live 0 far) 2 space) 3 (if space = 0 then 1 else 0)) 4 63) 5 0x10002) 6 0x10001
  (((w s 7 64).setTr 0 0x1710 4).setTr 0 0x1708 0x40000).setEng 0 2 { st := .run }
/-- Its MOV.ISSUE to line 16. -/
def issue : IssueF := { desc := 2, line := 16, ag := 0, sigEn := true, sem := 5, rsig := false, rm := 0 }
theorem test_ready_descriptor : (descriptor 0 0).Ready 0 2 5 :=
  ⟨by decide, by decide, by decide, by decide, by decide, by decide, by decide, by decide⟩
/-- The descriptor is armed; its stream has started. -/
def armed (space far : Nat) : State := after (.movIssue 0 issue) (descriptor space far)
def started (space far : Nat) : State := after (.streamStart 0 0) (armed space far)
theorem test_mover_arms : let s := descriptor 0 0
    (s.armOf 0 issue).isSome = true ∧ issue.ag = 0 ∧ s.moverIdle 0 = true ∧ s.tileReq .pf 0 .launch = true ∧ bit (0x80080002 : W32) 31 = true
      ∧ ((armed 0 0).movd_ 0 2).armed = true ∧ ((armed 0 0).movq_ 0 0).arms.length = 1
      ∧ ((after (.movCtrlArm .pf 0 0x80080002) (armed 0 0)).movd_ 0 2).pending.isSome = true
      ∧ ((after (.movCtrlArm .pf 0 0x80080002) (after (.movCtrlArm .pf 0 0x80080002) (armed 0 0))).movd_ 0 2).overrunCnt = 1 := by decide +kernel
theorem test_queue_limit : let s := live
    s.tileReq .pf 0 .open_ = true ∧ (s.movq_ 0 3).arms = [] ∧ (s.movq_ 0 3).streams = [] ∧ (after (.queueCfgWrite .pf 0 3 64) s).outLimit 0 3 = 64
      ∧ ((after (.queueCfgWrite .pf 0 3 65) s).movq_ 0 3).cfgRefused = true ∧ ((after (.queueCfgWrite .pf 0 3 0) s).movq_ 0 3).cfgRefused = true
      ∧ ((after (.queueCfgWrite .pf 0 3 0x100) (after (.queueCfgWrite .pf 0 3 0) s)).movq_ 0 3).cfgRefused = false := by decide +kernel
/-- The arming of `issue`. -/
def arming : Arm := { desc := 2, line := 16, sem := 5, sigEn := true, rsig := false, n1 := none, farOfs := 0, mlineOfs := 0, seq := some 0 }
theorem test_stream_starts : let s := armed 0 0
    let w := s.descWords 0 2
    (s.movq_ 0 0).arms = [arming] ∧ s.partOf 0 = some 0 ∧ (s.movq_ 0 0).runs = true ∧ s.runs 0 = true ∧ (s.movq_ 0 0).streams = []
      ∧ s.startFault 0 0 arming w (descOf w) 2 = 0 ∧ (descOf w).msk = false
      ∧ ({ arm := arming, words := w, n1 := 2, mask := [], next := none, parts := 1, bytes := 0, fabStarted := false } : Stream).first ≠ none
      ∧ ((started 0 0).movq_ 0 0).streams.length = 1 ∧ ((started 0 0).movd_ 0 2).running = true := by decide +kernel
theorem test_stream_fault : let s := armed 0 262081
    s.startFault 0 0 arming (s.descWords 0 2) (descOf (s.descWords 0 2)) 2 = 0x51 ∧ ((started 0 262081).movq_ 0 0).faulted = true
      ∧ ((started 0 262081).movq_ 0 0).code = 0x51 ∧ (armed 0 262016).startFault 0 0 arming ((armed 0 262016).descWords 0 2) (descOf ((armed 0 262016).descWords 0 2)) 2 = 0 := by
  decide +kernel
/-- The queue's next transfer. -/
def next_ (s : State) : Option (Nat × Stream × Pos) := (s.movq_ 0 0).upcoming
theorem test_transfer_admit : let s := started 0 0
    s.turnComes 0 0 = true ∧ (match next_ s with
      | some (i, y, p) => decide (y.d.space = 0) && !s.xferWaits 0 y.d (y.xfer i p) && s.hasToken 0 (y.d.cls 0)
          && (s.farDoms 0 y.d (y.xfer i p)).all fun z => s.serves z.1
      | none => false) = true ∧ (s.movq_ 0 0).runs = true ∧ (s.movq_ 0 0).inflight.length < s.outLimit 0 0
      ∧ ((after (.transferAdmit 0 0 .ok) s).movq_ 0 0).inflight.length = 1 := by decide +kernel
theorem test_transfer_admit_host : let s := started 4 0
    s.turnComes 0 0 = true ∧ (match next_ s with
      | some (i, y, p) => decide (y.d.space = 4) && !s.xferWaits 0 y.d (y.xfer i p) && s.hasToken 0 (y.d.cls 0)
      | none => false) = true
      ∧ ((after (.transferAdmit 0 0 .ok) s).movq_ 0 0).inflight.length = 1 ∧ ((after (.transferAdmit 0 0 .refused) s).movq_ 0 0).code = 0x53 := by decide +kernel
/-- What the queue's transfers wait for has come over the canal. -/
def arrived (s : State) : State :=
  { s.setMovq 0 0 { s.movq_ 0 0 with inflight := (s.movq_ 0 0).inflight.map fun f => { f with legs := 0 } } with canal := {} }
theorem test_transfer_retire : let s := arrived (after (.transferAdmit 0 0 .ok) ((started 0 0).setSpadBytes 1 0 [8, 9]))
    (match (s.movq_ 0 0).inflight with
      | f :: _ => (match (s.movq_ 0 0).streams[f.stream - (s.movq_ 0 0).base]? with
        | some y => !f.refused && !s.xferHeld 0 y.d f && decide (y.d.tiles = [1]) && decide (f.lost = []) && decide (f.page = none) && !s.spadBad 0 f.loc f.len
            && !s.spadBad 1 f.far.toNat f.len && !y.d.out && !y.d.imem && !f.done && decide (f.legs = 0) && !f.hurt
            && decide (f.old = (s.spadBytes 1 f.far.toNat f.len, false))
            && (let r : Reader := .xfer 0 f.stream f.pos; (s.drainsOf 1 r).isEmpty && (s.xfersTo 1 r).isEmpty && (s.weirsTo 1 r).isEmpty) && decide ((s.movq_ 0 0).inflight = [f])
        | none => false)
      | [] => false) = true
      ∧ (after (.transferRetire 0 0 .error) s).spadBytes 0 1024 3 = [8, 9, 0] := by decide +kernel
theorem test_transfer_retire_host : let s := arrived (after (.transferAdmit 0 0 .ok) (started 4 0))
    (match (s.movq_ 0 0).inflight with
      | f :: _ => (match (s.movq_ 0 0).streams[f.stream - (s.movq_ 0 0).base]? with
        | some y => !f.refused && !f.done && decide (f.legs = 0) && !s.xferHeld 0 y.d f && decide (y.d.space = 4)
        | none => false)
      | [] => false) = true
      ∧ (after (.transferRetire 0 0 (.data [5])) s).spadB 0 1024 = 5 ∧ ((after (.transferRetire 0 0 .error) s).movq_ 0 0).code = 0x53 := by decide +kernel
/-- A host transfer that has found no translation; its record. -/
def noPage_ : State := after (.transferRefused 0 0 .notPresent) (started 4 0)
theorem test_mover_stop : let s := started 4 0
    (s.movq_ 0 0).faulted = false ∧ (s.movq_ 0 0).stop.valid = false ∧ (s.movq_ 0 0).inflight = [] ∧ (match next_ s with | some (_, y, _) => s.hasToken 0 (y.d.cls 0) | none => false) = true ∧ 0 < s.outLimit 0 0
      ∧ (noPage_.movq_ 0 0).why.isSome = true ∧ (next_ noPage_).isSome = true
      ∧ ((after (.moverStopRecord 0 0) noPage_).movq_ 0 0).stop.valid = true ∧ ((after (.moverStopRecord 0 0) noPage_).engAt 0 2).st = .stopped := by decide +kernel
theorem test_mover_stop_answers : let s := after (.moverStopRecord 0 0) noPage_
    let m := s.movq_ 0 0
    ((s.prg.find? fun g => decide (g.1 = (none : Option PartId)) && decide (g.2.1 = m.stop.prgi)).isSome = true ∨ (s.prg.find? fun g => decide (g.1 = some 0) && decide (g.2.1 = m.stop.prgi)).isSome = true)
      ∧ m.stop.prg = 1 ∧ s.tileReq .pf 0 .open_ = true
      ∧ ((after (.prgResponse (.vf 0) m.stop.prgi true) s).movq_ 0 0).stop.prg + ((after (.prgResponse .pf m.stop.prgi true) s).movq_ 0 0).stop.prg = 3
      ∧ ((after (.moverStopFault .pf 0 0 0x80) s).movq_ 0 0).code = 0x56 ∧ ((after (.moverStopFault .pf 0 0 0x7F) s).movq_ 0 0).code = 0x7F := by decide +kernel
theorem test_mover_stop_resume : let s := live.setMovq 0 0 { stop := { valid := true, code := 0x10 } }
    (s.movq_ 0 0).stop.prg ≠ 1 ∧ ((after (.moverStopResume .pf 0 0) s).movq_ 0 0).stop.valid = false
      ∧ ((after (.moverStopFault .pf 0 0 0x1F) s).movq_ 0 0).code = 0x34 := by decide +kernel

/-- Rotation set 0 at tiles 0 to 3: one line, from line 0 where it rests and line 100 elsewhere; gsem 1, asem 2. -/
def ringS : State :=
  let s := each live [0, 1, 2, 3] fun s t => (s.setTr t 0x1B00 0x1000).setTr t 0x1B08 0x64121
  ((s.setSem 0 1 1).setSpadBytes 0 0 [7]).setDom 1 { st := 0 }
theorem test_rotation : let s := ringS
    let u := s.setRset 0 0 { departing := true, posts := true }
    s.holding 0 0 = true ∧ (s.rsetAt 0 0).departing = false ∧ s.runs 0 = true ∧ s.ringStopped 0 = false ∧ (s.tileAt 0).realign = 0 ∧ 1 ≤ s.furLeft 0 0 (s.setGsem 0 0)
      ∧ s.succTile 0 = 1 ∧ u.holding 1 0 = false ∧ u.runs 1 = true ∧ u.ring 0 ≠ [] ∧ (u.rsetAt 1 0).early = false
      ∧ u.setLoc 1 0 + u.setLines 0 0 ≤ 4096 ∧ u.setLoc 0 0 + u.setLines 0 0 ≤ 4096 ∧ 0 < u.setLines 0 0 ∧ u.spadP 0 (u.setLoc 0 0) = false
      ∧ (after (.rotationHopComplete 0 0) u).spadB 1 6400 = 7 ∧ (after (.rotationHopComplete 0 0) u).semVal 1 2 = 1
      ∧ ((after (.rotationHopComplete 0 0) u).rsetAt 0 0).count = 1 := by decide +kernel
theorem test_realign : let s := live
    let u := after (.realignStart .pf 0 0x80) s
    s.tileReq .pf 0 .launch = true ∧ (∀ v ∈ s.ring 0, ∀ e : EngId, (s.engAt v e).st = .idle) ∧ (s.tileAt 0).realign.getLsbD 7 = false
      ∧ (u.tileAt 3).realign = 0x80 ∧ (u.tileAt 0).realign.getLsbD 7 = true ∧ bit ((after (.realignStart .pf 0 0x80) u).tr 0 0x1BC8) 8 = true
      ∧ (u.rsetAt 0 7).count = 0 ∧ (u.rsetAt 0 7).departing = false ∧ (u.rsetAt (u.predTile 0) 7).departing = false
      ∧ (after (.realignDone 0 7) u).tileAt 0 = s.tileAt 0 := by decide +kernel
theorem test_halo : let s := ((live.setTr 0 0x1B80 0x1000).setTr 0 0x1B84 5).setTr 0 0x1B88 0x1321
    let s := (s.setSem 0 1 1).setSpadBytes 0 0 [7]
    let u := s.setHalo 0 0 { busy := true }
    s.haloTo 0 0 = some 1 ∧ bit (s.tr 0 (haloOff 0 + 8)) 12 = true ∧ (s.haloAt 0 0).busy = false ∧ 1 ≤ s.furLeft 0 8 1 ∧ s.runs 0 = true ∧ s.tileStopped 0 = false
      ∧ (u.haloAt 0 0).busy = true ∧ (u.haloAt 0 0).lateAt = [] ∧ u.haloHeld 0 1 0 = false ∧ u.runs 1 = true ∧ (after (.haloSendComplete 0 0) u).spadB 1 320 = 7
      ∧ (after (.haloSendComplete 0 0) u).semVal 1 2 = 1 ∧ (after (.haloSendComplete 0 0) u).semVal 0 3 = 1 := by decide +kernel

/-! ## Vulor and fabric -/

/-- The header's first fields as Table 15-1 places them, from the bytes 0x000 to 0x01F; every later field is 0. -/
def headOf (l : List (Nat × Nat)) : List Byte := l.flatMap (fun x => natLe x.1 x.2) ++ List.replicate (4096 - 32) 0
def img : Image := { header := headOf [(20, 0), (1, 3), (1, 0), (2, 1), (4, 9), (4, 0)], table := [], segs := [], body := [], sections := [] }
theorem test_header_fields : imgSvn img = 3 ∧ imgDebug img = true ∧ imgFleet img = 9 := by decide +kernel
/-- Port 0 (x plus) is in state `st`, of a ring of 4 devices; its domain runs, it is enabled, and an image of fleet 9 is loaded. -/
def port (st : PortSt) : State :=
  let s := ((live.setPort 0 { st := st, isOpen := true, peer := 1 }).setReg (portBase 0) 1).setReg (portBase 0 + 0x104) 3
  { (s.setDom 89 { st := 0 }).setDom 90 { st := 0 } with chitin := { s.chitin with image := some img } }
/-- A hello that port 0 admits: the neighbour, device 1. -/
def hello : PeerHello := { chainOk := true, owner := 0, fleet := 9, id := 1, eph := 0 }
def trainedOk : Training := { good := 0xFF, peerGood := 0x0F, peerGen2 := true, signal := true }
theorem test_port_up : let s := (port .off).setDom 89 { st := 2 }
    s.vulEn 0 = true ∧ (s.portAt 0).st = .off ∧ ((after (.portDomainUp 0) s).portAt 0).st = .culverted := by decide +kernel
theorem test_port_training : let s := port .training
    s.vulEn 0 = true ∧ (s.domAt (domVul 0)).target ≠ 2 ∧ (s.portAt 0).st = .training ∧ linkWidth trainedOk.good trainedOk.peerGood ≠ none ∧ linkWidth 0xEE 0xFF = none
      ∧ ((after (.linkTrainingComplete 0 trainedOk) s).portAt 0).st = .keying ∧ ((after (.trainingTimeout 0) s).portAt 0).fail = 3
      ∧ ((after (.linkTrainingComplete 0 { trainedOk with good := 0xEE }) s).portAt 0).fail = 2 := by decide +kernel
/-- The axis's culvert is closed. -/
def shut (st : PortSt) : State := (port st).setPort 0 { (port st).portAt 0 with isOpen := false }
theorem test_port_shut : ((port .training).portAt 0).isOpen = true ∧ ((port .keying).portAt 0).isOpen = true
    ∧ ((shut .training).portAt 0).isOpen = false ∧ (shut .training).vulEn 0 = true ∧ ((shut .training).domAt (domVul 0)).target ≠ 2
    ∧ ((after (.linkTrainingComplete 0 trainedOk) (shut .training)).portAt 0).fail = 3
    ∧ ((after (.keyingComplete 0 hello) (shut .keying)).portAt 0).fail = 3
    ∧ ((after (.linkTrainingComplete 0 { trainedOk with signal := false }) (port .training)).portAt 0).fail = 1 := by decide +kernel
theorem test_port_keying : let s := port .keying
    (s.portAt 0).st = .keying ∧ ((after (.keyingComplete 0 hello) s).portAt 0).span = 1 ∧ s.admits 0 hello = true ∧ s.admits 0 { hello with fleet := 8 } = false ∧ ((after (.keyingComplete 0 hello) s).portAt 0).st = .active
      ∧ ((after (.keyingComplete 0 { hello with fleet := 8 }) s).portAt 0).fail = 4 ∧ ((after (.keyingTimeout 0) s).portAt 0).fail = 3 := by decide +kernel
theorem test_port_active : let s := port .active
    s.pfReq .pf = true ∧ s.chitin.loadPassed = true ∧ bit (0 : W32) 0 = false ∧ ((after (.vulCtlEnableWrite .pf 0 0) s).portAt 0).leaving = true
      ∧ ((after (.vulRetrain .pf 0) s).portAt 0).st = .retrain ∧ ((after (.laneLockLoss 0) s).portAt 0).retrains = 1
      ∧ ((after (.peerLostTimeout 0) s).portAt 0).st = .retrain ∧ ((after (.keyEpochAdvance 0) (s.setPort 0 { s.portAt 0 with txSeq := 0x100000000 })).portAt 0).epochNo = 1
      ∧ ((after (.keyEpochAdvance 0) s).portAt 0).epochNo = 0
      ∧ (State.vulEn (after (.vulCtlEnableWrite .pf 0 0) { s with chitin := { s.chitin with loadPassed := false } }) 0) = true
      ∧ ((after (.vulRetrain .pf 0) (port .culverted)).portAt 0).st = .training := by decide +kernel
theorem test_port_leaves : let s := after (.vulCtlEnableWrite .pf 0 0) (port .active)
    (s.portAt 0).replay = [] ∧ (s.portAt 0).bufs = [] ∧ (s.portAt 0).rxPart = [] ∧ (s.portAt 0).rxFlit = none
      ∧ ((after (.portLeave 0) s).portAt 0).st ≠ .active := by decide +kernel
theorem test_culvert_close : let s := port .culverted
    s.mayOpen (axisPort 0 0) = false ∧ ((after (.culvertClose 0) s).portAt 0).isOpen = false := by decide +kernel
/-- A message area of null slots. -/
def area0 : List Byte := List.replicate 224 0
/-- A DATA flit with number 0 as it arrives at port 0, sealed under key 0; a KEY flit. -/
def sealed (ty : FlitType) : List Byte := flitBytes (flitOf ty 7) 0 0
def cameIn (ty : FlitType) : FlitArrival := { lanes := lanesOf 4 (sealed ty), body := (sealed ty).take 256, plain := area0 }
theorem sealed_whole (ty : FlitType) (body : List Byte) (hb : body.length = 256) (h : sealed ty = body ++ checkBytes body) :
    ofLanes 4 (cameIn ty).lanes = body ++ checkBytes body ∧ fit 256 (cameIn ty).body = body := by
  have h1 : (sealed ty).take 256 = body := by rw [h, ← hb, List.take_left]
  constructor
  · rw [← h]; exact ofLanes_lanesOf 4 (by decide) _ (by rw [h]; simp [hb, checkBytes])
  · show fit 256 ((sealed ty).take 256) = body
    rw [h1, ← hb, fit_self]
/-- The body of that DATA flit. -/
def dataBody : List Byte :=
  natLe 16 (flitOf .data 7).hdr.toNat ++ sealArea 0 (flitSeq (flitOf .data 7) ++ (0 : W32)) (natLe 16 (flitOf .data 7).hdr.toNat) area0
theorem dataBody_length : dataBody.length = 256 := by simp [dataBody, sealArea]
theorem test_flit_sealed : (port .active).received 0 (cameIn .data) = { corrected := 0, uncorrectable := false, flit := flitOf .data 7, tagOk := true } := by
  obtain ⟨h1, h2⟩ := sealed_whole .data dataBody dataBody_length rfl
  have h3 : dataBody.take 16 = natLe 16 (flitOf .data 7).hdr.toNat := List.take_left' (natLe_length _ _)
  have h4 : dataBody.drop 16 = sealArea 0 (flitSeq (flitOf .data 7) ++ (0 : W32)) (natLe 16 (flitOf .data 7).hdr.toNat) area0 :=
    List.drop_left' (natLe_length _ _)
  have h5 : laneCount ((port .active).portAt 0).width = 4 := by decide +kernel
  have h6 : ((port .active).portAt 0).rxKey = 0 ∧ ((port .active).portAt 0).rxSalt = 0 := by decide +kernel
  have h7 : (BitVec.ofNat 128 (leNat (natLe 16 (flitOf .data 7).hdr.toNat)) : BitVec 128) = (flitOf .data 7).hdr := by decide +kernel
  have h8 : areaSlots (fit 224 (cameIn .data).plain) = (flitOf .data 7).slots := by decide +kernel
  have h9 : fit 224 (cameIn .data).plain = area0 := by decide +kernel
  have h10 : flitType (flitOf .data 7) = some .data := by decide +kernel
  unfold State.received
  simp only [h5, h1, h2, h3, h4, h6.1, h6.2, h7, h8, wordErrors_whole dataBody dataBody_length 0 (.inl rfl),
    wordErrors_whole dataBody dataBody_length 1 (.inr rfl)]
  simp [h10, h9]
theorem test_flit_receive : ((port .active).portAt 0).rxFlit = none ∧ flitType (flitOf .data 7) ≠ some .key
    ∧ flitSeq (flitOf .data 7) = ((port .active).portAt 0).rxNext := by decide +kernel
/-- A flit whose codewords have 128 symbol errors each is discarded. -/
def spoilt : FlitArrival := { onLanes 4 68 with body := List.replicate 256 0xFF }
theorem test_flit_spoilt : ((port .active).received 0 spoilt).uncorrectable = true ∧ flitType ((port .active).received 0 spoilt).flit ≠ some .key
    ∧ ((after (.flitReceive 0 spoilt) (port .active)).portAt 0).discarded = 1 := by decide +kernel
/-- The body of the KEY flit, which is in the clear. -/
def keyBody : List Byte := natLe 16 (flitOf .key 7).hdr.toNat ++ List.replicate 240 0
theorem test_flit_receive_key : let g := (port .keying).received 0 (cameIn .key)
    flitType g.flit = some .key ∧ g.uncorrectable = false ∧ ((port .keying).portAt 0).rxFlit = none := by
  obtain ⟨h1, h2⟩ := sealed_whole .key keyBody (by decide +kernel) rfl
  have h5 : laneCount ((port .keying).portAt 0).width = 4 := by decide +kernel
  have h7 : ∀ h l, flitType { hdr := h, slots := l } = flitType { hdr := h, slots := [] } := fun _ _ => rfl
  have h6 : ∀ l : List (BitVec 256), flitType { hdr := BitVec.ofNat 128 (leNat (keyBody.take 16)), slots := l } = some .key := fun l => by
    rw [h7]; decide +kernel
  refine ⟨?_, ?_, by decide +kernel⟩
  · unfold State.received
    simp only [h2]
    split <;> exact h6 _
  · unfold State.received
    simp only [h5, h1, h2, wordErrors_whole keyBody (by decide +kernel) 0 (.inl rfl), wordErrors_whole keyBody (by decide +kernel) 1 (.inr rfl)]
    simp
/-- A message to this device. -/
def msg (ty : MsgType) (n : Nat) : Msg :=
  { ty := ty, status := 0, dst := 0, src := 1, mcount := 0, mdir := 0, group := 1, tag := 7, lenM1 := 0, raddr := 0x40, value := 5, data := List.replicate n 9 }
theorem test_flit_data : let m := msg .read 0
    let f := { flitOf .data 7 with slots := hdrSlot m :: List.replicate 6 0 }
    let s := (port .active).setPort 0 { (port .active).portAt 0 with rxFlit := some f }
    (s.portAt 0).rxFlit = some f ∧ f.slots = hdrSlot m :: List.replicate 6 0 ∧ (s.portAt 0).rxPart = [] ∧ hasData m.ty = false
      ∧ ((after (.flitData 0 f) s).portAt 0).bufs.map (·.2) = [m] := by decide +kernel
theorem test_flit_types : let s := fun (ty : FlitType) => (port .active).setPort 0 { (port .active).portAt 0 with rxFlit := some (flitOf ty 7) }
    (((s .idle).portAt 0).rxFlit = some (flitOf .idle 7) ∧ ((after (.flitIdle 0 (flitOf .idle 7)) (s .idle)).portAt 0).rxFlit = none)
      ∧ ((after (.flitLeave 0 (flitOf .leave 7)) (s .leave)).portAt 0).st = .retrain ∧ ((after (.flitKey 0 (flitOf .key 7)) (s .key)).portAt 0).rxFlit = none := by decide +kernel
theorem test_message_slots : let m := { msg .write 33 with lenM1 := 32 }
    m.data.length = m.lenM1.toNat + 1 ∧ slotsToMsg (msgToSlots m) = some m ∧ (msgToSlots m).length = 3 ∧ (msg .time 0).data.length = 0 := by decide +kernel
/-- The message stands first in the buffer of its channel. -/
def holds (vc : BitVec 3) (m : Msg) : State := (port .active).setPort 0 { (port .active).portAt 0 with bufs := [(vc, m)] }
theorem test_message_write : let m := msg .write 1
    let s := holds 1 m
    s.vulHeld = false ∧ (s.portAt 0).headOf 1 = some m ∧ m.dst = s.devId ∧ s.reqHeld m = false ∧ (match s.reqPlace m with | .ok (0, .hbm 0 a) => decide (a = 0x40) | _ => false) = true
      ∧ m.data.length = m.lenM1.toNat + 1 ∧ s.hbmBad 0x40 1 = false ∧ (after (.msgWrite 0 1) s).hbmB 0x40 = 9 := by decide +kernel
theorem test_message_held : let m := msg .write 1
    let s := (holds 1 m).setDom 81 { st := 2 }
    m.dst = s.devId ∧ (s.partHere (some 0) m).isSome = true ∧ s.reqHeld m = true ∧ (s.portAt 0).headOf 1 = some m := by decide +kernel
theorem test_message_kinds : ((holds 1 (msg .read 0)).portAt 0).headOf 1 = some (msg .read 0) ∧ ((holds 1 (msg .signal 0)).portAt 0).headOf 1 = some (msg .signal 0)
    ∧ ((holds 3 (msg .ack 0)).portAt 0).headOf 3 = some (msg .ack 0) ∧ ((holds 3 (msg .nack 0)).portAt 0).headOf 3 = some (msg .nack 0)
    ∧ ((holds 3 (msg .readData 1)).portAt 0).headOf 3 = some (msg .readData 1) ∧ ((holds 0 (msg .time 0)).portAt 0).headOf 0 = some (msg .time 0)
    ∧ ((after (.msgTime 0) (holds 0 (msg .time 0))).portAt 0).bufs = [] := by decide +kernel
theorem test_message_stop : let s := holds 0 (msg .stop 0)
    let u := s.setReg (dbgBase + 0x104) 2
    ((s.portAt 0).bufs.find? fun x => decide (x.2.ty = .stop)) = some (0, msg .stop 0) ∧ s.gs.st = .running ∧ bit (u.reg (dbgBase + 0x104)) 1 = true
      ∧ bit (s.reg (dbgBase + 0x104)) 1 = false ∧ (after (.msgStop 0) u).gs.origin = 3 ∧ (after (.msgStop 0) s).gs.st = .running := by decide +kernel
theorem test_vulor_timeout : let v : VulReq := { tag := 7, ty := .signal, tile := 0, q := 0, part := 0, ctx := 0, parts := 1 }
    let s := { objects with vulReqs := [v] }
    s.vulHeld = false ∧ (s.vulReqs.find? fun x => decide (x.tag = 7)) = some v ∧ (s.movq_ v.tile v.q.toNat).inflight = [] ∧ (s.ctxAt 0 0).st = .active
      ∧ ((after (.vulorRequestTimeout 7) s).ctxAt 0 0).code = 0x54 := by decide +kernel
theorem test_time_message : let s := (port .active).setReg (portBase 0 + 0x40) 1
    let u := s.setPort 0 { s.portAt 0 with txSeq := 1 }
    s.regF (portBase 0 + 0x40) 23 0 = 1 ∧ (u.portAt 0).st = .active ∧ (u.portAt 0).timeSeq.toNat + 1 ≤ (u.portAt 0).txSeq.toNat
      ∧ (s.portAt 0).txSeq.toNat < (s.portAt 0).timeSeq.toNat + 1 ∧ ((after (.timeMessagePeriod 0) u).portAt 0).timeSeq = 1
      ∧ ((after (.timeMessagePeriod 0) s).portAt 0).timeSeq = 0 ∧ (after (.vulorCounterClear .pf 0) (s.setPort 0 { feccnt := 5 })).portAt 0 = {} := by decide +kernel
theorem test_fabric : let s := (live.setReg fabBase 0).setPart 0 { live.partAt 0 with cfg := some { geo with ingress := 0x8000 } }
    let b : IngressBeat := { data := 5, sof := true }
    s.gsr = false ∧ s.ingressNamed 15 = true ∧ (s.ingressAt 15).length < 512 ∧ s.bellDropped 0 191 = false ∧ s.bellDropped 0 192 = true
      ∧ (after (.ingressBeat 15 b) s).ingressAt 15 = [b] ∧ (after (.fabricDoorbell 0 191) s).srcPending 0 447 = true
      ∧ ((after .gsrAssert s).reg fabBase = 3) ∧ (after .gsrDeassert (after .gsrAssert s)).reg fabBase = 2
      ∧ s.fabReq .pf = true := by decide +kernel
theorem test_fabric_probe : let s := live.setReg fabBase 2
    let u := after .gsrHoldExpiry s
    (0 : PartId) ∈ s.loadedParts ∧ s.pcfg 0 = some geo ∧ (0 : ColId) ∈ s.colsOf 0 ∧ nat01 false < geo.fabStages.toNat
      ∧ fld (u.reg (fabBase + 0x400)) 1 0 = 1 ∧ u.probes.contains (0, false) = false ∧ (u.domAt (1 + tdomOfCol 0)).st = 0
      ∧ (after (.probeSend 0 false) u).probes = [(0, false)]
      ∧ fld ((after (.probeResultDue 0 false true) (after (.probeSend 0 false) u)).reg (fabBase + 0x400)) 1 0 = 2 := by decide +kernel

/-! ## Host port and headgate -/

/-- A global stop of partition 0 stands over `s`. -/
def halting (s : State) : State := { s with gs := { s.gs with st := .stopped, device := false, part := 0 } }
theorem test_bar2 : let s := live
    s.hbmOf 0 4094 2 = some 4094 ∧ s.hbmOf 0 (2 ^ 28 - 2) 2 = some (2 ^ 28 - 2) ∧ s.hbmOf 0 (2 ^ 28 - 1) 2 = none ∧ s.barWaits 4094 2 = false
      ∧ (after (.bar2Access (.vf 0) 4094 { op := .write [5, 6] }) s).hbmBytes 4094 2 = [5, 6]
      ∧ (after (.bar2Access (.vf 0) (2 ^ 28 - 1) { op := .read 2 }) s).out = [.unsupported] ∧ (after (.bar2Access .pf 0 { op := .read 1 }) s).out = [.bar2 [0] false] ∧ s.carries none = true ∧ s.carries (some 1) = false
      ∧ (after (.bar2Access .pf 0 { op := .write [5], stream := some 1 }) s).hbmB 0 = 0 := by decide +kernel
theorem test_function_reset : let s := objects
    s.gs.st = .running ∧ (0 : PartId) ∈ s.loadedParts ∧ (s.ctxAt 0 0).byPf = false ∧ (s.ctxAt 0 0).st ≠ .free ∧ ((after .flrPf s).ctxAt 0 0).st = .active := by decide +kernel
theorem test_ats : let s := live
    s.atsWait = [] ∧ s.atsCovered none 0 4096 = [] ∧ (after (.atsInvalidate none 0 4096) s).out = [.atsInvalidateDone] := by decide +kernel
/-- The device is OPERATIONAL (1) and timelines are not in use. -/
def legacy : State := live.setPart 0 { live.partAt 0 with cfg := some { geo with fence := false } }
theorem test_version : let s := live
    s.fnKind (.vf 0) 0 = some false ∧ s.hgtReady = true ∧ s.ownedCtxs 0 false = [] ∧ objects.ownedCtxs 0 false ≠ [] ∧ s.timelineMode 0 = true ∧ legacy.timelineMode 0 = false
      ∧ (after (.versionRequestFa1 (.vf 0) 0) s).regF (verReg false 0) 15 14 = 3 ∧ (after (.versionRequestFa1 (.vf 0) 0) legacy).regF (verReg false 0) 13 12 = 1
      ∧ (after (.versionRequestFa2 (.vf 0) 0) s).regF (verReg false 0) 13 12 = 2 ∧ (after (.versionRequestFa2 (.vf 0) 0) objects).regF (verReg false 0) 15 14 = 2 := by decide +kernel
/-- The staged arguments of a CREATE stand: ring of 2^n entries. -/
def creating (n : Nat) : State := (objects.setReg (partBase 0 + 0x808) (BitVec.ofNat 32 n)).setReg (verReg false 0) 0x2000
theorem test_context_create : let s := creating 16
    s.fnKind (.vf 0) 0 = some false ∧ s.hgtReady = true ∧ s.pcfg 0 ≠ none ∧ (1 : Nat) < s.ctxCap 0 ∧ (∀ j, j < 1 → (s.ctxAt 0 (BitVec.ofNat 8 j)).st ≠ .free) ∧ (s.ctxAt 0 1).st = .free
      ∧ fld (s.reg (partBase 0 + 0x808)) 4 0 = 16 ∧ fld ((creating 6).reg (partBase 0 + 0x808)) 4 0 = 6 ∧ s.regF (verReg false 0) 13 12 ≠ 0
      ∧ fld ((after (.contextCreate (.vf 0) 0) s).reg (partBase 0 + 0x814)) 11 0 = 0x101 ∧ ((after (.contextCreate (.vf 0) 0) (creating 6)).ctxAt 0 1).st = .active := by decide +kernel
theorem test_context_quota : let s := each (creating 6) [1, 2, 3] fun s c => s.setCtx 0 c { st := .lost }
    (∀ j, j < s.ctxCap 0 → (s.ctxAt 0 (BitVec.ofNat 8 j)).st ≠ .free) ∧ fld ((after (.contextCreate (.vf 0) 0) s).reg (partBase 0 + 0x814)) 11 8 = 2 := by decide +kernel
theorem test_context_destroy : let s := objects
    let u := (s.setCtx 0 0 { s.ctxAt 0 0 with st := .dying }).setReg (partBase 0 + 0x814) 0x500
    s.partReq (.vf 0) 0 = true ∧ (s.ctxAt 0 0).st = .active ∧ s.partStopped 0 = false ∧ (s.ctxAt 0 1).st = .free ∧ (u.ctxAt 0 0).st = .dying
      ∧ (u.ctxAt 0 0).killing = false ∧ (u.partAt 0).resetting = false ∧ (u.ctxAt 0 0).waiting = []
      ∧ fld ((after (.contextDestroy (.vf 0) 0 1) s).reg (partBase 0 + 0x814)) 11 8 = 3 := by decide +kernel
theorem test_context_killed : ∀ t ∈ objects.tilesIn 0, objects.killGoesOn t 0 = false := fun _ _ => rfl
/-- Queue 0 of context 0: 16 entries. -/
def queued : State := (objects.setReg (partBase 0 + 0x828) 0x400).setQueue 0 0 { isOpen := true, ctx := 0, qlog2 := 4, ring := 0x2000 }
theorem test_queue_create : let s := queued
    s.partReq (.vf 0) 0 = true ∧ s.hgtReady = true ∧ (s.ctxAt 0 ((s.reg (partBase 0 + 0x828)).extractLsb' 0 8)).st = .active ∧ fld (s.reg (partBase 0 + 0x828)) 12 8 = 4
      ∧ (s.ctxQueues 0 0).length < 16 ∧ (firstBelow (s.queueCap 0) fun j => !(s.queueAt 0 (BitVec.ofNat 10 j)).isOpen && (s.queueAt 0 (BitVec.ofNat 10 j)).cmds.isEmpty) = some 1
      ∧ ((after (.queueCreate (.vf 0) 0) s).queueAt 0 1).isOpen = true ∧ ((after (.queueDestroy (.vf 0) 0 0) s).queueAt 0 0).isOpen = false
      ∧ (s.queueAt 0 2).isOpen = false := by decide +kernel
theorem test_queue_held : let s := halting queued
    queued.partStopped 0 = false ∧ s.partStopped 0 = true ∧ (s.queueAt 0 0).isOpen = true ∧ (after (.queueDestroy (.vf 0) 0 0) s).gs.held = [.destroyQueue 0 0]
      ∧ ((after (.queueDestroy (.vf 0) 0 0) s).queueAt 0 0).isOpen = true := by decide +kernel
theorem test_queue_submit : let s := queued
    let u := after (.queueSubmit (.vf 0) 0 0 15) s
    let Q := s.queueAt 0 0
    ((15 : W16).toNat % 16 + 16 - Q.tail.toNat) % 16 = 15 ∧ (s.ctxAt 0 Q.ctx).st ≠ .dying ∧ (u.queueAt 0 0).subs = [(15, 1)] ∧ (u.queueAt 0 0).head ≠ (u.queueAt 0 0).tail
      ∧ u.mayFetch 0 (u.queueAt 0 0) = true ∧ fld ((after (.queueDestroy (.vf 0) 0 0) u).reg (partBase 0 + 0x82C)) 15 12 + 1 ≠ 0 := by decide +kernel
/-- The bytes of a NOP command with its completion notice, and of one of no kind. -/
def nopBytes : List Byte := [0, 1]
def fetched (bs : List Byte) : State := after (.commandFetch 0 0 (.data bs)) (after (.queueSubmit (.vf 0) 0 0 1) queued)
theorem test_command_fetch : let s := after (.queueSubmit (.vf 0) 0 0 1) queued
    let s1 := s.setQueue 0 0 (s.queueAt 0 0).advance
    let st := fun (bs : List Byte) => let raw := (bs ++ List.replicate 128 0).take 128
      s1.fetchStatus 0 geo (s.ctxAt 0 0) 0 raw raw (cmdOf raw 1 s.time)
    (s.queueAt 0 0).subs = [(1, 1)] ∧ st nopBytes = none ∧ st [2] = some 4 ∧ ((fetched nopBytes).queueAt 0 0).cmds.length = 1
      ∧ ((after (.commandFetch 0 0 .error) s).ctxAt 0 0).code = 0x53 ∧ (s.ctxAt 0 0).cmdBytes = 128 := by decide +kernel
theorem test_command_fetch_lost : let s := after (.queueSubmit (.vf 0) 0 0 1) queued
    let s := s.setCtx 0 0 { s.ctxAt 0 0 with st := .lost }
    s.mayFetch 0 (s.queueAt 0 0) = true ∧ ((after (.commandFetch 0 0 (.data nopBytes)) s).ctxAt 0 0).waiting.length = 1 := by decide +kernel
theorem test_command_nop : let s := fetched nopBytes
    (match (s.queueAt 0 0).next with | some m => decide (m.launch = none) | none => false) = true ∧ s.turn 0 0 = true
      ∧ ((after (.cmdNop 0 0) s).queueAt 0 0).cmds.map (fun m => decide (m.st = .done 0)) = [true] ∨ ((after (.cmdNop 0 0) s).queueAt 0 0).cmds = [] := by decide +kernel
/-- Object 1 of partition 0 is a program package at 0x100000 with SC.END for engine 0; a LAUNCH of it on the colony; `v` is its header's version. -/
def launchBytes : List Byte := [1, 1, 0, 0] ++ List.replicate 44 0 ++ [1, 0, 0, 1]
def launching (v : Byte) : State :=
  let code := match wordOf (.scEnd 0 0) with | some (_, _, w, x) => natLe (2 * w) x | none => []
  let hdr := [v, 0, 0, 0, 100] ++ List.replicate 75 0 ++ natLe 4 256 ++ natLe 4 (code.length / 2)
  let s := (queued.setReg (partBase 0 + 0x8A8) 2).setObj 0 1 { st := .live, kind := 2, owner := some 0, addr := 0x100000, len := 0x200 }
  let s := each s stackList fun s n => s.setDom (domHbm n) { st := 0 }
  let s := (s.setHbmBytes 0x100000 hdr).setHbmBytes 0x100100 code
  after (.commandFetch 0 0 (.data launchBytes)) (after (.queueSubmit (.vf 0) 0 0 1) s)
def launched : State := after (.cmdLaunch 0 0 .error) (launching 2)
theorem test_launch : let s := launching 2
    (match (s.queueAt 0 0).next with
      | some m => (match m.launch with
        | some b => s.headReady 0 (s.queueAt 0 0) m && decide (s.launchAsleep 0 b 0 = []) && decide (b.args = 0) && !m.waitErr
            && (match (s.served 0 0).readPkg 0 (s.objAt 0 (hIdx b.prog)) with
              | some k => (s.served 0 0).pkgOk (s.ctxAt 0 0) k ((s.launchCols 0 b).flatMap tilesOfCol)
              | none => false)
        | none => false)
      | none => false) = true ∧ s.turn 0 0 = true ∧ s.freeStage 0 = some 0 ∧ (launched.queueAt 0 0).cmds.map (·.st) = [.staging] := by decide +kernel
theorem test_launch_invalid : let s := launching 1
    (match (s.queueAt 0 0).next with
      | some m => (match m.launch with
        | some b => (match (s.served 0 0).readPkg 0 (s.objAt 0 (hIdx b.prog)) with
              | some k => !(s.served 0 0).pkgOk (s.ctxAt 0 0) k ((s.launchCols 0 b).flatMap tilesOfCol)
              | none => false)
        | none => false)
      | none => false) = true ∧ s.packageAt 0 = 0 ∧ ((after (.cmdLaunch 0 0 .error) s).queueAt 0 0).cmds.all (·.isDone) = true := by decide +kernel

theorem test_object_create : let s := (objects.setReg (partBase 0 + 0x850) 0x100).setReg (partBase 0 + 0x8A8) 2
    let u := after (.objectCreate (.vf 0) 0) s
    s.partReq (.vf 0) 0 = true ∧ s.hgtReady = true ∧ s.objArgsOk 0 = true ∧ (firstBelow (s.objCap 0) fun j => decide ((s.objAt 0 j).st = .free)) = some 1
      ∧ u.reg (partBase 0 + 0x858) = 0x01000001 ∧ (u.objAt 0 1).kind = 1 ∧ (u.objAt 0 1).owner = some 0
      ∧ (∀ j, j < u.objCap 0 → (u.objAt 0 j).st ≠ .free) ∧ fld ((after (.objectCreate (.vf 0) 0) u).reg (partBase 0 + 0x85C)) 3 0 = 2 := by decide +kernel
/-- The staged arguments of a CREATE of a timeline of another device, in an EVENT-mode partition and in a TIMELINE one. -/
def remoteTl (fence : Bool) : State :=
  let s := ((objects.setReg (partBase 0 + 0x850) 0x300).setReg (partBase 0 + 0x848) 0x80000000).setReg (partBase 0 + 0x8A8) 2
  s.setPart 0 { s.partAt 0 with cfg := some { geo with fence := fence } }
theorem test_object_refused : let s := remoteTl false
    let u := (objects.setReg (partBase 0 + 0x850) 0x1FF)
    fld (s.reg (partBase 0 + 0x850)) 9 8 = 3 ∧ bit (s.reg (partBase 0 + 0x848)) 31 = true ∧ s.timelineMode 0 = false ∧ (remoteTl true).timelineMode 0 = true
      ∧ fld ((after (.objectCreate (.vf 0) 0) s).reg (partBase 0 + 0x85C)) 3 0 = 3
      ∧ u.objArgsOk 0 = false ∧ fld ((after (.objectCreate (.vf 0) 0) u).reg (partBase 0 + 0x85C)) 3 0 = 3 := by decide +kernel
theorem test_object_free : let s := objects.setReg (partBase 0 + 0x858) 0x01000000
    let u := after (.objectFree (.vf 0) 0) s
    s.objNamed 0 = some 0 ∧ (s.objAt 0 0).st = .live ∧ (u.objAt 0 0).st = .freeing ∧ u.doneBefore 0 (u.objAt 0 0).freeSeq = true
      ∧ (after (.objectRelease 0 0) u).objAt 0 0 = { gen := 2 } ∧ (s.setReg (partBase 0 + 0x858) 0x02000000).objNamed 0 = none
      ∧ fld ((after (.objectQuery (.vf 0) 0) s).reg (partBase 0 + 0x85C)) 7 0 = 0x11 := by decide +kernel
theorem test_event_create : let s := objects
    (0 : CtxId).toNat < s.ctxCap 0 ∧ (s.ctxAt 0 0).st ≠ .free ∧ (firstBelow (s.evtCap 0) fun j => !(s.evtAt 0 j).live) = some 0
      ∧ (after (.eventCreate (.vf 0) 0 0) s).evtAt 0 0 = { live := true, gen := 1, owner := some 0 } := by decide +kernel
theorem test_event : let s := objects.setReg (partBase 0 + 0x864) 0x01000007
    (match s.evtResolve 0 (s.reg (partBase 0 + 0x864)) with | .ok e => e.live | _ => false) = true ∧ ((after (.eventSignal (.vf 0) 0) s).evtAt 0 7).signalled = true
      ∧ ((after (.eventReset (.vf 0) 0) (after (.eventSignal (.vf 0) 0) s)).evtAt 0 7).signalled = false ∧ ((after (.eventDestroy (.vf 0) 0) s).evtAt 0 7).gen = 2 := by decide +kernel
theorem test_event_held : let s := halting (objects.setReg (partBase 0 + 0x864) 0x01000007)
    s.partStopped 0 = true ∧ (match s.evtResolve 0 (s.reg (partBase 0 + 0x864)) with | .ok _ => true | _ => false) = true
      ∧ (after (.eventDestroy (.vf 0) 0) s).gs.held = [.destroyEvent 0 0x01000007] ∧ ((after (.eventDestroy (.vf 0) 0) s).evtAt 0 7).live = true := by decide +kernel
theorem test_timeline : let s := ((objects.setReg (partBase 0 + 0x870) 0x01000000).setReg (partBase 0 + 0x874) 5).setReg (partBase 0 + 0x878) 0x80000000
    let o := s.objAt 0 0
    hIdx (s.reg (partBase 0 + 0x870)) < s.objCap 0 ∧ o.gen = hGen (s.reg (partBase 0 + 0x870)) ∧ o.st ≠ .free ∧ o.kind = 3 ∧ o.remote = false ∧ s.hbmOf 0 o.addr.toNat 8 = some 0 ∧ s.serves (domHbm (stackOf 0)) = true
      ∧ (after (.timelineSignal (.vf 0) 0) s).tlRead 0 0 = 0x8000000000000005 := by decide +kernel
/-- A waiter armed for event 7 with a semaphore target: tile 0, semaphore 5. -/
def waiting : State :=
  after (.waiterArm (.vf 0) 0 7 false) ((objects.setReg (partBase 0 + 0x880) 0x01000007).setReg (partBase 0 + 0x88C) 0x5000)
theorem test_waiter_arm : let s := (objects.setReg (partBase 0 + 0x880) 0x01000007).setReg (partBase 0 + 0x88C) 0x03005000
    (7 : BitVec 14).toNat < s.slotCap 0 ∧ (s.waiterAt 0 7).armed = false ∧ fld (s.reg (partBase 0 + 0x88C)) 31 24 < s.ctxCap 0 ∧ s.partOf 0 = some 0
      ∧ (match s.evtResolve 0 0x01000007 with | .ok e => !e.signalled | _ => false) = true
      ∧ (waiting.waiterAt 0 7).armed = true ∧ (waiting.waiterAt 0 7).tgt = .sem 0 5 ∧ ((after (.waiterDisarm (.vf 0) 0 7) waiting).waiterAt 0 7).armed = false := by decide +kernel
theorem test_waiter_fire : let y := waiting.waiterAt 0 7
    let s := waiting.setWaiter 0 7 { y with due := true }
    let u := waiting.setWaiter 0 7 { y with due := true, tgt := .notice }
    y.armed = true ∧ ((s.disarm 0 7).traceUnit 0 0x03 5 0 7 (some y.owner)).runs 0 = true ∧ (after (.waiterFire 0 7) s).semVal 0 5 = 1
      ∧ ((after (.waiterFire 0 7) u).ctxAt 0 0).waiting.length = 1 := by decide +kernel
theorem test_notice : let y := waiting.waiterAt 0 7
    let s := after (.waiterFire 0 7) (waiting.setWaiter 0 7 { y with due := true, tgt := .notice })
    let u := after (.noticeRecordWrite 0 0) s
    s.partReq (.vf 0) 0 = true ∧ (s.ctxAt 0 0).waiting ≠ [] ∧ (s.ctxAt 0 0).full = false ∧ (u.ctxAt 0 0).nwrite = 1 ∧ (u.ctxAt 0 0).waiting = [] ∧ u.host ≠ []
      ∧ ((after (.noticeReadUpdate (.vf 0) 0 0 1) u).ctxAt 0 0).nread = 1 := by decide +kernel
/-- A LAUNCH of the colony, with code for engine 0, has reached `st`, with its staging streams done. -/
def command (st : CmdSt) : State :=
  queued.setQueue 0 0 { queued.queueAt 0 0 with cmds := [{ cmdOf (launchBytes ++ List.replicate 76 0) 1 0 with st := st, engs := 1 }] }
theorem test_launch_starts : let s := command .staging
    ((s.queueAt 0 0).cmds.all fun m => decide (m.st = .staging) && m.launch.any fun b => ((s.launchCols 0 b).flatMap tilesOfCol).all fun t => s.staged t) = true
      ∧ ((s.queueAt 0 0).cmds.all fun m => m.shapes.all fun y => decide (y.2.2.toNat ≤ y.2.1.toNat)) = true
      ∧ ((after (.launchEngineStart 0 0) s).queueAt 0 0).cmds.map (·.st) = [.running] := by decide +kernel
theorem test_launch_completes : let s := command .running
    ((s.queueAt 0 0).cmds.all fun m => m.launch.any fun b => ((s.launchCols 0 b).flatMap tilesOfCol).all fun t => s.tileDone t) = true
      ∧ ((after (.launchComplete 0 0) s).queueAt 0 0).cmds.all (fun m => m.isDone) = true := by decide +kernel
theorem test_launch_watchdog : let s := (command .running).setReg (partBase 0 + 0x8B8) 1
    ((s.queueAt 0 0).cmds.all fun m => m.isRunning && m.launch.isSome) = true ∧ s.regF (partBase 0 + 0x8B8) 23 0 ≠ 0 := by decide +kernel
theorem test_command_signal : let Q := queued.queueAt 0 0
    let m := { cmdOf (nopBytes ++ List.replicate 126 0) 1 0 with st := .done 2, signal := 0x01000007 }
    let s := queued.setQueue 0 0 { Q with cmds := [m] }
    m.isDone = true ∧ m.sigTl = false ∧ ((after (.commandSignalApply 0 0) s).evtAt 0 7).signalled = true
      ∧ ((after (.commandSignalApply 0 0) s).evtAt 0 7).error = true := by decide +kernel

/-! ## Cores, registers, observation, stops -/

theorem test_interrupt_controller : let s := live
    s.intReq .pf 0 = true ∧ fld (447 : W32) 8 0 < 448 ∧ (after (.intDoorbellWrite .pf 0 447) s).srcPending 0 447 = true
      ∧ fld ((after (.intDoorbellWrite .pf 0 448) s).reg (intBase 0 + 4)) 7 0 = 1 ∧ fld ((after (.intDoorbellWrite .pf 0 255) s).reg (intBase 0 + 4)) 7 0 = 1
      ∧ (after (.intEnableSet .pf 0 0 0xFFFFFFFF) s).reg (intBase 0 + 0x100) = s.reg (intBase 0 + 0x100) ||| 0xFFFFFFC6
      ∧ (after (.intPendingSet .pf 0 0 0xFFFFFFFF) s).reg (intBase 0 + 0x140) = 0xFFFF01C0
      ∧ (after (.intPendingSet (.core 0) 0 0 0xFFFFFFFF) s).reg (intBase 0 + 0x140) = 0xFFFF0140 := by decide +kernel
theorem test_interrupt_clear : let s := after (.intPendingSet .pf 0 1 5) (after (.intEnableSet .pf 0 1 5) live)
    (after (.intPendingClear .pf 0 1 4) s).reg (intBase 0 + 0x144) = 1 ∧ (after (.intEnableClear .pf 0 1 4) s).reg (intBase 0 + 0x104) = 1
      ∧ s.groupCount 0 1 ≠ 0 ∧ ((after (.moderationTimeout 0 1) s).ctlAt 0).modExpired.getLsbD 1 = true := by decide +kernel
theorem test_timer : let s := live.setCore 0 { inReset := false }
    (s.ctlAt 0).timerFired = false ∧ s.coreRuns 0 = true ∧ (s.coreAt 0).priv = 3 ∧ ((after (.timerCompareMatch 0) s).ctlAt 0).timerFired = true
      ∧ (after (.timecmpWrite 0 true 7) s).timecmp 0 = 0x7FFFFFFFF := by decide +kernel
/-- An error record of the lowest severity. -/
def errRec : ErrRec :=
  { sev := 0, unit := 1, cause := 1, rep := 0, ctx := 0, ctxV := false, part := 0, partV := false, tile := 0, eng := 0
    addr := 0, time := 0, syndrome := 0, place := 0, layer := 0, operator := 0 }
theorem test_error_record : let s := live.setCtl 0 { fifo := [errRec] }
    (s.ctlAt 0).fifo = [errRec] ∧ errRec.sev.toNat = fld (s.reg (intBase 0 + 0x404)) 2 0 ∧ ((after (.errorRecordPop .pf 0) s).ctlAt 0).fifo = [] := by decide +kernel
theorem test_error_fifo_merges : let u := (live.setCtl 0 { fifo := [errRec] }).arriveErr 0 { errRec with time := 9 }
    (u.ctlAt 0).fifo = [{ errRec with rep := errRec.rep + 1 }] := by decide +kernel
theorem test_error_fifo_enters : let r := { errRec with addr := errRec.addr + 1 }
    (((live.setCtl 0 { fifo := [errRec] }).arriveErr 0 r).ctlAt 0).fifo = [errRec, r] := by decide +kernel
theorem test_error_fifo_full : let l := (List.range 8).map fun i => { errRec with sev := 1, addr := BitVec.ofNat 64 i }
    let u := (live.setCtl 0 { fifo := l }).arriveErr 0 { errRec with sev := 3 }
    (u.ctlAt 0).fifo = l.take 7 ++ [{ errRec with sev := 3 }] ∧ bit (u.reg (intBase 0 + 0x400)) 8 = true ∧ fld (u.reg (intBase 0 + 0x400)) 31 16 = 1
      ∧ u.srcPending 0 3 = true ∧ u.srcPending 0 2 = false := by decide +kernel
theorem test_claim : let s := ((after (.intPendingSet .pf 0 1 5) (after (.intEnableSet .pf 0 1 5) live)).setReg (intBase 0 + 0x210) 0x101).setCore 0 { inReset := false, priv := 0 }
    let u := after (.interruptClaim 0 ⟨0x101, false⟩) s
    s.coreRuns 0 = true ∧ (s.coreAt 0).priv = 0 ∧ s.presented 0 = 32 ∧ u.csr 0 0xFC0 = 32 ∧ (u.coreAt 0).pc = 16 * 32 ∧ u.csr 0 0x341 = 0x100
      ∧ (u.coreAt 0).priv = 3 ∧ ((after (.mret 0) u).coreAt 0).priv = 0 ∧ ((after (.mret 0) u).coreAt 0).pc = 0x100 := by decide +kernel
theorem test_core_access : let s := live.setCore 0 { inReset := false }
    let u := s.excTrap 0 (faultCause (.fetch true false)) 0x8000 0x105
    let v := after (.coreMemoryExternalWrite .pf 0 0x7FFC 0x80) s
    s.coreRuns 0 = true ∧ s.coreTarget 0 (.fetch true false) 0x8000 = none ∧ (s.coreTarget 0 (.fetch true false) 0x7FFE).isSome = true ∧ s.coreTarget 0 (.fetch false false) 0x7FFE = none
      ∧ u.csr 0 0x342 = 1 ∧ u.csr 0 0x341 = 0x104 ∧ (after (.coreAccessFault 0 (.load 5 0 true false) 0x7FFC 0) v).gpr 0 5 = 0xFFFFFF80
      ∧ s.coreTarget 0 (.store 2 7) 0x40000010 = some (.hbm 0x10) ∧ s.coreTarget 0 (.load 5 0 true false) 0x7FFC = some (.own 0x7FFC)
      ∧ alignCause 0x7FFE (.lr 5 false) = some 4 ∧ alignCause 0x7FFE (.fetch true false) = none
      ∧ s.coreTarget 0 (.amo .add 5 3 false) 0x7FFC = some (.own 0x7FFC) ∧ (after (.coreAccessFault 0 (.amo .add 5 3 false) 0x7FFC 0) v).cmemB 0 0x7FFC = 0x83
      ∧ (after (.coreAccessFault 0 (.amo .add 5 3 false) 0x7FFC 0) v).gpr 0 5 = 0x80 ∧ s.serves (domHbm (stackOf 0x10)) = true
      ∧ (after (.coreAccessFault 0 (.store 2 7) 0x40000010 0) s).hbmB 0x10 = 7
      ∧ s.cmemReq .pf 0 = true ∧ (0x17FFC : BitVec 17).toNat < 0x18000
      ∧ (after (.coreMemoryExternalWrite .pf 0 0x17FFC 9) s).cmemW 0 0x17FFC = 9 := by decide +kernel
theorem test_registers : let s := live
    s.reaches (.vf 0) 0x100000 = false ∧ s.reaches .pf 0x20000 = true ∧ locate 0x20000 = none ∧ s.answersRead .pf 0x20000 = true ∧ isLow (0x20000 - 4) = false ∧ s.pmpReg .pf 1 0x20000 = true ∧ s.pmpReg .pf 2 0x20000 = true
      ∧ (after (.lowWordRead .pf (.addr 0x20000)) s).readData = 0 ∧ (after (.registerWrite (.vf 0) (.addr 0x06000888) 9) s).reg (partBase 0 + 0x888) = 9
      ∧ (after (.lowWordRead (.vf 0) (.addr 0x06000888)) (after (.registerWrite (.vf 0) (.addr 0x06000888) 9) s)).readData = 9 := by decide +kernel
/-- An access fault of a core's register access; the trap, for a trap value of 0. -/
theorem test_register_traps : let s := live.setCore 0 { inReset := false }
    let u := live.setCore 0 { inReset := false, priv := 0 }
    s.coreRuns 0 = true ∧ s.reaches (.core 0) 0x20000 = false ∧ s.coreSees 0 0x20000 = false ∧ s.csrMay 0 0x7C0 true = true ∧ u.csrMay 0 0x7C0 false = false
      ∧ (after (.registerWrite (.core 0) (.csr 0 0x7C0) 0x123) s).csr 0 0x7C0 = 0x120 ∧ (s.excTrap 0 7 0 0).csr 0 0x342 = 7 ∧ ((s.excTrap 0 7 0 0).coreAt 0).priv = 3 := by
  decide +kernel
/-- A core in U-mode with no PMP region; a virtual function reads an observation register. -/
theorem test_register_denied : let u := live.setCore 0 { inReset := false, priv := 0 }
    let s : State := { live with readData := 7 }
    u.coreRuns 0 = true ∧ u.pmpReg (.core 0) 1 0 = false ∧ u.pmpReg (.core 0) 2 0 = false ∧ (u.excTrap 0 5 0 0).csr 0 0x342 = 5
      ∧ s.reaches (.vf 0) (obsBase 0) = false ∧ (match locate (obsBase 0) with | some (.obs 0, _) => true | _ => false) = true
      ∧ (after (.lowWordRead (.vf 0) (.addr (BitVec.ofNat 32 (obsBase 0)))) s).readData = 0 := by decide +kernel
theorem test_colony_pair : let s := (live.setReg (partBase 0 + 0xF00) 0x01020100).setSem 0 0 7
    s.pairAddr 0 = some 0x01020100 ∧ live.pairAddr 0 = none ∧ (after (.vfIndirectRead (.vf 0) 0) s).readData = 7 ∧ (after (.vfIndirectWrite (.vf 0) 0 5) s).semVal 0 0 = 7
      ∧ ((after (.vfIndirectWrite (.vf 0) 0 5) live).partAt 0).vfRefused = true := by decide +kernel
theorem test_tap : let s := { live with chitin := { live.chitin with fuses := { live.chitin.fuses with debugLock := true } } }
    s.tapAccepts true 0x00F00000 = false ∧ s.tapAccepts false 0x00F00000 = true ∧ live.tapAccepts true 0x00F00000 = true
      ∧ (after (.tapRegacc true 0x00100000 5) s).chitin.tapRefused = true
      ∧ live.tapAccepts false 0x01020100 = true ∧ (after (.tapRegacc false 0x01020100 0) (live.setSem 0 0 7)).chitin.tapData = 7 := by decide +kernel
theorem test_window : let s := live.setReg (obsBase 0 + 60) 9
    s.obsReq .pf 0 false = true ∧ s.obsReq .pf 0 true = true ∧ (after (.windowMark .pf 0) s).reg (obsBase 0 + 0x7C) = 9 ∧ (after (.windowMark .pf 0) s).reg (obsBase 0 + 60) = 0
      ∧ ((after (.windowMark .pf 0) s).tileAt 0).inwin = true ∧ (after (.windowEnd .pf 0) s).reg (obsBase 0 + 0xBC) = 9
      ∧ (after (.lightCounterSample 7) s).reg (dbgBase + 48) = 7 := by decide +kernel
/-- A trace record. -/
def record : TraceRec := { ty := 1, unit := 0, idm := false, tile := 0, ctx := 0, ctxV := false, part := 0, time := 0, place := 0, info := 0 }
theorem test_trace_packet : let s := live.setTile 0 { live.tileAt 0 with fifo := [record, record, record] }
    (s.tileAt 0).fifoLost = 0 ∧ s.partOf 0 = some 0 ∧ ((after (.tracePacketSend 0) s).tileAt 0).fifo = [record]
      ∧ ((after (.tracePacketSend 0) s).canal.pkts.map fun x => (x.2.src, x.2.load)) = [(.tile 0, .traces 0 [record, record])]
      ∧ ((s.canalArrive { cls := .trace, src := .tile 0, dst := .spine 0, data := 1, load := .traces 0 [record], bad := false }).partAt 0).sink = [record] := by decide +kernel
theorem test_trace_ring : let s := live.setPart 0 { live.partAt 0 with sink := [record] }
    let f := (s.setPart 0 { s.partAt 0 with trwr := 1 })
    (∀ d, s.ringDom 0 = some d → s.serves d = true) ∧ (s.partAt 0).trLostPend = 0 ∧ s.trFull 0 = false ∧ f.trFull 0 = true
      ∧ ((after (.traceRingWrite 0) s).partAt 0).trwr = 1 ∧ ((after (.traceRingWrite 0) f).partAt 0).trLost = 1
      ∧ (after (.tileTraceLostClear .pf 0) (s.setReg (obsBase 0 + 0xFC) 0xFFFFF)).reg (obsBase 0 + 0xFC) = 0xF0000 := by decide +kernel
theorem test_beacon : let s := live.setReg (dbgBase + 0x140) 1
    fld (s.reg (dbgBase + 0x140)) 23 0 ≠ 0 ∧ (after .fireflyBeacon s).reg (dbgBase + 0x144) = 1 := by decide +kernel
/-- A global stop of partition 0 has been asked for; tile 0 has an engine in WAIT. -/
def stopping : State := (running 0).beginStop false 0 0 0 0
theorem test_stop_begins : let s := running 0
    s.dbgReq .pf = true ∧ s.gs.st = .running ∧ (after (.globalStopGo .pf 2) s).gs.st = .stopping ∧ stopping.gs.st = .stopping ∧ stopping.gs.device = false ∧ (after (.globalStopGo .pf 6) stopping).gs.merged = 1
      ∧ (after (.globalStopGo .pf 6) s).gs.device = true := by decide +kernel
theorem test_stop_marker : let s := stopping.setEng 0 1 { st := .faulted }
    let u := after (.stopMarkerArrival 0) s
    s.stoppedOver 0 = true ∧ (s.tileAt 0).marker = false ∧ (s.engAt 0 0).st = .run ∧ (u.engAt 0 0).st = .halted ∧ (u.engAt 0 0).before = .run
      ∧ (u.engAt 0 1).st = .faulted ∧ (after .moltVwaitExpiry u).gs.vwait = true := by decide +kernel
theorem test_stop_sends : let s := { ((port .active).setReg (dbgBase + 0x104) 4) with gs := { live.gs with st := .stopping, device := true } }
    bit (s.reg (dbgBase + 0x104)) 2 = true ∧ (s.portAt 0).st = .active ∧ ((after .vulorStopSend s).portAt 0).stopSent = true := by decide +kernel
/-- The device with no partition is stopped: nothing is in scope of a stop of partition 5. -/
def stopped : State := { State.reset with gs := { State.reset.gs with st := .stopping, part := 5 } }
theorem test_stop_release : let s := ({ live with gs := { live.gs with st := .stopped } } : State).setEng 0 0 { st := .halted, before := .wait, gstop := true, pc := 9 }
    s.gs.held = [] ∧ (s.engAt 0 0).gstop = true ∧ s.dbgReq .pf = true ∧ s.gs.st = .stopped := by decide +kernel
theorem test_core_trigger : let s := live.setCore 3 { inReset := false }
    (s.coreAt 3).inReset = false ∧ (s.coreAt 3).halted = false ∧ ((after (.coreTriggerHit 3) s).coreAt 3).halted = true := by decide +kernel

/-! ## Resets, boot, identity, power, reliability -/

theorem test_reset_causes : let s := live.setSpadBytes 0 0 [7]
    (after .resetNLow s).spad = [] ∧ (after .resetNLow s).reg (pwrBase + 0x614) = 1 ∧ (after .resetNLow s).chitin.st = 0
      ∧ s.pfReq .pf = true ∧ bit (0x8000D0E5 : W32) 31 = true ∧ fld (0x8000D0E5 : W32) 15 0 = 0xD0E5 ∧ fld (0x8000D0E4 : W32) 15 0 ≠ 0xD0E5
      ∧ (after (.devresetWrite .pf 0x8000D0E5) s).reg (pwrBase + 0x614) = 4 ∧ (after (.devresetWrite .pf 0x8000D0E4) s).spadB 0 0 = 7
      ∧ s.pfReq (.vf 0) = false ∧ reqCore (.vf 0) = none ∧ (after (.devresetWrite (.vf 0) 0x8000D0E5) s).spadB 0 0 = 7
      ∧ (110 : Byte).toNat ≥ 110 ∧ (after (.thermalTrip 110) s).gov.trip = true ∧ (after .powerOn s).time = 0 := by decide +kernel
/-- An image of one segment and no sections: its header with the hash of its tag table, its table with the segment's tag. -/
def bare : Image :=
  { img with header := headOf [(4, 0x314E4C43), (1, 1), (1, 2), (2, 0x9F28), (8, 73728), (4, 1), (1, 3), (1, 0), (2, 1), (4, 9), (4, 0)] }
def bareTable : List Byte := natLe 16 (segSealed 0 bare 0).2.toNat ++ List.replicate 4080 0
def plain : Image :=
  { header := bare.header.take 0x80 ++ (natLe 48 (Config.sha384 bareTable).toNat ++ List.replicate (4096 - 0xB0) 0)
    table := bareTable, segs := [(segSealed 0 bare 0).1], body := [], sections := [] }
/-- A device that waits to start: its fuses hold the image's key in slot 0. -/
def waits : State :=
  { State.reset with chitin := { State.reset.chitin with fuses := { keys := [some (Config.sha384 (List.replicate 96 0)), none, none, none] } } }
/-- It has begun to start; the state in which the start reads the image. -/
def begins : State := { waits with chitin := { waits.chitin with attempts := 1 } }
def reads : State := ((begins.hbmUp).selfTest bootInputs).atStep 5
theorem plain_hash : imgTagHash plain = Config.sha384 plain.table := by
  have h : (plain.header.drop 0x80).take 48 = natLe 48 (Config.sha384 bareTable).toNat := by
    have h1 : plain.header.drop 0x80 = natLe 48 (Config.sha384 bareTable).toNat ++ List.replicate (4096 - 0xB0) 0 :=
      List.drop_left' (by decide +kernel)
    rw [h1]; exact List.take_left' (natLe_length _ _)
  have h2 : (Config.sha384 bareTable).toNat % 256 ^ 48 = (Config.sha384 bareTable).toNat :=
    Nat.mod_eq_of_lt (lt_of_lt_of_eq (Config.sha384 bareTable).isLt (by rw [show (256 : Nat) = 2 ^ 8 from rfl, ← Nat.pow_mul]))
  show BitVec.ofNat 384 (leNat ((plain.header.drop 0x80).take 48)) = Config.sha384 bareTable
  rw [h, leNat_natLe, h2, BitVec.ofNat_toNat, BitVec.setWidth_eq]
theorem plain_seal : segSealed 0 plain 0 = segSealed 0 bare 0 := by
  have h : imgNonce plain = imgNonce bare := by decide +kernel
  unfold segSealed segKey
  rw [h]; rfl
theorem plain_segment : segOk 0 plain 0 = true := by
  have h : segTag plain 0 = natLe 16 (segSealed 0 bare 0).2.toNat := List.take_left' (natLe_length _ _)
  unfold segOk
  rw [plain_seal, h]
  simp [plain]
theorem each_fuses {β : Type} (f : State → β → State) (h : ∀ s x, (f s x).chitin.fuses = s.chitin.fuses) (l : List β) (s : State) :
    (each s l f).chitin.fuses = s.chitin.fuses := by
  induction l generalizing s with
  | nil => rfl
  | cons x l ih => exact (ih (f s x)).trans (h s x)
theorem hbmUp_fuses (s : State) : s.hbmUp.chitin.fuses = s.chitin.fuses := by
  unfold State.hbmUp
  apply each_fuses
  intro s x; rfl
theorem selfTest_fuses (s : State) (i : BootInput) : (s.selfTest i).chitin.fuses = s.chitin.fuses := by
  simp only [State.selfTest]
  rw [each_fuses, each_fuses, each_fuses]
  · intro s x; rfl
  · intro s x; rfl
  · intro s x; split <;> rfl
theorem atStep_fuses (s : State) (n : Nat) : (s.atStep n).chitin.fuses = s.chitin.fuses := rfl
theorem reads_fuses : reads.chitin.fuses = waits.chitin.fuses := by
  unfold reads
  rw [atStep_fuses, selfTest_fuses, hbmUp_fuses]
  rfl
theorem test_boot_image : reads.imageFails (some plain) bootInputs.checks = none := by
  have h1 : (imgMagic plain, imgHrev plain, imgArch plain, imgDevid plain) = (0x314E4C43, 1, 2, Config.devid) := by decide +kernel
  have h2 : (imgNseg plain, imgLen plain, imageLength 1) = (1, 73728, 73728) := by decide +kernel
  have h3 : reads.chitin.fuses = waits.chitin.fuses := reads_fuses
  have h4 : (waits.chitin.fuses.revoked.getLsbD (imgKslot plain).toNat, (imgKslot plain).toNat, waits.chitin.fuses.svn.toNat) = (false, 0, 0) := by decide +kernel
  have h5 : imgOkey plain = List.replicate 96 0 := by decide +kernel
  have h6 : (hdrClean plain, imgStageOk plain, bodySays plain, reads.imageOk plain) = (true, true, true, true) := by decide +kernel
  have h7 : 73728 ≤ waits.chitin.fuses.slotBytes := by decide +kernel
  have h8 : waits.chitin.fuses.keys.getD 0 none = some (Config.sha384 (List.replicate 96 0)) := rfl
  have h9 : waits.chitin.fuses.kown = 0 := rfl
  simp only [Prod.mk.injEq] at h1 h2 h4 h6
  unfold State.imageFails
  simp only [h3, h1, h2, h4, h5, h6, h8, h9, plain_hash, bootInputs]
  have h10 : waits.chitin.fuses.revoked = 0 := rfl
  have h11 : segOk 0#256 plain 0 = true := plain_segment
  simp [h11, List.range_succ, Nat.not_lt.mpr h7, h10]
theorem test_boot : let s := waits
    let i := { bootInputs with image := some plain }
    s.chitin.st = 0 ∧ s.chitin.doneReleased = false ∧ s.gov.trip = false ∧ i.stacksTrained = Config.stacks ∧ (∀ n ∈ stackList, i.stacksTrained.getLsbD n = true)
      ∧ i.checks.segmentsAgain = true ∧ i.checks.stagingReadable = true ∧ i.keysDrawn = true ∧ s.chitin.attempts ≠ 7 := by decide +kernel
theorem test_boot_waits : let s : State := { waits with gov := { waits.gov with trip := true } }
    s.gov.trip = true ∧ (after (.bootStart bootInputs) s).chitin.attempts = 0 := by decide +kernel
theorem test_boot_fails : let s := waits
    let f : State := { s with chitin := { s.chitin with failed := 3 } }
    (after (.bootStart { bootInputs with romOk := false }) s).chitin.st = 0 ∧ (after (.bootStart { bootInputs with romOk := false }) s).chitin.attempts = 1
      ∧ (after (.bootStart { bootInputs with fusesOk := false }) f).chitin.st = 2 := by decide +kernel
theorem test_done_rises : let s : State := { waits with chitin := { waits.chitin with doneReleased := true } }
    s.chitin.st = 0 ∧ s.chitin.doneReleased = true ∧ s.chitin.doneLine = false ∧ (3 : Nat) < 4 ∧ (after .doneLineRise s).chitin.st = 1
      ∧ (after .doneLineRise s).srcPending (headCore 3) 33 = true := by decide +kernel
theorem test_chitin_page : let s : State := { waits with chitin := { waits.chitin with st := 2, linkskip := 0x3F } }
    s.pfReq .pf = true ∧ (after (.doneReleaseWrite .pf) s).chitin.doneReleased = true ∧ (after (.linkskipClear .pf 3) s).chitin.linkskip = 0x3C
      ∧ (after (.bootCountersClear .pf) (s.setReg (chiBase + 0x24) 5)).reg (chiBase + 0x24) = 0 := by decide +kernel
theorem test_debug_module : let s : State := { live.setCore 5 { inReset := false } with dm := { active := true } }
    let go : DmiOp := .write 0x10 (BitVec.ofNat 32 (2 * 2 ^ 30 + 5 * 2 ^ 16 + 1))
    let l : State := { s with chitin := { s.chitin with fuses := { s.chitin.fuses with debugLock := true } } }
    let h := s.setCore 5 { s.coreAt 5 with halted := true }
    bit (h.csr 5 0x7B0) 2 = false ∧ ((after (.dmiAccess (.write 0x10 (BitVec.ofNat 32 (2 ^ 30 + 5 * 2 ^ 16 + 1)))) h).coreAt 5).halted = false
      ∧ s.dm.active = true ∧ s.debugOk = true ∧ l.debugOk = false ∧ (s.coreAt 5).gstop = false ∧ (s.coreAt 5).dmReset = false ∧ ((after (.dmiAccess go) s).coreAt 5).halted = true
      ∧ (after (.dmiAccess go) l).chitin.dmiError = true := by decide +kernel
/-- The responder is in state `x`, before or after IMAGE_LOAD. -/
def spdm (x : SpdmSt) (loaded : Bool) : State := { live with chitin := { live.chitin with spdm := x, loadPassed := loaded } }
theorem test_spdm_before : (spdm .session false).chitin.loadPassed = false ∧ (after .spdmHeartbeat (spdm .session false)).chitin.resp = .busy
    ∧ (spdm .version false).chitin.spdm ≠ .start ∧ (after .spdmGetVersion (spdm .start false)).chitin.spdm = .version
    ∧ (after .spdmGetCapabilities (spdm .version false)).chitin.spdm = .capabilities := by decide +kernel
theorem test_spdm_states : (after .spdmNegotiateAlgorithms (spdm .capabilities true)).chitin.spdm = .algorithms ∧ SpdmSt.ready .session = true ∧ SpdmSt.ready .algorithms = true
    ∧ (after (.spdmKeyExchange 1) (spdm .algorithms true)).chitin.spdm = .exchanged ∧ (after (.spdmFinish true) (spdm .exchanged true)).chitin.spdm = .session
    ∧ (after .spdmEndSession (spdm .session true)).chitin.spdm = .algorithms ∧ live.measureOk 5 = true ∧ live.measureOk 16 = true ∧ live.measureOk 17 = false := by decide +kernel
theorem test_ide_key : let s := spdm .session true
    (after (.ideKmRequest 2 9) (after (.ideKmRequest 2 8) s)).chitin.ide = [(2, 9)] := by decide +kernel
theorem test_fuses : let s := spdm .session true
    (after (.fuseProvision .debugLock 0) s).chitin.fuses.debugLock = true ∧ (after (.fuseProvision .debugLock 1) s).chitin.fuses.debugLock = false := by decide +kernel
theorem test_attestation : let s := after (.attestationRequest (.vf 0) 0) live
    live.partReq (.vf 0) 0 = true ∧ (live.partAt 0).loaded = true ∧ (live.partAt 0).pattBusy = false ∧ (s.partAt 0).pattBusy = true ∧ (s.partAt 0).resetting = false
      ∧ s.pattPlace 0 = some 0 ∧ (∀ i ∈ stacksAt 0 512, s.serves (domHbm i) = true) ∧ s.hbmBad 0 512 = false
      ∧ ((after (.attestationReportDone 0) s).partAt 0).pattResult = 1
      ∧ (s.setReg (partBase 0 + 0x530) 512).pattPlace 0 = none ∧ ((after (.attestationReportDone 0) (s.setReg (partBase 0 + 0x530) 512)).partAt 0).pattResult = 2
      ∧ ((after (.attestationRequest (.vf 0) 0) s).partAt 0).pattOverrun = true := by decide +kernel
theorem test_partition_reset : let s := objects
    s.pwrReq .pf = true ∧ bit (0x80000000 : W32) 31 = true ∧ (0 : PartId) = (0x80000000 : W32).extractLsb' 0 6 ∧ (s.partAt 0).resetting = false ∧ s.partStopped 0 = false
      ∧ (s.ctxAt 0 0).st = .active := by decide +kernel
/-- Nothing goes on in tile domain 0 (ID 1), whose colonies' power limits allow `l`. -/
def calm (l : W32) : State := each live (domCols 1) fun s c => s.setReg (colBase c + 0x1C000) l
theorem test_domain_quiet : let s := live
    let u := after (.domainQuietEntry 0) s
    (s.domAt 1).st = 0 ∧ (s.domAt 1).phase = 0 ∧ (s.domAt 1).gate = false ∧ s.domQuiet 1 = true ∧ (u.domAt 1).st = 1 ∧ (u.domAt 1).quiet = true := by decide +kernel
/-- A working machine whose HBM stacks run and partition 0 is being reset; nothing of it goes on. -/
def resetting : State :=
  let s := (each live stackList fun s n => s.setDom (domHbm n) { st := 0 }).setPart 0 { live.partAt 0 with resetting := true }
  { s with chitin := { s.chitin with image := some img } }
theorem test_partition_reset_ready : let s := resetting
    (s.partAt 0).resetting = true ∧ s.pcfg 0 = some geo ∧ s.chitin.image = some img ∧ s.resetReady 0 = true := by decide +kernel
theorem test_idle_timeout : let s := after (.domainQuietEntry 0) (calm 2)
    let n := after (.domainQuietEntry 0) (calm 1)
    (s.domAt 1).quiet = true ∧ (s.domAt 1).phase = 0 ∧ (s.domAt 1).wakeReq = false ∧ (s.domAt 1).st = 1 ∧ s.cwakeOf 1 = none ∧ s.limitOf 1 = 2 ∧ n.limitOf 1 = 1
      ∧ fld (s.reg (pwrBase + 0x300)) 23 12 ≤ 4095 ∧ fld (n.reg (pwrBase + 0x300)) 11 0 ≤ 4095
      ∧ (s.domAt 1).quietSince.toNat + 1000 * 4095 ≤ (s.reach (BitVec.ofNat 64 ((s.domAt 1).quietSince.toNat + 1000 * 4095))).time.toNat
      ∧ ((after (.domainIdleTimeout 0 4095) s).domAt 1).target = 3 ∧ ((after (.domainIdleTimeout 0 4095) n).domAt 1).st = 2 := by decide +kernel
theorem test_cistern_idle : ((live.domAt 65).st, (live.domAt 65).phase, (live.domAt 65).gate) = (0, 0, false)
    ∧ ((after (.cisternIdleTimeout 0) live).domAt 65).st = 1 := by decide +kernel
/-- Domain `d` is closing toward SLEEP (3). -/
def closing (entering wake : Bool) : State := live.setDom 1 { st := 1, phase := 1, gate := true, target := 3, entering := entering, wakeReq := wake }
theorem test_closing : (closing false false).domEligible 1 = false ∧ ((after (.closingComplete 1) (closing false false)).domAt 1).entering = true
    ∧ ((after (.closingComplete 1) (closing false true)).domAt 1).gate = false ∧ ((after (.lowStateEntryComplete 1) (closing true false)).domAt 1).st = 3
    ∧ ((after (.lowStateEntryComplete 1) (closing true true)).domAt 1).phase = 2 := by decide +kernel
theorem test_wake : let s := live.setDom 1 { st := 3, wakeReq := true, gate := true }
    s.wakes 1 = true ∧ (s.domAt 1).phase = 0 ∧ ((after (.domainWakeStart 1) s).domAt 1).phase = 2 ∧ ((after (.domainWakeComplete 1 true) (after (.domainWakeStart 1) s)).domAt 1).st = 0
      ∧ (s.setReg (colBase 0 + 0x1C004) 5).cwakeOf 1 = some 5 := by decide +kernel
theorem test_power_request : let s := after (.domainQuietEntry 0) live
    s.pwrReq .pf = true ∧ (1 : BitVec 7).toNat ≤ 64 ∧ s.domOwned 1 = true ∧ s.domStopped 1 = false ∧ s.domResetting 1 = false ∧ (s.domAt 1).st.toNat ≤ 2 ∧ s.mayLeave 1 3 = true
      ∧ s.partReq (.vf 0) 0 = true ∧ bit (0x80000000 : W32) 31 = true ∧ fld (0x80000000 : W32) 9 8 = 0 ∧ 1 + fld (0x80000000 : W32) 7 0 ∈ s.tdomsOf 0 := by decide +kernel
theorem test_governor : let s := live.setReg pwrBase 1000
    let hot : State := { s with gov := { s.gov with hot := true } }
    s.chitin.loadPassed = true ∧ (after (.capWrite .pf 600) { s with chitin := { s.chitin with loadPassed := false } }).reg pwrBase = 1000
      ∧ hot.gov.hot = true ∧ s.gov.hot = false ∧ s.gov.capLowered = false ∧ s.gov.jThrottle = false ∧ s.regF pwrBase 10 0 = 1000
      ∧ 0 * 100 < 1000 * (100 - s.regF (pwrBase + 0x008) 11 8) ∧ ((after (.governorSample 1001 0) s).domAt 1).n = 15
      ∧ (after (.capWrite .pf 599) s).gov.capRefused = true ∧ (after (.capWrite .pf 1801) s).gov.capRefused = true ∧ (after (.capWrite .pf 600) s).reg pwrBase = 600
      ∧ (after (.capWrite .pf 1800) s).reg pwrBase = 1800 ∧ (after (.capWrite .pf 600) s).gov.capLowered = true := by decide +kernel
theorem test_thermal : (after (.junctionHot 105) live).gov.hot = true ∧ (after (.junctionHot 104) live).gov.hot = false ∧ (after (.junctionThrottle 100) live).gov.jThrottle = true
    ∧ (after (.junctionThrottle 99) (after (.junctionHot 105) live)).gov.hot = false ∧ (after (.junctionThrottle 97) (after (.junctionHot 105) live)).gov.jThrottle = true
    ∧ (7 : BitVec 3).toNat ∈ stackList ∧ fld ((after (.hbmStackThrottle 7 95) live).reg (pwrBase + 0x71C)) 9 0 = 0x35F
    ∧ fld ((after (.hbmRefreshDouble 7 91) (after (.hbmStackThrottle 7 95) live)).reg (pwrBase + 0x71C)) 9 0 = 0x15B := by decide +kernel
/-- Tile 0's weevil works; in its pass it stands at line 0 of the scratchpad. -/
def weevil (in_ done : Bool) : State :=
  live.setTile 0 { live.tileAt 0 with wv := .run, wvIn := in_, wvDone := done, wvRegion := 1, wvIndex := 0 }
theorem test_weevil_pass : let s := weevil false false
    let held := (weevil true true).setTile 0 { (weevil true true).tileAt 0 with quar := some (.handover 2) }
    let asleep := (weevil true true).setDom 1 { st := 2 }
    (weevil true true).wvWorks 0 = true ∧ s.wvUp 0 = true ∧ held.wvWorks 0 = false ∧ ((after (.weevilPassEnd 0) held).tileAt 0).wv = .run
      ∧ asleep.wvUp 0 = false ∧ ((after (.scrubFault 0 .parity) asleep).tileAt 0).wv = .run
      ∧ s.wvWorks 0 = true ∧ ((after (.weevilPassStart 0) s).tileAt 0).canary = 1 ∧ ((after (.weevilPassStart 0) s).tileAt 0).wvIn = true
      ∧ ((weevil true true).tileAt 0).wvCanaryFixed = false ∧ ((after (.weevilPassEnd 0) (weevil true true)).tileAt 0).wv = .halted := by decide +kernel
theorem test_weevil_scrub : let s := weevil true false
    (s.tileAt 0).wvDone = false ∧ s.spadP 0 0 = false ∧ ((after (.weevilScrubAccess 0 .clean) s).tileAt 0).wvSub = 1
      ∧ (after (.weevilScrubAccess 0 (.corrected 1 2)) s).tr 0 0x1E40 = 1 ∧ (after (.weevilScrubAccess 0 (.uncorrectable 1 2)) s).spadP 0 0 = true
      ∧ (after (.weevilScrubAccess 0 (.uncorrectable 1 2)) s).tr 0 0x1E40 = 0x10000 ∧ (s.markSpad 0 0 true).spadP 0 0 = true := by decide +kernel
theorem test_weevil_halts : let s := after (.scrubFault 0 .parity) (weevil true false)
    (s.tileAt 0).wv = .halted ∧ ((after (.weevilReload 0 true) s).tileAt 0).wv = .run ∧ ((after (.weevilReload 0 false) s).tileAt 0).wv = .failed := by decide +kernel
theorem test_patrol : let s := live
    (0 : BitVec 3).toNat ∈ stackList ∧ stackOf 0x8FC0 = 0 ∧ (0x8FC0 : Nat) < Config.hbmUnits * 2 ^ 28 ∧ s.serves (domHbm 0) = true ∧ s.hbmP (0x8FC0 / 64) = false
      ∧ (after (.hbmPatrolScrub 0 0x8FC0 (.uncorrectable 1 2)) s).hbmP 575 = true ∧ (after (.hbmPatrolScrub 0 0x8FC0 (.corrected 1 2)) s).reg (dbgBase + 0x800) = 1
      ∧ s.tileReq .pf 0 .launch = true ∧ s.colReq .pf 0 = true ∧ s.dbgReq .pf = true := by decide +kernel

/-! ## Reset and invariants -/

theorem test_canonical : live.Canonical ∧ (live.setSpadBytes 0 5 [1, 0, 2]).Canonical :=
  ⟨⟨by decide, by decide, by decide, by decide, by decide, by decide⟩, ⟨by decide, by decide, by decide, by decide, by decide, by decide⟩⟩
theorem test_frame_command : Instr.semaphoreWrite .pf 0 3 9 ∈ [Instr.imemArm .pf 0 1, .semaphoreWrite .pf 0 3 9] ∧ (after (.semaphoreWrite .pf 0 3 9) live).spad = live.spad := by decide +kernel
theorem test_frame_program : (wordOf (.scSw 0 0 2 1 0)).map (fun x => (x.1, x.2.1)) = some (0, 0) ∧ (1 : TileId) ≠ 0
    ∧ (after (.scSw 0 0 2 1 0) ((running 0).setSR 0 0 2 7)).spadB 1 0 = 0 := by decide +kernel
end Sys2Proof.Tests
end

/-! ## Steps, memories and reset: the statements that need few facts of their own -/

section
open Sys2Proof Sys2Proof.Machine

/-- Settles O1, by the second case of `step`. -/
theorem stepRunsFrontCommand : Obligations.StepRunsFrontCommand := by
  intro c l s h
  simp only [step, h]

namespace Sys2Proof.Machine

/-- What is written at `k` of a memory is read back there, and only there. -/
theorem putL_exact [DecidableEq α] (d : Nat → α) (vs : List α) (m : Sparse α) (k : Nat) :
    lookN d (putL d m k vs) k vs.length = vs ∧ ∀ j, (k ≤ j → k + vs.length ≤ j) → look d (putL d m k vs) j = look d m j :=
  ⟨lookN_putL d vs m k, fun j hj => look_putL_other d vs m k j (by omega)⟩

/-- A CSR after reset, whichever the core. -/
theorem reset_csr (c : CoreId) (n : Nat) : State.reset.csr c n = csrReset n := by
  have hmod : (c.val * 4096 + n) % 4096 = n % 4096 := by omega
  show csrReset (c.val * 4096 + n) = csrReset n
  simp only [csrReset, hmod]

/-- R471: a tile's registers lie in a tile block. -/
theorem locate_tile (t : TileId) {o : Nat} (ho : o < 0x2000) : ∃ u i, locate (tileBase t + o) = some (.tile u, i) := by
  have hcol : (colonyOf t).toNat < 256 := (colonyOf t).isLt
  have hindex : indexOf t < 16 := by unfold indexOf; omega
  have hlow : ¬ tileBase t + o < 0x01000000 := by unfold tileBase colBase; omega
  have hhigh : tileBase t + o < 0x05000000 := by unfold tileBase colBase; omega
  have hoffset : 0x20000 ≤ (tileBase t + o) % 0x40000 := by unfold tileBase colBase; omega
  have hpast : ∀ n ≤ 0x20000, ¬ (tileBase t + o) % 0x40000 < n := by omega
  simp only [locate, if_neg hlow, if_pos hhigh, if_neg (hpast _ _), Nat.reduceLeDiff]
  exact ⟨_, _, rfl⟩

/-- No register of a tile block has a reset value other than 0. -/
theorem resetWord_tile {a : Nat} {u : TileId} {i : Nat} (hloc : locate a = some (.tile u, i)) : resetWord a = 0 := by
  have hrows : ∀ r ∈ tileRows, r.reset = 0 := by decide
  simp only [resetWord, rowAt, hloc, rowsOf]
  split
  case h_1 r hfind => exact hrows r (List.mem_of_find?_eq_some hfind)
  case h_2 => rfl

theorem reset_tr (t : TileId) {o : Nat} (ho : o < 0x2000) : State.reset.tr t o = 0 := by
  obtain ⟨u, i, hloc⟩ := locate_tile t ho
  have hregs : State.reset.regs = [] := rfl
  rw [State.tr, State.reg, hregs, look, resetWord_tile hloc]

/-- R136: a semaphore is 0 after reset. -/
theorem reset_semVal (t : TileId) (n : SemId) : State.reset.semVal t n = 0 := by
  rw [State.semVal, reset_tr t (by have := n.isLt; omega)]
  decide

end Sys2Proof.Machine

/-- Settles O3: each memory is a sparse list at linear addresses, and a write of it is exact. -/
theorem memoryWritesAreExact : Obligations.MemoryWritesAreExact := by
  intro s t a bs
  have hspad := putL_exact zeroByte bs s.spad (t.toNat * 262144 + a)
  have hcis := putL_exact zeroByte bs s.cis (t.toNat * 4194304 + a)
  have hside := putL_exact zeroByte bs s.side (t.toNat * 262144 + a)
  have hhbm := putL_exact zeroByte bs s.hbm a
  exact ⟨⟨hspad.1, fun u i => hspad.2 _⟩, ⟨hcis.1, fun u i => hcis.2 _⟩, ⟨hside.1, fun u i => hside.2 _⟩, hhbm⟩

/-- Settles O55: no table of the reset state lists an entry, so each reads its default, and an empty memory is canonical. -/
theorem resetValues : Obligations.ResetValues := by
  have hcompare : ∀ c, State.reset.timecmp c = 0xFFFFFFFFFFFFFFFF ∧ State.reset.csr c 0x7C0 = 0 := fun c => by
    simp only [State.timecmp, Machine.reset_csr c 0x7C6, Machine.reset_csr c 0x7C5,
      Machine.reset_csr c 0x7C0]
    exact ⟨by decide, by decide⟩
  exact ⟨rfl, rfl, rfl, rfl, rfl, fun _ _ => ⟨rfl, rfl, rfl, rfl⟩, Machine.reset_semVal, fun _ _ r => ite_self (c := r = 0) 0, fun _ => ⟨rfl, rfl⟩,
    fun _ _ => rfl, fun _ => rfl, fun _ => rfl, hcompare, rfl, rfl, rfl, rfl, rfl, rfl⟩

end

/-! ## What the machine's operations write of its memories: their canonical form (R9, R199, R276), and tile by tile (R5, R31) -/

section
-- One declaration at a time: threads that wait for one another would each reserve a stack.
set_option Elab.async false

namespace Sys2Proof.Machine

/-- The byte memories, and the accumulators and vector and predicate registers of the tiles. -/
structure Mems where
  spad : Sparse Byte
  cis : Sparse Byte
  side : Sparse Byte
  hbm : Sparse Byte
  host : Sparse Byte
  cmem : Sparse Byte
  acc : Sparse W32
  vreg : Sparse W32
  preg : Sparse W32

/-- The memories of a state. -/
def State.mems (s : State) : Mems :=
  ⟨s.spad, s.cis, s.side, s.hbm, s.host, s.cmem, s.acc, s.vreg, s.preg⟩

/-- `State.Canonical`, of the memories alone. -/
def Mems.Canonical (m : Mems) : Prop :=
  Memory.wf zeroByte m.spad ∧ Memory.wf zeroByte m.cis ∧ Memory.wf zeroByte m.side ∧ Memory.wf zeroByte m.hbm
    ∧ Memory.wf zeroByte m.host ∧ Memory.wf zeroByte m.cmem

theorem State.canonical_iff_mems (s : State) : s.Canonical ↔ s.mems.Canonical := Iff.rfl

/-- From memories `a` to memories `b` the canonical form is kept, and what belongs to a tile outside `T` reads as before: its scratchpad, its
accumulator entries, its vector lanes and its predicate registers. -/
structure Confined (T : Set TileId) (a b : Mems) : Prop where
  canonical : a.Canonical → b.Canonical
  spad : ∀ v ∉ T, ∀ i < 262144, look zeroByte b.spad (v.toNat * 262144 + i) = look zeroByte a.spad (v.toNat * 262144 + i)
  acc : ∀ v ∉ T, ∀ i < 16384, look zeroWord b.acc (v.toNat * 16384 + i) = look zeroWord a.acc (v.toNat * 16384 + i)
  vreg : ∀ v ∉ T, ∀ r < 32, ∀ l < 32,
    look zeroWord b.vreg ((v.toNat * 32 + r) * 32 + l) = look zeroWord a.vreg ((v.toNat * 32 + r) * 32 + l)
  preg : ∀ v ∉ T, ∀ r < 8, look zeroWord b.preg (v.toNat * 8 + r) = look zeroWord a.preg (v.toNat * 8 + r)

section
variable {T : Set TileId} {m₀ a b : Mems}

theorem Confined.refl (T : Set TileId) (a : Mems) : Confined T a a :=
  ⟨id, fun _ _ _ _ => rfl, fun _ _ _ _ => rfl, fun _ _ _ _ _ _ => rfl, fun _ _ _ _ => rfl⟩

theorem Confined.trans {c : Mems} (h : Confined T a b) (k : Confined T b c) : Confined T a c :=
  ⟨k.canonical ∘ h.canonical, fun v hv i hi => (k.spad v hv i hi).trans (h.spad v hv i hi),
    fun v hv i hi => (k.acc v hv i hi).trans (h.acc v hv i hi),
    fun v hv r hr l hl => (k.vreg v hv r hr l hl).trans (h.vreg v hv r hr l hl),
    fun v hv r hr => (k.preg v hv r hr).trans (h.preg v hv r hr)⟩

/-- A write that leaves every tile's memories keeps the confinement where it keeps the canonical form. -/
theorem Confined.of_tiles_eq (h : Confined T m₀ a) (hc : a.Canonical → b.Canonical) (hs : b.spad = a.spad) (ha : b.acc = a.acc)
    (hv : b.vreg = a.vreg) (hp : b.preg = a.preg) : Confined T m₀ b :=
  h.trans ⟨hc, by simp [hs], by simp [ha], by simp [hv], by simp [hp]⟩

/-- Where every tile may be written, the canonical form alone is to be kept. -/
theorem Confined.of_canonical (h : Confined Set.univ m₀ a) (hc : a.Canonical → b.Canonical) : Confined Set.univ m₀ b :=
  h.trans ⟨hc, fun v hv => absurd (Set.mem_univ v) hv, fun v hv => absurd (Set.mem_univ v) hv,
    fun v hv => absurd (Set.mem_univ v) hv, fun v hv => absurd (Set.mem_univ v) hv⟩

end

variable {T : Set TileId} {m₀ : Mems}

section
variable {β : Type} (l : List β) (f : State → β → State)

theorem each_mems (hf : ∀ s x, (f s x).mems = s.mems) (s : State) : (each s l f).mems = s.mems := by
  induction l generalizing s with
  | nil => rfl
  | cons x l ih => exact (ih _).trans (hf s x)

theorem each_confined (hf : ∀ s x, Confined T m₀ s.mems → Confined T m₀ (f s x).mems) {s : State}
    (h : Confined T m₀ s.mems) : Confined T m₀ (each s l f).mems := by
  induction l generalizing s with
  | nil => exact h
  | cons x l ih => exact ih (hf s x h)

end

/-! ## The writes of a memory -/

section
variable {β : Type} (l : List β) (f : State → β → State)

theorem each_confined_mem (hf : ∀ s x, x ∈ l → Confined T m₀ s.mems → Confined T m₀ (f s x).mems) {s : State}
    (h : Confined T m₀ s.mems) : Confined T m₀ (each s l f).mems := by
  induction l generalizing s with
  | nil => exact h
  | cons x l ih => exact ih (fun s y hy => hf s y (List.mem_cons_of_mem _ hy)) (hf s x List.mem_cons_self h)

end

/-! ## Operations of Machine/RegMap -/

@[simp] theorem State.setReg_mems (s : State) (a w) : (s.setReg a w).mems = s.mems := rfl

@[simp] theorem State.plainWrite_mems (s : State) (a w) : (s.plainWrite a w).mems = s.mems := by
  grind [State.plainWrite, State.setReg_mems]

@[simp] theorem State.setRegF_mems (s : State) (a hi lo v) : (s.setRegF a hi lo v).mems = s.mems := by
  grind [State.setRegF, State.setReg_mems]

@[simp] theorem State.incReg_mems (s : State) (a hi lo n) : (s.incReg a hi lo n).mems = s.mems := by
  grind [State.incReg, State.setReg_mems]

/-! ## Operations of Machine/Ops -/

@[simp] theorem State.setCsr_mems (s : State) (c n v) : (s.setCsr c n v).mems = s.mems := rfl

@[simp] theorem State.setImemH_mems (s : State) (t e b a v) : (s.setImemH t e b a v).mems = s.mems := rfl

@[simp] theorem State.setImemP_mems (s : State) (t e b w v) : (s.setImemP t e b w v).mems = s.mems := rfl

theorem State.setAccW_confined {s : State} (t i v) (h : Confined Set.univ m₀ s.mems) : Confined Set.univ m₀ (s.setAccW t i v).mems :=
  h.of_canonical id

theorem State.setVregL_confined {s : State} {t : TileId} {r l : Nat} (v : W32) (ht : t ∈ T) (hr : r < 32) (hl : l < 32)
    (h : Confined T m₀ s.mems) : Confined T m₀ (s.setVregL t r l v).mems := by
  refine h.trans ⟨id, fun _ _ _ _ => rfl, fun _ _ _ _ => rfl, fun u hu q hq k hk => look_put_other _ _ _ fun e => ?_, fun _ _ _ _ => rfl⟩
  exact hu ((BitVec.eq_of_toNat_eq (by omega) : u = t) ▸ ht)

theorem State.setPregW_confined {s : State} {t : TileId} {r : Nat} (v : W32) (ht : t ∈ T) (hr : r < 8)
    (h : Confined T m₀ s.mems) : Confined T m₀ (s.setPregW t r v).mems := by
  refine h.trans ⟨id, fun _ _ _ _ => rfl, fun _ _ _ _ => rfl, fun _ _ _ _ _ _ => rfl, fun u hu q hq => look_put_other _ _ _ fun e => ?_⟩
  exact hu ((BitVec.eq_of_toNat_eq (by omega) : u = t) ▸ ht)

@[simp] theorem State.setSregW_mems (s : State) (t e r v) : (s.setSregW t e r v).mems = s.mems := rfl

theorem State.setCmemB_confined {s : State} (c a v) (h : Confined T m₀ s.mems) : Confined T m₀ (s.setCmemB c a v).mems :=
  h.of_tiles_eq (fun ⟨hs, hc, hd, hh, ho, hm⟩ => ⟨hs, hc, hd, hh, ho, wf_put _ _ _ hm⟩) rfl rfl rfl rfl

@[simp] theorem State.setSpadP_mems (s : State) (t l v) : (s.setSpadP t l v).mems = s.mems := rfl

@[simp] theorem State.setAccP_mems (s : State) (t i v) : (s.setAccP t i v).mems = s.mems := rfl

@[simp] theorem State.setVregP_mems (s : State) (t r l v) : (s.setVregP t r l v).mems = s.mems := rfl

@[simp] theorem State.setCisP_mems (s : State) (t l v) : (s.setCisP t l v).mems = s.mems := rfl

@[simp] theorem State.setHbmP_mems (s : State) (l v) : (s.setHbmP l v).mems = s.mems := rfl

@[simp] theorem State.setPosterW_mems (s : State) (t n v) : (s.setPosterW t n v).mems = s.mems := rfl

@[simp] theorem State.setEng_mems (s : State) (t e v) : (s.setEng t e v).mems = s.mems := rfl

@[simp] theorem State.setTile_mems (s : State) (t v) : (s.setTile t v).mems = s.mems := rfl

@[simp] theorem State.setMovq_mems (s : State) (t q v) : (s.setMovq t q v).mems = s.mems := rfl

@[simp] theorem State.setMovd_mems (s : State) (t d v) : (s.setMovd t d v).mems = s.mems := rfl

@[simp] theorem State.setBucket_mems (s : State) (t k v) : (s.setBucket t k v).mems = s.mems := rfl

@[simp] theorem State.setTurn_mems (s : State) (c v) : (s.setTurn c v).mems = s.mems := rfl

@[simp] theorem State.setRset_mems (s : State) (t k v) : (s.setRset t k v).mems = s.mems := rfl

@[simp] theorem State.setHalo_mems (s : State) (t hh v) : (s.setHalo t hh v).mems = s.mems := rfl

@[simp] theorem State.setCore_mems (s : State) (c v) : (s.setCore c v).mems = s.mems := rfl

@[simp] theorem State.setCtl_mems (s : State) (c v) : (s.setCtl c v).mems = s.mems := rfl

@[simp] theorem State.setPart_mems (s : State) (p v) : (s.setPart p v).mems = s.mems := rfl

@[simp] theorem State.setCtx_mems (s : State) (p c v) : (s.setCtx p c v).mems = s.mems := rfl

@[simp] theorem State.setQueue_mems (s : State) (p q v) : (s.setQueue p q v).mems = s.mems := rfl

@[simp] theorem State.setObj_mems (s : State) (p i v) : (s.setObj p i v).mems = s.mems := rfl

@[simp] theorem State.setEvt_mems (s : State) (p i v) : (s.setEvt p i v).mems = s.mems := rfl

@[simp] theorem State.setWaiter_mems (s : State) (p i v) : (s.setWaiter p i v).mems = s.mems := rfl

@[simp] theorem State.setPackage_mems (s : State) (c v) : (s.setPackage c v).mems = s.mems := rfl

@[simp] theorem State.setPort_mems (s : State) (p v) : (s.setPort p v).mems = s.mems := rfl

@[simp] theorem State.setIngress_mems (s : State) (q v) : (s.setIngress q v).mems = s.mems := rfl

@[simp] theorem State.setRet_mems (s : State) (q v) : (s.setRet q v).mems = s.mems := rfl

@[simp] theorem State.setDom_mems (s : State) (d v) : (s.setDom d v).mems = s.mems := rfl

@[simp] theorem State.setShadow_mems (s : State) (r v) : (s.setShadow r v).mems = s.mems := rfl

theorem State.hostWrite_confined {s : State} (pasid a bs) (h : Confined T m₀ s.mems) : Confined T m₀ (s.hostWrite pasid a bs).mems :=
  h.of_tiles_eq (fun ⟨hs, hc, hd, hh, ho, hm⟩ => ⟨hs, hc, hd, hh, wf_putL _ _ _ ho, hm⟩) rfl rfl rfl rfl

@[simp] theorem State.setSR_mems (s : State) (t e r v) : (s.setSR t e r v).mems = s.mems := by
  grind [State.setSR, State.setSregW_mems]

theorem State.setSpadBytes_confined {s : State} (t a bs) (h : Confined Set.univ m₀ s.mems) :
    Confined Set.univ m₀ (s.setSpadBytes t a bs).mems :=
  h.of_canonical fun ⟨hs, hc, hd, hh, ho, hm⟩ => ⟨wf_putL _ _ _ hs, hc, hd, hh, ho, hm⟩

/-- Bytes written inside a tile's scratchpad are the tile's. -/
theorem State.setSpadBytes_local {s : State} {t : TileId} {a : Nat} {bs : List Byte} (ht : t ∈ T) (hb : a + bs.length ≤ 262144)
    (h : Confined T m₀ s.mems) : Confined T m₀ (s.setSpadBytes t a bs).mems := by
  refine h.trans ⟨fun ⟨hs, hc, hd, hh, ho, hm⟩ => ⟨wf_putL _ _ _ hs, hc, hd, hh, ho, hm⟩,
    fun u hu i hi => look_putL_other _ _ _ _ _ ?_, fun _ _ _ _ => rfl, fun _ _ _ _ _ _ => rfl, fun _ _ _ _ => rfl⟩
  have hne : u.toNat ≠ t.toNat := fun e => hu (BitVec.eq_of_toNat_eq e ▸ ht)
  omega

theorem State.setHbmBytes_confined {s : State} (a bs) (h : Confined T m₀ s.mems) : Confined T m₀ (s.setHbmBytes a bs).mems :=
  h.of_tiles_eq (fun ⟨hs, hc, hd, hh, ho, hm⟩ => ⟨hs, hc, hd, wf_putL _ _ _ hh, ho, hm⟩) rfl rfl rfl rfl

theorem State.setCisBytes_confined {s : State} (t a bs) (h : Confined T m₀ s.mems) : Confined T m₀ (s.setCisBytes t a bs).mems :=
  h.of_tiles_eq (fun ⟨hs, hc, hd, hh, ho, hm⟩ => ⟨hs, wf_putL _ _ _ hc, hd, hh, ho, hm⟩) rfl rfl rfl rfl

theorem State.setSideBytes_confined {s : State} (t a bs) (h : Confined T m₀ s.mems) : Confined T m₀ (s.setSideBytes t a bs).mems :=
  h.of_tiles_eq (fun ⟨hs, hc, hd, hh, ho, hm⟩ => ⟨hs, hc, wf_putL _ _ _ hd, hh, ho, hm⟩) rfl rfl rfl rfl

@[simp] theorem State.send_mems (s : State) (o) : (s.send o).mems = s.mems := rfl

@[simp] theorem State.drawn_mems (s : State) : s.drawn.mems = s.mems := rfl

@[simp] theorem State.enterDebug_mems (s : State) (c cause) : (s.enterDebug c cause).mems = s.mems := by
  grind [State.enterDebug, State.drawn_mems, State.setCore_mems, State.setCsr_mems]

@[simp] theorem State.putImem_mems (s : State) (t e b a l) : (s.putImem t e b a l).mems = s.mems := by
  grind [State.putImem, each_mems, State.setImemH_mems, State.setImemP_mems]

theorem State.markSpad_confined {s : State} (t l b) (h : Confined Set.univ m₀ s.mems) : Confined Set.univ m₀ (s.markSpad t l b).mems := by
  grind [State.markSpad, State.setSpadP_mems, State.setSpadBytes_confined, State.drawn_mems]

@[simp] theorem State.junk_length (s : State) (k n : Nat) : (s.junk k n).length = n := by simp [State.junk]

theorem State.markSpad_local {s : State} {t : TileId} {l : Nat} (b : Bool) (ht : t ∈ T) (hl : l < 4096) (h : Confined T m₀ s.mems) :
    Confined T m₀ (s.markSpad t l b).mems := by
  unfold State.markSpad
  cases b with
  | false => exact h
  | true => exact State.setSpadBytes_local ht (by rw [State.junk_length]; omega) h

theorem State.markAcc_confined {s : State} (t i b) (h : Confined Set.univ m₀ s.mems) : Confined Set.univ m₀ (s.markAcc t i b).mems := by
  grind [State.markAcc, State.setAccP_mems, State.drawn_mems, State.setAccW_confined]

theorem State.markLane_confined {s : State} {t : TileId} {r l : Nat} (b : Bool) (ht : t ∈ T) (hr : r < 32) (hl : l < 32)
    (h : Confined T m₀ s.mems) : Confined T m₀ (s.markLane t r l b).mems := by
  unfold State.markLane
  cases b with
  | false => exact h
  | true => exact State.setVregL_confined _ ht hr hl h

theorem State.markCis_confined {s : State} (v l b) (h : Confined T m₀ s.mems) : Confined T m₀ (s.markCis v l b).mems := by
  grind [State.markCis, State.setCisP_mems, State.drawn_mems, State.setCisBytes_confined, State.setSideBytes_confined]

theorem State.markHbm_confined {s : State} (l b) (h : Confined T m₀ s.mems) : Confined T m₀ (s.markHbm l b).mems := by
  grind [State.markHbm, State.setHbmP_mems, State.drawn_mems, State.setHbmBytes_confined]

@[simp] theorem State.setCopy_mems (s : State) (q n) : (s.setCopy q n).mems = s.mems := rfl

@[simp] theorem State.setTr_mems (s : State) (t o w) : (s.setTr t o w).mems = s.mems := by
  grind [State.setTr, State.setReg_mems]

@[simp] theorem State.askWake_mems (s : State) (d) : (s.askWake d).mems = s.mems := by
  grind [State.askWake, State.setDom_mems]

/-! ## Operations of Machine/Report -/

@[simp] theorem State.add64_mems (s : State) (a n) : (s.add64 a n).mems = s.mems := by
  grind [State.add64, State.setReg_mems]

@[simp] theorem State.lightP_mems (s : State) (p n k) : (s.lightP p n k).mems = s.mems := by
  cases p with
  | none => rfl
  | some p => exact State.add64_mems ..

@[simp] theorem State.light_mems (s : State) (p n k) : (s.light p n k).mems = s.mems := by
  cases p <;> simp [State.light]

@[simp] theorem State.trace_mems (s : State) (t ty unit place info) : (s.trace t ty unit place info).mems = s.mems := by
  grind [State.trace, State.setTile_mems, State.incReg_mems]

@[simp] theorem State.traceUnitAt_mems (s : State) (p ty unit place info ctx time) : (s.traceUnitAt p ty unit place info ctx time).mems = s.mems := by
  grind [State.traceUnitAt, State.setPart_mems]

@[simp] theorem State.traceUnit_mems (s : State) (p ty unit place info ctx) : (s.traceUnit p ty unit place info ctx).mems = s.mems := by
  grind [State.traceUnit, State.traceUnitAt_mems]

@[simp] theorem State.ordered_mems (s : State) (c l) : (s.ordered c l).mems = s.mems := by
  grind [State.ordered, State.setCtl_mems]

@[simp] theorem State.raise_mems (s : State) (c src) : (s.raise c src).mems = s.mems := by
  grind [State.raise, State.setReg_mems, State.ordered_mems]

@[simp] theorem State.raiseTile_mems (s : State) (t base) : (s.raiseTile t base).mems = s.mems := by
  grind [State.raiseTile, State.raise_mems]

@[simp] theorem State.arriveErr_mems (s : State) (c r) : (s.arriveErr c r).mems = s.mems := by
  grind [State.arriveErr, State.setCtl_mems, State.incReg_mems, State.setReg_mems]

@[simp] theorem State.notice_mems (s : State) (p c n) : (s.notice p c n).mems = s.mems := by
  grind [State.notice, State.setCtx_mems]

/-! ## Operations of Machine/VulSend -/

@[simp] theorem State.transmit_mems (s : State) (p l) : (s.transmit p l).mems = s.mems := by
  grind [State.transmit, State.send_mems]

@[simp] theorem State.sendFlit_mems (s : State) (p ty slots) : (s.sendFlit p ty slots).mems = s.mems := by
  grind [State.sendFlit, State.transmit_mems, State.setPort_mems]

@[simp] theorem State.sendIdle_mems (s : State) (p) : (s.sendIdle p).mems = s.mems := by
  grind [State.sendIdle, State.sendFlit_mems]

@[simp] theorem State.sendSlots_mems (s : State) (p n l) : (s.sendSlots p n l).mems = s.mems := by
  induction n generalizing s l with
  | zero => rfl
  | succ n ih => grind [State.sendSlots, State.sendFlit_mems]

@[simp] theorem State.pump_mems (s : State) (p n) : (s.pump p n).mems = s.mems := by
  induction n generalizing s with
  | zero => rfl
  | succ n ih => grind [State.pump, State.sendSlots_mems, State.setPort_mems]

@[simp] theorem State.emit_mems (s : State) (p vc m) : (s.emit p vc m).mems = s.mems := by
  grind [State.emit, State.pump_mems, State.setPort_mems]

@[simp] theorem State.newTag_mems (s : State) : (s.newTag).1.mems = s.mems := rfl

/-! ## Operations of Machine/Loss -/

@[simp] theorem State.waitWake_mems (s : State) (p tl hh) : (s.waitWake p tl hh).mems = s.mems := by
  grind [State.waitWake, State.askWake_mems]

@[simp] theorem State.retest_mems (s : State) (p sel) : (s.retest p sel).mems = s.mems := by
  grind [State.retest, each_mems, State.setWaiter_mems]

@[simp] theorem State.wake_mems (s : State) (p tl key) : (s.wake p tl key).mems = s.mems := by
  grind [State.wake, State.retest_mems]

theorem State.tlApply_confined {s : State} (p a v) (h : Confined T m₀ s.mems) : Confined T m₀ (s.tlApply p a v).mems := by
  grind [State.tlApply, State.askWake_mems, State.wake_mems, State.setHbmBytes_confined, State.mems]

@[simp] theorem State.evtSet_mems (s : State) (p i err) : (s.evtSet p i err).mems = s.mems := by
  grind [State.evtSet, State.wake_mems, State.setEvt_mems]

theorem State.signal_confined {s : State} (p tl hh v err) (h : Confined T m₀ s.mems) : Confined T m₀ (s.signal p tl hh v err).mems := by
  grind [State.signal, State.tlApply_confined, State.evtSet_mems]

theorem State.forceRemote_confined {s : State} (p c o) (h : Confined T m₀ s.mems) : Confined T m₀ (s.forceRemote p c o).mems := by
  grind [State.forceRemote, State.newTag_mems, State.tlApply_confined, State.emit_mems, State.mems]

theorem State.forceSignal_confined {s : State} (p c) (h : Confined T m₀ s.mems) : Confined T m₀ (s.forceSignal p c).mems := by
  grind [State.forceSignal, each_confined, State.evtSet_mems, State.forceRemote_confined, State.tlApply_confined]

@[simp] theorem State.disarm_mems (s : State) (p i) : (s.disarm p i).mems = s.mems := by
  grind [State.disarm, State.setWaiter_mems]

@[simp] theorem State.freeSlot_mems (s : State) (p i) : (s.freeSlot p i).mems = s.mems := by
  grind [State.freeSlot, State.setWaiter_mems]

@[simp] theorem State.takeWait_mems (s : State) (p q) : (s.takeWait p q).mems = s.mems := by
  grind [State.takeWait, State.setQueue_mems, State.waitWake_mems, State.setWaiter_mems]

@[simp] theorem State.takeWaits_mems (s : State) (p) : (s.takeWaits p).mems = s.mems := by
  grind [State.takeWaits, each_mems, State.takeWait_mems]

@[simp] theorem State.complete_mems (s : State) (p sel) : (s.complete p sel).mems = s.mems := by
  grind [State.complete, each_mems, State.setQueue_mems, State.disarm_mems, State.setPart_mems, State.notice_mems]

@[simp] theorem State.clearScalars_mems (s : State) (t e) : (s.clearScalars t e).mems = s.mems := rfl

@[simp] theorem State.dropWalk_mems (s : State) (t e) : (s.dropWalk t e).mems = s.mems := by
  grind [State.dropWalk, State.setTile_mems]

@[simp] theorem State.stopEngine_mems (s : State) (t e) : (s.stopEngine t e).mems = s.mems := by
  grind [State.stopEngine, State.clearScalars_mems, State.setEng_mems, State.dropWalk_mems]

@[simp] theorem State.latchCounters_mems (s : State) (t off) : (s.latchCounters t off).mems = s.mems := by
  grind [State.latchCounters, each_mems, State.setReg_mems]

@[simp] theorem State.windowEnd_mems (s : State) (t) : (s.windowEnd t).mems = s.mems := by
  grind [State.windowEnd, State.latchCounters_mems, State.setTile_mems]

@[simp] theorem State.closeWindow_mems (s : State) (t) : (s.closeWindow t).mems = s.mems := by
  grind [State.closeWindow, State.windowEnd_mems, State.setTile_mems]

@[simp] theorem State.reloadTile_mems (s : State) (t) : (s.reloadTile t).mems = s.mems := by
  grind [State.reloadTile, each_mems, State.setPosterW_mems, State.setTr_mems]

@[simp] theorem State.settle_mems (s : State) (t) : (s.settle t).mems = s.mems := by
  grind [State.settle, State.reloadTile_mems, State.setTile_mems]

@[simp] theorem State.stopTile_mems (s : State) (t all) : (s.stopTile t all).mems = s.mems := by
  grind [State.stopTile, State.setTile_mems, each_mems, State.stopEngine_mems, State.settle_mems]

theorem State.loseCtx_confined {s : State} (p c code w place addr parts) (h : Confined T m₀ s.mems) : Confined T m₀ (s.loseCtx p c code w place addr parts).mems := by
  grind [State.loseCtx, State.lightP_mems, State.setCtx_mems, each_confined, State.stopTile_mems, State.setQueue_mems, State.complete_mems, State.forceSignal_confined, State.takeWaits_mems, State.notice_mems]

theorem State.loseAt_confined {s : State} (t code e q d addr parts) (h : Confined T m₀ s.mems) : Confined T m₀ (s.loseAt t code e q d addr parts).mems := by
  grind [State.loseAt, State.loseCtx_confined]

theorem State.faultAtPc_confined {s : State} (t e pc code) (h : Confined T m₀ s.mems) : Confined T m₀ (s.faultAtPc t e pc code).mems := by
  grind [State.faultAtPc, State.setEng_mems, State.dropWalk_mems, State.trace_mems, State.loseAt_confined, State.raiseTile_mems]

theorem State.engFault_confined {s : State} (t e code) (h : Confined T m₀ s.mems) : Confined T m₀ (s.engFault t e code).mems := by
  grind [State.engFault, State.faultAtPc_confined]

theorem State.loseAll_confined {s : State} (p code) (h : Confined T m₀ s.mems) : Confined T m₀ (s.loseAll p code).mems := by
  grind [State.loseAll, each_confined, State.loseCtx_confined]

@[simp] theorem State.errorNotice_mems (s : State) (p sev) : (s.errorNotice p sev).mems = s.mems := by
  grind [State.errorNotice, State.setCtx_mems, State.notice_mems]

theorem State.escalate_confined {s : State} (r) (h : Confined T m₀ s.mems) : Confined T m₀ (s.escalate r).mems := by
  grind [State.escalate, State.loseCtx_confined, State.errorNotice_mems, State.loseAll_confined, each_confined]

@[simp] theorem State.countErr_mems (s : State) (r) : (s.countErr r).mems = s.mems := by
  grind [State.countErr, State.light_mems, each_mems, State.lightP_mems]

theorem State.errAt_confined {s : State} (t r) (h : Confined T m₀ s.mems) : Confined T m₀ (s.errAt t r).mems := by
  grind [State.errAt, State.arriveErr_mems, State.escalate_confined, State.countErr_mems]

theorem State.errHead_confined {s : State} (die r) (h : Confined T m₀ s.mems) : Confined T m₀ (s.errHead die r).mems := by
  grind [State.errHead, State.escalate_confined, State.countErr_mems, State.arriveErr_mems]

theorem State.wvErr_confined {s : State} (t o unc u addr syn place) (h : Confined T m₀ s.mems) : Confined T m₀ (s.wvErr t o unc u addr syn place).mems := by
  grind [State.wvErr, State.incReg_mems, State.errAt_confined]

theorem State.poisonAtPc_confined {s : State} (t e pc u cause addr) (h : Confined T m₀ s.mems) : Confined T m₀ (s.poisonAtPc t e pc u cause addr).mems := by
  grind [State.poisonAtPc, State.setEng_mems, State.dropWalk_mems, State.trace_mems, State.errAt_confined]

theorem State.poisonStop_confined {s : State} (t e u cause addr) (h : Confined T m₀ s.mems) : Confined T m₀ (s.poisonStop t e u cause addr).mems := by
  grind [State.poisonStop, State.poisonAtPc_confined]

/-! ## Operations of Machine/Sem -/

@[simp] theorem State.setSem_mems (s : State) (t n v) : (s.setSem t n v).mems = s.mems := by
  grind [State.setSem, State.setTr_mems]

@[simp] theorem State.addSem_mems (s : State) (t n k who) : (s.addSem t n k who).1.mems = s.mems := by
  grind [State.addSem, State.setPosterW_mems, State.setSem_mems, State.setTr_mems]

theorem State.semOverflow_confined {s : State} (t e) (h : Confined T m₀ s.mems) : Confined T m₀ (s.semOverflow t e).mems := by
  grind [State.semOverflow, State.loseAt_confined, State.engFault_confined]

theorem State.post_confined {s : State} (t n k who src e) (h : Confined T m₀ s.mems) : Confined T m₀ (s.post t n k who src e).mems := by
  grind [State.post, State.addSem_mems, State.semOverflow_confined]

theorem State.opPost_confined {s : State} (t sigEn n e q) (h : Confined T m₀ s.mems) : Confined T m₀ (s.opPost t sigEn n e q).mems := by
  grind [State.opPost, State.post_confined]

/-! ## Operations of Machine/MapOps -/

@[simp] theorem State.sensed_mems (s : State) (a c) : (s.sensed a c).mems = s.mems := rfl

@[simp] theorem State.setBusy_mems (s : State) (v sl b) : (s.setBusy v sl b).mems = s.mems := by
  grind [State.setBusy, State.setTr_mems]

@[simp] theorem State.clearTag_mems (s : State) (v sl) : (s.clearTag v sl).mems = s.mems := by
  grind [State.clearTag, State.setTr_mems]

@[simp] theorem State.fillTag_mems (s : State) (v sl c lpn) : (s.fillTag v sl c lpn).mems = s.mems := by
  grind [State.fillTag, State.setTr_mems]

@[simp] theorem State.touch_mems (s : State) (v sl) : (s.touch v sl).mems = s.mems := by
  grind [State.touch, State.setTile_mems, State.setTr_mems]

theorem State.zeroSlot_confined {s : State} (v sl) (h : Confined T m₀ s.mems) : Confined T m₀ (s.zeroSlot v sl).mems :=
  h.of_tiles_eq (fun ⟨hs, hc, hd, hh, ho, hm⟩ => ⟨hs, wf_dropIf _ _ hc, wf_dropIf _ _ hd, hh, ho, hm⟩) rfl rfl rfl rfl

@[simp] theorem State.cacheIn_mems (s : State) (p e) : (s.cacheIn p e).mems = s.mems := by
  grind [State.cacheIn, State.setPart_mems, State.drawn_mems]

@[simp] theorem State.mapHeader_mems (s : State) (p t u c) : (s.mapHeader p t u c).1.mems = s.mems := by
  grind [State.mapHeader, State.cacheIn_mems]

@[simp] theorem State.resolve_mems (s : State) (p t u c lpn) : (s.resolve p t u c lpn).1.mems = s.mems := by
  grind [State.resolve, State.mapHeader_mems, State.cacheIn_mems]

/-- Marks are set by whatever sets one. -/
theorem markLines_confined {is : State → Nat → Bool} {set : State → Nat → Bool → State}
    (hset : ∀ s l b, Confined T m₀ s.mems → Confined T m₀ (set s l b).mems) {s : State} (b n bad) (h : Confined T m₀ s.mems) :
    Confined T m₀ (markLines s b n bad is set).mems := by
  grind [markLines, each_confined]

theorem State.putCis_confined {s : State} (v a bs bad) (h : Confined T m₀ s.mems) : Confined T m₀ (s.putCis v a bs bad).mems := by
  grind [State.putCis, markLines_confined, State.setCisBytes_confined, State.markCis_confined]

theorem State.putSide_confined {s : State} (v a bs bad) (h : Confined T m₀ s.mems) : Confined T m₀ (s.putSide v a bs bad).mems := by
  grind [State.putSide, markLines_confined, State.setSideBytes_confined, State.markCis_confined]

theorem State.putHbm_confined {s : State} (a bs bad) (h : Confined T m₀ s.mems) : Confined T m₀ (s.putHbm a bs bad).mems := by
  grind [State.putHbm, markLines_confined, State.setHbmBytes_confined, State.markHbm_confined]

theorem State.putSpad_confined {s : State} (t a bs bad) (h : Confined Set.univ m₀ s.mems) : Confined Set.univ m₀ (s.putSpad t a bs bad).mems := by
  grind [State.putSpad, markLines_confined, State.setSpadBytes_confined, State.markSpad_confined]

/-! ## Operations of Machine/ScalarOps -/

@[simp] theorem State.scR_mems (cur : State) (t e d v) : (cur.scR t e d v).mems = cur.mems := by
  grind [State.scR, State.setSR_mems]

theorem State.scStore_local {cur : State} {t : TileId} {a : Nat} (v : W32) (ht : t ∈ T) (ha : a + 4 ≤ 262144) (h : Confined T m₀ cur.mems) :
    Confined T m₀ (cur.scStore t a v).mems :=
  State.setSpadBytes_local ht (by rw [natLe_length]; exact ha) h

@[simp] theorem State.loopEnter_mems (cur : State) (t e p w end_ cnt) : (cur.loopEnter t e p w end_ cnt).mems = cur.mems := by
  grind [State.loopEnter, State.setEng_mems]

@[simp] theorem State.agSetOp_mems (cur : State) (t e g c w v) : (cur.agSetOp t e g c w v).mems = cur.mems := by
  grind [State.agSetOp, State.setTr_mems]

@[simp] theorem State.pendOp_mems (cur : State) (t e k) : (cur.pendOp t e k).mems = cur.mems := by
  grind [State.pendOp, State.setEng_mems]

@[simp] theorem State.endOp_mems (cur : State) (t e) : (cur.endOp t e).mems = cur.mems := by
  grind [State.endOp, State.setEng_mems]

@[simp] theorem State.fenceOp_mems (cur : State) (t e) : (cur.fenceOp t e).mems = cur.mems := by
  grind [State.fenceOp, State.setEng_mems]

/-! ## Operations of Machine/MxOps -/

@[simp] theorem State.tcnt_mems (s : State) (t n k) : (s.tcnt t n k).mems = s.mems := by
  grind [State.tcnt, State.setReg_mems]

@[simp] theorem State.numStat_mems (s : State) (t bits) : (s.numStat t bits).mems = s.mems := by
  grind [State.numStat, State.setTr_mems]

@[simp] theorem State.overlapAt_mems (s : State) (t lines) : (s.overlapAt t lines).mems = s.mems := by
  grind [State.overlapAt, State.incReg_mems, State.setTr_mems, State.drawn_mems]

@[simp] theorem State.inboundLines_mems (s : State) (t lines) : (s.inboundLines t lines).mems = s.mems := by
  grind [State.inboundLines, State.overlapAt_mems]

@[simp] theorem State.mxIssue_mems (pre cur : State) (t f) : (State.mxIssue pre cur t f).mems = cur.mems := by
  unfold State.mxIssue
  split <;> simp

theorem MxOp.result_confined {s : State} (o v t) (h : Confined Set.univ m₀ s.mems) : Confined Set.univ m₀ (MxOp.result o s v t).mems := by
  grind [MxOp.result, each_confined, State.numStat_mems, State.markAcc_confined, State.setAccW_confined, State.drawn_mems, State.mems]

@[simp] theorem State.mxPass_mems (s : State) (t) : (s.mxPass t).mems = s.mems := by
  grind [State.mxPass, State.setTile_mems, State.tcnt_mems]

theorem DrOp.clear_confined (o : DrOp) (s : State) {cur : State} (t) (h : Confined Set.univ m₀ cur.mems) :
    Confined Set.univ m₀ (o.clear s cur t).mems := by
  grind [DrOp.clear, each_confined, State.setAccW_confined, State.markAcc_confined]

theorem State.putPoison_confined {s : State} (t b n bad) (h : Confined Set.univ m₀ s.mems) : Confined Set.univ m₀ (s.putPoison t b n bad).mems := by
  grind [State.putPoison, each_confined, State.markSpad_confined]

@[simp] theorem State.statValue_mems (s : State) (t x2) : (s.statValue t x2).mems = s.mems := by
  grind [State.statValue, State.incReg_mems, State.setReg_mems]

@[simp] theorem State.sumFlush_mems (s : State) (t) : (s.sumFlush t).mems = s.mems := by
  grind [State.sumFlush, State.setTile_mems, each_mems, State.setReg_mems]

@[simp] theorem State.statRow_mems (s : State) (t seq vals data scales bad) : (s.statRow t seq vals data scales bad).mems = s.mems := by
  grind [State.statRow, each_mems, State.statValue_mems, State.sumFlush_mems, State.setTile_mems, State.setReg_mems]

theorem DrOp.writeRow_confined {s : State} (o t m vals) (h : Confined Set.univ m₀ s.mems) : Confined Set.univ m₀ (DrOp.writeRow o s t m vals).mems := by
  grind [DrOp.writeRow, State.numStat_mems, State.setTile_mems, State.setSpadBytes_confined, each_confined, State.putPoison_confined, State.statRow_mems]

/-- Both states of a row's end are written. -/
theorem DrOp.finishRow_confined (o : DrOp) (t : TileId) {x : State × State} (n : Nat) (h : Confined Set.univ m₀ x.1.mems) :
    Confined Set.univ m₀ (o.finishRow t x n).1.mems := by
  grind [DrOp.finishRow, DrOp.writeRow_confined, State.numStat_mems]

theorem DrOp.finish_confined (o : DrOp) {s : State} (v t) (rows : List Nat) (h : Confined Set.univ m₀ s.mems) :
    Confined Set.univ m₀ (o.finish s v t rows).mems := by
  unfold DrOp.finish
  induction rows generalizing s v with
  | nil => exact h
  | cons r rows ih => exact ih _ (o.finishRow_confined t r h)

/-! ## Operations of Machine/VulOps -/

@[simp] theorem State.mapXfer_mems (s : State) (t q tag f) : (s.mapXfer t q tag f).mems = s.mems := by
  grind [State.mapXfer, State.setMovq_mems]

theorem State.vulAnswer_confined {s : State} (tag part ok data bad) (h : Confined T m₀ s.mems) : Confined T m₀ (s.vulAnswer tag part ok data bad).mems := by
  grind [State.vulAnswer, State.loseCtx_confined, State.mapXfer_mems, State.mems]

theorem State.takeReply_confined {s : State} (m) (h : Confined T m₀ s.mems) : Confined T m₀ (s.takeReply m).mems := by
  unfold State.takeReply
  split <;> grind [State.vulAnswer_confined]

theorem State.sendReply_confined {s : State} (m came) (h : Confined T m₀ s.mems) : Confined T m₀ (s.sendReply m came).mems := by
  unfold State.sendReply
  split <;> grind [State.takeReply_confined, State.emit_mems]

theorem State.placeWrite_confined {s : State} (x1 bs bad) (h : Confined Set.univ m₀ s.mems) : Confined Set.univ m₀ (s.placeWrite x1 bs bad).mems := by
  unfold State.placeWrite
  split <;> grind [State.putHbm_confined, State.inboundLines_mems, State.putSpad_confined]

theorem State.serve_confined {s : State} (m port part) (h : Confined Set.univ m₀ s.mems) : Confined Set.univ m₀ (s.serve m port part).mems := by
  unfold State.serve
  split <;> grind [State.sendReply_confined, State.placeWrite_confined, State.tlApply_confined, State.setPort_mems]

theorem State.forward_confined {s : State} (m port came j k) (h : Confined Set.univ m₀ s.mems) :
    Confined Set.univ m₀ (s.forward m port came j k).mems := by
  induction k generalizing s m j with
  | zero => exact h
  | succ k ih => grind [State.forward, State.serve_confined, State.emit_mems, State.sendReply_confined]

theorem State.sendReq_confined {s : State} (m) (h : Confined Set.univ m₀ s.mems) : Confined Set.univ m₀ (s.sendReq m).mems := by
  unfold State.sendReq
  split <;> grind [State.forward_confined, State.serve_confined, State.emit_mems, State.vulAnswer_confined]

theorem State.sendSignalFor_confined {s : State} (t c p o v) (h : Confined Set.univ m₀ s.mems) : Confined Set.univ m₀ (s.sendSignalFor t c p o v).mems := by
  grind [State.sendSignalFor, State.newTag_mems, State.sendReq_confined, State.mems]

theorem State.sendSignal_confined {s : State} (t p o v) (h : Confined Set.univ m₀ s.mems) : Confined Set.univ m₀ (s.sendSignal t p o v).mems := by
  grind [State.sendSignal, State.sendSignalFor_confined]

/-! ## Operations of Machine/Canal -/

@[simp] theorem State.inject_mems (s : State) (p) : (s.inject p).mems = s.mems := rfl

@[simp] theorem State.injectCut_mems (s : State) (p part n) : (s.injectCut p part n).mems = s.mems := by
  rw [State.injectCut_frame]
  rfl

@[simp] theorem State.weirHurt_mems (s : State) (t q bad) : (s.weirHurt t q bad).mems = s.mems := by
  grind [State.weirHurt, State.setTile_mems]

@[simp] theorem State.mapFlight_mems (s : State) (t q stream pos f) : (s.mapFlight t q stream pos f).mems = s.mems := by
  grind [State.mapFlight, State.setMovq_mems]

@[simp] theorem State.canalArrive_mems (s : State) (p) : (s.canalArrive p).mems = s.mems := by
  grind [State.canalArrive, State.setTile_mems, State.mapFlight_mems, State.inject_mems, State.weirHurt_mems, State.setPart_mems]

@[simp] theorem State.beatOut_mems (s : State) (b) : (s.beatOut b).mems = s.mems := by
  grind [State.beatOut, State.canalArrive_mems, State.mems]

theorem State.linkCount_confined {s : State} (r u e) (h : Confined T m₀ s.mems) : Confined T m₀ (s.linkCount r u e).mems := by
  unfold State.linkCount
  split <;> grind [State.incReg_mems, State.errAt_confined]

theorem State.beatMove_confined {s : State} (r o k i err) (h : Confined T m₀ s.mems) : Confined T m₀ (s.beatMove r o k i err).mems := by
  grind [State.beatMove, State.beatOut_mems, State.linkCount_confined, State.mems]

theorem State.canalCycle_confined {s : State} (noisy) (h : Confined T m₀ s.mems) : Confined T m₀ (s.canalCycle noisy).mems := by
  have hm := each_confined s.canalMoves.zipIdx
    (fun s y => s.beatMove y.1.1 y.1.2.1 y.1.2.2.1 y.1.2.2.2 (if noisy then s.linkErr y.2 else .none))
    (fun _ _ hs => State.beatMove_confined _ _ _ _ _ hs) h
  have hw := each_confined (s.bridgeWaits s.canal.busy s.canalMoves) (fun s d => s.incReg (spineBase d + 4) 15 0 1)
    (fun _ _ hs => by rwa [State.incReg_mems]) hm
  unfold State.canalCycle
  dsimp only
  by_cases hc : s.canal.bufs.isEmpty ∧ s.canal.front.isEmpty
  · rwa [if_pos hc]
  · rw [if_neg hc]
    cases noisy <;> exact hw

theorem State.canalRun_confined (n) {s : State} (h : Confined T m₀ s.mems) : Confined T m₀ (State.canalRun n s).mems := by
  induction n generalizing s with
  | zero => exact h
  | succ n ih => grind [State.canalRun, State.canalCycle_confined]

theorem State.canalUntil_confined (want n) {s : State} (h : Confined T m₀ s.mems) : Confined T m₀ (State.canalUntil want n s).mems := by
  induction n generalizing s with
  | zero => exact h
  | succ n ih => grind [State.canalUntil, State.canalCycle_confined]

theorem State.bring_confined {s : State} (want) (h : Confined T m₀ s.mems) : Confined T m₀ (s.bring want).mems := by
  grind [State.bring, State.canalUntil_confined]

@[simp] theorem State.sendPost_mems (s : State) (t d x3) : (s.sendPost t d x3).mems = s.mems := by
  grind [State.sendPost, State.inject_mems]

theorem State.bringPost_confined {s : State} (t) (h : Confined T m₀ s.mems) : Confined T m₀ (s.bringPost t).mems := by
  grind [State.bringPost, State.bring_confined]

theorem State.cross_confined {s : State} (l) (h : Confined T m₀ s.mems) : Confined T m₀ (s.cross l).mems := by
  grind [State.cross, State.bring_confined, each_confined, State.inject_mems]

/-! ## Operations of Machine/MovOps -/

@[simp] theorem State.imemDrop_mems (s : State) (t) : (s.imemDrop t).mems = s.mems := by
  grind [State.imemDrop, State.incReg_mems, State.setTr_mems]

@[simp] theorem State.imemWord_mems (s : State) (t e bank word v) : (s.imemWord t e bank word v).mems = s.mems := by
  grind [State.imemWord, State.putImem_mems, State.imemDrop_mems]

@[simp] theorem State.imemBytes_mems (s : State) (t e bank a bs) : (s.imemBytes t e bank a bs).mems = s.mems := by
  induction bs generalizing s a with
  | nil => rfl
  | cons b bs ih => grind [State.imemBytes, State.setImemH_mems, State.imemDrop_mems]

@[simp] theorem State.imemSpoil_mems (s : State) (t e bank a n bad) : (s.imemSpoil t e bank a n bad).mems = s.mems := by
  grind [State.imemSpoil, each_mems, State.setImemP_mems]

@[simp] theorem State.enterQueue_mems (s : State) (t a) : (s.enterQueue t a).mems = s.mems := by
  grind [State.enterQueue, State.setMovq_mems, State.setMovd_mems]

@[simp] theorem State.arm_mems (s : State) (t a) : (s.arm t a).mems = s.mems := by
  grind [State.arm, State.enterQueue_mems, State.setMovd_mems]

@[simp] theorem State.movEngineFault_mems (s : State) (t code) : (s.movEngineFault t code).mems = s.mems := by
  grind [State.movEngineFault, State.setEng_mems]

@[simp] theorem State.xferPage_mems (s : State) (t d f) : (s.xferPage t d f).1.mems = s.mems := by
  grind [State.xferPage, State.resolve_mems]

theorem State.scramble_confined {s : State} (t x2 f k) (h : Confined Set.univ m₀ s.mems) : Confined Set.univ m₀ (s.scramble t x2 f k).mems := by
  grind [State.scramble, each_confined, State.setImemH_mems, State.setSpadBytes_confined, State.hostWrite_confined, State.xferPage_mems, State.setHbmBytes_confined, State.setCisBytes_confined, State.setSideBytes_confined]

theorem State.movFault_confined {s : State} (t i f) (h : Confined T m₀ s.mems) : Confined T m₀ (s.movFault t i f).mems := by
  grind [State.movFault, State.setMovq_mems, State.setTr_mems, State.raiseTile_mems, State.trace_mems, State.movEngineFault_mems, State.loseAt_confined]

theorem State.midFault_confined {s : State} (t i x3 from_ f) (h : Confined Set.univ m₀ s.mems) : Confined Set.univ m₀ (s.midFault t i x3 from_ f).mems := by
  grind [State.midFault, each_confined, State.scramble_confined, State.movFault_confined, State.drawn_mems]

theorem State.movPoison_confined {s : State} (t q u addr) (h : Confined T m₀ s.mems) : Confined T m₀ (s.movPoison t q u addr).mems := by
  grind [State.movPoison, State.setMovq_mems, State.errAt_confined]

theorem State.streamPosts_confined {s : State} (t q x3) (h : Confined T m₀ s.mems) : Confined T m₀ (s.streamPosts t q x3).mems := by
  grind [State.streamPosts, each_confined, State.sendPost_mems, State.opPost_confined]

theorem State.streamDone_confined {s : State} (t q x3) (h : Confined T m₀ s.mems) : Confined T m₀ (s.streamDone t q x3).mems := by
  grind [State.streamDone, State.streamPosts_confined, State.trace_mems, State.setMovd_mems, State.enterQueue_mems]

theorem State.completeStreams_confined {s : State} (t q k) (h : Confined T m₀ s.mems) : Confined T m₀ (s.completeStreams t q k).mems := by
  induction k generalizing s with
  | zero => exact h
  | succ k ih => grind [State.completeStreams, State.setMovq_mems, State.streamDone_confined]

theorem State.finishQueue_confined {s : State} (t q) (h : Confined T m₀ s.mems) : Confined T m₀ (s.finishQueue t q).mems := by
  grind [State.finishQueue, State.closeWindow_mems, State.settle_mems, State.completeStreams_confined]

theorem State.startStream_confined {s : State} (y t q) (h : Confined T m₀ s.mems) : Confined T m₀ (s.startStream y t q).mems := by
  grind [State.startStream, State.setMovd_mems, State.setMovq_mems, State.movFault_confined, State.movPoison_confined, State.finishQueue_confined]

@[simp] theorem State.charge_mems (s : State) (t k n) : (s.charge t k n).mems = s.mems := by
  grind [State.charge, State.setBucket_mems]

@[simp] theorem State.sendXfer_mems (s : State) (t q i d f) : (s.sendXfer t q i d f).mems = s.mems := by
  grind [State.sendXfer, each_mems, State.inject_mems]

@[simp] theorem State.enterXfer_mems (s : State) (t q i x4 f) : (s.enterXfer t q i x4 f).mems = s.mems := by
  grind [State.enterXfer, State.setTile_mems, State.sendXfer_mems, State.charge_mems, State.setMovq_mems]

theorem State.xferFault_confined {s : State} (t q x3 f code mask) (h : Confined Set.univ m₀ s.mems) : Confined Set.univ m₀ (s.xferFault t q x3 f code mask).mems := by
  grind [State.xferFault, State.midFault_confined]

@[simp] theorem State.admitFabric_mems (s : State) (t q i x4 f) : (s.admitFabric t q i x4 f).mems = s.mems := by
  grind [State.admitFabric, State.enterXfer_mems, State.setRet_mems, State.setIngress_mems]

theorem State.admitVulor_confined {s : State} (t q i x4 f) (h : Confined Set.univ m₀ s.mems) : Confined Set.univ m₀ (s.admitVulor t q i x4 f).mems := by
  grind [State.admitVulor, State.newTag_mems, State.xferFault_confined, State.sendReq_confined, State.enterXfer_mems, State.mems]

theorem State.admitNext_confined {s : State} (t q x3) (h : Confined Set.univ m₀ s.mems) : Confined Set.univ m₀ (s.admitNext t q x3).mems := by
  grind [State.admitNext, State.admitFabric_mems, State.admitVulor_confined, State.enterXfer_mems, State.xferFault_confined, State.xferPage_mems, State.movPoison_confined, State.askWake_mems, each_confined]

@[simp] theorem State.race_mems (s : State) (t q x3 f) : (s.race t q x3 f).mems = s.mems := by
  grind [State.race, State.drawn_mems, State.setMovq_mems]

theorem State.farWrite_confined {s : State} (t d f bs bad) (h : Confined Set.univ m₀ s.mems) : Confined Set.univ m₀ (s.farWrite t d f bs bad).mems := by
  grind [State.farWrite, each_confined, State.putSpad_confined, State.hostWrite_confined, State.send_mems, State.putCis_confined, State.putSide_confined, State.putHbm_confined]

theorem State.moveData_confined {s : State} (y t x3 f r) (h : Confined Set.univ m₀ s.mems) : Confined Set.univ m₀ (s.moveData y t x3 f r).mems := by
  grind [State.moveData, State.touch_mems, State.drawn_mems, State.farWrite_confined, each_confined, State.inboundLines_mems, State.imemSpoil_mems, State.imemBytes_mems, State.putSpad_confined]

@[simp] theorem State.popDone_mems (s : State) (t q n) : (s.popDone t q n).mems = s.mems := by
  induction n generalizing s with
  | zero => rfl
  | succ n ih => grind [State.popDone, State.setMovq_mems]

theorem State.bringXfer_confined {s : State} (t q) (h : Confined T m₀ s.mems) : Confined T m₀ (s.bringXfer t q).mems := by
  grind [State.bringXfer, State.bring_confined]

@[simp] theorem State.nextWhy_mems (s : State) (t d f x4) : (s.nextWhy t d f x4).1.mems = s.mems := by
  grind [State.nextWhy, State.xferPage_mems]

@[simp] theorem State.refuse_mems (s : State) (t q x3) : (s.refuse t q x3).mems = s.mems := by
  grind [State.refuse, State.setMovq_mems, State.nextWhy_mems]

@[simp] theorem State.movEngineStop_mems (s : State) (t code) : (s.movEngineStop t code).mems = s.mems := by
  grind [State.movEngineStop, State.setEng_mems]

@[simp] theorem State.sendPrg_mems (s : State) (w) : (s.sendPrg w).mems = s.mems := by
  unfold State.sendPrg
  split
  · rfl
  · dsimp only
    refine (each_mems _ _ (fun _ _ => ?_) _).trans ?_ <;> rfl

@[simp] theorem State.stopRecord_mems (s : State) (t q) : (s.stopRecord t q).mems = s.mems := by
  unfold State.stopRecord
  dsimp only
  repeat' split
  all_goals simp

@[simp] theorem State.prgAnswer_mems (s : State) (fn i ok) : (s.prgAnswer fn i ok).mems = s.mems := by
  grind [State.prgAnswer, State.raiseTile_mems, State.setMovq_mems, State.sendPrg_mems, State.mems]

@[simp] theorem State.movEngineGo_mems (s : State) (t) : (s.movEngineGo t).mems = s.mems := by
  grind [State.movEngineGo, State.setEng_mems]

@[simp] theorem State.movResume_mems (s : State) (t q) : (s.movResume t q).mems = s.mems := by
  grind [State.movResume, State.setMovq_mems, State.movEngineGo_mems, State.trace_mems]

theorem State.movStopFault_confined {s : State} (t q code) (h : Confined Set.univ m₀ s.mems) : Confined Set.univ m₀ (s.movStopFault t q code).mems := by
  grind [State.movStopFault, State.movFault_confined, State.midFault_confined]

theorem State.killMover_confined {s : State} (t) (h : Confined T m₀ s.mems) : Confined T m₀ (s.killMover t).mems := by
  grind [State.killMover, State.setTile_mems, each_confined, State.setMovq_mems, State.finishQueue_confined, State.popDone_mems, State.setMovd_mems]

@[simp] theorem State.queueCfg_mems (s : State) (t q w) : (s.queueCfg t q w).mems = s.mems := by
  grind [State.queueCfg, State.setMovq_mems, State.setTr_mems]

/-! ## Operations of Machine/Clock -/

@[simp] theorem State.runClock_mems (s : State) (d k) : (s.runClock d k).mems = s.mems := by
  grind [State.runClock, State.setDom_mems]

@[simp] theorem State.refill_mems (s : State) (b k) : (s.refill b k).mems = s.mems := by
  grind [State.refill, State.setBucket_mems]

@[simp] theorem State.countWait_mems (s : State) (i k) : (s.countWait i k).mems = s.mems := by
  grind [State.countWait, State.setEng_mems, State.tcnt_mems]

@[simp] theorem State.fillBuf_mems (s : State) (e) : (s.fillBuf e).mems = s.mems := by
  grind [State.fillBuf, State.setRset_mems]

@[simp] theorem State.landWait_mems (s : State) (u k) : (s.landWait u k).mems = s.mems := by
  grind [State.landWait, State.incReg_mems]

theorem State.furrowNoise_confined {s : State} (e) (h : Confined Set.univ m₀ s.mems) : Confined Set.univ m₀ (s.furrowNoise e).mems := by
  grind [State.furrowNoise, State.markSpad_confined, State.setRset_mems, State.linkCount_confined]

theorem State.haloNoise_confined {s : State} (e) (h : Confined Set.univ m₀ s.mems) : Confined Set.univ m₀ (s.haloNoise e).mems := by
  grind [State.haloNoise, State.linkCount_confined, State.markSpad_confined]

theorem State.furrowErrs_confined {s : State} (h : Confined Set.univ m₀ s.mems) : Confined Set.univ m₀ s.furrowErrs.mems := by
  grind [State.furrowErrs, State.drawn_mems, each_confined, State.furrowNoise_confined, State.haloNoise_confined]

theorem State.elapse_confined {s : State} (k) (h : Confined Set.univ m₀ s.mems) : Confined Set.univ m₀ (s.elapse k).mems := by
  unfold State.elapse
  refine each_confined _ _ (fun _ _ hs => by rwa [State.setCopy_mems]) ?_
  refine each_confined _ _ (fun _ _ hs => by rwa [State.runClock_mems]) ?_
  refine State.furrowErrs_confined (State.canalRun_confined _ ?_)
  refine each_confined _ _ (fun _ _ hs => by rwa [State.landWait_mems]) ?_
  refine each_confined _ _ (fun _ _ hs => by rwa [State.fillBuf_mems]) ?_
  refine each_confined _ _ (fun _ _ hs => by rwa [State.countWait_mems]) ?_
  exact each_confined _ _ (fun _ _ hs => by rwa [State.refill_mems]) h

theorem State.reach_confined {s : State} (x1) (h : Confined Set.univ m₀ s.mems) : Confined Set.univ m₀ (s.reach x1).mems := by
  grind [State.reach, State.elapse_confined]

/-! ## Operations of Machine/VxOps -/

theorem State.setPval_confined {s : State} {t : TileId} {p : Nat} (v : W32) (ht : t ∈ T) (hp : p < 8) (h : Confined T m₀ s.mems) :
    Confined T m₀ (s.setPval t p v).mems := by
  grind [State.setPval, State.setPregW_confined]

theorem State.putLanes_confined {s : State} {t : TileId} {r : Nat} (mask : W32) (out : List Lane) (ht : t ∈ T) (hr : r < 32)
    (h : Confined T m₀ s.mems) : Confined T m₀ (s.putLanes t r mask out).mems := by
  unfold State.putLanes
  rw [State.numStat_mems]
  refine each_confined _ _ (fun s x hs => ?_) h
  split
  next hb =>
    have hl := BitVec.lt_of_getLsbD hb
    exact State.markLane_confined _ ht hr hl (State.setVregL_confined _ ht hr hl hs)
  next => exact hs

section
variable {cur : State} {t : TileId} (pre : State) (f : VxV)

theorem State.vxElem_confined (pk n g) (ht : t ∈ T) (h : Confined T m₀ cur.mems) : Confined T m₀ (State.vxElem pre cur t f pk n g).mems :=
  State.putLanes_confined _ _ ht f.vd.isLt h

theorem State.vxFp_confined (n g) (ht : t ∈ T) (h : Confined T m₀ cur.mems) : Confined T m₀ (State.vxFp pre cur t f n g).mems :=
  State.vxElem_confined _ _ _ _ _ ht h

theorem State.vxInt_confined (g) (ht : t ∈ T) (h : Confined T m₀ cur.mems) : Confined T m₀ (State.vxInt pre cur t f g).mems :=
  State.vxElem_confined _ _ _ _ _ ht h

theorem State.vxMove_confined (g) (ht : t ∈ T) (h : Confined T m₀ cur.mems) : Confined T m₀ (State.vxMove pre cur t f g).mems :=
  State.putLanes_confined _ _ ht f.vd.isLt h

theorem State.vxCmpOp_confined (ht : t ∈ T) (h : Confined T m₀ cur.mems) : Confined T m₀ (State.vxCmpOp pre cur t f).mems := by
  unfold State.vxCmpOp
  rw [State.numStat_mems]
  exact State.setPval_confined _ ht (Nat.mod_lt _ (by decide)) h

theorem State.vxPlogOp_confined (ht : t ∈ T) (h : Confined T m₀ cur.mems) : Confined T m₀ (State.vxPlogOp pre cur t f).mems :=
  State.setPval_confined _ ht (Nat.mod_lt _ (by decide)) h

theorem State.vxTu_confined (n g) (ht : t ∈ T) (h : Confined T m₀ cur.mems) : Confined T m₀ (State.vxTu pre cur t f n g).mems := by
  unfold State.vxTu
  rw [State.drawn_mems]
  exact State.putLanes_confined _ _ ht f.vd.isLt h

theorem State.vxSumOp_confined (acc) (ht : t ∈ T) (h : Confined T m₀ cur.mems) : Confined T m₀ (State.vxSumOp pre cur t f acc).mems := by
  have hd := f.vd.isLt
  grind [State.vxSumOp, State.putLanes_confined]

theorem State.vxExtOp_confined (mx) (ht : t ∈ T) (h : Confined T m₀ cur.mems) : Confined T m₀ (State.vxExtOp pre cur t f mx).mems :=
  State.putLanes_confined _ _ ht f.vd.isLt h

theorem State.vxScanOp_confined (ht : t ∈ T) (h : Confined T m₀ cur.mems) : Confined T m₀ (State.vxScanOp pre cur t f).mems :=
  State.putLanes_confined _ _ ht f.vd.isLt h

end

/-- Registers that a conversion writes lie in the file. -/
theorem cvt_span_le {f : VxC} (h : cvtLegal f = true) : f.vd.toNat + (VxCspan f).2 ≤ 32 := by
  simp only [cvtLegal, Bool.and_eq_true, decide_eq_true_eq] at h
  obtain ⟨⟨⟨⟨⟨⟨hs, -⟩, -⟩, -⟩, -⟩, hd⟩, -⟩ := h
  have hlt := f.vd.isLt
  have hw : ∀ a b : Fin 16, cvtW a ≠ 0 → let n := if cvtW a < cvtW b then cvtW b / cvtW a else 1; n = 1 ∨ n = 2 ∨ n = 4 := by decide
  have hn : (VxCspan f).2 = 1 ∨ (VxCspan f).2 = 2 ∨ (VxCspan f).2 = 4 := hw f.src.toFin f.dst.toFin hs
  rcases hn with hn | hn | hn <;> rw [hn] at hd ⊢ <;> omega

theorem State.vxCvtOp_confined {cur : State} {t : TileId} (pre : State) (f : VxC) (hf : cvtLegal f = true) (ht : t ∈ T)
    (h : Confined T m₀ cur.mems) : Confined T m₀ (State.vxCvtOp pre cur t f).mems := by
  have hd := cvt_span_le hf
  unfold State.vxCvtOp
  refine each_confined_mem _ _ (fun s k hk hs => State.putLanes_confined _ _ ht ?_ hs) ?_
  · have : k < (VxCspan f).2 := List.mem_range.1 hk
    omega
  · rw [State.numStat_mems]
    generalize (if rndOf f.nc = Rnd.sr then List.length _ else 0) = need
    by_cases hn : need = 0
    · rwa [if_pos hn]
    · rwa [if_neg hn]

theorem State.vxLoad_confined {cur : State} {t : TileId} (pre : State) (f : VxM) (n lo) (ht : t ∈ T) (h : Confined T m₀ cur.mems) :
    Confined T m₀ (State.vxLoad pre cur t f n lo).mems := by
  unfold State.vxLoad
  split
  · exact h
  · refine each_confined _ _ (fun s x hs => ?_) h
    dsimp only
    split
    next hb =>
      have hl := BitVec.lt_of_getLsbD hb
      exact State.markLane_confined _ ht f.v.isLt hl (State.setVregL_confined _ ht f.v.isLt hl hs)
    next => exact hs

theorem State.storeLine_local {cur : State} {t : TileId} {l : Nat} {ws : List (Option (W32 × Bool))} (ht : t ∈ T) (hl : l < 4096)
    (hw : ws.length ≤ 16) (h : Confined T m₀ cur.mems) : Confined T m₀ (cur.storeLine t l ws).mems := by
  unfold State.storeLine
  have hs : Confined T m₀ (each cur ws.zipIdx fun s x => match x.1 with
      | none => s
      | some w => s.setSpadBytes t (64 * l + 4 * x.2) (natLe 4 w.1.toNat)).mems := by
    refine each_confined_mem _ _ (fun s x hx hs => ?_) h
    have hi := (List.mem_zipIdx' hx).1
    split
    · exact hs
    · exact State.setSpadBytes_local ht (by rw [natLe_length]; omega) hs
  grind [State.markSpad_local]

/-- A consistent buffer lies in the scratchpad. -/
theorem State.cbuf_le {s : State} {t : TileId} {cb base len : Nat} (h : s.cbuf t cb = some (base, len)) : 1 ≤ len ∧ base + len ≤ 4096 := by
  simp only [State.cbuf, Option.ite_none_right_eq_some, Option.some.injEq, Prod.mk.injEq] at h
  omega

/-- The lines of an access lie in the scratchpad. -/
theorem State.vxLines_lt {s : State} {t : TileId} {f : VxM} {n ch : Nat} {ls : List Nat} (h : s.vxLines t f n ch = .ok ls) :
    ∀ l ∈ ls, l < 4096 := by
  unfold State.vxLines at h
  repeat' split at h
  all_goals simp only [Except.ok.injEq, reduceCtorEq] at h
  all_goals subst h
  all_goals simp only [List.mem_map, List.mem_range]
  · rintro _ ⟨i, hi, rfl⟩
    omega
  next hb =>
    obtain ⟨h1, h2⟩ := State.cbuf_le hb
    rintro _ ⟨i, -, rfl⟩
    exact lt_of_lt_of_le (Nat.add_lt_add_left (Nat.mod_lt _ h1) _) h2

theorem State.vxStore_confined {cur : State} {t : TileId} (pre : State) (f : VxM) (n lo) (ht : t ∈ T) (h : Confined T m₀ cur.mems) :
    Confined T m₀ (State.vxStore pre cur t f n lo).mems := by
  unfold State.vxStore
  split
  · exact h
  next ls hls =>
    refine each_confined_mem _ _ (fun s x hx hs => State.storeLine_local ht ?_ (by simp) hs) h
    exact State.vxLines_lt hls _ (List.fst_mem_of_mem_zipIdx hx)

theorem State.vxGather_confined {cur : State} {t : TileId} (pre : State) (f : VxG) (ht : t ∈ T) (h : Confined T m₀ cur.mems) :
    Confined T m₀ (State.vxGather pre cur t f).mems := by
  refine each_confined_mem _ _ (fun s i hi hs => ?_) h
  have hl : i < 32 := List.mem_range.1 (List.mem_of_mem_filter hi)
  exact State.markLane_confined _ ht f.v.isLt hl (State.setVregL_confined _ ht f.v.isLt hl hs)

theorem State.vxScatter_confined {cur : State} {t : TileId} (pre : State) (f : VxG) (hc : pre.vxGCheck t f = .ok) (ht : t ∈ T)
    (h : Confined T m₀ cur.mems) : Confined T m₀ (State.vxScatter pre cur t f).mems := by
  have hw : ∀ i ∈ pre.vxTaking t f, pre.vxWord t f i ≤ 65535 := by
    unfold State.vxGCheck at hc
    split at hc
    · simp [vxFault] at hc
    next hn => simpa using hn
  refine each_confined_mem _ _ (fun s i hi hs => State.storeLine_local ht ?_ (by simp) hs) h
  have := hw i hi
  omega

theorem State.tapArgs_lt {s : State} {t : TileId} {f : VxV} {base r head n : Nat} (h : s.tapArgs t f = .ok (base, r, head, n)) :
    base + 2 * r ≤ 4096 ∧ head < r := by
  unfold State.tapArgs State.cbuf at h
  grind

theorem State.vxTapOp_confined {cur : State} {t : TileId} (pre : State) (f : VxV) (ht : t ∈ T) (h : Confined T m₀ cur.mems) :
    Confined T m₀ (State.vxTapOp pre cur t f).mems := by
  unfold State.vxTapOp
  split
  · exact h
  next base r head n ha =>
    obtain ⟨hr, hh⟩ := State.tapArgs_lt ha
    dsimp only
    rw [State.setTr_mems]
    refine State.putLanes_confined _ _ ht f.vd.isLt ?_
    refine State.storeLine_local ht (by omega) (by simp [State.vls]) (State.storeLine_local ht (by omega) (by simp) h)

theorem State.putMat_confined {s : State} {t : TileId} {d n : Nat} (k g) (ht : t ∈ T) (hd : d + n ≤ 32) (h : Confined T m₀ s.mems) :
    Confined T m₀ (s.putMat t d n k g).mems := by
  refine each_confined_mem _ _ (fun s r hr hs => State.putLanes_confined _ _ ht ?_ hs) h
  have := List.mem_range.1 hr
  omega

theorem State.vxMmOp_confined {cur : State} {t : TileId} (pre : State) (f : VxV) (ta tb) (hf : mmLegal f = true) (ht : t ∈ T)
    (h : Confined T m₀ cur.mems) : Confined T m₀ (State.vxMmOp pre cur t f ta tb).mems := by
  simp only [mmLegal, Bool.and_eq_true, decide_eq_true_eq] at hf
  obtain ⟨⟨⟨⟨⟨⟨-, hd⟩, -⟩, -⟩, -⟩, -⟩, -⟩ := hf
  unfold State.vxMmOp
  rw [State.drawn_mems]
  exact State.putMat_confined _ _ ht hd h

theorem State.vxCholOp_confined {cur : State} {t : TileId} (pre : State) (f : VxV) (hf : cholLegal f = true) (ht : t ∈ T)
    (h : Confined T m₀ cur.mems) : Confined T m₀ (State.vxCholOp pre cur t f).mems := by
  simp only [cholLegal, Bool.and_eq_true, decide_eq_true_eq] at hf
  unfold State.vxCholOp
  rw [State.drawn_mems]
  exact State.putMat_confined _ _ ht hf.2 h

theorem State.vxChsvOp_confined {cur : State} {t : TileId} (pre : State) (f : VxV) (ht : t ∈ T) (h : Confined T m₀ cur.mems) :
    Confined T m₀ (State.vxChsvOp pre cur t f).mems := by
  unfold State.vxChsvOp
  rw [State.drawn_mems]
  exact State.putLanes_confined _ _ ht f.vd.isLt h

/-! ## Operations of Machine/WeirOps -/

@[simp] theorem State.weirStopAt_mems (s : State) (t reason lpn c entry) : (s.weirStopAt t reason lpn c entry).mems = s.mems := by
  grind [State.weirStopAt, State.setEng_mems, State.setTile_mems, State.lightP_mems, State.incReg_mems, State.raiseTile_mems, State.trace_mems]

@[simp] theorem State.weirResume_mems (s : State) (t) : (s.weirResume t).mems = s.mems := by
  grind [State.weirResume, State.setTile_mems, State.trace_mems, State.setEng_mems]

theorem State.weirStopFault_confined {s : State} (t code) (h : Confined T m₀ s.mems) : Confined T m₀ (s.weirStopFault t code).mems := by
  grind [State.weirStopFault, State.setTile_mems, State.engFault_confined]

@[simp] theorem State.killWeir_mems (s : State) (t) : (s.killWeir t).mems = s.mems := by
  grind [State.killWeir, State.setTile_mems]

@[simp] theorem State.weirHold_mems (s : State) (t d) : (s.weirHold t d).mems = s.mems := by
  grind [State.weirHold, State.setEng_mems, State.askWake_mems]

@[simp] theorem State.weirPage_mems (s : State) (p t lpn entry) : (s.weirPage p t lpn entry).1.mems = s.mems := by
  grind [State.weirPage, State.resolve_mems]

/-- What a verdict that stops a word does in its place writes no tile's memory. -/
def Verdict.Keeps (v : Verdict) : Prop :=
  ∀ act, v = .stop act → ∀ (T : Set TileId) (m₀ : Mems) (s : State), Confined T m₀ s.mems → Confined T m₀ (act s).mems

@[simp] theorem Verdict.keeps_ok : Verdict.ok.Keeps := fun _ h => nomatch h
@[simp] theorem Verdict.keeps_wait : Verdict.wait.Keeps := fun _ h => nomatch h
@[simp] theorem Verdict.keeps_fault (c) : (Verdict.fault c).Keeps := fun _ h => nomatch h
@[simp] theorem Verdict.keeps_poison (u a) : (Verdict.poison u a).Keeps := fun _ h => nomatch h

theorem Verdict.keeps_stop {act : State → State}
    (hact : ∀ (T : Set TileId) (m₀ : Mems) (s : State), Confined T m₀ s.mems → Confined T m₀ (act s).mems) :
    (Verdict.stop act).Keeps := by
  rintro _ ⟨⟩
  exact hact

theorem State.weirPage_keeps {s : State} {p t lpn entry v} (h : (s.weirPage p t lpn entry).2 = .error v) : v.Keeps := by
  unfold State.weirPage at h
  dsimp only at h
  split at h <;> cases h
  · exact Verdict.keeps_fault _
  · exact Verdict.keeps_stop fun _ _ _ hs => by rwa [State.weirStopAt_mems]
  · exact Verdict.keeps_poison _ _
  · exact Verdict.keeps_stop fun _ _ _ hs => by rwa [State.weirHold_mems]

@[simp] theorem State.weirList_mems (s : State) (t p f) : (s.weirList t p f).1.mems = s.mems := by
  grind [State.weirList, State.mapHeader_mems]

theorem State.weirList_keeps {s : State} {t p f v} (h : (s.weirList t p f).2 = .error v) : v.Keeps := by
  unfold State.weirList at h
  dsimp only at h
  repeat' split at h
  all_goals cases h
  · exact Verdict.keeps_poison _ _
  · exact Verdict.keeps_stop fun _ _ _ hs => by rwa [State.weirHold_mems]
  all_goals exact Verdict.keeps_fault _

@[simp] theorem State.weirPlan_mems (s : State) (t k f0) : (s.weirPlan t k f0).1.mems = s.mems := by
  grind [State.weirPlan, State.weirPage_mems, State.weirList_mems]

theorem State.weirPlan_keeps {s : State} {t k f0 v} (h : (s.weirPlan t k f0).2 = .error v) : v.Keeps := by
  grind [State.weirPlan, State.weirPage_keeps, State.weirList_keeps, Verdict.keeps_fault, Verdict.keeps_wait]

@[simp] theorem State.weirBegin_mems (s : State) (t o) : (s.weirBegin t o).mems = s.mems := by
  grind [State.weirBegin, State.setTile_mems, State.setEng_mems]

@[simp] theorem State.weirSend_mems (s : State) (t o) : (s.weirSend t o).mems = s.mems := by
  grind [State.weirSend, State.setTile_mems, State.injectCut_mems]

@[simp] theorem State.weirIssue_mems (cur : State) (t k f) : (cur.weirIssue t k f).mems = cur.mems := by
  grind [State.weirIssue, State.setEng_mems, State.setTile_mems, State.weirPlan_mems, State.weirSend_mems, State.charge_mems]

theorem State.weirNops_confined {s : State} (t n) (h : Confined T m₀ s.mems) : Confined T m₀ (s.weirNops t n).mems := by
  induction n generalizing s with
  | zero => exact h
  | succ n ih => grind [State.weirNops, State.setTile_mems, State.opPost_confined]

theorem State.weirNopIssue_confined {cur : State} (t sigEn sem) (h : Confined T m₀ cur.mems) : Confined T m₀ (cur.weirNopIssue t sigEn sem).mems := by
  grind [State.weirNopIssue, State.weirNops_confined, State.setEng_mems, State.setTile_mems]

theorem State.putLineWords_confined {cur : State} (t line n ws) (h : Confined Set.univ m₀ cur.mems) : Confined Set.univ m₀ (cur.putLineWords t line n ws).mems := by
  grind [State.putLineWords, each_confined, State.putSpad_confined]

theorem State.doScore_confined {s : State} (y t o) (h : Confined Set.univ m₀ s.mems) : Confined Set.univ m₀ (s.doScore y t o).mems := by
  grind [State.doScore, each_confined, State.numStat_mems, State.putLineWords_confined]

theorem State.doAttend_confined {s : State} (y t o) (h : Confined Set.univ m₀ s.mems) : Confined Set.univ m₀ (s.doAttend y t o).mems := by
  grind [State.doAttend, each_confined, State.numStat_mems, State.putLineWords_confined]

theorem State.doTopk_confined {s : State} (y t o) (h : Confined Set.univ m₀ s.mems) : Confined Set.univ m₀ (s.doTopk y t o).mems := by
  grind [State.doTopk, each_confined, State.numStat_mems, State.putSpad_confined]

theorem State.appendRow_confined {s : State} (y v t o j) (h : Confined T m₀ s.mems) : Confined T m₀ (s.appendRow y v t o j).mems := by
  grind [State.appendRow, State.putCis_confined, State.putSide_confined, State.numStat_mems, State.setTile_mems]

theorem State.doReuse_confined {s : State} (y v t o) (h : Confined Set.univ m₀ s.mems) : Confined Set.univ m₀ (s.doReuse y v t o).mems := by
  grind [State.doReuse, each_confined, State.putCis_confined, State.putSpad_confined]

theorem State.gatherRow_confined {s : State} (t o j src) (h : Confined Set.univ m₀ s.mems) :
    Confined Set.univ m₀ (s.gatherRow t o j src).mems := by
  unfold State.gatherRow
  cases src with
  | none =>
    dsimp only
    split
    · exact State.putSpad_confined _ _ _ _ (State.putSpad_confined _ _ _ _ h)
    · exact State.putSpad_confined _ _ _ _ h
  | some g =>
    dsimp only
    split
    · split
      · exact State.putSpad_confined _ _ _ _ (State.putSpad_confined _ _ _ _ h)
      · exact State.putSpad_confined _ _ _ _ h
    · rw [State.numStat_mems]
      exact State.putSpad_confined _ _ _ _ h

theorem State.weirLinks_confined {s : State} (t o) (h : Confined Set.univ m₀ s.mems) : Confined Set.univ m₀ (s.weirLinks t o).mems := by
  grind [State.weirLinks, State.markSpad_confined]

theorem State.weirRun_confined {s : State} (y v t o) (h : Confined Set.univ m₀ s.mems) : Confined Set.univ m₀ (s.weirRun y v t o).mems := by
  grind [State.weirRun, State.drawn_mems, State.doScore_confined, State.doAttend_confined, State.doTopk_confined, each_confined, State.appendRow_confined, State.doReuse_confined, State.gatherRow_confined]

@[simp] theorem State.weirWake_mems (s : State) (o) : (s.weirWake o).mems = s.mems := by
  grind [State.weirWake, State.askWake_mems]

@[simp] theorem State.weirTouch_mems (s : State) (o) : (s.weirTouch o).mems = s.mems := by
  grind [State.weirTouch, State.touch_mems]

theorem State.bringWeir_confined {s : State} (v) (h : Confined T m₀ s.mems) : Confined T m₀ (s.bringWeir v).mems := by
  grind [State.bringWeir, State.bring_confined]

theorem State.weirAnswer_confined {s : State} (v t o) (h : Confined Set.univ m₀ s.mems) : Confined Set.univ m₀ (s.weirAnswer v t o).mems := by
  grind [State.weirAnswer, State.injectCut_mems, State.bring_confined, State.markSpad_confined, State.drawn_mems, State.linkCount_confined]

theorem State.weirAccept_confined {s : State} (v) (h : Confined T m₀ s.mems) : Confined T m₀ (s.weirAccept v).mems := by
  grind [State.weirAccept, State.bringWeir_confined, State.setTile_mems, State.weirWake_mems, State.weirTouch_mems]

theorem State.weirFinish_confined {s : State} (v t o) (h : Confined T m₀ s.mems) : Confined T m₀ (s.weirFinish v t o).mems := by
  grind [State.weirFinish, State.setTile_mems, State.tcnt_mems, State.trace_mems, State.opPost_confined, State.settle_mems, State.weirNops_confined]

theorem State.gatherScramble_confined {s : State} (t o j) (h : Confined Set.univ m₀ s.mems) : Confined Set.univ m₀ (s.gatherScramble t o j).mems := by
  grind [State.gatherScramble, each_confined, State.setSpadBytes_confined, State.drawn_mems]

theorem State.gatherPoison_confined {s : State} (t o j) (h : Confined Set.univ m₀ s.mems) : Confined Set.univ m₀ (s.gatherPoison t o j).mems := by
  grind [State.gatherPoison, State.putSpad_confined]

theorem State.gatherFault_confined {s : State} (v t o code) (h : Confined Set.univ m₀ s.mems) : Confined Set.univ m₀ (s.gatherFault v t o code).mems := by
  grind [State.gatherFault, State.gatherScramble_confined, State.setTile_mems, State.engFault_confined]

@[simp] theorem State.nextEntry_mems (s : State) (t o) : (s.nextEntry t o).mems = s.mems := by
  grind [State.nextEntry, State.inboundLines_mems, State.setTile_mems]

theorem State.entryRow_confined {s : State} (t o g row) (h : Confined Set.univ m₀ s.mems) : Confined Set.univ m₀ (s.entryRow t o g row).mems := by
  grind [State.entryRow, State.charge_mems, State.nextEntry_mems, State.touch_mems, State.gatherRow_confined]

theorem State.entryTurn_confined {s : State} (t o g row) (h : Confined Set.univ m₀ s.mems) : Confined Set.univ m₀ (s.entryTurn t o g row).mems := by
  grind [State.entryTurn, State.entryRow_confined, State.setTile_mems]

theorem State.entryResolve_confined {s : State} (v t o p row lpn) (h : Confined Set.univ m₀ s.mems) :
    Confined Set.univ m₀ (s.entryResolve v t o p row lpn).mems := by
  unfold State.entryResolve
  split
  · rwa [State.askWake_mems]
  have hpage := State.weirPage_mems s p t (BitVec.ofNat 24 lpn) o.entry
  have hkeeps : ∀ v, (s.weirPage p t (BitVec.ofNat 24 lpn) o.entry).2 = .error v → v.Keeps := fun _ => State.weirPage_keeps
  generalize s.weirPage p t (BitVec.ofNat 24 lpn) o.entry = x at hpage hkeeps
  obtain ⟨u, x⟩ := x
  have hu : Confined Set.univ m₀ u.mems := by rwa [← hpage] at h
  cases x with
  | error w =>
    cases w with
    | stop act => exact hkeeps _ rfl act rfl _ _ _ (by rwa [State.setTile_mems])
    | fault c => exact State.gatherFault_confined _ _ _ _ hu
    | poison e a => exact State.poisonStop_confined _ _ _ _ _ (by simpa using hu)
    | ok => exact hu
    | wait => exact hu
  | ok g =>
    dsimp only
    split
    · exact State.gatherFault_confined _ _ _ _ hu
    split
    · exact State.gatherFault_confined _ _ _ _ hu
    split
    · exact State.gatherFault_confined _ _ _ _ hu
    split
    · exact hu
    split
    · rwa [State.askWake_mems]
    split
    · exact State.entryRow_confined _ _ _ _ hu
    · exact State.entryTurn_confined _ _ _ _ (by simpa using hu)

theorem State.gatherEntry_confined {s : State} (y v) (h : Confined Set.univ m₀ s.mems) : Confined Set.univ m₀ (s.gatherEntry y v).mems := by
  grind [State.gatherEntry, State.entryTurn_confined, State.drawn_mems, State.nextEntry_mems, State.gatherPoison_confined, State.gatherRow_confined, State.gatherFault_confined, State.entryResolve_confined]

/-! ## Operations of Machine/Race -/

@[simp] theorem State.vxeAccess_mems (s : State) (t) : (s.vxeAccess t).mems = s.mems := by
  grind [State.vxeAccess, State.overlapAt_mems]

theorem State.finishXfer_confined {s : State} (t q x3 f r) (h : Confined Set.univ m₀ s.mems) : Confined Set.univ m₀ (s.finishXfer t q x3 f r).mems := by
  grind [State.finishXfer, State.tcnt_mems, State.moveData_confined, State.setMovq_mems, State.popDone_mems, State.race_mems]

theorem State.earlyXfers_confined {s : State} (t q) (h : Confined Set.univ m₀ s.mems) : Confined Set.univ m₀ (s.earlyXfers t q).mems := by
  grind [State.earlyXfers, State.drawn_mems, each_confined, State.finishXfer_confined]

theorem State.retireXfer_confined {s : State} (t q x3 f r) (h : Confined Set.univ m₀ s.mems) : Confined Set.univ m₀ (s.retireXfer t q x3 f r).mems := by
  grind [State.retireXfer, State.finishQueue_confined, State.finishXfer_confined, State.earlyXfers_confined]

theorem State.retire_confined {s : State} (t q r) (h : Confined Set.univ m₀ s.mems) : Confined Set.univ m₀ (s.retire t q r).mems := by
  grind [State.retire, State.bringXfer_confined, each_confined, State.askWake_mems, State.xferFault_confined, State.retireXfer_confined]

theorem State.weirComplete_confined {s : State} (v) (h : Confined Set.univ m₀ s.mems) : Confined Set.univ m₀ (s.weirComplete v).mems := by
  grind [State.weirComplete, State.weirWake_mems, State.weirLinks_confined, State.weirAnswer_confined, State.inboundLines_mems, State.weirTouch_mems, State.weirRun_confined, State.weirFinish_confined]

theorem State.gatherNext_confined {s : State} (v) (h : Confined Set.univ m₀ s.mems) : Confined Set.univ m₀ (s.gatherNext v).mems := by
  grind [State.gatherNext, State.gatherEntry_confined]

/-! ## Operations of Machine/StopOps -/

@[simp] theorem State.haltEngine_mems (s : State) (t e w) : (s.haltEngine t e w).mems = s.mems := by
  grind [State.haltEngine, State.setEng_mems, State.trace_mems, State.mems]

@[simp] theorem State.unhalt_mems (s : State) (t e step) : (s.unhalt t e step).mems = s.mems := by
  grind [State.unhalt, State.setEng_mems]

@[simp] theorem State.beginStop_mems (s : State) (device p origin port tile) : (s.beginStop device p origin port tile).mems = s.mems := by
  grind [State.beginStop, State.add64_mems, each_mems, State.setCore_mems, State.enterDebug_mems, State.mems]

@[simp] theorem State.localStop_mems (s : State) (t origin) : (s.localStop t origin).mems = s.mems := by
  grind [State.localStop, State.beginStop_mems]

@[simp] theorem State.hitBrk_mems (s : State) (t e) : (s.hitBrk t e).mems = s.mems := by
  grind [State.hitBrk, State.haltEngine_mems, State.setTr_mems, State.localStop_mems]

/-! ## Operations of Machine/Slots -/

@[simp] theorem State.drIssue_mems (pre cur : State) (t f) : (State.drIssue pre cur t f).mems = cur.mems := by
  unfold State.drIssue
  split <;> simp

/-! ## Operations of Machine/Issue -/

@[simp] theorem State.consume_mems (s : State) (t l) : (s.consume t l).mems = s.mems := by
  grind [State.consume, each_mems, State.setSem_mems]

@[simp] theorem State.waitRecords_mems (s : State) (t e waited l) : (s.waitRecords t e waited l).mems = s.mems := by
  unfold State.waitRecords
  split <;> grind [each_mems, State.trace_mems]

@[simp] theorem State.waitOn_mems (s : State) (t e l unit) : (s.waitOn t e l unit).mems = s.mems := by
  grind [State.waitOn, State.setEng_mems]

@[simp] theorem State.advance_mems (cur : State) (pre t e q w ops) : (cur.advance pre t e q w ops).mems = cur.mems := by
  grind [State.advance, State.setEng_mems]

/-! ## Slots -/

/-- A slot that keeps to its tile: what it does in place of an issue writes no tile's memory, and what it does where it is legal and its checks pass
writes memories of tile `t` alone. -/
structure SlotOp.Local (t : TileId) (o : SlotOp) : Prop where
  stop : ∀ y, (o.check y).Keeps
  apply : ∀ (T : Set TileId) (m₀ : Mems) (y s : State), t ∈ T → o.legal = true → o.check y = .ok → Confined T m₀ s.mems →
    Confined T m₀ (o.apply y s).mems

section
variable {t : TileId} {e : EngId}

/-- A slot that leaves the memories is local to any tile. -/
theorem SlotOp.local_of_mems {o : SlotOp} (hstop : ∀ y, (o.check y).Keeps) (hmems : ∀ y s, (o.apply y s).mems = s.mems) : o.Local t :=
  ⟨hstop, fun T m₀ y s _ _ _ h => by rwa [hmems]⟩

theorem SlotOp.Local.need0 {o : SlotOp} (h : o.Local t) (l : List Nat) : (o.need0 l).Local t :=
  ⟨h.stop, fun T m₀ y s ht hlegal => h.apply T m₀ y s ht (Bool.and_eq_true_iff.1 hlegal).1⟩

theorem SlotOp.legal_counts (o : SlotOp) (n k) : (o.counts t n k).legal = o.legal :=
  match o with | { legal := l, .. } => (rfl : l = l)

theorem SlotOp.check_counts (o : SlotOp) (n k) : (o.counts t n k).check = o.check :=
  match o with | { check := c, .. } => (rfl : c = c)

theorem SlotOp.apply_counts (o : SlotOp) (n k y s) : (o.counts t n k).apply y s = (o.apply y s).tcnt t n (k y) := rfl

theorem SlotOp.Local.counts {o : SlotOp} (h : o.Local t) (n : Nat) (k : State → Nat) : (o.counts t n k).Local t where
  stop := by
    rw [SlotOp.check_counts]
    exact h.stop
  apply := by
    intro T m₀ y s
    rw [SlotOp.legal_counts, SlotOp.check_counts, SlotOp.apply_counts, State.tcnt_mems]
    exact h.apply T m₀ y s

theorem badSlot_local : badSlot.Local t := SlotOp.local_of_mems (fun _ => Verdict.keeps_ok) fun _ _ => rfl

theorem emptySlot_local : SlotOp.Local t {} := SlotOp.local_of_mems (fun _ => Verdict.keeps_ok) fun _ _ => rfl

/-! ### Scalar slots -/

theorem slotAlu_local (d a b f) : (slotAlu t e d a b f).Local t :=
  SlotOp.local_of_mems (fun _ => Verdict.keeps_ok) fun _ _ => State.scR_mems ..

theorem slotImm_local (d a f) : (slotImm t e d a f).Local t :=
  SlotOp.local_of_mems (fun _ => Verdict.keeps_ok) fun _ _ => State.scR_mems ..

theorem slotLi_local (d imm) : (slotLi t e d imm).Local t :=
  SlotOp.local_of_mems (fun _ => Verdict.keeps_ok) fun _ _ => State.scR_mems ..

theorem slotLih_local (d imm) : (slotLih t e d imm).Local t :=
  SlotOp.local_of_mems (fun _ => Verdict.keeps_ok) fun _ _ => State.scR_mems ..

theorem State.lwCheck_keeps (s : State) (t e a imm) : (s.lwCheck t e a imm).Keeps := by
  grind [State.lwCheck, Verdict.keeps_ok, Verdict.keeps_wait, Verdict.keeps_fault, Verdict.keeps_poison]

theorem slotLw_local (d a imm) : (slotLw t e d a imm).Local t :=
  SlotOp.local_of_mems (fun y => y.lwCheck_keeps t e a imm) fun y s => by
    dsimp only [slotLw]
    split
    · exact State.scR_mems ..
    · rfl

theorem State.swCheck_keeps (s : State) (t e a imm) : (s.swCheck t e a imm).Keeps := by
  grind [State.swCheck, Verdict.keeps_ok, Verdict.keeps_wait, Verdict.keeps_fault]

/-- R126: an accessed word lies in the scratchpad. -/
theorem scAddr_le {a : W32} {imm : W16} {v : Nat} (h : scAddr a imm = some v) : v + 4 ≤ 262144 := by
  simp only [scAddr, Option.ite_none_right_eq_some, Option.some.injEq] at h
  omega

theorem slotSw_local (d a imm) : (slotSw t e d a imm).Local t :=
  ⟨fun y => y.swCheck_keeps t e a imm, fun T m₀ y s ht _ _ hs => by
    dsimp only [slotSw]
    split
    next v hv => exact State.scStore_local _ ht (scAddr_le hv) hs
    next => exact hs⟩

theorem slotRdix_local (d depth) : (slotRdix t e d depth).Local t :=
  SlotOp.local_of_mems (fun _ => Verdict.keeps_ok) fun _ _ => State.scR_mems ..

theorem State.branchCheck_keeps (s : State) (t e p off) : (s.branchCheck t e p off).Keeps := by
  grind [State.branchCheck, Verdict.keeps_ok, Verdict.keeps_fault]

theorem slotBranch_local (off taken) : (slotBranch t e off taken).Local t :=
  SlotOp.local_of_mems (fun y => by
    dsimp only [slotBranch]
    split
    · exact y.branchCheck_keeps t e _ off
    · exact Verdict.keeps_ok) fun _ _ => rfl

theorem slotBr_local (a b off f) : (slotBr t e a b off f).Local t := slotBranch_local _ _

theorem slotEnd_local : (slotEnd t e).Local t := SlotOp.local_of_mems (fun _ => Verdict.keeps_ok) fun _ _ => State.endOp_mems ..

theorem State.loopCheck_keeps (s : State) (t e p w a end_) : (s.loopCheck t e p w a end_).Keeps := by
  grind [State.loopCheck, Verdict.keeps_ok, Verdict.keeps_fault]

theorem slotLoop_local (w a end_) : (slotLoop t e w a end_).Local t :=
  SlotOp.local_of_mems (fun y => y.loopCheck_keeps t e _ w a _) fun _ _ => State.loopEnter_mems ..

theorem slotAg_local (a g c w) : (slotAg t e a g c w).Local t :=
  SlotOp.local_of_mems (fun _ => Verdict.keeps_ok) fun _ _ => State.agSetOp_mems ..

theorem slotWait_local (n k) : (slotWait n k).Local t := SlotOp.local_of_mems (fun _ => Verdict.keeps_ok) fun _ _ => rfl

theorem slotPost_local (n k) : (slotPost t e n k).Local t :=
  SlotOp.local_of_mems (fun _ => Verdict.keeps_ok) fun _ _ => State.pendOp_mems ..

theorem slotRpost_local (n k a) : (slotRpost t e n k a).Local t :=
  SlotOp.local_of_mems (fun y => by
      dsimp only [slotRpost]
      split
      · exact Verdict.keeps_ok
      · exact Verdict.keeps_fault _) fun y s => by
    dsimp only [slotRpost]
    split
    · exact State.pendOp_mems ..
    · rfl

theorem State.evtCheck_keeps (s : State) (t w) : (s.evtCheck t w).Keeps := by
  grind [State.evtCheck, Verdict.keeps_ok, Verdict.keeps_fault]

theorem slotEvt_local (a) : (slotEvt t e a).Local t :=
  SlotOp.local_of_mems (fun y => y.evtCheck_keeps t _) fun _ _ => State.pendOp_mems ..

theorem State.tlCheck_keeps (s : State) (t w) : (s.tlCheck t w).Keeps := by
  grind [State.tlCheck, Verdict.keeps_ok, Verdict.keeps_fault]

theorem slotTl_local (a b) : (slotTl t e a b).Local t :=
  SlotOp.local_of_mems (fun y => y.tlCheck_keeps t _) fun _ _ => State.pendOp_mems ..

theorem slotFence_local : (slotFence t e).Local t := SlotOp.local_of_mems (fun _ => Verdict.keeps_ok) fun _ _ => State.fenceOp_mems ..

/-! ### Slots of MXE, MOV and WEI -/

theorem State.mxCheck_keeps (s : State) (t f) : (s.mxCheck t f).Keeps := by
  grind [State.mxCheck, Verdict.keeps_ok, Verdict.keeps_wait, Verdict.keeps_fault]

theorem slotMx_local (f) : (slotMx t f).Local t :=
  SlotOp.local_of_mems (fun y => y.mxCheck_keeps t f) fun _ _ => State.mxIssue_mems ..

theorem State.drCheck_keeps (s : State) (t f) : (s.drCheck t f).Keeps := by
  grind [State.drCheck, Verdict.keeps_ok, Verdict.keeps_wait, Verdict.keeps_fault]

theorem slotDr_local (f) : (slotDr t f).Local t :=
  SlotOp.local_of_mems (fun y => y.drCheck_keeps t f) fun _ _ => State.drIssue_mems ..

theorem slotIssue_local (f) : (slotIssue t f).Local t :=
  SlotOp.local_of_mems (fun y => by
      dsimp only [slotIssue]
      split
      · exact Verdict.keeps_ok
      · exact Verdict.keeps_fault _) fun y s => by
    dsimp only [slotIssue]
    split
    · rw [State.arm_mems, State.setEng_mems]
    · rfl

theorem slotDrain_local (sigEn sem) : (slotDrain t sigEn sem).Local t :=
  ⟨fun y => by
      dsimp only [slotDrain]
      split
      · exact Verdict.keeps_ok
      · exact Verdict.keeps_wait, fun _ _ _ _ _ _ _ hs => State.opPost_confined _ _ _ _ _ hs⟩

theorem State.weirCheck_keeps (s : State) (t k f) : (s.weirCheck t k f).Keeps := by
  unfold State.weirCheck
  dsimp only
  split
  · exact Verdict.keeps_ok
  split
  · exact Verdict.keeps_wait
  split
  · exact Verdict.keeps_wait
  have hkeeps : ∀ v, (s.weirPlan t k f).2 = .error v → v.Keeps := fun _ => State.weirPlan_keeps
  split
  next act hplan => exact Verdict.keeps_stop fun _ _ u hu => hkeeps (.stop act) (by rw [hplan]) act rfl _ _ _ (by rwa [State.weirPlan_mems])
  next v _ hplan => exact hkeeps v (by rw [hplan])
  next o hplan =>
    split
    · exact Verdict.keeps_stop fun _ _ u hu => by simpa using hu
    · exact Verdict.keeps_ok

theorem slotWeir_local (k f) : (slotWeir t k f).Local t :=
  SlotOp.local_of_mems (fun y => y.weirCheck_keeps t k f) fun _ _ => State.weirIssue_mems ..

theorem slotWeirNop_local (sigEn sem) : (slotWeirNop t sigEn sem).Local t :=
  ⟨fun y => by
      dsimp only [slotWeirNop]
      split
      · exact Verdict.keeps_wait
      · exact Verdict.keeps_ok, fun _ _ _ _ _ _ _ hs => State.weirNopIssue_confined _ _ _ hs⟩

/-! ### Vector slots -/

/-- A slot that no check of its own holds and that writes a span of its tile's registers. -/
theorem SlotOp.local_of_confined {legal : Bool} {apply : State → State → State} {writes : List Nat}
    (h : ∀ (T : Set TileId) (m₀ : Mems) (y s : State), t ∈ T → legal = true → Confined T m₀ s.mems → Confined T m₀ (apply y s).mems) :
    SlotOp.Local t { legal := legal, apply := apply, writes := writes } :=
  ⟨fun _ => Verdict.keeps_ok, fun T m₀ y s ht hlegal _ => h T m₀ y s ht hlegal⟩

theorem slotFp_local (f n g) : (slotFp t f n g).Local t :=
  (SlotOp.local_of_confined fun _ _ y _ ht _ hs => State.vxFp_confined y f n g ht hs).counts _ _

theorem slotInt_local (f m g) : (slotInt t f m g).Local t :=
  SlotOp.local_of_confined fun _ _ y _ ht _ hs => State.vxInt_confined y f g ht hs

theorem slotCmp_local (f) : (slotCmp t f).Local t :=
  SlotOp.local_of_confined fun _ _ y _ ht _ hs => State.vxCmpOp_confined y f ht hs

theorem slotPlog_local (f) : (slotPlog t f).Local t :=
  SlotOp.local_of_confined fun _ _ y _ ht _ hs => State.vxPlogOp_confined y f ht hs

theorem slotMove_local (f useB g) : (slotMove t f useB g).Local t :=
  SlotOp.local_of_confined fun _ _ y _ ht _ hs => State.vxMove_confined y f (g y) ht hs

theorem slotSel_local (f) : (slotSel t f).Local t :=
  SlotOp.local_of_confined fun _ _ _ _ ht _ hs => State.putLanes_confined _ _ ht f.vd.isLt hs

theorem slotBcs_local (f) : (slotBcs t f).Local t :=
  SlotOp.local_of_confined fun _ _ y _ ht _ hs => State.vxMove_confined y f _ ht hs

theorem slotGetl_local (f) : (slotGetl t f).Local t :=
  SlotOp.local_of_mems (fun y => by
      dsimp only [slotGetl]
      split
      · exact Verdict.keeps_poison _ _
      · exact Verdict.keeps_ok) fun _ _ => State.scR_mems ..

theorem slotCvt_local (f) : (slotCvt t f).Local t :=
  (SlotOp.local_of_confined fun _ _ y _ ht hlegal hs => State.vxCvtOp_confined y f hlegal ht hs).counts _ _

theorem slotTu_local (f n g) : (slotTu t f n g).Local t :=
  (SlotOp.local_of_confined fun _ _ y _ ht _ hs => State.vxTu_confined y f n g ht hs).counts _ _

theorem slotSum_local (f acc) : (slotSum t f acc).Local t :=
  (SlotOp.local_of_confined fun _ _ y _ ht _ hs => State.vxSumOp_confined y f acc ht hs).counts _ _

theorem slotExt_local (f mx) : (slotExt t f mx).Local t :=
  (SlotOp.local_of_confined fun _ _ y _ ht _ hs => State.vxExtOp_confined y f mx ht hs).counts _ _

theorem slotScan_local (f) : (slotScan t f).Local t :=
  (SlotOp.local_of_confined fun _ _ y _ ht _ hs => State.vxScanOp_confined y f ht hs).counts _ _

theorem slotMm_local (f ta tb) : (slotMm t f ta tb).Local t :=
  (SlotOp.local_of_confined fun _ _ y _ ht hlegal hs => State.vxMmOp_confined y f ta tb hlegal ht hs).counts _ _

theorem slotChol_local (f) : (slotChol t f).Local t :=
  (SlotOp.local_of_confined fun _ _ y _ ht hlegal hs => State.vxCholOp_confined y f hlegal ht hs).counts _ _

theorem slotChsv_local (f) : (slotChsv t f).Local t :=
  (SlotOp.local_of_confined fun _ _ y _ ht _ hs => State.vxChsvOp_confined y f ht hs).counts _ _

/-- R184, R193: a fault of a circular buffer or a line is recorded, and the engine faults. -/
theorem vxFault_keeps (t code lane cause cb) : (vxFault t code lane cause cb).Keeps :=
  Verdict.keeps_stop fun _ _ _ hs => State.engFault_confined _ _ _ (by rwa [State.setTr_mems])

theorem State.tapCheck_keeps (s : State) (t f) : (s.tapCheck t f).Keeps := by
  grind [State.tapCheck, State.tapArgs, vxFault_keeps, Verdict.keeps_ok, Verdict.keeps_wait, Verdict.keeps_fault]

theorem slotTap_local (f) : (slotTap t f).Local t :=
  SlotOp.Local.counts ⟨fun y => y.tapCheck_keeps t f, fun _ _ y s ht _ _ hs => by
    dsimp only [vxSlot]
    rw [State.vxeAccess_mems]
    exact State.vxTapOp_confined y f ht hs⟩ _ _

theorem State.vxMCheck_keeps (s : State) (t f n ch) : (s.vxMCheck t f n ch).Keeps := by
  grind [State.vxMCheck, State.vxLines, vxFault_keeps, Verdict.keeps_ok, Verdict.keeps_wait, Verdict.keeps_fault]

theorem slotLd_local (f n lo) : (slotLd t f n lo).Local t :=
  ⟨fun y => y.vxMCheck_keeps t f n 0, fun _ _ y s ht _ _ hs => by
    dsimp only [slotLd]
    rw [State.vxeAccess_mems]
    exact State.vxLoad_confined y f n lo ht hs⟩

theorem slotSt_local (f n lo) : (slotSt t f n lo).Local t :=
  ⟨fun y => y.vxMCheck_keeps t f n 1, fun _ _ y s ht _ _ hs => by
    dsimp only [slotSt]
    rw [State.vxeAccess_mems]
    exact State.vxStore_confined y f n lo ht hs⟩

theorem State.vxGCheck_keeps (s : State) (t f) : (s.vxGCheck t f).Keeps := by
  grind [State.vxGCheck, vxFault_keeps, Verdict.keeps_ok, Verdict.keeps_wait]

theorem slotGath_local (f) : (slotGath t f).Local t :=
  ⟨fun y => y.vxGCheck_keeps t f, fun _ _ y s ht _ _ hs => by
    dsimp only [slotGath]
    rw [State.vxeAccess_mems]
    exact State.vxGather_confined y f ht hs⟩

theorem slotScat_local (f) : (slotScat t f).Local t :=
  ⟨fun y => y.vxGCheck_keeps t f, fun _ _ y s ht _ hok hs => by
    dsimp only [slotScat]
    rw [State.vxeAccess_mems]
    exact State.vxScatter_confined y f hok ht hs⟩

/-! ### Slots of a fetched word -/

theorem mem_issueOrder {e ctrl} {o : SlotOp} {l : List SlotOp} : o ∈ issueOrder e ctrl l ↔ o ∈ l := by
  unfold issueOrder
  split <;> simp

theorem scalarSlot_local (t e w x) : (scalarSlot t e w x).Local t := by
  unfold scalarSlot
  dsimp only
  split
  case h_1 => exact emptySlot_local.need0 _
  case h_2 | h_3 | h_4 | h_5 | h_6 | h_7 | h_8 | h_9 | h_10 | h_11 | h_12 => exact (slotAlu_local ..).need0 _
  case h_13 | h_14 => exact slotImm_local ..
  case h_15 => exact slotLi_local ..
  case h_16 => exact slotLih_local ..
  case h_17 => exact slotLw_local ..
  case h_18 => exact slotSw_local ..
  case h_19 => exact (slotRdix_local ..).need0 _
  case h_20 | h_21 | h_22 | h_23 => exact slotBr_local ..
  case h_24 => exact (slotBranch_local ..).need0 _
  case h_25 => exact slotEnd_local.need0 _
  case h_26 => exact (slotLoop_local ..).need0 _
  case h_27 => exact (slotAg_local ..).need0 _
  case h_28 => exact (slotWait_local ..).need0 _
  case h_29 => exact (slotPost_local ..).need0 _
  case h_30 => exact (slotRpost_local ..).need0 _
  case h_31 => exact (slotEvt_local ..).need0 _
  case h_32 => exact (slotTl_local ..).need0 _
  case h_33 => exact slotFence_local.need0 _
  case h_34 => exact badSlot_local

theorem mxSlot_local (t x) : (mxSlot t x).Local t := by
  unfold mxSlot
  dsimp only
  split
  · exact emptySlot_local.need0 _
  · exact (slotMx_local ..).need0 _
  · exact badSlot_local

theorem drSlot_local (t x) : (drSlot t x).Local t := by
  unfold drSlot
  dsimp only
  split
  · exact emptySlot_local.need0 _
  · exact (slotDr_local ..).need0 _
  · exact badSlot_local

theorem issueSlot_local (t x) : (issueSlot t x).Local t := by
  unfold issueSlot
  dsimp only
  split
  · exact emptySlot_local.need0 _
  · exact (slotIssue_local ..).need0 _
  · exact (slotDrain_local ..).need0 _
  · exact badSlot_local

theorem weiSlot_local (t x) : (weiSlot t x).Local t := by
  unfold weiSlot
  dsimp only
  split
  · exact (slotWeirNop_local ..).need0 _
  case h_8 => exact badSlot_local
  all_goals exact (slotWeir_local ..).need0 _

theorem vaSlot_local (t x) : (vaSlot t x).Local t := by
  unfold vaSlot
  dsimp only
  split
  case h_1 => exact emptySlot_local.need0 _
  case h_2 | h_3 | h_4 | h_5 | h_6 | h_7 => exact slotFp_local ..
  case h_8 => exact slotScan_local ..
  case h_9 => exact slotTap_local ..
  case h_10 | h_11 | h_12 => exact slotMm_local ..
  case h_13 => exact slotChol_local ..
  case h_14 => exact slotChsv_local ..
  case h_15 => exact badSlot_local

theorem vbSlot_local (t x) : (vbSlot t x).Local t := by
  unfold vbSlot
  dsimp only
  split
  case h_1 => exact emptySlot_local.need0 _
  case h_2 | h_3 | h_4 | h_5 | h_6 | h_7 | h_8 | h_9 | h_10 => exact slotInt_local ..
  case h_11 | h_12 | h_13 | h_14 => exact slotFp_local ..
  case h_15 => exact slotCmp_local ..
  case h_16 => exact slotSel_local ..
  case h_17 | h_19 | h_20 => exact slotMove_local ..
  case h_18 => exact slotBcs_local ..
  case h_21 => exact slotGetl_local ..
  case h_22 => exact (slotMove_local ..).need0 _
  case h_23 => exact (slotCvt_local ..).need0 _
  case h_24 => exact slotPlog_local ..
  case h_25 | h_26 => exact slotSum_local ..
  case h_27 | h_28 => exact slotExt_local ..
  case h_41 => exact badSlot_local
  all_goals exact slotTu_local ..

theorem ldSlot_local (t x) : (ldSlot t x).Local t := by
  unfold ldSlot
  split
  case h_1 => exact emptySlot_local.need0 _
  case h_2 | h_3 | h_4 => exact slotLd_local ..
  case h_5 => exact (slotGath_local ..).need0 _
  case h_6 => exact badSlot_local

theorem stSlot_local (t x) : (stSlot t x).Local t := by
  unfold stSlot
  split
  case h_1 => exact emptySlot_local.need0 _
  case h_2 | h_3 | h_4 => exact slotSt_local ..
  case h_5 => exact (slotScat_local ..).need0 _
  case h_6 => exact badSlot_local

theorem slotOf_local (ctrl t e w i x) : (slotOf ctrl t e w i x).Local t := by
  unfold slotOf
  split
  · exact scalarSlot_local ..
  split
  · exact mxSlot_local ..
  · exact drSlot_local ..
  · exact ldSlot_local ..
  · exact stSlot_local ..
  · exact vaSlot_local ..
  · exact vbSlot_local ..
  · exact scalarSlot_local ..
  · exact issueSlot_local ..
  · exact weiSlot_local ..

/-- The slots of a fetched word keep to the tile that fetches it. -/
theorem State.fetchWord_local {s : State} {w : Nat} {ops : List SlotOp} (h : s.fetchWord t e = some (w, ops)) : ∀ o ∈ ops, o.Local t := by
  unfold State.fetchWord at h
  simp only [Option.ite_none_left_eq_some, Option.some.injEq, Prod.mk.injEq] at h
  obtain ⟨-, -, rfl⟩ := h
  intro o ho
  have hmem : o ∈ List.map _ _ := mem_issueOrder.1 ho
  obtain ⟨x, -, rfl⟩ := List.mem_map.1 hmem
  exact slotOf_local ..

end

section
variable {t : TileId} {e : EngId} {ops : List SlotOp}

/-- The slots of a word that issues are legal and have passed their checks. -/
theorem wordOk_legal (h : wordOk ops = true) : ∀ o ∈ ops, o.legal = true := by
  simp only [wordOk, Bool.and_eq_true, List.all_eq_true] at h
  exact h.1.1.1.1.1

theorem firstBad_none {y : State} (h : firstBad y ops = none) : ∀ o ∈ ops, o.check y = .ok := by
  induction ops with
  | nil => simp
  | cons o l ih =>
    unfold firstBad at h
    split at h
    next hok => exact List.forall_mem_cons.2 ⟨hok, ih h⟩
    next => cases h

theorem firstBad_some {y : State} {v : Verdict} (h : firstBad y ops = some v) : ∃ o ∈ ops, o.check y = v := by
  induction ops with
  | nil => cases h
  | cons o l ih =>
    unfold firstBad at h
    split at h
    next =>
      obtain ⟨o', ho', hv⟩ := ih h
      exact ⟨o', List.mem_cons_of_mem _ ho', hv⟩
    next => exact ⟨o, List.mem_cons_self, by simpa using h⟩

theorem State.issueSlots_confined {s : State} (y q w) (ht : t ∈ T) (hlocal : ∀ o ∈ ops, o.Local t)
    (hlegal : ∀ o ∈ ops, o.legal = true) (hok : ∀ o ∈ ops, o.check y = .ok) (h : Confined T m₀ s.mems) :
    Confined T m₀ (s.issueSlots y t e q w ops).mems := by
  have hslots : ∀ u : State, Confined T m₀ u.mems → Confined T m₀ (each u ops fun cur o => o.apply y cur).mems := fun _ hu =>
    each_confined_mem _ _ (fun v o ho hv => (hlocal o ho).apply T m₀ y v ht (hlegal o ho) (hok o ho) hv) hu
  unfold State.issueSlots
  dsimp only
  split
  · rw [State.haltEngine_mems, State.advance_mems]
    exact hslots _ (by simpa using h)
  · rw [State.advance_mems]
    exact hslots _ (by simpa using h)

theorem State.tryWord_confined {s : State} (w) (ht : t ∈ T) (hlocal : ∀ o ∈ ops, o.Local t) (h : Confined T m₀ s.mems) :
    Confined T m₀ (s.tryWord t e w ops).mems := by
  unfold State.tryWord
  dsimp only
  split
  · exact State.engFault_confined _ _ _ h
  next hword =>
  split
  · exact State.engFault_confined _ _ _ h
  split
  · rwa [State.waitOn_mems]
  split
  · rwa [State.waitOn_mems]
  split
  next hnone => exact State.issueSlots_confined _ _ _ ht hlocal (wordOk_legal (by simpa using hword)) (firstBad_none hnone) h
  next => exact State.engFault_confined _ _ _ h
  next => exact State.poisonStop_confined _ _ _ _ _ h
  next act hstop =>
    obtain ⟨o, ho, hcheck⟩ := firstBad_some hstop
    exact (hlocal o ho).stop _ act hcheck T m₀ s h
  next => rwa [State.waitOn_mems]

end

theorem State.parityStop_confined {s : State} (t e) (h : Confined T m₀ s.mems) : Confined T m₀ (s.parityStop t e).mems := by
  grind [State.parityStop, State.setEng_mems, State.drawn_mems, State.poisonStop_confined, State.incReg_mems]

theorem State.beforeWord_confined {word : State → State} (hword : ∀ u : State, Confined T m₀ u.mems → Confined T m₀ (word u).mems)
    {s : State} (t e l) (h : Confined T m₀ s.mems) : Confined T m₀ (s.beforeWord t e l word).mems := by
  unfold State.beforeWord
  dsimp only
  split
  · exact h
  split
  · rwa [State.haltEngine_mems]
  split
  · exact State.parityStop_confined _ _ h
  split
  · split
    · split
      · simpa using h
      · exact hword _ (by rwa [State.setEng_mems])
    · rwa [State.waitOn_mems]
  · split
    · rwa [State.hitBrk_mems]
    · exact hword _ h

theorem State.issueWord_confined {s : State} {t : TileId} {ops : List SlotOp} (e w) (ht : t ∈ T) (hlocal : ∀ o ∈ ops, o.Local t)
    (h : Confined T m₀ s.mems) : Confined T m₀ (s.issueWord t e w ops).mems :=
  State.beforeWord_confined (fun u hu => by
    split
    · exact State.engFault_confined _ _ _ hu
    · exact State.tryWord_confined w ht hlocal hu) _ _ _ h

theorem State.issueNext_confined {s : State} {t : TileId} (e) (ht : t ∈ T) (h : Confined T m₀ s.mems) :
    Confined T m₀ (s.issueNext t e).mems :=
  State.beforeWord_confined (fun u hu => by
    split
    · exact State.engFault_confined _ _ _ hu
    split
    · exact State.poisonStop_confined _ _ _ _ _ (by rwa [State.incReg_mems])
    split
    · split <;> exact State.engFault_confined _ _ _ hu
    next w ops hfetch =>
      split
      · exact State.engFault_confined _ _ _ hu
      · exact State.tryWord_confined w ht (State.fetchWord_local hfetch) hu) _ _ _ h

@[simp] theorem State.beginProgram_mems (s : State) (t e pc) : (s.beginProgram t e pc).mems = s.mems := by
  grind [State.beginProgram, State.setTile_mems, State.setEng_mems, State.trace_mems]

@[simp] theorem State.startNow_mems (s : State) (t e pc) : (s.startNow t e pc).mems = s.mems := by
  grind [State.startNow, State.beginProgram_mems, State.setEng_mems]

@[simp] theorem State.startOp_mems (s : State) (t e pc) : (s.startOp t e pc).mems = s.mems := by
  grind [State.startOp, State.askWake_mems, State.setEng_mems, State.startNow_mems, State.mems]

@[simp] theorem State.releaseStarts_mems (s : State) (t) : (s.releaseStarts t).mems = s.mems := by
  grind [State.releaseStarts, each_mems, State.setEng_mems, State.startNow_mems]

@[simp] theorem State.programEnd_mems (s : State) (t e) : (s.programEnd t e).mems = s.mems := by
  grind [State.programEnd, State.trace_mems, State.setEng_mems, State.raiseTile_mems, State.closeWindow_mems, State.beginProgram_mems]

theorem State.postNow_confined {s : State} (t e) (h : Confined T m₀ s.mems) : Confined T m₀ (s.postNow t e).mems := by
  grind [State.postNow, State.setEng_mems, State.settle_mems, State.post_confined, State.sendPost_mems]

theorem State.rpostArrive_confined {s : State} (t) (h : Confined T m₀ s.mems) : Confined T m₀ (s.rpostArrive t).mems := by
  grind [State.rpostArrive, State.post_confined, State.setTile_mems]

theorem State.signalNow_confined {s : State} (t e) (h : Confined Set.univ m₀ s.mems) : Confined Set.univ m₀ (s.signalNow t e).mems := by
  unfold State.signalNow
  dsimp only
  split
  · exact h
  split
  · exact h
  split
  · exact h
  split
  · rw [State.settle_mems]
    exact State.signal_confined _ _ _ _ _ (by rwa [State.trace_mems])
  · split
    · rw [State.settle_mems]
      split
      · exact State.sendSignal_confined _ _ _ _ (by rwa [State.trace_mems])
      · exact State.signal_confined _ _ _ _ _ (by rwa [State.trace_mems])
    · rw [State.settle_mems]
      rwa [State.trace_mems]
  · exact h

/-! ## Operations of Machine/Load -/

@[simp] theorem State.withCode_mems (s : State) (t e hw) : (s.withCode t e hw).mems = s.mems := by
  grind [State.withCode, State.putImem_mems, State.setEng_mems]

/-! ## Operations of Machine/Access -/

@[simp] theorem State.holdWrite_mems (s : State) (t hh) : (s.holdWrite t hh).mems = s.mems := by
  grind [State.holdWrite, State.askWake_mems, State.mems]

@[simp] theorem State.awake_mems (s : State) (c) : (s.awake c).mems = s.mems := by
  grind [State.awake, State.setCore_mems]

@[simp] theorem State.trapEntry_mems (s : State) (c cause mtval pc) : (s.trapEntry c cause mtval pc).mems = s.mems := by
  grind [State.trapEntry, State.setCore_mems, State.setCsr_mems]

@[simp] theorem State.excTrap_mems (s : State) (c cause mtval pc) : (s.excTrap c cause mtval pc).mems = s.mems := by
  grind [State.excTrap, State.trapEntry_mems, State.setCore_mems]

@[simp] theorem State.turnedAway_mems (s : State) (r cause a) : (s.turnedAway r cause a).mems = s.mems := by
  grind [State.turnedAway, State.drawn_mems, State.excTrap_mems]

section
variable {f : State → State}

/-- What a requester that is let through does, and what it meets where it is not. -/
theorem State.via_confined (hf : ∀ u : State, Confined T m₀ u.mems → Confined T m₀ (f u).mems) {s : State} (r a ok)
    (h : Confined T m₀ s.mems) : Confined T m₀ (s.via r a ok f).mems := by
  grind [State.via, State.turnedAway_mems]

theorem State.onPart_confined (hf : ∀ u : State, Confined T m₀ u.mems → Confined T m₀ (f u).mems) {s : State} (r p)
    (h : Confined T m₀ s.mems) : Confined T m₀ (s.onPart r p f).mems := State.via_confined hf _ _ _ h

theorem State.onPartRead_confined (hf : ∀ u : State, Confined T m₀ u.mems → Confined T m₀ (f u).mems) {s : State} (r p)
    (h : Confined T m₀ s.mems) : Confined T m₀ (s.onPartRead r p f).mems := by
  grind [State.onPartRead, State.turnedAway_mems]

theorem State.onInt_confined (hf : ∀ u : State, Confined T m₀ u.mems → Confined T m₀ (f u).mems) {s : State} (r c)
    (h : Confined T m₀ s.mems) : Confined T m₀ (s.onInt r c f).mems := State.via_confined hf _ _ _ h

theorem State.onTile_confined (hf : ∀ u : State, Confined T m₀ u.mems → Confined T m₀ (f u).mems) {s : State} (r t l)
    (h : Confined T m₀ s.mems) : Confined T m₀ (s.onTile r t l f).mems := State.via_confined hf _ _ _ h

theorem State.onTileWake_confined (hf : ∀ u : State, Confined T m₀ u.mems → Confined T m₀ (f u).mems) {s : State} (r t l w)
    (h : Confined T m₀ s.mems) : Confined T m₀ (s.onTileWake r t l w f).mems := by
  grind [State.onTileWake, State.via_confined, State.holdWrite_mems]

end

/-! ## Operations of Machine/Matrix -/

theorem State.mxeStop_confined {f : State → State} (hf : ∀ u : State, Confined T m₀ u.mems → Confined T m₀ (f u).mems) {s : State}
    (t seq) (h : Confined T m₀ s.mems) : Confined T m₀ (s.mxeStop t seq f).mems := by
  grind [State.mxeStop, State.setTile_mems, State.sumFlush_mems, State.settle_mems]

theorem State.mxeFault_confined {s : State} (t seq pc code) (h : Confined T m₀ s.mems) : Confined T m₀ (s.mxeFault t seq pc code).mems := by
  grind [State.mxeFault, State.mxeStop_confined, State.faultAtPc_confined]

theorem State.mxePoison_confined {s : State} (t seq pc line) (h : Confined T m₀ s.mems) : Confined T m₀ (s.mxePoison t seq pc line).mems := by
  grind [State.mxePoison, State.mxeStop_confined, State.poisonAtPc_confined]

theorem State.mxStart_confined {s : State} (t) (h : Confined Set.univ m₀ s.mems) : Confined Set.univ m₀ (s.mxStart t).mems := by
  grind [State.mxStart, State.mxeFault_confined, State.mxePoison_confined, State.setTile_mems]

theorem State.mxComplete_confined {s : State} (t) (h : Confined Set.univ m₀ s.mems) : Confined Set.univ m₀ (s.mxComplete t).mems := by
  grind [State.mxComplete, State.tcnt_mems, State.vxeAccess_mems, MxOp.result_confined, State.setTile_mems, State.trace_mems, State.settle_mems, State.opPost_confined]

theorem State.drRun_confined {s : State} (t o) (h : Confined Set.univ m₀ s.mems) : Confined Set.univ m₀ (s.drRun t o).mems := by
  grind [State.drRun, DrOp.clear_confined, State.drawn_mems, State.setTile_mems]

theorem State.drStart_confined {s : State} (t) (h : Confined Set.univ m₀ s.mems) : Confined Set.univ m₀ (s.drStart t).mems := by
  grind [State.drStart, State.mxeFault_confined, State.mxePoison_confined, State.drRun_confined]

theorem State.drDone_confined {s : State} (t o) (h : Confined Set.univ m₀ s.mems) : Confined Set.univ m₀ (s.drDone t o).mems := by
  grind [State.drDone, State.vxeAccess_mems, State.drawn_mems, DrOp.finish_confined, State.sumFlush_mems, State.setTile_mems, State.trace_mems, State.settle_mems, State.opPost_confined]

theorem State.drComplete_confined {s : State} (t) (h : Confined Set.univ m₀ s.mems) : Confined Set.univ m₀ (s.drComplete t).mems := by
  grind [State.drComplete, State.drDone_confined, State.drawn_mems]

theorem State.extScramble_confined {s : State} (t o) (h : Confined Set.univ m₀ s.mems) : Confined Set.univ m₀ (s.extScramble t o).mems := by
  grind [State.extScramble, each_confined, State.setSpadBytes_confined, State.setAccW_confined, State.drawn_mems]

theorem State.extFault_confined {s : State} (t o wrote) (h : Confined Set.univ m₀ s.mems) : Confined Set.univ m₀ (s.extFault t o wrote).mems := by
  grind [State.extFault, State.incReg_mems, State.extScramble_confined, State.mxeFault_confined]

theorem State.sendBeat_confined {s : State} (t o i b) (h : Confined Set.univ m₀ s.mems) : Confined Set.univ m₀ (s.sendBeat t o i b).mems := by
  grind [State.sendBeat, State.send_mems, State.drawn_mems, State.numStat_mems, State.setTile_mems]

theorem State.extSend_confined {s : State} (t) (h : Confined Set.univ m₀ s.mems) : Confined Set.univ m₀ (s.extSend t).mems := by
  grind [State.extSend, State.setTurn_mems, State.extFault_confined, State.sendBeat_confined]

theorem State.takeResult_confined {s : State} (t o i b v) (h : Confined Set.univ m₀ s.mems) : Confined Set.univ m₀ (s.takeResult t o i b v).mems := by
  grind [State.takeResult, State.vxeAccess_mems, State.drawn_mems, DrOp.finish_confined, State.setTile_mems]

theorem State.extResult_confined {s : State} (t fsel r) (h : Confined Set.univ m₀ s.mems) : Confined Set.univ m₀ (s.extResult t fsel r).mems := by
  grind [State.extResult, State.setTile_mems, State.takeResult_confined, State.extFault_confined]

/-! ## Operations of Machine/Residency -/

theorem State.zeroWorking_confined {s : State} (t) (h : Confined Set.univ m₀ s.mems) : Confined Set.univ m₀ (s.zeroWorking t).mems :=
  h.of_canonical fun ⟨hs, hc, hd, hh, ho, hm⟩ => ⟨wf_dropIf _ _ hs, hc, hd, hh, ho, hm⟩

theorem State.zeroAcc_confined {s : State} (t) (h : Confined Set.univ m₀ s.mems) : Confined Set.univ m₀ (s.zeroAcc t).mems :=
  h.of_canonical id

theorem State.zeroVregs_confined {s : State} (t) (h : Confined Set.univ m₀ s.mems) : Confined Set.univ m₀ (s.zeroVregs t).mems :=
  h.of_canonical id

theorem State.emptySlot_confined {s : State} (v sl) (h : Confined T m₀ s.mems) : Confined T m₀ (s.emptySlot v sl).mems := by
  grind [State.emptySlot, State.clearTag_mems, State.zeroSlot_confined]

@[simp] theorem State.stopAll_mems (s : State) (t) : (s.stopAll t).mems = s.mems := by
  grind [State.stopAll, each_mems, State.stopEngine_mems, State.settle_mems, State.setTile_mems]

@[simp] theorem State.enterQuar_mems (s : State) (t q) : (s.enterQuar t q).mems = s.mems := by
  grind [State.enterQuar, State.setTile_mems, State.stopAll_mems]

@[simp] theorem State.quarOver_mems (s : State) (t) : (s.quarOver t).mems = s.mems := by
  grind [State.quarOver, each_mems, State.setHalo_mems]

theorem State.quarClear_confined {s : State} (t) (h : Confined Set.univ m₀ s.mems) : Confined Set.univ m₀ (s.quarClear t).mems := by
  unfold State.quarClear
  dsimp only
  split
  · exact h
  split
  · exact h
  generalize hz : (((s.settle t).zeroWorking t).zeroAcc t).zeroVregs t = z
  have hzeroed : Confined Set.univ m₀ z.mems := by
    rw [← hz]
    exact State.zeroVregs_confined _ (State.zeroAcc_confined _ (State.zeroWorking_confined _ (by rwa [State.settle_mems])))
  rw [State.releaseStarts_mems, State.quarOver_mems, State.setTile_mems]
  generalize hn : (if (z.tileAt t).quarWait.contains (z.tileAt t).ctx then z.setTr t 0x1F08 0 else z) = n
  have hstat : Confined Set.univ m₀ n.mems := by
    rw [← hn]
    split
    · rwa [State.setTr_mems]
    · exact hzeroed
  split
  · rw [State.setTr_mems, State.setTile_mems]
    exact each_confined _ _ (fun _ _ hu => State.emptySlot_confined _ _ hu) hstat
  · split
    · rwa [State.setTile_mems]
    · exact hstat

@[simp] theorem State.beginScrub_mems (s : State) (v c) : (s.beginScrub v c).mems = s.mems := by
  grind [State.beginScrub, each_mems, State.setBusy_mems, State.setTile_mems]

theorem State.killTile_confined {s : State} (t c) (h : Confined T m₀ s.mems) : Confined T m₀ (s.killTile t c).mems := by
  grind [State.killTile, State.setTile_mems, State.beginScrub_mems, State.enterQuar_mems, State.killWeir_mems, State.killMover_confined, State.askWake_mems]

theorem State.scrubDone_confined {s : State} (t sl) (h : Confined T m₀ s.mems) : Confined T m₀ (s.scrubDone t sl).mems := by
  grind [State.scrubDone, State.askWake_mems, State.emptySlot_confined, State.setTile_mems]

@[simp] theorem State.spownNow_mems (s : State) (t w) : (s.spownNow t w).mems = s.mems := by
  grind [State.spownNow, State.setTile_mems, State.enterQuar_mems]

/-! ## Operations of Machine/Cistern -/

@[simp] theorem State.mapInvalidate_mems (s : State) (p w) : (s.mapInvalidate p w).mems = s.mems := by
  grind [State.mapInvalidate, State.setPart_mems, State.drawn_mems, each_mems, State.inject_mems]

theorem State.mapInvEnd_confined {s : State} (p) (h : Confined T m₀ s.mems) : Confined T m₀ (s.mapInvEnd p).mems := by
  grind [State.mapInvEnd, State.bring_confined, State.setPart_mems]

@[simp] theorem State.pageResult_mems (s : State) (t r) : (s.pageResult t r).mems = s.mems := by
  grind [State.pageResult, State.raiseTile_mems, State.setTile_mems]

@[simp] theorem State.pageStart_mems (s : State) (t op sl c) : (s.pageStart t op sl c).mems = s.mems := by
  grind [State.pageStart, State.setTile_mems, State.pageResult_mems, State.setBusy_mems]

theorem wf_copyRange {α : Type} [DecidableEq α] (d : Nat → α) (src : Sparse α) (a n : Nat) {dst : Sparse α} (b : Nat)
    (h : Memory.wf d dst = true) : Memory.wf d (copyRange d src a n dst b) = true :=
  List.foldlRecOn (motive := fun m => Memory.wf d m = true) _ _ (wf_dropIf d _ h) fun _ hm _ _ => wf_put d _ _ hm

theorem State.pageMove_confined {s : State} (t o) (h : Confined T m₀ s.mems) : Confined T m₀ (s.pageMove t o).1.mems := by
  unfold State.pageMove
  dsimp only
  split
  · refine h.of_tiles_eq (fun ⟨hs, hc, hd, hb, hh, hm⟩ => ?_) rfl rfl rfl rfl
    exact ⟨hs, wf_copyRange _ _ _ _ _ hc, wf_copyRange _ _ _ _ _ hd, hb, hh, hm⟩
  · refine State.zeroSlot_confined _ _ (h.of_tiles_eq (fun ⟨hs, hc, hd, hb, hh, hm⟩ => ?_) rfl rfl rfl rfl)
    exact ⟨hs, hc, hd, wf_copyRange _ _ _ _ _ (wf_copyRange _ _ _ _ _ hb), hh, hm⟩
  · exact State.zeroSlot_confined _ _ h
  · exact State.zeroSlot_confined _ _ h
  · exact h
  · exact h

theorem State.pageCross_confined {s : State} (t o) (h : Confined T m₀ s.mems) : Confined T m₀ (s.pageCross t o).mems := by
  grind [State.pageCross, State.cross_confined]

theorem State.pageHurt_confined {s : State} (t o e) (h : Confined T m₀ s.mems) : Confined T m₀ (s.pageHurt t o e).mems := by
  unfold State.pageHurt
  split <;> grind [State.markCis_confined, State.markHbm_confined]

theorem State.pageData_confined {s : State} (t) (h : Confined T m₀ s.mems) : Confined T m₀ (s.pageData t).mems := by
  grind [State.pageData, State.askWake_mems, each_confined, State.pageCross_confined, State.pageMove_confined, State.drawn_mems, State.linkCount_confined, State.pageHurt_confined, State.setTile_mems]

@[simp] theorem State.pageEnd_mems (s : State) (t) : (s.pageEnd t).mems = s.mems := by
  grind [State.pageEnd, State.fillTag_mems, State.clearTag_mems, State.setBusy_mems, State.setTile_mems, State.pageResult_mems]

@[simp] theorem State.ageCfg_mems (s : State) (t w) : (s.ageCfg t w).mems = s.mems := by
  grind [State.ageCfg, State.setTile_mems, State.setTr_mems]

theorem State.ageTick_confined {s : State} (t) (h : Confined Set.univ m₀ s.mems) : Confined Set.univ m₀ (s.ageTick t).mems := by
  grind [State.ageTick, State.reach_confined, State.setTile_mems, each_confined, State.setTr_mems]

@[simp] theorem State.vaultTemp_mems (s : State) (t c) : (s.vaultTemp t c).mems = s.mems := by
  grind [State.vaultTemp, State.sensed_mems, State.incReg_mems, State.setTr_mems]

/-! ## Operations of Machine/Vulor -/

@[simp] theorem State.portTo_mems (s : State) (p st) : (s.portTo p st).mems = s.mems := by
  grind [State.portTo, State.raise_mems, State.setPort_mems]

theorem State.nackRoute_confined {s : State} (m part) (h : Confined T m₀ s.mems) : Confined T m₀ (s.nackRoute m part).mems := by
  grind [State.nackRoute, State.vulAnswer_confined, State.sendReply_confined]

@[simp] theorem State.portPower_mems (s : State) (p) : (s.portPower p).mems = s.mems := by
  grind [State.portPower, State.portTo_mems, State.setDom_mems]

@[simp] theorem State.portDown_mems (s : State) (p) : (s.portDown p).mems = s.mems := by
  grind [State.portDown, State.setDom_mems, State.setPort_mems, State.portPower_mems]

theorem State.fall_confined {s : State} (p) (h : Confined T m₀ s.mems) : Confined T m₀ (s.fall p).mems := by
  grind [State.fall, State.setPort_mems, State.portTo_mems, each_confined, State.nackRoute_confined, State.portPower_mems]

@[simp] theorem State.takeSlots_mems (s : State) (p l) : (s.takeSlots p l).mems = s.mems := by
  induction l generalizing s with
  | nil => rfl
  | cons b l ih => grind [State.takeSlots, State.setPort_mems]

@[simp] theorem State.takeAccepted_mems (s : State) (p) : (s.takeAccepted p).mems = s.mems := by
  grind [State.takeAccepted, State.takeSlots_mems, State.setPort_mems]

@[simp] theorem State.retrain_mems (s : State) (p fail) : (s.retrain p fail).mems = s.mems := by
  grind [State.retrain, State.takeAccepted_mems, State.setPort_mems, State.portTo_mems]

theorem State.attemptFails_confined {s : State} (p fail final) (h : Confined T m₀ s.mems) : Confined T m₀ (s.attemptFails p fail final).mems := by
  grind [State.attemptFails, State.setPort_mems, State.fall_confined]

@[simp] theorem State.portUp_mems (s : State) (p) : (s.portUp p).mems = s.mems := by
  grind [State.portUp, State.portTo_mems, State.setDom_mems]

@[simp] theorem State.vulCtl_mems (s : State) (p w) : (s.vulCtl p w).mems = s.mems := by
  unfold State.vulCtl
  dsimp only
  split
  · rfl
  split
  · exact State.plainWrite_mems ..
  split
  · rw [State.setPort_mems, State.plainWrite_mems]
  · rw [State.portPower_mems, State.plainWrite_mems]

@[simp] theorem State.beginTraining_mems (s : State) (p) : (s.beginTraining p).mems = s.mems := by
  grind [State.beginTraining, State.portTo_mems]

@[simp] theorem State.vulRetrain_mems (s : State) (p) : (s.vulRetrain p).mems = s.mems := by
  grind [State.vulRetrain, State.retrain_mems, State.beginTraining_mems]

@[simp] theorem State.sendKey_mems (s : State) (p) : (s.sendKey p).mems = s.mems := by
  grind [State.sendKey, State.drawn_mems, State.setPort_mems, State.mems]

theorem State.trained_confined {s : State} (p tr) (h : Confined T m₀ s.mems) : Confined T m₀ (s.trained p tr).mems := by
  grind [State.trained, State.setPort_mems, State.attemptFails_confined, State.sendKey_mems, State.portTo_mems]

theorem State.keyed_confined {s : State} (p hh) (h : Confined T m₀ s.mems) : Confined T m₀ (s.keyed p hh).mems := by
  grind [State.keyed, State.attemptFails_confined, State.portTo_mems, State.setPort_mems, State.pump_mems]

@[simp] theorem State.culvertClose_mems (s : State) (axis) : (s.culvertClose axis).mems = s.mems := by
  grind [State.culvertClose, State.setPort_mems]

theorem State.portLeave_confined {s : State} (p) (h : Confined T m₀ s.mems) : Confined T m₀ (s.portLeave p).mems := by
  grind [State.portLeave, State.fall_confined, State.sendFlit_mems]

@[simp] theorem State.replay_mems (s : State) (p f) : (s.replay p f).mems = s.mems := by
  grind [State.replay, each_mems, State.transmit_mems]

@[simp] theorem State.discard_mems (s : State) (p tagBad) : (s.discard p tagBad).mems = s.mems := by
  grind [State.discard, State.setPort_mems, State.retrain_mems, State.sendIdle_mems]

@[simp] theorem State.flitBody_mems (s : State) (p f) : (s.flitBody p f).mems = s.mems := by
  grind [State.flitBody, State.setPort_mems, State.takeSlots_mems, State.retrain_mems]

@[simp] theorem State.flitArrives_mems (s : State) (p a) : (s.flitArrives p a).mems = s.mems := by
  grind [State.flitArrives, State.flitBody_mems, State.setPort_mems, State.discard_mems, State.pump_mems, State.replay_mems]

@[simp] theorem State.flitTaken_mems (s : State) (p f ty) : (s.flitTaken p f ty).mems = s.mems := by
  grind [State.flitTaken, State.flitBody_mems]

theorem State.onMsg_confined {f : State → Msg → Option (Nat × Bool) → State}
    (hf : ∀ (u : State) m came, Confined T m₀ u.mems → Confined T m₀ (f u m came).mems) {s : State} (p vc ty)
    (h : Confined T m₀ s.mems) : Confined T m₀ (s.onMsg p vc ty f).mems := by
  grind [State.onMsg, State.setPort_mems]

theorem State.onMsg_mems (s : State) (p vc ty) (f : State → Msg → Option (Nat × Bool) → State)
    (hf : ∀ (u : State) m came, (f u m came).mems = u.mems) : (s.onMsg p vc ty f).mems = s.mems := by
  grind [State.onMsg, State.setPort_mems]

@[simp] theorem State.wakeFor_mems (s : State) (m) : (s.wakeFor m).mems = s.mems := by
  grind [State.wakeFor, State.askWake_mems]

theorem State.requestHop_confined {s : State} (p m came) (h : Confined Set.univ m₀ s.mems) : Confined Set.univ m₀ (s.requestHop p m came).mems := by
  grind [State.requestHop, State.forward_confined, State.serve_confined, State.emit_mems, State.nackRoute_confined]

theorem State.request_confined {s : State} (p vc ty) (h : Confined Set.univ m₀ s.mems) : Confined Set.univ m₀ (s.request p vc ty).mems := by
  unfold State.request
  split
  · exact h
  · split
    · rwa [State.wakeFor_mems]
    · exact State.onMsg_confined (fun u m came hu => State.requestHop_confined _ _ _ hu) _ _ _ h

theorem State.readPoison_confined {s : State} (p m) (h : Confined T m₀ s.mems) : Confined T m₀ (s.readPoison p m).mems := by
  grind [State.readPoison, State.errHead_confined]

theorem State.response_confined {s : State} (p vc ty) (h : Confined T m₀ s.mems) : Confined T m₀ (s.response p vc ty).mems :=
  State.onMsg_confined (fun _ _ _ hu => State.sendReply_confined _ _ (State.readPoison_confined _ _ hu)) _ _ _ h

@[simp] theorem State.timeMsg_mems (s : State) (p) : (s.timeMsg p).mems = s.mems := by
  grind [State.timeMsg, State.onMsg_mems, each_mems, State.traceUnitAt_mems]

@[simp] theorem State.stopMsg_mems (s : State) (p) : (s.stopMsg p).mems = s.mems := by
  grind [State.stopMsg, State.setPort_mems, State.beginStop_mems]

theorem State.vulTimeout_confined {s : State} (tag) (h : Confined T m₀ s.mems) : Confined T m₀ (s.vulTimeout tag).mems := by
  unfold State.vulTimeout
  split
  · exact h
  split
  · exact h
  · refine each_confined _ _ (fun u i hu => ?_) h
    generalize BitVec.getLsbD _ i = got
    cases got
    · exact State.vulAnswer_confined _ _ _ _ _ hu
    · exact hu

@[simp] theorem State.sendTime_mems (s : State) (p) : (s.sendTime p).mems = s.mems := by
  grind [State.sendTime, State.emit_mems]

/-! ## Operations of Machine/Trace -/

@[simp] theorem State.clearStats_mems (s : State) (t) : (s.clearStats t).mems = s.mems := by
  grind [State.clearStats, State.setTile_mems, each_mems, State.setReg_mems]

@[simp] theorem State.windowStart_mems (s : State) (t) : (s.windowStart t).mems = s.mems := by
  grind [State.windowStart, State.latchCounters_mems, each_mems, State.setReg_mems, State.clearStats_mems, State.setTile_mems]

@[simp] theorem State.identify_mems (s : State) (t tag layer operator fa1) : (s.identify t tag layer operator fa1).mems = s.mems := by
  grind [State.identify, State.setReg_mems, State.windowStart_mems, State.setTile_mems]

@[simp] theorem State.lightSample_mems (s : State) (energy) : (s.lightSample energy).mems = s.mems := by
  grind [State.lightSample, each_mems, State.lightP_mems, State.add64_mems]

@[simp] theorem State.tracePacket_mems (s : State) (t) : (s.tracePacket t).mems = s.mems := by
  grind [State.tracePacket, State.setTile_mems, State.inject_mems]

theorem State.ringPut_confined {s : State} (p r) (h : Confined T m₀ s.mems) : Confined T m₀ (s.ringPut p r).mems := by
  grind [State.ringPut, State.setPart_mems, State.putHbm_confined]

theorem State.bringTrace_confined {s : State} (p) (h : Confined T m₀ s.mems) : Confined T m₀ (s.bringTrace p).mems := by
  grind [State.bringTrace, State.bring_confined]

theorem State.ringWrite_confined {s : State} (p) (h : Confined T m₀ s.mems) : Confined T m₀ (s.ringWrite p).mems := by
  grind [State.ringWrite, State.bringTrace_confined, each_confined, State.askWake_mems, State.ringPut_confined, State.setPart_mems]

@[simp] theorem State.firefly_mems (s : State) : s.firefly.mems = s.mems := by
  grind [State.firefly, State.setReg_mems, each_mems, State.trace_mems, State.sendTime_mems]

@[simp] theorem State.triggerHit_mems (s : State) (c) : (s.triggerHit c).mems = s.mems := by
  grind [State.triggerHit, State.enterDebug_mems, State.localStop_mems, State.beginStop_mems]

@[simp] theorem State.stopGo_mems (s : State) (r w) : (s.stopGo r w).mems = s.mems := by
  unfold State.stopGo
  split <;> grind [State.beginStop_mems]

theorem State.markerAt_confined {s : State} (t) (h : Confined T m₀ s.mems) : Confined T m₀ (s.markerAt t).mems := by
  grind [State.markerAt, State.bring_confined, State.setTile_mems, State.raise_mems, each_confined, State.haltEngine_mems, State.setMovq_mems]

@[simp] theorem State.sendStop_mems (s : State) : s.sendStop.mems = s.mems := by
  grind [State.sendStop, each_mems, State.emit_mems, State.setPort_mems]

/-! ## Operations of Machine/Hgt -/

@[simp] theorem State.ctxResult_mems (s : State) (p c r) : (s.ctxResult p c r).mems = s.mems := by
  grind [State.ctxResult, State.setReg_mems]

@[simp] theorem State.qResult_mems (s : State) (p q r) : (s.qResult p q r).mems = s.mems := by
  grind [State.qResult, State.setReg_mems]

@[simp] theorem State.objResult_mems (s : State) (p r) : (s.objResult p r).mems = s.mems := by
  grind [State.objResult, State.setRegF_mems]

@[simp] theorem State.evtResult_mems (s : State) (p e) : (s.evtResult p e).mems = s.mems := by
  grind [State.evtResult, State.setReg_mems]

@[simp] theorem State.evtFail_mems (s : State) (p r) : (s.evtFail p r).mems = s.mems := by
  grind [State.evtFail, State.setRegF_mems]

@[simp] theorem State.tlResult_mems (s : State) (p r) : (s.tlResult p r).mems = s.mems := by
  grind [State.tlResult, State.setReg_mems]

@[simp] theorem State.wsResult_mems (s : State) (p slot r) : (s.wsResult p slot r).mems = s.mems := by
  grind [State.wsResult, State.setReg_mems]

@[simp] theorem State.version_mems (s : State) (r p req) : (s.version r p req).mems = s.mems := by
  grind [State.version, State.turnedAway_mems, State.setRegF_mems]

@[simp] theorem State.disown_mems (s : State) (p c) : (s.disown p c).mems = s.mems := by
  grind [State.disown, each_mems, State.setObj_mems, State.setEvt_mems, State.setTile_mems, State.mems]

@[simp] theorem State.createCtx_mems (s : State) (r p) : (s.createCtx r p).mems = s.mems := by
  grind [State.createCtx, State.turnedAway_mems, State.ctxResult_mems, State.setRegF_mems, State.setCtx_mems, State.disown_mems]

@[simp] theorem State.fireSlot_mems (s : State) (p i) : (s.fireSlot p i).mems = s.mems := by
  grind [State.fireSlot, State.traceUnit_mems, State.disarm_mems, State.addSem_mems, State.askWake_mems, State.notice_mems, State.setQueue_mems, State.mems]

@[simp] theorem State.fireDue_mems (s : State) (p) : (s.fireDue p).mems = s.mems := by
  grind [State.fireDue, each_mems, State.fireSlot_mems]

@[simp] theorem State.freeObj_mems (s : State) (p i) : (s.freeObj p i).mems = s.mems := by
  grind [State.freeObj, State.setObj_mems, State.setPart_mems]

theorem State.killSteps_confined {s : State} (p c) (h : Confined T m₀ s.mems) : Confined T m₀ (s.killSteps p c).mems := by
  unfold State.killSteps
  dsimp only
  split
  · exact h
  rw [State.takeWaits_mems]
  refine each_confined _ _ (fun _ _ hu => by simpa using hu) ?_
  refine each_confined _ _ (fun _ _ hu => by simpa using hu) ?_
  refine each_confined _ _ (fun _ _ hu => by simpa using hu) ?_
  refine each_confined _ _ (fun _ _ hu => by simpa using hu) ?_
  rw [State.fireDue_mems]
  refine State.forceSignal_confined _ _ (each_confined _ _ (fun _ _ hu => State.killTile_confined _ _ hu) ?_)
  simpa using h

theorem State.beginKill_confined {s : State} (p c) (h : Confined T m₀ s.mems) : Confined T m₀ (s.beginKill p c).mems := by
  grind [State.beginKill, State.setCtx_mems, each_confined, State.setQueue_mems, State.killSteps_confined]

theorem State.destroyCtx_confined {s : State} (p c) (h : Confined T m₀ s.mems) : Confined T m₀ (s.destroyCtx p c).mems := by
  grind [State.destroyCtx, State.beginKill_confined, State.mems]

theorem State.destroyCmd_confined {s : State} (r p c) (h : Confined T m₀ s.mems) : Confined T m₀ (s.destroyCmd r p c).mems := by
  grind [State.destroyCmd, State.onPart_confined, State.ctxResult_mems, State.destroyCtx_confined]

@[simp] theorem State.ctxFree_mems (s : State) (p c) : (s.ctxFree p c).mems = s.mems := by
  grind [State.ctxFree, State.setCtx_mems, State.ctxResult_mems]

@[simp] theorem State.createQueue_mems (s : State) (p) : (s.createQueue p).mems = s.mems := by
  grind [State.createQueue, State.qResult_mems, State.setQueue_mems]

@[simp] theorem State.destroyQueue_mems (s : State) (p q) : (s.destroyQueue p q).mems = s.mems := by
  grind [State.destroyQueue, State.qResult_mems, State.setQueue_mems, State.mems]

@[simp] theorem State.submit_mems (s : State) (p q tail) : (s.submit p q tail).mems = s.mems := by
  grind [State.submit, State.setQueue_mems, State.setPart_mems]

@[simp] theorem State.createObj_mems (s : State) (p) : (s.createObj p).mems = s.mems := by
  grind [State.createObj, State.objResult_mems, State.setReg_mems, State.setObj_mems]

@[simp] theorem State.objFree_mems (s : State) (p) : (s.objFree p).mems = s.mems := by
  grind [State.objFree, State.objResult_mems, State.freeObj_mems]

@[simp] theorem State.objQuery_mems (s : State) (p) : (s.objQuery p).mems = s.mems := by
  grind [State.objQuery, State.objResult_mems, State.setReg_mems]

@[simp] theorem State.objRelease_mems (s : State) (p i) : (s.objRelease p i).mems = s.mems := by
  grind [State.objRelease, State.setObj_mems]

@[simp] theorem State.createEvt_mems (s : State) (p owner) : (s.createEvt p owner).mems = s.mems := by
  grind [State.createEvt, State.evtFail_mems, State.evtResult_mems, State.setReg_mems, State.setEvt_mems]

theorem State.onEvt_mems (s : State) (p) {f : State → Nat → State} (hf : ∀ u i, (f u i).mems = u.mems) :
    (s.onEvt p f).mems = s.mems := by
  grind [State.onEvt, State.evtFail_mems, State.evtResult_mems]

@[simp] theorem State.evtDestroy_mems (s : State) (p i) : (s.evtDestroy p i).mems = s.mems := by
  grind [State.evtDestroy, State.setEvt_mems]

@[simp] theorem State.destroyEvt_mems (s : State) (p) : (s.destroyEvt p).mems = s.mems := by
  grind [State.destroyEvt, State.evtFail_mems, State.onEvt_mems, State.evtDestroy_mems, State.mems]

theorem State.tlCmd_confined {s : State} (p) (h : Confined T m₀ s.mems) : Confined T m₀ (s.tlCmd p).mems := by
  grind [State.tlCmd, State.tlResult_mems, State.tlApply_confined]

@[simp] theorem State.armSlot_mems (s : State) (p slot tl) : (s.armSlot p slot tl).mems = s.mems := by
  grind [State.armSlot, State.wsResult_mems, State.waitWake_mems, State.setWaiter_mems, State.fireSlot_mems]

@[simp] theorem State.disarmSlot_mems (s : State) (p slot) : (s.disarmSlot p slot).mems = s.mems := by
  grind [State.disarmSlot, State.wsResult_mems, State.takeWaits_mems, State.disarm_mems]

theorem State.noticeWrite_confined {s : State} (p c) (h : Confined T m₀ s.mems) : Confined T m₀ (s.noticeWrite p c).mems := by
  grind [State.noticeWrite, State.hostWrite_confined, State.setCtx_mems, State.send_mems]

/-! ## Operations of Machine/Launch -/

@[simp] theorem State.finishCmd_mems (s : State) (p q m st always) : (s.finishCmd p q m st always).mems = s.mems := by
  grind [State.finishCmd, State.setQueue_mems, State.notice_mems]

theorem State.fetchCmd_confined {s : State} (p q r) (h : Confined T m₀ s.mems) : Confined T m₀ (s.fetchCmd p q r).mems := by
  unfold State.fetchCmd
  split <;> grind [State.setQueue_mems, State.loseCtx_confined, State.killSteps_confined, State.takeWaits_mems, State.finishCmd_mems]

@[simp] theorem State.served_mems (s : State) (p q) : (s.served p q).mems = s.mems := by
  grind [State.served, State.setPart_mems]

@[simp] theorem State.finishNext_mems (s : State) (p q m st always) : (s.finishNext p q m st always).mems = s.mems := by
  grind [State.finishNext, State.setQueue_mems, State.notice_mems]

@[simp] theorem State.runNop_mems (s : State) (p q) : (s.runNop p q).mems = s.mems := by
  grind [State.runNop, State.takeWaits_mems, State.finishNext_mems, State.served_mems]

@[simp] theorem State.withDescs_mems (s : State) (t k) : (s.withDescs t k).mems = s.mems := by
  grind [State.withDescs, each_mems, State.setTr_mems]

@[simp] theorem State.loadPkg_mems (s : State) (t k) : (s.loadPkg t k).mems = s.mems := by
  grind [State.loadPkg, each_mems, State.putImem_mems, State.withDescs_mems]

@[simp] theorem State.stageTile_mems (s : State) (p c slot line t) : (s.stageTile p c slot line t).mems = s.mems := by
  grind [State.stageTile, State.spownNow_mems, State.withDescs_mems, State.arm_mems]

theorem State.stageLaunch_confined {s : State} (p q m b k slot args) (h : Confined T m₀ s.mems) : Confined T m₀ (s.stageLaunch p q m b k slot args).mems := by
  grind [State.stageLaunch, State.drawn_mems, State.setQueue_mems, State.setPart_mems, each_confined, State.setPackage_mems, State.loadPkg_mems, State.putHbm_confined, State.stageTile_mems]

theorem State.dispatchLaunch_confined {s : State} (p q args) (h : Confined T m₀ s.mems) :
    Confined T m₀ (s.dispatchLaunch p q args).mems := by
  unfold State.dispatchLaunch
  dsimp only
  split
  · exact h
  split
  · exact h
  split
  · exact h
  split
  · split
    · simpa using h
    · exact h
  split
  · exact h
  split
  · exact h
  split
  · exact each_confined _ _ (fun _ _ hu => by simpa using hu) h
  split
  · simpa using h
  split
  · simpa using h
  split
  · exact State.loseCtx_confined _ _ _ _ _ _ _ (by simpa using h)
  · rw [State.takeWaits_mems]
    exact State.stageLaunch_confined _ _ _ _ _ _ _ (by simpa using h)

theorem State.launchStart_confined {s : State} (p q) (h : Confined T m₀ s.mems) : Confined T m₀ (s.launchStart p q).mems := by
  grind [State.launchStart, State.loseCtx_confined, State.complete_mems, State.setQueue_mems, each_confined, State.identify_mems, State.startOp_mems]

@[simp] theorem State.launchDone_mems (s : State) (p q) : (s.launchDone p q).mems = s.mems := by
  grind [State.launchDone, each_mems, State.closeWindow_mems, State.takeWaits_mems, State.complete_mems]

theorem State.watchdog_confined {s : State} (p q) (h : Confined Set.univ m₀ s.mems) : Confined Set.univ m₀ (s.watchdog p q).mems := by
  grind [State.watchdog, State.loseCtx_confined, State.reach_confined]

theorem State.applySignal_confined {s : State} (p q) (h : Confined Set.univ m₀ s.mems) : Confined Set.univ m₀ (s.applySignal p q).mems := by
  grind [State.applySignal, State.setQueue_mems, State.sendSignalFor_confined, State.signal_confined]

/-! ## Operations of Machine/Mover -/

@[simp] theorem State.movCtrl_mems (s : State) (t w) : (s.movCtrl t w).mems = s.mems := by
  grind [State.movCtrl, State.arm_mems]

@[simp] theorem State.dstatWrite_mems (s : State) (t d w) : (s.dstatWrite t d w).mems = s.mems := by
  grind [State.dstatWrite, State.setMovd_mems]

@[simp] theorem State.movStopcntClear_mems (s : State) (t) : (s.movStopcntClear t).mems = s.mems := by
  grind [State.movStopcntClear, State.setRegF_mems]

@[simp] theorem State.settleAts_mems (s : State) : s.settleAts.mems = s.mems := by
  grind [State.settleAts, each_mems, State.send_mems, State.mems]

@[simp] theorem State.atsInval_mems (s : State) (pasid base size) : (s.atsInval pasid base size).mems = s.mems := by
  grind [State.atsInval, State.settleAts_mems, State.mems]

/-! ## Operations of Machine/Headgate -/

theorem State.barDo_confined {s : State} (a op) (h : Confined T m₀ s.mems) : Confined T m₀ (s.barDo a op).mems := by
  unfold State.barDo
  split <;> grind [State.send_mems, State.putHbm_confined]

theorem State.bar2_confined {s : State} (r addr op) (h : Confined T m₀ s.mems) : Confined T m₀ (s.bar2 r addr op).mems := by
  unfold State.bar2
  split <;> grind [State.send_mems, each_confined, State.askWake_mems, State.barDo_confined, State.mems]

theorem State.barRetry_confined {s : State} (h : Confined T m₀ s.mems) : Confined T m₀ s.barRetry.mems := by
  grind [State.barRetry, each_confined, State.bar2_confined, State.mems]

theorem State.flrPart_confined {s : State} (p pf) (h : Confined T m₀ s.mems) : Confined T m₀ (s.flrPart p pf).mems := by
  grind [State.flrPart, each_confined, State.destroyCtx_confined]

theorem State.flrVfNow_confined {s : State} (p) (h : Confined T m₀ s.mems) : Confined T m₀ (s.flrVfNow p).mems := by
  grind [State.flrVfNow, State.flrPart_confined]

theorem State.flrPfNow_confined {s : State} (h : Confined T m₀ s.mems) : Confined T m₀ s.flrPfNow.mems := by
  grind [State.flrPfNow, each_confined, State.flrPart_confined, State.mems]

@[simp] theorem State.hostDom_mems (s : State) : s.hostDom.mems = s.mems := by
  grind [State.hostDom, State.setDom_mems]

theorem State.perstNow_confined {s : State} (h : Confined T m₀ s.mems) : Confined T m₀ s.perstNow.mems := by
  grind [State.perstNow, State.hostDom_mems, each_confined, State.flrPfNow_confined, State.flrPart_confined]

@[simp] theorem State.nreadWrite_mems (s : State) (p c w) : (s.nreadWrite p c w).mems = s.mems := by
  grind [State.nreadWrite, State.setCtx_mems]

@[simp] theorem State.evtReset_mems (s : State) (p i) : (s.evtReset p i).mems = s.mems := by
  grind [State.evtReset, State.setEvt_mems]

@[simp] theorem State.evtSignal_mems (s : State) (p i) : (s.evtSignal p i).mems = s.mems := by
  grind [State.evtSignal, State.takeWaits_mems, State.fireDue_mems, State.evtSet_mems]

/-! ## Operations of Machine/Furrow -/

@[simp] theorem State.advanceSet_mems (s : State) (t k) : (s.advanceSet t k).mems = s.mems := by
  grind [State.advanceSet, State.setRset_mems]

theorem State.furPost_confined {s : State} (t n id) (h : Confined T m₀ s.mems) : Confined T m₀ (s.furPost t n id).mems := by
  grind [State.furPost, State.addSem_mems, State.loseAt_confined, State.setTr_mems]

theorem State.copyLines_confined {s : State} (t src u dst l) (h : Confined Set.univ m₀ s.mems) : Confined Set.univ m₀ (s.copyLines t src u dst l).mems := by
  grind [State.copyLines, each_confined, State.putSpad_confined]

theorem State.landLine_confined {s : State} (t k u j) (h : Confined Set.univ m₀ s.mems) : Confined Set.univ m₀ (s.landLine t k u j).mems := by
  grind [State.landLine, State.putSpad_confined, State.copyLines_confined]

theorem State.carry_confined {s : State} (t k go wait) (h : Confined Set.univ m₀ s.mems) : Confined Set.univ m₀ (s.carry t k go wait).mems := by
  grind [State.carry, State.inboundLines_mems, each_confined, State.landLine_confined, State.setRset_mems]

theorem State.advanceHop_confined (n) {s : State} (t k) (h : Confined Set.univ m₀ s.mems) : Confined Set.univ m₀ (State.advanceHop n s t k).mems := by
  induction n generalizing s t k with
  | zero => exact h
  | succ n ih => grind [State.advanceHop, State.carry_confined]

theorem State.depart_confined {s : State} (t k) (h : Confined Set.univ m₀ s.mems) : Confined Set.univ m₀ (s.depart t k).mems := by
  grind [State.depart, State.askWake_mems, State.setSem_mems, State.setRset_mems, State.drawn_mems, State.carry_confined]

theorem State.hopDone_confined {s : State} (t k) (h : Confined Set.univ m₀ s.mems) : Confined Set.univ m₀ (s.hopDone t k).mems := by
  grind [State.hopDone, State.askWake_mems, State.advanceHop_confined, State.setRset_mems, State.advanceSet_mems, State.furPost_confined]

@[simp] theorem State.realign1_mems (s : State) (t k) : (s.realign1 t k).mems = s.mems := by
  grind [State.realign1, State.setTr_mems, each_mems, State.setTile_mems]

@[simp] theorem State.realignWrite_mems (s : State) (t w) : (s.realignWrite t w).mems = s.mems := by
  grind [State.realignWrite, each_mems, State.realign1_mems]

@[simp] theorem State.realignEnd_mems (s : State) (t k) : (s.realignEnd t k).mems = s.mems := by
  grind [State.realignEnd, State.setRset_mems, State.setTile_mems, State.releaseStarts_mems]

theorem State.haloCopy_confined {s : State} (t u hh l) (h : Confined Set.univ m₀ s.mems) : Confined Set.univ m₀ (s.haloCopy t u hh l).mems := by
  grind [State.haloCopy, State.inboundLines_mems, State.copyLines_confined]

theorem State.haloStart_confined {s : State} (t hh) (h : Confined Set.univ m₀ s.mems) : Confined Set.univ m₀ (s.haloStart t hh).mems := by
  grind [State.haloStart, State.setSem_mems, State.drawn_mems, State.setHalo_mems, State.haloCopy_confined, State.askWake_mems]

theorem State.haloDone_confined {s : State} (t hh) (h : Confined Set.univ m₀ s.mems) : Confined Set.univ m₀ (s.haloDone t hh).mems := by
  grind [State.haloDone, State.askWake_mems, State.haloCopy_confined, State.setHalo_mems, State.furPost_confined]

/-! ## Operations of Machine/Image -/

@[simp] theorem State.imgReg_mems (s : State) (a w) : (s.imgReg a w).mems = s.mems := by
  grind [State.imgReg, State.setReg_mems]

@[simp] theorem State.clearImg_mems (s : State) (b base) : (s.clearImg b base).mems = s.mems := by
  grind [State.clearImg, each_mems, State.setReg_mems]

@[simp] theorem State.placeAt_mems (s : State) (m p g cx cy) : (s.placeAt m p g cx cy).mems = s.mems := by
  grind [State.placeAt, State.setPart_mems]

theorem State.secTile_confined {s : State} (x1 t) (h : Confined Set.univ m₀ s.mems) : Confined Set.univ m₀ (s.secTile x1 t).mems := by
  unfold State.secTile
  split <;> grind [each_confined, State.imgReg_mems, State.putImem_mems, State.putSpad_confined]

theorem State.secCol_confined {s : State} (x1 c) (h : Confined T m₀ s.mems) : Confined T m₀ (s.secCol x1 c).mems := by
  unfold State.secCol
  split <;> grind [each_confined, State.imgReg_mems, State.setCmemB_confined]

theorem State.applySection_confined {s : State} (at_ whole x3) (h : Confined Set.univ m₀ s.mems) : Confined Set.univ m₀ (s.applySection at_ whole x3).mems := by
  unfold State.applySection
  split <;> grind [each_confined, State.secTile_confined, State.secCol_confined, State.imgReg_mems, State.putHbm_confined]

theorem State.applyDevice_confined {s : State} (x1) (h : Confined T m₀ s.mems) : Confined T m₀ (s.applyDevice x1).mems := by
  unfold State.applyDevice
  split <;> grind [each_confined, State.imgReg_mems, State.putHbm_confined]

theorem State.initTile_confined {s : State} (t g) (h : Confined Set.univ m₀ s.mems) : Confined Set.univ m₀ (s.initTile t g).mems := by
  unfold State.initTile
  dsimp only
  generalize hr : State.setTr _ t 0x1210 _ = u
  have hu : Confined Set.univ m₀ u.mems := by
    rw [← hr, State.setTr_mems, State.setTr_mems, State.setTile_mems, State.clearImg_mems]
    exact h
  refine hu.of_canonical fun hk => ?_
  simp only [Mems.Canonical, State.mems] at hk ⊢
  obtain ⟨hs, hc, hd, hb, hh, hm⟩ := hk
  exact ⟨wf_dropIf zeroByte _ hs, hc, hd, hb, hh, hm⟩

@[simp] theorem State.govTile_mems (s : State) (t) : (s.govTile t).mems = s.mems := by
  grind [State.govTile, State.setTr_mems]

@[simp] theorem State.govDom_mems (s : State) (d) : (s.govDom d).mems = s.mems := by
  grind [State.govDom, State.setDom_mems, each_mems, State.govTile_mems]

@[simp] theorem State.govInit_mems (s : State) (t) : (s.govInit t).mems = s.mems := by
  grind [State.govInit, State.govDom_mems, State.govTile_mems, State.setTile_mems]

@[simp] theorem State.startTile_mems (s : State) (t whole) : (s.startTile t whole).mems = s.mems := by
  unfold State.startTile
  dsimp only
  rw [State.setTile_mems, State.govInit_mems]

@[simp] theorem State.initPart_mems (s : State) (p g) : (s.initPart p g).mems = s.mems := by
  grind [State.initPart, State.setReg_mems, State.clearImg_mems]

theorem State.initCol_confined {s : State} (c whole) (h : Confined T m₀ s.mems) : Confined T m₀ (s.initCol c whole).mems := by
  unfold State.initCol
  refine each_confined _ _ (fun _ _ hu => by rwa [State.clearImg_mems]) ?_
  rw [State.clearImg_mems, State.setCtl_mems]
  refine h.of_tiles_eq (fun hk => ?_) rfl rfl rfl rfl
  simp only [Mems.Canonical, State.mems] at hk ⊢
  obtain ⟨hs, hc, hd, hb, hh, hm⟩ := hk
  exact ⟨hs, hc, hd, hb, hh, wf_dropIf zeroByte _ hm⟩

@[simp] theorem State.releaseCore_mems (s : State) (c) : (s.releaseCore c).mems = s.mems := by
  grind [State.releaseCore, State.setCsr_mems, State.setCore_mems]

theorem State.applyPart_confined {s : State} (m p g cols whole) (h : Confined Set.univ m₀ s.mems) : Confined Set.univ m₀ (s.applyPart m p g cols whole).mems := by
  grind [State.applyPart, State.initPart_mems, each_confined, State.initCol_confined, State.initTile_confined, State.applySection_confined, State.startTile_mems]

/-! ## Operations of Machine/Intc -/

@[simp] theorem State.modAgain_mems (old new : State) (c g) : (State.modAgain old new c g).mems = new.mems := by
  grind [State.modAgain, State.setCtl_mems]

@[simp] theorem State.intDoorbell_mems (s : State) (c src) : (s.intDoorbell c src).mems = s.mems := by
  grind [State.intDoorbell, State.raise_mems, State.incReg_mems]

@[simp] theorem State.enSet_mems (s : State) (c n w) : (s.enSet c n w).mems = s.mems := by
  grind [State.enSet, State.setReg_mems]

@[simp] theorem State.enClr_mems (s : State) (c n w) : (s.enClr c n w).mems = s.mems := by
  grind [State.enClr, State.modAgain_mems, State.setReg_mems]

@[simp] theorem State.pendSet_mems (s : State) (r c n w) : (s.pendSet r c n w).mems = s.mems := by
  grind [State.pendSet, State.setReg_mems, State.ordered_mems]

@[simp] theorem State.pendClr_mems (s : State) (c n w) : (s.pendClr c n w).mems = s.mems := by
  grind [State.pendClr, State.modAgain_mems, State.setReg_mems]

@[simp] theorem State.unpend_mems (s : State) (c src) : (s.unpend c src).mems = s.mems := by
  grind [State.unpend, State.setReg_mems]

@[simp] theorem State.intStatClr_mems (s : State) (c) : (s.intStatClr c).mems = s.mems := by
  grind [State.intStatClr, State.setReg_mems]

theorem State.timerMatch_confined {s : State} (c) (h : Confined Set.univ m₀ s.mems) : Confined Set.univ m₀ (s.timerMatch c).mems := by
  grind [State.timerMatch, State.reach_confined, State.raise_mems, State.setCtl_mems]

@[simp] theorem State.modTimeout_mems (s : State) (c g) : (s.modTimeout c g).mems = s.mems := by
  grind [State.modTimeout, State.setCtl_mems]

theorem State.onCsr_confined {f : State → State} (hf : ∀ u : State, Confined T m₀ u.mems → Confined T m₀ (f u).mems) {s : State} (c n write)
    (h : Confined T m₀ s.mems) : Confined T m₀ (s.onCsr c n write f).mems := by
  grind [State.onCsr, State.excTrap_mems, State.drawn_mems, State.awake_mems]

@[simp] theorem State.timecmpSet_mems (s : State) (c hi w) : (s.timecmpSet c hi w).mems = s.mems := by
  grind [State.timecmpSet, State.setCtl_mems, State.setCsr_mems]

@[simp] theorem State.claim_mems (s : State) (c pc) : (s.claim c pc).mems = s.mems := by
  grind [State.claim, State.setCsr_mems, State.incReg_mems, State.modAgain_mems, State.unpend_mems, State.trapEntry_mems, State.setCore_mems]

@[simp] theorem State.claimAt_mems (s : State) (c b) : (s.claimAt c b).mems = s.mems := by
  grind [State.claimAt, State.claim_mems, State.setCore_mems]

@[simp] theorem State.mretNow_mems (s : State) (c) : (s.mretNow c).mems = s.mems := by
  grind [State.mretNow, State.drawn_mems, State.excTrap_mems, State.setCsr_mems, State.setCore_mems]

@[simp] theorem State.errPop_mems (s : State) (c) : (s.errPop c).mems = s.mems := by
  grind [State.errPop, State.setCtl_mems]

@[simp] theorem State.errLostClr_mems (s : State) (c) : (s.errLostClr c).mems = s.mems := by
  grind [State.errLostClr, State.setRegF_mems]

theorem State.cmemWrite_confined {s : State} (c off w) (h : Confined T m₀ s.mems) : Confined T m₀ (s.cmemWrite c off w).mems := by
  grind [State.cmemWrite, each_confined, State.setCmemB_confined]

/-! ## Operations of Machine/Chitin -/

/-- A device reset empties every memory but the host's. -/
theorem State.deviceReset_confined {s : State} (cause external) (h : Confined Set.univ m₀ s.mems) :
    Confined Set.univ m₀ (s.deviceReset cause external).mems :=
  h.of_canonical fun ⟨_, _, _, _, ho, _⟩ => ⟨rfl, rfl, rfl, rfl, ho, rfl⟩

theorem State.powerOn_confined {s : State} (h : Confined Set.univ m₀ s.mems) : Confined Set.univ m₀ s.powerOn.mems := by
  grind [State.powerOn, State.deviceReset_confined, State.drawn_mems, State.setReg_mems, State.mems]

@[simp] theorem State.noteFail_mems (s : State) (step detail) : (s.noteFail step detail).mems = s.mems := by
  grind [State.noteFail, State.incReg_mems, State.drawn_mems, State.setRegF_mems]

theorem State.bootFail_confined {s : State} (step detail) (h : Confined Set.univ m₀ s.mems) :
    Confined Set.univ m₀ (s.bootFail step detail).mems := by
  unfold State.bootFail
  dsimp only
  generalize hr : (s.noteFail step detail).deviceReset 2 false = u
  have hu : Confined Set.univ m₀ u.mems := hr ▸ State.deviceReset_confined 2 false (by rwa [State.noteFail_mems])
  exact hu

@[simp] theorem State.hbmUp_mems (s : State) : s.hbmUp.mems = s.mems := by
  grind [State.hbmUp, each_mems, State.setDom_mems]

@[simp] theorem State.selfTest_mems (s : State) (i) : (s.selfTest i).mems = s.mems := by
  grind [State.selfTest, each_mems, State.setDom_mems, State.setReg_mems, State.noteFail_mems]

@[simp] theorem State.imageIn_mems (s : State) (m) : (s.imageIn m).mems = s.mems := rfl

theorem State.keysIn_confined {s : State} (h : Confined T m₀ s.mems) : Confined T m₀ s.keysIn.mems :=
  each_confined _ _ (fun _ _ hu => by simpa using hu)
    (h.of_tiles_eq (fun ⟨hs, hc, hd, _, hh, hm⟩ => ⟨hs, hc, hd, rfl, hh, hm⟩) rfl rfl rfl rfl)

@[simp] theorem State.placeAll_mems (s : State) (m) : (s.placeAll m).mems = s.mems := by
  grind [State.placeAll, each_mems, State.placeAt_mems, State.noteFail_mems, State.setPart_mems, State.setDom_mems, State.mems]

theorem State.applyImage_confined {s : State} (m) (h : Confined Set.univ m₀ s.mems) : Confined Set.univ m₀ (s.applyImage m).mems := by
  unfold State.applyImage
  dsimp only
  rw [State.hostDom_mems]
  generalize he : each (each (each s _ _) m.sections _) _ _ = v
  have hv : Confined Set.univ m₀ v.mems := by
    rw [← he]
    refine each_confined _ _ (fun _ _ hu => each_confined _ _ (fun _ _ hv => by simpa using hv) hu) ?_
    refine each_confined _ _ (fun _ _ hu => State.applyDevice_confined _ (State.applySection_confined _ _ _ hu)) ?_
    refine each_confined _ _ (fun u p hu => ?_) h
    split
    · exact hu
    · refine each_confined _ _ (fun _ _ hv => State.initTile_confined _ _ hv) ?_
      exact each_confined _ _ (fun _ _ hv => State.initCol_confined _ _ hv) (by rwa [State.initPart_mems])
  exact hv.of_canonical fun ⟨hs, hc, hd, hb, hh, hm⟩ => ⟨hs, hc, hd, wf_dropIf _ _ hb, hh, hm⟩

theorem State.linksUp_confined {s : State} (i) (h : Confined T m₀ s.mems) : Confined T m₀ (s.linksUp i).mems := by
  grind [State.linksUp, each_confined, State.portUp_mems, State.portTo_mems, State.trained_confined, State.attemptFails_confined, State.keyed_confined, State.noteFail_mems, State.portPower_mems, State.setReg_mems, State.mems]

@[simp] theorem State.coresOut_mems (s : State) : s.coresOut.mems = s.mems := by
  grind [State.coresOut, each_mems, State.releaseCore_mems, State.drawn_mems]

@[simp] theorem State.atStep_mems (s : State) (n) : (s.atStep n).mems = s.mems := rfl

theorem State.bootImage_confined {s : State} (i) (h : Confined Set.univ m₀ s.mems) : Confined Set.univ m₀ (s.bootImage i).mems := by
  grind [State.bootImage, State.bootFail_confined, State.imageIn_mems, State.placeAll_mems, State.keysIn_confined, State.linksUp_confined, State.applyImage_confined, State.atStep_mems, State.coresOut_mems, State.mems]

theorem State.boot_confined {s : State} (i) (h : Confined Set.univ m₀ s.mems) : Confined Set.univ m₀ (s.boot i).mems := by
  grind [State.boot, State.bootFail_confined, State.bootImage_confined, State.atStep_mems, State.selfTest_mems, State.hbmUp_mems, State.mems]

@[simp] theorem State.doneRise_mems (s : State) : s.doneRise.mems = s.mems := by
  grind [State.doneRise, each_mems, State.raise_mems, State.mems]

@[simp] theorem State.spdmBytes_mems (s : State) (n f) : (s.spdmBytes n f).mems = s.mems := by
  grind [State.spdmBytes, State.drawn_mems, State.mems]

@[simp] theorem State.answer_mems (s : State) (r) : (s.answer r).mems = s.mems := rfl

@[simp] theorem State.spdmTo_mems (s : State) (x1) : (s.spdmTo x1).mems = s.mems := rfl

theorem State.onSpdm_mems (s : State) (ok) {f : State → State} (hf : ∀ u, (f u).mems = u.mems) : (s.onSpdm ok f).mems = s.mems := by
  grind [State.onSpdm, State.answer_mems]

@[simp] theorem State.spdmFinish_mems (s : State) (verified) : (s.spdmFinish verified).mems = s.mems := by
  grind [State.spdmFinish, State.onSpdm_mems, State.answer_mems, State.spdmTo_mems]

@[simp] theorem State.spdmEnd_mems (s : State) : s.spdmEnd.mems = s.mems := by
  grind [State.spdmEnd, State.onSpdm_mems, State.answer_mems, State.spdmTo_mems, State.mems]

@[simp] theorem State.ideKey_mems (s : State) (k key) : (s.ideKey k key).mems = s.mems := by
  grind [State.ideKey, State.onSpdm_mems, State.mems]

@[simp] theorem State.provision_mems (s : State) (w counter) : (s.provision w counter).mems = s.mems := by
  grind [State.provision, State.onSpdm_mems, State.answer_mems, State.mems]

@[simp] theorem State.pattGo_mems (s : State) (p) : (s.pattGo p).mems = s.mems := by
  grind [State.pattGo, State.setPart_mems]

theorem State.pattDone_confined {s : State} (p) (h : Confined T m₀ s.mems) : Confined T m₀ (s.pattDone p).mems := by
  unfold State.pattDone
  dsimp only
  split
  · exact h
  split
  · rwa [State.setPart_mems]
  split
  · exact each_confined _ _ (fun _ _ hu => by simpa using hu) h
  · rw [State.drawn_mems, State.setPart_mems]
    exact State.putHbm_confined _ _ _ h

/-! ## Operations of Machine/Csr -/

@[simp] theorem State.pmpCfgSet_mems (s : State) (c n w) : (s.pmpCfgSet c n w).mems = s.mems := by
  grind [State.pmpCfgSet, State.setCsr_mems]

@[simp] theorem State.csrRead_mems (s : State) (c n) : (s.csrRead c n).mems = s.mems := by
  grind [State.csrRead, State.drawn_mems, State.setCtl_mems, State.mems]

@[simp] theorem State.csrSet_mems (s : State) (c n w) : (s.csrSet c n w).mems = s.mems := by
  grind [State.csrSet, State.timecmpSet_mems, State.pmpCfgSet_mems, State.setCore_mems, State.setCsr_mems]

/-! ## Operations of Machine/Fabric -/

@[simp] theorem State.ingressIn_mems (s : State) (q b) : (s.ingressIn q b).mems = s.mems := by
  grind [State.ingressIn, State.incReg_mems, State.setIngress_mems]

@[simp] theorem State.bellDrop_mems (s : State) (c) : (s.bellDrop c).mems = s.mems := by
  grind [State.bellDrop, State.incReg_mems]

@[simp] theorem State.doorbell_mems (s : State) (c o) : (s.doorbell c o).mems = s.mems := by
  grind [State.doorbell, State.bellDrop_mems, State.raise_mems]

@[simp] theorem State.flush_mems (s : State) (q) : (s.flush q).mems = s.mems := by
  grind [State.flush, State.setIngress_mems, State.incReg_mems, State.setRet_mems]

@[simp] theorem State.setStage_mems (s : State) (c f v) : (s.setStage c f v).mems = s.mems := by
  grind [State.setStage, State.setRegF_mems]

@[simp] theorem State.gsrAssert_mems (s : State) : s.gsrAssert.mems = s.mems := by
  grind [State.gsrAssert, State.incReg_mems, State.setReg_mems, each_mems, State.setStage_mems, State.flush_mems, State.raise_mems, State.mems]

@[simp] theorem State.gsrDeassert_mems (s : State) : s.gsrDeassert.mems = s.mems := by
  grind [State.gsrDeassert, State.setReg_mems]

@[simp] theorem State.gsrHoldEnds_mems (s : State) : s.gsrHoldEnds.mems = s.mems := by
  grind [State.gsrHoldEnds, State.setReg_mems, each_mems, State.setStage_mems]

@[simp] theorem State.probeSend_mems (s : State) (c f) : (s.probeSend c f).mems = s.mems := by
  grind [State.probeSend, State.send_mems, State.mems]

@[simp] theorem State.probeResult_mems (s : State) (c f valid) : (s.probeResult c f valid).mems = s.mems := by
  grind [State.probeResult, State.setStage_mems, State.mems]

@[simp] theorem State.fabClear_mems (s : State) : s.fabClear.mems = s.mems := by
  grind [State.fabClear, each_mems, State.setRegF_mems, State.setReg_mems]

/-! ## Operations of Machine/Engine -/

theorem State.startReq_confined {s : State} (by_ t e pc) (h : Confined T m₀ s.mems) : Confined T m₀ (s.startReq by_ t e pc).mems :=
  State.via_confined (fun _ hu => by rwa [State.startOp_mems]) _ _ _ h

theorem State.startNone_confined {s : State} (by_ t) (h : Confined T m₀ s.mems) : Confined T m₀ (s.startNone by_ t).mems :=
  State.via_confined (fun u hu => by
    split
    · exact hu
    · rwa [State.askWake_mems]) _ _ _ h

@[simp] theorem State.imemLoad_mems (s : State) (t w) : (s.imemLoad t w).mems = s.mems := by
  grind [State.imemLoad, State.imemWord_mems, State.setTr_mems]

@[simp] theorem State.imArm_mems (s : State) (t e) : (s.imArm t e).mems = s.mems := by
  grind [State.imArm, State.setEng_mems]

@[simp] theorem State.imDisarm_mems (s : State) (t e) : (s.imDisarm t e).mems = s.mems := by
  grind [State.imDisarm, State.setEng_mems]

@[simp] theorem State.imctlWrite_mems (s : State) (t e w) : (s.imctlWrite t e w).mems = s.mems := by
  grind [State.imctlWrite, State.imArm_mems, State.imDisarm_mems, State.setEng_mems, State.plainWrite_mems]

@[simp] theorem State.imldClear_mems (s : State) (t) : (s.imldClear t).mems = s.mems := by
  grind [State.imldClear, State.setRegF_mems]

@[simp] theorem State.semWrite_mems (s : State) (t n w) : (s.semWrite t n w).mems = s.mems := by
  grind [State.semWrite, State.setPosterW_mems, State.setSem_mems]

@[simp] theorem State.semPostWrite_mems (s : State) (t w) : (s.semPostWrite t w).mems = s.mems := by
  grind [State.semPostWrite, State.addSem_mems]

@[simp] theorem State.unhaltMask_mems (s : State) (t m step) : (s.unhaltMask t m step).mems = s.mems := by
  grind [State.unhaltMask, each_mems, State.unhalt_mems]

@[simp] theorem State.srseed_mems (s : State) (t w) : (s.srseed t w).mems = s.mems := by
  grind [State.srseed, State.setTr_mems, State.setTile_mems]

/-! ## Operations of Machine/PowerOps -/

theorem State.doHeld_confined {s : State} (a) (h : Confined T m₀ s.mems) : Confined T m₀ (s.doHeld a).mems := by
  unfold State.doHeld
  split <;> grind [State.startOp_mems, State.semPostWrite_mems, State.spownNow_mems, State.addSem_mems, State.tlApply_confined]

@[simp] theorem State.tlAgain_mems (s : State) (d) : (s.tlAgain d).mems = s.mems := by
  grind [State.tlAgain, each_mems, State.takeWaits_mems, State.fireDue_mems, State.retest_mems]

theorem State.opened_confined {s : State} (d) (h : Confined T m₀ s.mems) : Confined T m₀ (s.opened d).mems := by
  grind [State.opened, State.govDom_mems, State.setDom_mems, State.barRetry_confined, State.tlAgain_mems, each_confined, State.doHeld_confined, State.mems]

theorem State.abandon_confined {s : State} (d) (h : Confined T m₀ s.mems) : Confined T m₀ (s.abandon d).mems := by
  grind [State.abandon, State.opened_confined]

theorem State.wakeUp_confined {s : State} (d) (h : Confined T m₀ s.mems) : Confined T m₀ (s.wakeUp d).mems := by
  grind [State.wakeUp, State.abandon_confined, State.askWake_mems, State.setDom_mems]

theorem State.loseTile_confined {s : State} (t) (h : Confined Set.univ m₀ s.mems) : Confined Set.univ m₀ (s.loseTile t).mems :=
  h.of_canonical fun ⟨hs, hc, hd, hh, ho, hm⟩ => ⟨wf_dropIf _ _ hs, hc, hd, hh, ho, hm⟩

theorem State.loseTdom_confined {s : State} (d) (h : Confined Set.univ m₀ s.mems) : Confined Set.univ m₀ (s.loseTdom d).mems := by
  refine each_confined _ _ (fun u c hu => ?_) h
  dsimp only
  refine each_confined _ _ (fun _ _ hv => State.loseTile_confined _ hv) ?_
  rw [State.setPackage_mems, State.setCore_mems, State.setCtl_mems]
  exact hu.of_canonical fun ⟨hs, hc, hd, hb, hh, hm⟩ => ⟨hs, hc, hd, hb, hh, wf_dropIf _ _ hm⟩

theorem State.loseCdom_confined {s : State} (d) (h : Confined T m₀ s.mems) : Confined T m₀ (s.loseCdom d).mems := by
  grind [State.loseCdom, each_confined, State.zeroSlot_confined, State.mems]

theorem State.reload_confined {s : State} (d) (h : Confined Set.univ m₀ s.mems) : Confined Set.univ m₀ (s.reload d).mems := by
  unfold State.reload
  split
  · exact h
  · rw [State.drawn_mems]
    refine each_confined _ _ (fun _ _ hu => by rwa [State.releaseCore_mems]) ?_
    refine each_confined _ _ (fun u p hu => ?_) h
    split
    · exact hu
    · exact State.applyPart_confined _ _ _ _ _ hu

theorem State.reloadFails_confined {s : State} (d) (h : Confined T m₀ s.mems) : Confined T m₀ (s.reloadFails d).mems := by
  grind [State.reloadFails, State.setDom_mems, each_confined, State.errHead_confined]

/-! ## Operations of Machine/Reset -/

theorem State.resetBegin_confined {s : State} (p) (h : Confined T m₀ s.mems) : Confined T m₀ (s.resetBegin p).mems := by
  grind [State.resetBegin, each_confined, State.wakeUp_confined, State.setPart_mems, State.setCore_mems, State.loseAll_confined, State.stopTile_mems]

theorem State.presetNow_confined {s : State} (p) (h : Confined T m₀ s.mems) : Confined T m₀ (s.presetNow p).mems := by
  grind [State.presetNow, State.resetBegin_confined, State.mems]

theorem State.preset_confined {s : State} (r w) (h : Confined T m₀ s.mems) : Confined T m₀ (s.preset r w).mems := by
  grind [State.preset, State.via_confined, State.presetNow_confined]

theorem State.resetTile_confined {s : State} (t) (h : Confined Set.univ m₀ s.mems) : Confined Set.univ m₀ (s.resetTile t).mems := by
  unfold State.resetTile
  dsimp only
  rw [State.setTile_mems]
  refine each_confined _ _ (fun _ _ hu => by simpa using hu) ?_
  rw [State.setTr_mems]
  refine each_confined _ _ (fun _ _ hu => by simpa using hu) ?_
  refine each_confined _ _ (fun _ _ hu => by simpa using hu) ?_
  refine each_confined _ _ (fun _ _ hu => by simpa using hu) ?_
  refine each_confined _ _ (fun _ _ hu => State.emptySlot_confined _ _ hu) ?_
  refine State.zeroVregs_confined _ (State.zeroAcc_confined _ (State.zeroWorking_confined _ ?_))
  refine each_confined _ _ (fun _ _ hu => by simpa using hu) ?_
  refine each_confined _ _ (fun _ _ hu => by simpa using hu) ?_
  rw [State.killWeir_mems]
  exact State.killMover_confined _ h

theorem State.rekey_confined {s : State} (p) (h : Confined T m₀ s.mems) : Confined T m₀ (s.rekey p).mems :=
  h.of_tiles_eq (fun ⟨hs, hc, hd, hh, ho, hm⟩ => ⟨hs, hc, hd, wf_dropIf _ _ hh, ho, hm⟩) rfl rfl rfl rfl

@[simp] theorem State.dropGrants_mems (s : State) (p) : (s.dropGrants p).mems = s.mems := by
  grind [State.dropGrants, State.setRegF_mems]

theorem State.resetEnds_confined {s : State} (p) (h : Confined Set.univ m₀ s.mems) : Confined Set.univ m₀ (s.resetEnds p).mems := by
  unfold State.resetEnds
  dsimp only
  split
  · exact h
  split
  · split
    · exact each_confined _ _ (fun _ _ hu => by simpa using hu) h
    · rw [State.settleAts_mems]
      refine State.barRetry_confined ?_
      rw [State.drawn_mems, State.setPart_mems, State.dropGrants_mems]
      refine each_confined _ _ (fun _ _ hu => by simpa using hu) (State.applyPart_confined _ _ _ _ _ ?_)
      exact each_confined _ _ (fun _ _ hu => State.resetTile_confined _ hu) (State.rekey_confined _ h)
  · exact h

/-! ## Operations of Machine/Power -/

@[simp] theorem State.quietEntry_mems (s : State) (d) : (s.quietEntry d).mems = s.mems := by
  grind [State.quietEntry, each_mems, State.setCore_mems, State.setDom_mems]

@[simp] theorem State.close_mems (s : State) (d target) : (s.close d target).mems = s.mems := by
  grind [State.close, State.setDom_mems]

theorem State.idleTimeout_confined {s : State} (d us) (h : Confined Set.univ m₀ s.mems) : Confined Set.univ m₀ (s.idleTimeout d us).mems := by
  grind [State.idleTimeout, State.reach_confined, State.close_mems, State.setDom_mems]

theorem State.cisIdle_confined {s : State} (d) (h : Confined Set.univ m₀ s.mems) : Confined Set.univ m₀ (s.cisIdle d).mems := by
  grind [State.cisIdle, State.setDom_mems, State.reach_confined]

theorem State.closed_confined {s : State} (d) (h : Confined T m₀ s.mems) : Confined T m₀ (s.closed d).mems := by
  grind [State.closed, State.opened_confined, State.setDom_mems]

theorem State.entered_confined {s : State} (d) (h : Confined Set.univ m₀ s.mems) : Confined Set.univ m₀ (s.entered d).mems := by
  grind [State.entered, State.loseTdom_confined, State.loseCdom_confined, State.setDom_mems]

theorem State.cwakeReached_confined {s : State} (d) (h : Confined Set.univ m₀ s.mems) : Confined Set.univ m₀ (s.cwakeReached d).mems := by
  grind [State.cwakeReached, State.wakeUp_confined, State.reach_confined]

theorem State.wakeStart_confined {s : State} (d) (h : Confined T m₀ s.mems) : Confined T m₀ (s.wakeStart d).mems := by
  grind [State.wakeStart, State.setDom_mems, State.opened_confined]

theorem State.wakeEnd_confined {s : State} (d reloadOk) (h : Confined Set.univ m₀ s.mems) : Confined Set.univ m₀ (s.wakeEnd d reloadOk).mems := by
  grind [State.wakeEnd, State.opened_confined, State.reload_confined, State.reloadFails_confined]

@[simp] theorem State.reqResult_mems (s : State) (v) : (s.reqResult v).mems = s.mems := by
  grind [State.reqResult, State.setReg_mems]

@[simp] theorem State.toState_mems (s : State) (d target) : (s.toState d target).mems = s.mems := by
  grind [State.toState, State.reqResult_mems, State.setDom_mems, State.close_mems, State.portUp_mems, State.portDown_mems]

theorem State.toWake_confined {s : State} (d) (h : Confined T m₀ s.mems) : Confined T m₀ (s.toWake d).mems := by
  grind [State.toWake, State.reqResult_mems, State.wakeUp_confined]

theorem State.powerReq_confined {s : State} (d target) (h : Confined T m₀ s.mems) : Confined T m₀ (s.powerReq d target).mems := by
  grind [State.powerReq, State.reqResult_mems, State.toWake_confined, State.toState_mems, State.mems]

theorem State.pwake_confined {s : State} (p w) (h : Confined T m₀ s.mems) : Confined T m₀ (s.pwake p w).mems := by
  grind [State.pwake, State.wakeUp_confined, State.setPart_mems]

@[simp] theorem State.stepN_mems (s : State) (down) : (s.stepN down).mems = s.mems := by
  grind [State.stepN, each_mems, State.setDom_mems]

@[simp] theorem State.setGov_mems (s : State) (k) : (s.setGov k).mems = s.mems := by
  grind [State.setGov, each_mems, State.govDom_mems, State.mems]

@[simp] theorem State.allLowest_mems (s : State) : s.allLowest.mems = s.mems := by
  grind [State.allLowest, each_mems, State.setDom_mems, State.setGov_mems, State.mems]

@[simp] theorem State.lowerStep_mems (s : State) : s.lowerStep.mems = s.mems := by
  grind [State.lowerStep, State.stepN_mems, State.setGov_mems, State.mems]

@[simp] theorem State.raiseStep_mems (s : State) : s.raiseStep.mems = s.mems := by
  grind [State.raiseStep, State.setGov_mems, State.stepN_mems, State.mems]

@[simp] theorem State.governor_mems (s : State) (p m) : (s.governor p m).mems = s.mems := by
  grind [State.governor, State.allLowest_mems, State.lowerStep_mems, State.raiseStep_mems, State.mems]

@[simp] theorem State.capSet_mems (s : State) (w) : (s.capSet w).mems = s.mems := by
  grind [State.capSet, State.setReg_mems, State.mems]

@[simp] theorem State.junction_mems (s : State) (c) : (s.junction c).mems = s.mems := by
  grind [State.junction, State.sensed_mems, State.allLowest_mems, State.mems]

@[simp] theorem State.stackTemp_mems (s : State) (n c) : (s.stackTemp n c).mems = s.mems := by
  grind [State.stackTemp, State.setReg_mems, State.sensed_mems]

/-! ## Operations of Machine/ReadReg -/

@[simp] theorem State.readsZero_mems (s : State) (r a) : (s.readsZero r a).mems = s.mems := by
  unfold State.readsZero
  repeat' split
  all_goals rfl

@[simp] theorem State.readAt_mems (s : State) (r a) : (s.readAt r a).mems = s.mems := by
  grind [State.readAt, State.setShadow_mems, State.drawn_mems, State.mems]

@[simp] theorem State.pairRefused_mems (s : State) (p) : (s.pairRefused p).mems = s.mems := by
  grind [State.pairRefused, State.setPart_mems]

@[simp] theorem State.pairRead_mems (s : State) (r p) : (s.pairRead r p).mems = s.mems := by
  grind [State.pairRead, State.readAt_mems, State.pairRefused_mems, State.mems]

@[simp] theorem State.readReg_mems (s : State) (r a) : (s.readReg r a).mems = s.mems := by
  grind [State.readReg, State.readsZero_mems, State.turnedAway_mems, State.pairRead_mems, State.readAt_mems]

/-! ## Operations of Machine/Release -/

@[simp] theorem State.releaseTile_mems (s : State) (t) : (s.releaseTile t).mems = s.mems := by
  grind [State.releaseTile, each_mems, State.unhalt_mems, State.setMovq_mems, State.setTile_mems]

@[simp] theorem State.releaseHalt_mems (s : State) (c) : (s.releaseHalt c).mems = s.mems := by
  grind [State.releaseHalt, State.setCore_mems]

theorem State.doGsReq_confined {s : State} (a) (h : Confined T m₀ s.mems) : Confined T m₀ (s.doGsReq a).mems := by
  unfold State.doGsReq
  split <;> grind [State.presetNow_confined, State.powerReq_confined, State.destroyCtx_confined, State.destroyQueue_mems, State.evtFail_mems, State.evtResult_mems, State.evtDestroy_mems]

theorem State.gsRelease_confined {s : State} (h : Confined T m₀ s.mems) : Confined T m₀ s.gsRelease.mems := by
  unfold State.gsRelease
  dsimp only
  split
  · exact h
  generalize hp : each _ allPorts _ = u
  have hu : Confined T m₀ u.mems := by
    rw [← hp]
    refine each_confined _ _ (fun _ _ hv => by rwa [State.setPort_mems]) ?_
    refine each_confined _ _ (fun _ _ hv => by rwa [State.releaseHalt_mems]) ?_
    exact each_confined _ _ (fun _ _ hv => by rwa [State.releaseTile_mems]) h
  exact each_confined _ _ (fun _ _ hv => State.doGsReq_confined _ hv) hu

/-! ## Operations of Machine/Weevil -/

@[simp] theorem State.wvStart_mems (s : State) (t) : (s.wvStart t).mems = s.mems := by
  grind [State.wvStart, State.setTile_mems]

theorem State.wvFind_confined {mark : State → State} (hm : ∀ u : State, Confined T m₀ u.mems → Confined T m₀ (mark u).mems) {s : State}
    (t f o u addr bad) (h : Confined T m₀ s.mems) : Confined T m₀ (s.wvFind t f o u addr bad mark).mems := by
  unfold State.wvFind
  cases f <;> grind [State.wvErr_confined]

theorem State.wvScrub_confined {s : State} (t f) (h : Confined Set.univ m₀ s.mems) : Confined Set.univ m₀ (s.wvScrub t f).mems := by
  unfold State.wvScrub
  split <;> grind [State.setTile_mems, State.wvFind_confined, State.markSpad_confined, State.markAcc_confined, State.markCis_confined]

theorem State.scrubFault_confined {s : State} (t w) (h : Confined T m₀ s.mems) : Confined T m₀ (s.scrubFault t w).mems := by
  unfold State.scrubFault
  split <;> grind [State.setTile_mems, State.drawn_mems, State.errAt_confined]

theorem State.wvEnd_confined {s : State} (t) (h : Confined T m₀ s.mems) : Confined T m₀ (s.wvEnd t).mems := by
  grind [State.wvEnd, State.scrubFault_confined, State.setTile_mems]

theorem State.wvFault_confined {s : State} (t w) (h : Confined T m₀ s.mems) : Confined T m₀ (s.wvFault t w).mems := by
  unfold State.wvFault
  split <;> grind [State.scrubFault_confined]

theorem State.wvReload_confined {s : State} (t ok) (h : Confined T m₀ s.mems) : Confined T m₀ (s.wvReload t ok).mems := by
  grind [State.wvReload, State.setTile_mems, State.setTr_mems, State.drawn_mems, State.errAt_confined]

theorem State.patrol_confined {s : State} (n a f) (h : Confined T m₀ s.mems) : Confined T m₀ (s.patrol n a f).mems := by
  grind [State.patrol, State.incReg_mems, State.errHead_confined, State.markHbm_confined]

@[simp] theorem State.tileEccClr_mems (s : State) (t) : (s.tileEccClr t).mems = s.mems := by
  grind [State.tileEccClr, each_mems, State.setTr_mems]

/-! ## Operations of Machine/Weir -/

@[simp] theorem State.weiStopcntClear_mems (s : State) (t) : (s.weiStopcntClear t).mems = s.mems := by
  grind [State.weiStopcntClear, State.setTr_mems]

/-! ## Operations of Machine/RegWrite -/

theorem State.movStopAct_confined {s : State} (t w) (h : Confined Set.univ m₀ s.mems) : Confined Set.univ m₀ (s.movStopAct t w).mems := by
  grind [State.movStopAct, State.settleAts_mems, State.movStopFault_confined, State.movResume_mems, State.movStopcntClear_mems]

theorem State.weiStopAct_confined {s : State} (t w) (h : Confined T m₀ s.mems) : Confined T m₀ (s.weiStopAct t w).mems := by
  grind [State.weiStopAct, State.weirStopFault_confined, State.weirResume_mems]

@[simp] theorem State.pageopWrite_mems (s : State) (t w) : (s.pageopWrite t w).mems = s.mems := by
  grind [State.pageopWrite, State.pageStart_mems]

@[simp] theorem State.pageStatWrite_mems (s : State) (t w) : (s.pageStatWrite t w).mems = s.mems := by
  grind [State.pageStatWrite, State.setTile_mems]

@[simp] theorem State.dbgctlWrite_mems (s : State) (t w) : (s.dbgctlWrite t w).mems = s.mems := by
  grind [State.dbgctlWrite, State.unhaltMask_mems]

@[simp] theorem State.imldStatWrite_mems (s : State) (t w) : (s.imldStatWrite t w).mems = s.mems := by
  grind [State.imldStatWrite, State.plainWrite_mems, State.imldClear_mems]

theorem State.tileWrite_confined {s : State} (r t o w) (h : Confined Set.univ m₀ s.mems) : Confined Set.univ m₀ (s.tileWrite r t o w).mems := by
  unfold State.tileWrite
  split <;> grind [State.onTile_confined, State.startReq_confined, State.startNone_confined, State.imctlWrite_mems, State.semWrite_mems, State.queueCfg_mems, State.dstatWrite_mems, State.onTileWake_confined, State.semPostWrite_mems, State.imemLoad_mems, State.imldStatWrite_mems, State.movCtrl_mems, State.movStopAct_confined, State.ageCfg_mems, State.pageopWrite_mems, State.pageStatWrite_mems, State.weiStopAct_confined, State.weiStopcntClear_mems, State.realignWrite_mems, State.spownNow_mems, State.setTr_mems, State.tileEccClr_mems, State.dbgctlWrite_mems, State.srseed_mems, State.plainWrite_mems]

@[simp] theorem State.tctlWrite_mems (s : State) (t w) : (s.tctlWrite t w).mems = s.mems := by
  grind [State.tctlWrite, State.windowEnd_mems, State.windowStart_mems]

@[simp] theorem State.obsWrite_mems (s : State) (r t o w) : (s.obsWrite r t o w).mems = s.mems := by
  unfold State.obsWrite
  split <;> grind [State.plainWrite_mems, State.tctlWrite_mems, State.setRegF_mems]

@[simp] theorem State.prioWrite_mems (s : State) (c n w) : (s.prioWrite c n w).mems = s.mems := by
  grind [State.prioWrite, State.setReg_mems]

@[simp] theorem State.errPopWrite_mems (s : State) (c w) : (s.errPopWrite c w).mems = s.mems := by
  grind [State.errPopWrite, State.errPop_mems, State.errLostClr_mems]

@[simp] theorem State.intWrite_mems (s : State) (r c o w) : (s.intWrite r c o w).mems = s.mems := by
  unfold State.intWrite
  split <;> grind [State.intDoorbell_mems, State.intStatClr_mems, State.enSet_mems, State.enClr_mems, State.pendSet_mems, State.pendClr_mems, State.plainWrite_mems, State.modAgain_mems, State.ordered_mems, State.prioWrite_mems, State.errPopWrite_mems]

@[simp] theorem State.versionWrite_mems (s : State) (r p w) : (s.versionWrite r p w).mems = s.mems := by
  grind [State.versionWrite, State.version_mems]

theorem State.pwrWrite_confined {s : State} (r o w) (h : Confined Set.univ m₀ s.mems) : Confined Set.univ m₀ (s.pwrWrite r o w).mems := by
  unfold State.pwrWrite
  split <;> grind [State.capSet_mems, State.powerReq_confined, State.preset_confined, State.deviceReset_confined, State.plainWrite_mems, State.mems]

theorem State.gstopWrite_confined {s : State} (r w) (h : Confined T m₀ s.mems) : Confined T m₀ (s.gstopWrite r w).mems := by
  grind [State.gstopWrite, State.stopGo_mems, State.gsRelease_confined]

theorem State.dbgWrite_confined {s : State} (r o w) (h : Confined T m₀ s.mems) : Confined T m₀ (s.dbgWrite r o w).mems := by
  unfold State.dbgWrite
  split <;> grind [State.gstopWrite_confined, each_confined, State.setReg_mems, State.plainWrite_mems]

@[simp] theorem State.chiWrite_mems (s : State) (o w) : (s.chiWrite o w).mems = s.mems := by
  unfold State.chiWrite
  split <;> grind [each_mems, State.setReg_mems, State.mems]

@[simp] theorem State.portWrite_mems (s : State) (p o w) : (s.portWrite p o w).mems = s.mems := by
  unfold State.portWrite
  split <;> grind [State.vulCtl_mems, State.vulRetrain_mems, State.setPort_mems, State.plainWrite_mems]

@[simp] theorem State.fabWrite_mems (s : State) (o w) : (s.fabWrite o w).mems = s.mems := by
  grind [State.fabWrite, State.fabClear_mems, State.plainWrite_mems]

@[simp] theorem State.trcfgWrite_mems (s : State) (p w) : (s.trcfgWrite p w).mems = s.mems := by
  grind [State.trcfgWrite, State.plainWrite_mems]

@[simp] theorem State.trWrite_mems (s : State) (p o w) : (s.trWrite p o w).mems = s.mems := by
  grind [State.trWrite, State.plainWrite_mems]

theorem State.noOp_mems (s : State) {f : State → Nat → State} (hf : ∀ u i, (f u i).mems = u.mems) (res) :
    (s.noOp f res).mems = s.mems := by
  grind [State.noOp, State.drawn_mems]

theorem State.ctxCmd_confined {s : State} (r p w) (h : Confined T m₀ s.mems) : Confined T m₀ (s.ctxCmd r p w).mems := by
  grind [State.ctxCmd, State.createCtx_mems, State.destroyCmd_confined, State.noOp_mems, State.ctxResult_mems]

@[simp] theorem State.queueCmd_mems (s : State) (p w) : (s.queueCmd p w).mems = s.mems := by
  grind [State.queueCmd, State.createQueue_mems, State.destroyQueue_mems, State.noOp_mems, State.qResult_mems]

@[simp] theorem State.objCmd_mems (s : State) (p w) : (s.objCmd p w).mems = s.mems := by
  grind [State.objCmd, State.createObj_mems, State.objFree_mems, State.objQuery_mems, State.noOp_mems, State.objResult_mems]

@[simp] theorem State.evtCmd_mems (s : State) (p w) : (s.evtCmd p w).mems = s.mems := by
  grind [State.evtCmd, State.createEvt_mems, State.destroyEvt_mems, State.onEvt_mems, State.evtReset_mems, State.evtSignal_mems, State.noOp_mems, State.evtFail_mems]

theorem State.tlCmdWrite_confined {s : State} (p w) (h : Confined T m₀ s.mems) : Confined T m₀ (s.tlCmdWrite p w).mems := by
  grind [State.tlCmdWrite, State.takeWaits_mems, State.fireDue_mems, State.tlCmd_confined]

@[simp] theorem State.wsCmd_mems (s : State) (p w) : (s.wsCmd p w).mems = s.mems := by
  grind [State.wsCmd, State.disarmSlot_mems, State.armSlot_mems]

theorem State.partWrite_confined {s : State} (r p o w) (h : Confined T m₀ s.mems) : Confined T m₀ (s.partWrite r p o w).mems := by
  unfold State.partWrite
  split <;> grind [State.nreadWrite_mems, State.submit_mems, State.versionWrite_mems, State.mapInvalidate_mems, State.setPart_mems, State.pattGo_mems, State.pwake_confined, State.trWrite_mems, State.trcfgWrite_mems, State.ctxCmd_confined, State.queueCmd_mems, State.objCmd_mems, State.evtCmd_mems, State.tlCmdWrite_confined, State.wsCmd_mems, State.plainWrite_mems]

theorem State.writeAt_confined {s : State} (r a w) (h : Confined Set.univ m₀ s.mems) : Confined Set.univ m₀ (s.writeAt r a w).mems := by
  grind [State.writeAt, State.versionWrite_mems, State.pwrWrite_confined, State.dbgWrite_confined, State.fabWrite_mems, State.chiWrite_mems, State.onInt_confined, State.intWrite_mems, State.cmemWrite_confined, State.plainWrite_mems, State.setReg_mems, State.obsWrite_mems, State.tileWrite_confined, State.portWrite_mems, State.onPart_confined, State.partWrite_confined]

theorem State.pairWrite_confined {s : State} (r p w) (h : Confined Set.univ m₀ s.mems) : Confined Set.univ m₀ (s.pairWrite r p w).mems := by
  grind [State.pairWrite, State.writeAt_confined, State.pairRefused_mems]

theorem State.regWrite_confined {s : State} (r a w) (h : Confined Set.univ m₀ s.mems) : Confined Set.univ m₀ (s.regWrite r a w).mems := by
  grind [State.regWrite, State.turnedAway_mems, State.pairWrite_confined, State.writeAt_confined]

@[simp] theorem State.setGpr_mems (s : State) (c i v) : (s.setGpr c i v).mems = s.mems := by
  grind [State.setGpr, State.setCore_mems]

@[simp] theorem State.coreRead_mems (s : State) (c x2 n) : (s.coreRead c x2 n).1.mems = s.mems := by
  unfold State.coreRead
  split <;> grind [State.readReg_mems]

theorem State.coreWrite_confined {s : State} (c x2 n w) (h : Confined Set.univ m₀ s.mems) : Confined Set.univ m₀ (s.coreWrite c x2 n w).mems := by
  unfold State.coreWrite
  split <;> grind [each_confined, State.setCmemB_confined, State.putHbm_confined, State.regWrite_confined]

theorem State.coreDo_confined {s : State} (c k a x4) (h : Confined Set.univ m₀ s.mems) : Confined Set.univ m₀ (s.coreDo c k a x4).mems := by
  unfold State.coreDo
  split <;> grind [State.askWake_mems, State.coreRead_mems, State.setGpr_mems, State.coreWrite_confined, State.setCore_mems, State.drawn_mems]

theorem State.coreAccess_confined {s : State} (c k a pc) (h : Confined Set.univ m₀ s.mems) : Confined Set.univ m₀ (s.coreAccess c k a pc).mems := by
  grind [State.coreAccess, State.drawn_mems, State.excTrap_mems, State.coreDo_confined, State.awake_mems, State.incReg_mems, State.errHead_confined]

theorem State.tapAccess_confined {s : State} (write a w) (h : Confined Set.univ m₀ s.mems) : Confined Set.univ m₀ (s.tapAccess write a w).mems := by
  grind [State.tapAccess, State.regWrite_confined, State.readReg_mems, State.mems]

/-! ## Operations of Machine/Dm -/

@[simp] theorem State.dmHalt_mems (s : State) (c) : (s.dmHalt c).mems = s.mems := by
  grind [State.dmHalt, State.setCore_mems, State.enterDebug_mems]

@[simp] theorem State.dmResume_mems (s : State) (c) : (s.dmResume c).mems = s.mems := by
  grind [State.dmResume, State.setCore_mems, State.enterDebug_mems]

@[simp] theorem State.dmHold_mems (s : State) (c) : (s.dmHold c).mems = s.mems := by
  grind [State.dmHold, State.setCore_mems, State.mems]

@[simp] theorem State.dmRelease_mems (s : State) (c) : (s.dmRelease c).mems = s.mems := by
  grind [State.dmRelease, State.releaseCore_mems]

@[simp] theorem State.dmResets_mems (s : State) (hart ndm) : (s.dmResets hart ndm).mems = s.mems := by
  grind [State.dmResets, each_mems, State.dmHold_mems, State.dmRelease_mems, State.mems]

@[simp] theorem State.dmControl_mems (s : State) (w) : (s.dmControl w).mems = s.mems := by
  grind [State.dmControl, State.dmResets_mems, State.setCore_mems, State.dmHalt_mems, State.dmResume_mems, State.mems]

@[simp] theorem State.setDmReg_mems (s : State) (c n w) : (s.setDmReg c n w).mems = s.mems := by
  grind [State.setDmReg, State.csrSet_mems, State.setGpr_mems]

@[simp] theorem State.dmCommand_mems (s : State) (w) : (s.dmCommand w).mems = s.mems := by
  grind [State.dmCommand, State.setDmReg_mems, State.mems]

@[simp] theorem State.dmWrite_mems (s : State) (a w) : (s.dmWrite a w).mems = s.mems := by
  unfold State.dmWrite
  split <;> grind [State.dmControl_mems, State.dmCommand_mems, State.mems]

@[simp] theorem State.dmi_mems (s : State) (op) : (s.dmi op).mems = s.mems := by
  grind [State.dmi, State.dmWrite_mems, State.mems]

/-! ## Operations of Machine/Molt -/

theorem State.moltFree_confined {s : State} (base off n) (h : Confined T m₀ s.mems) : Confined T m₀ (s.moltFree base off n).mems := by
  grind [State.moltFree, State.setHbmBytes_confined]

theorem State.moltWords_confined {s : State} (a l) (h : Confined T m₀ s.mems) : Confined T m₀ (s.moltWords a l).mems := by
  grind [State.moltWords, State.setHbmBytes_confined]

theorem State.moltPart_confined {s : State} (s0 base p) (h : Confined T m₀ s.mems) : Confined T m₀ (s.moltPart s0 base p).mems := by
  grind [State.moltPart, each_confined, State.moltWords_confined]

theorem State.moltTile_confined {s : State} (base t) (h : Confined T m₀ s.mems) : Confined T m₀ (s.moltTile base t).mems := by
  grind [State.moltTile, each_confined, State.moltFree_confined, State.moltWords_confined]

theorem State.molt_confined {s : State} (base) (h : Confined T m₀ s.mems) : Confined T m₀ (s.molt base).mems := by
  unfold State.molt
  dsimp only
  rw [State.drawn_mems]
  refine each_confined _ _ (fun _ _ hu => State.moltTile_confined _ _ hu) ?_
  refine each_confined _ _ (fun _ _ hu => State.moltWords_confined _ _ (State.moltFree_confined _ _ _ hu)) ?_
  refine each_confined _ _ (fun _ _ hu => State.moltPart_confined _ _ _ hu) (State.moltWords_confined _ _ ?_)
  exact State.moltFree_confined _ _ _ (State.moltFree_confined _ _ _ (State.moltFree_confined _ _ _ h))

theorem State.moltWrite_confined {s : State} (h : Confined T m₀ s.mems) : Confined T m₀ s.moltWrite.mems := by
  unfold State.moltWrite
  dsimp only
  split
  · exact h
  split
  · exact h
  split
  · exact h
  · generalize hm : s.molt _ = u
    have hu : Confined T m₀ u.mems := hm ▸ State.molt_confined _ h
    exact hu

/-! ## Operations of Machine/Tick -/

@[simp] theorem State.openSource_mems (s : State) : s.openSource.mems = s.mems := by
  grind [State.openSource, State.drawn_mems, State.raise_mems]

@[simp] theorem State.copyRuns_mems (s : State) (q) : (s.copyRuns q).mems = s.mems := by
  grind [State.copyRuns, State.setCopy_mems]

theorem State.tileSoft_confined {s : State} (t a y w e) (h : Confined Set.univ m₀ s.mems) : Confined Set.univ m₀ (s.tileSoft t a y w e).mems := by
  unfold State.tileSoft
  split <;> grind [State.wvFind_confined, State.markSpad_confined, State.markAcc_confined, State.markCis_confined, State.setImemP_mems, State.wvErr_confined, State.setVregP_mems, State.setEng_mems]

theorem State.softErrs_confined {s : State} (h : Confined Set.univ m₀ s.mems) : Confined Set.univ m₀ s.softErrs.mems := by
  grind [State.softErrs, State.drawn_mems, State.patrol_confined, State.errHead_confined, State.incReg_mems, State.tileSoft_confined]

@[simp] theorem State.deferAt_mems (s : State) (t) : (s.deferAt t).mems = s.mems := by
  grind [State.deferAt, State.incReg_mems]

theorem State.progress_confined {s : State} (h : Confined Set.univ m₀ s.mems) : Confined Set.univ m₀ s.progress.mems := by
  grind [State.progress, State.drawn_mems, each_confined, State.deferAt_mems, State.mxPass_mems, State.earlyXfers_confined]

theorem State.tick_confined {s : State} (h : Confined Set.univ m₀ s.mems) : Confined Set.univ m₀ s.tick.mems := by
  grind [State.tick, State.elapse_confined, State.drawn_mems, each_confined, State.copyRuns_mems, State.progress_confined, State.softErrs_confined, State.openSource_mems, State.sendIdle_mems]

/-! ## Commands -/

/-- What a command does to the memories: one that stands for a word of a program issues slots that keep to its tile; any other answers a next state that
keeps the canonical form. -/
inductive Effect (i : Instr) (s : State) : Prop
  | word {t : TileId} {e : EngId} {w : Nat} {ops : List SlotOp} (hexec : exec i s = .next (s.issueWord t e w ops))
      (htile : (wordOf i).map (·.1) = some t) (hlocal : ∀ o ∈ ops, o.Local t)
  | other {u : State} (hexec : exec i s = .next u) (hword : wordOf i = none)
      (hmems : ∀ m₀, Confined Set.univ m₀ s.mems → Confined Set.univ m₀ u.mems)

section
variable {i : Instr} {s u : State}

theorem Effect.slot {t : TileId} {e : EngId} {w : Nat} {o : SlotOp} (hexec : exec i s = .next (s.issueWord t e w [o]))
    (htile : (wordOf i).map (·.1) = some t) (hlocal : o.Local t) : Effect i s :=
  .word hexec htile (List.forall_mem_singleton.2 hlocal)

theorem Effect.keeps (hexec : exec i s = .next u) (hword : wordOf i = none) (hmems : u.mems = s.mems) : Effect i s :=
  .other hexec hword fun _ h => by rwa [hmems]

end

/-- Every command of the family has such an effect. -/
theorem exec_effect (i : Instr) (s : State) : Effect i s := by
  cases i with
  | registerWrite _ l w =>
    refine .other rfl rfl fun _ h => ?_
    cases l with
    | addr a => exact State.regWrite_confined _ _ _ h
    | csr c n =>
      dsimp only
      split
      · exact State.onCsr_confined (fun _ hu => by rwa [State.csrSet_mems]) _ _ _ h
      · exact h
  | vfIndirectRead _ _ => exact .other rfl rfl fun _ h => State.onPartRead_confined (fun _ hu => by rwa [State.pairRead_mems]) _ _ h
  | vfIndirectWrite _ _ _ => exact .other rfl rfl fun _ h => State.onPart_confined (fun _ hu => State.pairWrite_confined _ _ _ hu) _ _ h
  | srseedWrite _ _ _ => exact .other rfl rfl fun _ h => State.onTile_confined (fun _ hu => by rwa [State.srseed_mems]) _ _ _ h
  | mapInvalidate _ _ _ => exact .other rfl rfl fun _ h => State.onPart_confined (fun _ hu => by rwa [State.mapInvalidate_mems]) _ _ h
  | mapInvalidateDone _ => exact .other rfl rfl fun _ h => State.mapInvEnd_confined _ h
  | pageopInstall _ _ _ _ => exact .other rfl rfl fun _ h => State.onTile_confined (fun _ hu => by rwa [State.pageStart_mems]) _ _ _ h
  | pageopPromote _ _ _ _ => exact .other rfl rfl fun _ h => State.onTile_confined (fun _ hu => by rwa [State.pageStart_mems]) _ _ _ h
  | pageopDemote _ _ _ _ => exact .other rfl rfl fun _ h => State.onTile_confined (fun _ hu => by rwa [State.pageStart_mems]) _ _ _ h
  | pageopFree _ _ _ _ => exact .other rfl rfl fun _ h => State.onTile_confined (fun _ hu => by rwa [State.pageStart_mems]) _ _ _ h
  | pageopInvalidOp _ _ _ _ _ =>
    refine .other rfl rfl fun _ h => ?_
    split
    · exact h
    · exact State.onTile_confined (fun _ hu => by rwa [State.pageStart_mems]) _ _ _ h
  | pageopDataMove _ => exact .other rfl rfl fun _ h => State.pageData_confined _ h
  | pageopDone _ => exact .keeps rfl rfl (State.pageEnd_mems ..)
  | agecfgWrite _ _ _ => exact .other rfl rfl fun _ h => State.onTile_confined (fun _ hu => by rwa [State.ageCfg_mems]) _ _ _ h
  | ageTick _ => exact .other rfl rfl fun _ h => State.ageTick_confined _ h
  | vaultRefresh _ => exact .other rfl rfl fun _ h => h
  | vaultRefreshRateChange _ _ => exact .keeps rfl rfl (State.vaultTemp_mems ..)
  | vaultThrottle _ _ => exact .keeps rfl rfl (State.vaultTemp_mems ..)
  | weirNop t _ _ => exact .slot rfl rfl (slotWeirNop_local ..)
  | weirScore t _ => exact .slot rfl rfl (slotWeir_local ..)
  | weirAttend t _ => exact .slot rfl rfl (slotWeir_local ..)
  | weirTopk t _ => exact .slot rfl rfl (slotWeir_local ..)
  | weirAppend t _ => exact .slot rfl rfl (slotWeir_local ..)
  | weirReuse t _ => exact .slot rfl rfl (slotWeir_local ..)
  | weirGather t _ => exact .slot rfl rfl (slotWeir_local ..)
  | weirOpAccept _ => exact .other rfl rfl fun _ h => State.weirAccept_confined _ h
  | gatherListEntry _ => exact .other rfl rfl fun _ h => State.gatherNext_confined _ h
  | weirOpComplete _ => exact .other rfl rfl fun _ h => State.weirComplete_confined _ h
  | weirStopResume _ _ => exact .other rfl rfl fun _ h => State.onTile_confined (fun _ hu => by rwa [State.weirResume_mems]) _ _ _ h
  | weirStopFault _ _ _ => exact .other rfl rfl fun _ h => State.onTile_confined (fun _ hu => State.weirStopFault_confined _ _ hu) _ _ _ h
  | weiStopcntClear _ _ => exact .other rfl rfl fun _ h => State.onTile_confined (fun _ hu => by rwa [State.weiStopcntClear_mems]) _ _ _ h
  | slotScrubDone _ _ => exact .other rfl rfl fun _ h => State.scrubDone_confined _ _ h
  | programStart _ _ _ _ => exact .other rfl rfl fun _ h => State.startReq_confined _ _ _ _ h
  | programEnd _ _ => exact .keeps rfl rfl (State.programEnd_mems ..)
  | imemLoadWrite _ _ _ => exact .other rfl rfl fun _ h => State.onTile_confined (fun _ hu => by rwa [State.imemLoad_mems]) _ _ _ h
  | imemArm _ _ _ => exact .other rfl rfl fun _ h => State.onTile_confined (fun _ hu => by rwa [State.imArm_mems]) _ _ _ h
  | imemDisarm _ _ _ => exact .other rfl rfl fun _ h => State.onTile_confined (fun _ hu => by rwa [State.imDisarm_mems]) _ _ _ h
  | imldDropCountClear _ _ => exact .other rfl rfl fun _ h => State.onTile_confined (fun _ hu => by rwa [State.imldClear_mems]) _ _ _ h
  | engineWordIssue _ _ => exact .other rfl rfl fun _ h => State.issueNext_confined _ (Set.mem_univ _) h
  | scNop t _ => exact .slot rfl rfl emptySlot_local
  | scAdd t _ _ _ _ => exact .slot rfl rfl (slotAlu_local ..)
  | scSub t _ _ _ _ => exact .slot rfl rfl (slotAlu_local ..)
  | scAnd t _ _ _ _ => exact .slot rfl rfl (slotAlu_local ..)
  | scOr t _ _ _ _ => exact .slot rfl rfl (slotAlu_local ..)
  | scXor t _ _ _ _ => exact .slot rfl rfl (slotAlu_local ..)
  | scSll t _ _ _ _ => exact .slot rfl rfl (slotAlu_local ..)
  | scSrl t _ _ _ _ => exact .slot rfl rfl (slotAlu_local ..)
  | scSra t _ _ _ _ => exact .slot rfl rfl (slotAlu_local ..)
  | scSlt t _ _ _ _ => exact .slot rfl rfl (slotAlu_local ..)
  | scSltu t _ _ _ _ => exact .slot rfl rfl (slotAlu_local ..)
  | scMul t _ _ _ _ => exact .slot rfl rfl (slotAlu_local ..)
  | scAddi t _ _ _ _ => exact .slot rfl rfl (slotImm_local ..)
  | scAndi t _ _ _ _ => exact .slot rfl rfl (slotImm_local ..)
  | scLi t _ _ _ => exact .slot rfl rfl (slotLi_local ..)
  | scLih t _ _ _ => exact .slot rfl rfl (slotLih_local ..)
  | scLw t _ _ _ _ => exact .slot rfl rfl (slotLw_local ..)
  | scSw t _ _ _ _ => exact .slot rfl rfl (slotSw_local ..)
  | scRdix t _ _ _ => exact .slot rfl rfl (slotRdix_local ..)
  | scBeq t _ _ _ _ => exact .slot rfl rfl (slotBr_local ..)
  | scBne t _ _ _ _ => exact .slot rfl rfl (slotBr_local ..)
  | scBlt t _ _ _ _ => exact .slot rfl rfl (slotBr_local ..)
  | scBge t _ _ _ _ => exact .slot rfl rfl (slotBr_local ..)
  | scJmp t _ _ => exact .slot rfl rfl (slotBranch_local ..)
  | scEnd t _ => exact .slot rfl rfl (slotEnd_local ..)
  | lpBegin t _ _ _ => exact .slot rfl rfl (slotLoop_local ..)
  | agSet t _ _ _ _ _ => exact .slot rfl rfl (slotAg_local ..)
  | semWait t _ _ _ => exact .slot rfl rfl (slotWait_local ..)
  | semPost t _ _ _ => exact .slot rfl rfl (slotPost_local ..)
  | semRpost t _ _ _ _ => exact .slot rfl rfl (slotRpost_local ..)
  | evtSig t _ _ => exact .slot rfl rfl (slotEvt_local ..)
  | tlSig t _ _ _ => exact .slot rfl rfl (slotTl_local ..)
  | scFence t _ => exact .slot rfl rfl (slotFence_local ..)
  | postTakesEffect _ _ => exact .other rfl rfl fun _ h => State.postNow_confined _ _ h
  | engineSignalSend _ _ => exact .other rfl rfl fun _ h => State.signalNow_confined _ _ h
  | remotePostArrival t =>
    refine .other rfl rfl fun m₀ h => ?_
    have hpost : Confined Set.univ m₀ (s.bringPost t).mems := by exact State.bringPost_confined _ h
    split
    · exact State.rpostArrive_confined _ hpost
    split
    · exact hpost
    · rwa [State.askWake_mems]
  | semaphoreWrite _ _ _ _ => exact .other rfl rfl fun _ h => State.onTile_confined (fun _ hu => by rwa [State.semWrite_mems]) _ _ _ h
  | sempostWrite _ _ _ => exact .other rfl rfl fun _ h => State.onTileWake_confined (fun _ hu => by rwa [State.semPostWrite_mems]) _ _ _ _ h
  | mxNop t => exact .slot rfl rfl emptySlot_local
  | mxProb t _ => exact .slot rfl rfl (slotMx_local ..)
  | mxProbStart _ => exact .other rfl rfl fun _ h => State.mxStart_confined _ h
  | mxProbComplete _ => exact .other rfl rfl fun _ h => State.mxComplete_confined _ h
  | drNop t => exact .slot rfl rfl emptySlot_local
  | drWrite t _ => exact .slot rfl rfl (slotDr_local ..)
  | drWriteStart _ => exact .other rfl rfl fun _ h => State.drStart_confined _ h
  | drWriteComplete _ => exact .other rfl rfl fun _ h => State.drComplete_confined _ h
  | extBeatSend _ => exact .other rfl rfl fun _ h => State.extSend_confined _ h
  | extResultDue _ _ _ => exact .other rfl rfl fun _ h => State.extResult_confined _ _ _ h
  | extStrayResult _ => exact .keeps rfl rfl (State.incReg_mems ..)
  | vxNop t => exact .slot rfl rfl emptySlot_local
  | vxFadd t _ => exact .slot rfl rfl (slotFp_local ..)
  | vxFsub t _ => exact .slot rfl rfl (slotFp_local ..)
  | vxFmul t _ => exact .slot rfl rfl (slotFp_local ..)
  | vxFma t _ => exact .slot rfl rfl (slotFp_local ..)
  | vxFms t _ => exact .slot rfl rfl (slotFp_local ..)
  | vxFnma t _ => exact .slot rfl rfl (slotFp_local ..)
  | vxScan t _ => exact .slot rfl rfl (slotScan_local ..)
  | vxTapmv t _ => exact .slot rfl rfl (slotTap_local ..)
  | vxMm t _ => exact .slot rfl rfl (slotMm_local ..)
  | vxMmbt t _ => exact .slot rfl rfl (slotMm_local ..)
  | vxMmat t _ => exact .slot rfl rfl (slotMm_local ..)
  | vxChol t _ => exact .slot rfl rfl (slotChol_local ..)
  | vxChsv t _ => exact .slot rfl rfl (slotChsv_local ..)
  | vxIadd t _ => exact .slot rfl rfl (slotInt_local ..)
  | vxIsub t _ => exact .slot rfl rfl (slotInt_local ..)
  | vxImul t _ => exact .slot rfl rfl (slotInt_local ..)
  | vxAnd t _ => exact .slot rfl rfl (slotInt_local ..)
  | vxOr t _ => exact .slot rfl rfl (slotInt_local ..)
  | vxXor t _ => exact .slot rfl rfl (slotInt_local ..)
  | vxShl t _ => exact .slot rfl rfl (slotInt_local ..)
  | vxShr t _ => exact .slot rfl rfl (slotInt_local ..)
  | vxSra t _ => exact .slot rfl rfl (slotInt_local ..)
  | vxFmin t _ => exact .slot rfl rfl (slotFp_local ..)
  | vxFmax t _ => exact .slot rfl rfl (slotFp_local ..)
  | vxFabs t _ => exact .slot rfl rfl (slotFp_local ..)
  | vxFneg t _ => exact .slot rfl rfl (slotFp_local ..)
  | vxCmp t _ => exact .slot rfl rfl (slotCmp_local ..)
  | vxSel t _ => exact .slot rfl rfl (slotSel_local ..)
  | vxMov t _ => exact .slot rfl rfl (slotMove_local ..)
  | vxBcs t _ => exact .slot rfl rfl (slotBcs_local ..)
  | vxBcl t _ => exact .slot rfl rfl (slotMove_local ..)
  | vxPerm t _ => exact .slot rfl rfl (slotMove_local ..)
  | vxGetl t _ => exact .slot rfl rfl (slotGetl_local ..)
  | vxLidx t _ => exact .slot rfl rfl ((slotMove_local ..).need0 _)
  | vxCvt t _ => exact .slot rfl rfl (slotCvt_local ..)
  | vxPlog t _ => exact .slot rfl rfl (slotPlog_local ..)
  | vxRsum t _ => exact .slot rfl rfl (slotSum_local ..)
  | vxRsuma t _ => exact .slot rfl rfl (slotSum_local ..)
  | vxRmax t _ => exact .slot rfl rfl (slotExt_local ..)
  | vxRmin t _ => exact .slot rfl rfl (slotExt_local ..)
  | vxExp t _ => exact .slot rfl rfl (slotTu_local ..)
  | vxExp2 t _ => exact .slot rfl rfl (slotTu_local ..)
  | vxLog t _ => exact .slot rfl rfl (slotTu_local ..)
  | vxLog2 t _ => exact .slot rfl rfl (slotTu_local ..)
  | vxRcp t _ => exact .slot rfl rfl (slotTu_local ..)
  | vxRsq t _ => exact .slot rfl rfl (slotTu_local ..)
  | vxSqrt t _ => exact .slot rfl rfl (slotTu_local ..)
  | vxDiv t _ => exact .slot rfl rfl (slotTu_local ..)
  | vxTanh t _ => exact .slot rfl rfl (slotTu_local ..)
  | vxSigm t _ => exact .slot rfl rfl (slotTu_local ..)
  | vxSin t _ => exact .slot rfl rfl (slotTu_local ..)
  | vxCos t _ => exact .slot rfl rfl (slotTu_local ..)
  | vxLd t _ => exact .slot rfl rfl (slotLd_local ..)
  | vxLdl t _ => exact .slot rfl rfl (slotLd_local ..)
  | vxLdu t _ => exact .slot rfl rfl (slotLd_local ..)
  | vxGath t _ => exact .slot rfl rfl (slotGath_local ..)
  | vxSt t _ => exact .slot rfl rfl (slotSt_local ..)
  | vxStl t _ => exact .slot rfl rfl (slotSt_local ..)
  | vxStu t _ => exact .slot rfl rfl (slotSt_local ..)
  | vxScat t _ => exact .slot rfl rfl (slotScat_local ..)
  | spownWrite _ _ _ => exact .other rfl rfl fun _ h => State.onTileWake_confined (fun _ hu => by rwa [State.spownNow_mems]) _ _ _ _ h
  | quarantineClear _ => exact .other rfl rfl fun _ h => State.quarClear_confined _ h
  | phasecntClear _ _ => exact .other rfl rfl fun _ h => State.onTile_confined (fun _ hu => by rwa [State.setTr_mems]) _ _ _ h
  | spconfClear _ _ => exact .other rfl rfl fun _ h => State.onTile_confined (fun _ hu => by rwa [State.setTr_mems]) _ _ _ h
  | movNop t => exact .slot rfl rfl emptySlot_local
  | movIssue t _ => exact .slot rfl rfl (slotIssue_local ..)
  | movDrain t _ _ => exact .slot rfl rfl (slotDrain_local ..)
  | movCtrlArm _ _ _ => exact .other rfl rfl fun _ h => State.onTile_confined (fun _ hu => by rwa [State.movCtrl_mems]) _ _ _ h
  | streamStart _ _ => exact .other rfl rfl fun _ h => by rw [State.settleAts_mems]; exact State.startStream_confined _ _ _ h
  | transferAdmit _ _ _ => exact .other rfl rfl fun _ h => by rw [State.settleAts_mems]; exact State.admitNext_confined _ _ _ h
  | transferRetire _ _ _ => exact .other rfl rfl fun _ h => by rw [State.settleAts_mems]; exact State.retire_confined _ _ _ h
  | transferRefused _ _ _ => exact .keeps rfl rfl (State.refuse_mems ..)
  | moverStopRecord _ _ => exact .other rfl rfl fun _ h => by rwa [State.settleAts_mems, State.stopRecord_mems]
  | prgResponse _ _ _ =>
    refine .other rfl rfl fun _ h => ?_
    split
    · rwa [State.prgAnswer_mems]
    · exact h
  | moverStopResume _ _ _ => exact .other rfl rfl fun _ h => State.onTile_confined (fun _ hu => by rwa [State.movResume_mems]) _ _ _ h
  | moverStopFault _ _ _ _ => exact .other rfl rfl fun _ h => State.onTile_confined (fun _ hu => by rw [State.settleAts_mems]; exact State.movStopFault_confined _ _ _ hu) _ _ _ h
  | moverStopcntClear _ _ => exact .other rfl rfl fun _ h => State.onTile_confined (fun _ hu => by rwa [State.movStopcntClear_mems]) _ _ _ h
  | queueCfgWrite _ _ _ _ => exact .other rfl rfl fun _ h => State.onTile_confined (fun _ hu => by rwa [State.queueCfg_mems]) _ _ _ h
  | overrunCountClear _ _ _ => exact .other rfl rfl fun _ h => State.onTile_confined (fun _ hu => by rwa [State.dstatWrite_mems]) _ _ _ h
  | rotationDeparture _ _ => exact .other rfl rfl fun _ h => State.depart_confined _ _ h
  | rotationHopComplete _ _ => exact .other rfl rfl fun _ h => State.hopDone_confined _ _ h
  | realignStart _ _ _ => exact .other rfl rfl fun _ h => State.onTile_confined (fun _ hu => by rwa [State.realignWrite_mems]) _ _ _ h
  | realignDone _ _ => exact .keeps rfl rfl (State.realignEnd_mems ..)
  | haloSend _ _ => exact .other rfl rfl fun _ h => State.haloStart_confined _ _ h
  | haloSendComplete _ _ => exact .other rfl rfl fun _ h => State.haloDone_confined _ _ h
  | portDomainUp _ => exact .keeps rfl rfl (State.portUp_mems ..)
  | vulCtlEnableWrite _ _ _ => exact .other rfl rfl fun _ h => State.via_confined (fun _ hu => by rwa [State.vulCtl_mems]) _ _ _ h
  | vulRetrain _ _ => exact .other rfl rfl fun _ h => State.via_confined (fun _ hu => by rwa [State.vulRetrain_mems]) _ _ _ h
  | linkTrainingComplete _ _ => exact .other rfl rfl fun _ h => State.trained_confined _ _ h
  | trainingTimeout _ =>
    refine .other rfl rfl fun _ h => ?_
    split
    · exact State.attemptFails_confined _ _ _ h
    · exact h
  | keyingComplete _ _ => exact .other rfl rfl fun _ h => State.keyed_confined _ _ h
  | keyingTimeout _ =>
    refine .other rfl rfl fun _ h => ?_
    split
    · exact State.attemptFails_confined _ _ _ h
    · exact h
  | culvertClose _ => exact .keeps rfl rfl (State.culvertClose_mems ..)
  | portLeave _ => exact .other rfl rfl fun _ h => State.portLeave_confined _ h
  | laneLockLoss _ => exact .keeps rfl rfl (State.retrain_mems ..)
  | peerLostTimeout _ => exact .keeps rfl rfl (State.retrain_mems ..)
  | flitReceive _ _ => exact .keeps rfl rfl (State.flitArrives_mems ..)
  | flitData _ _ => exact .keeps rfl rfl (State.flitTaken_mems ..)
  | flitIdle _ _ => exact .keeps rfl rfl (State.flitTaken_mems ..)
  | flitLeave _ _ => exact .keeps rfl rfl (State.flitTaken_mems ..)
  | flitKey _ _ => exact .keeps rfl rfl (State.flitTaken_mems ..)
  | keyEpochAdvance _ =>
    refine .other rfl rfl fun _ h => ?_
    split
    · rwa [State.setPort_mems]
    · exact h
  | msgWrite _ _ => exact .other rfl rfl fun _ h => State.request_confined _ _ _ h
  | msgRead _ _ => exact .other rfl rfl fun _ h => State.request_confined _ _ _ h
  | msgSignal _ _ => exact .other rfl rfl fun _ h => State.request_confined _ _ _ h
  | msgAck _ _ => exact .other rfl rfl fun _ h => State.response_confined _ _ _ h
  | msgReadData _ _ => exact .other rfl rfl fun _ h => State.response_confined _ _ _ h
  | msgNack _ _ => exact .other rfl rfl fun _ h => State.response_confined _ _ _ h
  | msgTime _ => exact .keeps rfl rfl (State.timeMsg_mems ..)
  | msgStop _ => exact .keeps rfl rfl (State.stopMsg_mems ..)
  | vulorRequestTimeout _ => exact .other rfl rfl fun _ h => State.vulTimeout_confined _ h
  | timeMessagePeriod _ =>
    refine .other rfl rfl fun _ h => ?_
    split
    · exact h
    · simpa using h
  | vulorCounterClear _ _ => exact .other rfl rfl fun _ h => State.via_confined (fun _ hu => by rwa [State.setPort_mems]) _ _ _ h
  | canalCounterClear _ _ => exact .other rfl rfl fun _ h => State.via_confined (fun _ hu => by rwa [State.setReg_mems, State.setReg_mems]) _ _ _ h
  | ingressBeat _ _ => exact .keeps rfl rfl (State.ingressIn_mems ..)
  | returnBeatTaken _ => exact .keeps rfl rfl (State.setRet_mems ..)
  | fabricDoorbell _ _ => exact .keeps rfl rfl (State.doorbell_mems ..)
  | gsrAssert => exact .keeps rfl rfl (State.gsrAssert_mems ..)
  | gsrDeassert => exact .keeps rfl rfl (State.gsrDeassert_mems ..)
  | gsrHoldExpiry => exact .keeps rfl rfl (State.gsrHoldEnds_mems ..)
  | probeSend _ _ => exact .keeps rfl rfl (State.probeSend_mems ..)
  | probeResultDue _ _ _ => exact .keeps rfl rfl (State.probeResult_mems ..)
  | fabricCounterClear _ => exact .other rfl rfl fun _ h => State.via_confined (fun _ hu => by rwa [State.fabClear_mems]) _ _ _ h
  | bar2Access _ _ _ =>
    refine .other rfl rfl fun _ h => ?_
    split
    · exact State.bar2_confined _ _ _ h
    · exact h
  | flrVf _ => exact .other rfl rfl fun _ h => State.flrVfNow_confined _ h
  | flrPf => exact .other rfl rfl fun _ h => State.flrPfNow_confined h
  | perst => exact .other rfl rfl fun _ h => State.perstNow_confined h
  | atsInvalidate _ _ _ => exact .keeps rfl rfl (State.atsInval_mems ..)
  | versionRequestFa1 _ _ => exact .keeps rfl rfl (State.version_mems ..)
  | versionRequestFa2 _ _ => exact .keeps rfl rfl (State.version_mems ..)
  | versionRequestReserved _ _ => exact .keeps rfl rfl (State.version_mems ..)
  | contextCreate _ _ => exact .keeps rfl rfl (State.createCtx_mems ..)
  | contextDestroy _ _ _ => exact .other rfl rfl fun _ h => State.destroyCmd_confined _ _ _ h
  | contextBecomesFree _ _ => exact .keeps rfl rfl (State.ctxFree_mems ..)
  | queueCreate _ _ => exact .other rfl rfl fun _ h => State.onPart_confined (fun _ hu => by rwa [State.createQueue_mems]) _ _ h
  | queueDestroy _ _ _ => exact .other rfl rfl fun _ h => State.onPart_confined (fun _ hu => by rwa [State.destroyQueue_mems]) _ _ h
  | objectCreate _ _ => exact .other rfl rfl fun _ h => State.onPart_confined (fun _ hu => by rwa [State.createObj_mems]) _ _ h
  | objectFree _ _ => exact .other rfl rfl fun _ h => State.onPart_confined (fun _ hu => by rwa [State.objFree_mems]) _ _ h
  | objectQuery _ _ => exact .other rfl rfl fun _ h => State.onPart_confined (fun _ hu => by rwa [State.objQuery_mems]) _ _ h
  | objectRelease _ _ => exact .keeps rfl rfl (State.objRelease_mems ..)
  | eventCreate _ _ _ => exact .other rfl rfl fun _ h => State.onPart_confined (fun _ hu => by rwa [State.createEvt_mems]) _ _ h
  | eventDestroy _ _ => exact .other rfl rfl fun _ h => State.onPart_confined (fun _ hu => by rwa [State.destroyEvt_mems]) _ _ h
  | eventReset _ _ =>
    exact .other rfl rfl fun _ h => State.onPart_confined (fun _ hu => by rwa [State.onEvt_mems _ _ fun _ _ => State.evtReset_mems ..]) _ _ h
  | eventSignal _ _ =>
    exact .other rfl rfl fun _ h => State.onPart_confined (fun _ hu => by rwa [State.onEvt_mems _ _ fun _ _ => State.evtSignal_mems ..]) _ _ h
  | eventQuery _ _ =>
    exact .other rfl rfl fun _ h => State.onPart_confined (fun _ hu => by rwa [State.onEvt_mems _ _ fun _ _ => rfl]) _ _ h
  | timelineSignal _ _ => exact .other rfl rfl fun _ h => State.onPart_confined (fun _ hu => by rw [State.takeWaits_mems]; exact by rw [State.fireDue_mems]; exact State.tlCmd_confined _ hu) _ _ h
  | waiterArm _ _ _ _ => exact .other rfl rfl fun _ h => State.onPart_confined (fun _ hu => by rwa [State.armSlot_mems]) _ _ h
  | waiterDisarm _ _ _ => exact .other rfl rfl fun _ h => State.onPart_confined (fun _ hu => by rwa [State.disarmSlot_mems]) _ _ h
  | waiterFire _ _ => exact .other rfl rfl fun _ h => by rwa [State.takeWaits_mems, State.fireSlot_mems]
  | queueSubmit _ _ _ _ => exact .other rfl rfl fun _ h => State.onPart_confined (fun _ hu => by rwa [State.submit_mems]) _ _ h
  | commandFetch _ _ _ => exact .other rfl rfl fun _ h => State.fetchCmd_confined _ _ _ h
  | cmdNop _ _ => exact .keeps rfl rfl (State.runNop_mems ..)
  | cmdLaunch _ _ _ => exact .other rfl rfl fun _ h => State.dispatchLaunch_confined _ _ _ h
  | launchEngineStart _ _ => exact .other rfl rfl fun _ h => State.launchStart_confined _ _ h
  | launchComplete _ _ => exact .keeps rfl rfl (State.launchDone_mems ..)
  | launchWatchdog _ _ => exact .other rfl rfl fun _ h => State.watchdog_confined _ _ h
  | commandSignalApply _ _ => exact .other rfl rfl fun _ h => by rw [State.takeWaits_mems]; exact by rw [State.fireDue_mems]; exact State.applySignal_confined _ _ h
  | noticeRecordWrite _ _ => exact .other rfl rfl fun _ h => State.noticeWrite_confined _ _ h
  | noticeReadUpdate _ _ _ _ => exact .other rfl rfl fun _ h => State.onPart_confined (fun _ hu => by rwa [State.nreadWrite_mems]) _ _ h
  | intDoorbellWrite _ _ _ => exact .other rfl rfl fun _ h => State.onInt_confined (fun _ hu => by rwa [State.intDoorbell_mems]) _ _ h
  | intEnableSet _ _ _ _ => exact .other rfl rfl fun _ h => State.onInt_confined (fun _ hu => by rwa [State.enSet_mems]) _ _ h
  | intEnableClear _ _ _ _ => exact .other rfl rfl fun _ h => State.onInt_confined (fun _ hu => by rwa [State.enClr_mems]) _ _ h
  | intPendingSet _ _ _ _ => exact .other rfl rfl fun _ h => State.onInt_confined (fun _ hu => by rwa [State.pendSet_mems]) _ _ h
  | intPendingClear _ _ _ _ => exact .other rfl rfl fun _ h => State.onInt_confined (fun _ hu => by rwa [State.pendClr_mems]) _ _ h
  | intStatClear _ _ => exact .other rfl rfl fun _ h => State.onInt_confined (fun _ hu => by rwa [State.intStatClr_mems]) _ _ h
  | timecmpWrite _ _ _ => exact .other rfl rfl fun _ h => State.onCsr_confined (fun _ hu => by rwa [State.timecmpSet_mems]) _ _ _ h
  | timerCompareMatch _ => exact .other rfl rfl fun _ h => State.timerMatch_confined _ h
  | moderationTimeout _ _ => exact .keeps rfl rfl (State.modTimeout_mems ..)
  | interruptClaim _ _ => exact .keeps rfl rfl (State.claimAt_mems ..)
  | mret _ => exact .keeps rfl rfl (State.mretNow_mems ..)
  | errorRecordPop _ _ => exact .other rfl rfl fun _ h => State.onInt_confined (fun _ hu => by rwa [State.errPop_mems]) _ _ h
  | errorLostcntClear _ _ => exact .other rfl rfl fun _ h => State.onInt_confined (fun _ hu => by rwa [State.errLostClr_mems]) _ _ h
  | coreAccessFault _ _ _ _ => exact .other rfl rfl fun _ h => State.coreAccess_confined _ _ _ _ h
  | coreMemoryExternalWrite _ _ _ _ => exact .other rfl rfl fun _ h => State.via_confined (fun _ hu => State.cmemWrite_confined _ _ _ hu) _ _ _ h
  | powerOn => exact .other rfl rfl fun _ h => State.powerOn_confined h
  | resetNLow => exact .other rfl rfl fun _ h => State.deviceReset_confined _ _ h
  | devresetWrite _ _ =>
    refine .other rfl rfl fun _ h => State.via_confined (fun _ hu => ?_) _ _ _ h
    split
    · exact State.deviceReset_confined _ _ hu
    · exact hu
  | bootStart _ => exact .other rfl rfl fun _ h => State.boot_confined _ h
  | doneLineRise => exact .keeps rfl rfl (State.doneRise_mems ..)
  | doneReleaseWrite _ =>
    refine .other rfl rfl fun _ h => State.via_confined (fun _ hu => ?_) _ _ _ h
    split <;> exact hu
  | linkskipClear _ _ =>
    refine .other rfl rfl fun _ h => State.via_confined (fun _ hu => ?_) _ _ _ h
    exact hu
  | bootCountersClear _ =>
    exact .other rfl rfl fun _ h => State.via_confined (fun _ hu => each_confined _ _ (fun _ _ hv => by rwa [State.setReg_mems]) hu) _ _ _ h
  | spdmGetVersion => exact .other rfl rfl fun _ h => by rwa [State.answer_mems, State.spdmTo_mems]
  | spdmGetCapabilities =>
    refine .other rfl rfl fun _ h => ?_
    split
    · rwa [State.answer_mems]
    · rwa [State.answer_mems, State.spdmTo_mems]
  | spdmNegotiateAlgorithms => exact .keeps rfl rfl (State.onSpdm_mems _ _ fun _ => by rw [State.answer_mems, State.spdmTo_mems])
  | spdmGetDigests => exact .keeps rfl rfl (State.onSpdm_mems _ _ fun _ => State.answer_mems ..)
  | spdmGetCertificate _ _ => exact .keeps rfl rfl (State.onSpdm_mems _ _ fun _ => State.answer_mems ..)
  | spdmChallenge _ => exact .keeps rfl rfl (State.onSpdm_mems _ _ fun _ => State.spdmBytes_mems ..)
  | spdmGetMeasurements _ =>
    refine .keeps rfl rfl (State.onSpdm_mems _ _ fun _ => ?_)
    split
    · split <;> exact State.answer_mems ..
    · exact State.answer_mems ..
  | spdmKeyExchange _ => exact .keeps rfl rfl (State.onSpdm_mems _ _ fun _ => by rw [State.spdmBytes_mems, State.spdmTo_mems]; rfl)
  | spdmFinish _ => exact .keeps rfl rfl (State.spdmFinish_mems ..)
  | spdmHeartbeat => exact .keeps rfl rfl (State.onSpdm_mems _ _ fun _ => State.answer_mems ..)
  | spdmKeyUpdate => exact .keeps rfl rfl (State.onSpdm_mems _ _ fun _ => by rw [State.answer_mems]; rfl)
  | spdmEndSession => exact .keeps rfl rfl (State.spdmEnd_mems ..)
  | ideKmRequest _ _ => exact .keeps rfl rfl (State.ideKey_mems ..)
  | fuseProvision _ _ => exact .keeps rfl rfl (State.provision_mems ..)
  | attestationRequest _ _ => exact .other rfl rfl fun _ h => State.onPart_confined (fun _ hu => by rwa [State.pattGo_mems]) _ _ h
  | attestationReportDone _ => exact .other rfl rfl fun _ h => State.pattDone_confined _ h
  | dmiAccess _ => exact .keeps rfl rfl (State.dmi_mems ..)
  | partitionReset _ _ => exact .other rfl rfl fun _ h => State.preset_confined _ _ h
  | domainQuietEntry _ => exact .keeps rfl rfl (State.quietEntry_mems ..)
  | domainIdleTimeout _ _ => exact .other rfl rfl fun _ h => State.idleTimeout_confined _ _ h
  | cwakeTimeReached _ => exact .other rfl rfl fun _ h => State.cwakeReached_confined _ h
  | domainWakeStart _ => exact .other rfl rfl fun _ h => State.wakeStart_confined _ h
  | domainWakeComplete _ _ => exact .other rfl rfl fun _ h => State.wakeEnd_confined _ _ h
  | closingComplete _ => exact .other rfl rfl fun _ h => State.closed_confined _ h
  | lowStateEntryComplete _ => exact .other rfl rfl fun _ h => State.entered_confined _ h
  | cisternIdleTimeout _ => exact .other rfl rfl fun _ h => State.cisIdle_confined _ h
  | powerRequestWake _ _ => exact .other rfl rfl fun _ h => State.via_confined (fun _ hu => State.powerReq_confined _ _ hu) _ _ _ h
  | powerRequestToState _ _ _ => exact .other rfl rfl fun _ h => State.via_confined (fun _ hu => State.powerReq_confined _ _ hu) _ _ _ h
  | partitionWakeWrite _ _ _ => exact .other rfl rfl fun _ h => State.onPart_confined (fun _ hu => State.pwake_confined _ _ hu) _ _ h
  | governorSample _ _ => exact .keeps rfl rfl (State.governor_mems ..)
  | capWrite _ _ => exact .other rfl rfl fun _ h => State.via_confined (fun _ hu => by rwa [State.capSet_mems]) _ _ _ h
  | junctionThrottle _ => exact .keeps rfl rfl (State.junction_mems ..)
  | junctionHot _ => exact .keeps rfl rfl (State.junction_mems ..)
  | thermalTrip _ =>
    refine .other rfl rfl fun m₀ h => ?_
    split
    · exact h
    · generalize hr : State.deviceReset _ 3 false = u
      have hu : Confined Set.univ m₀ u.mems := hr ▸ State.deviceReset_confined 3 false h
      exact hu
  | hbmStackThrottle _ _ => exact .keeps rfl rfl (State.stackTemp_mems ..)
  | hbmRefreshDouble _ _ => exact .keeps rfl rfl (State.stackTemp_mems ..)
  | weevilPassStart _ => exact .keeps rfl rfl (State.wvStart_mems ..)
  | weevilScrubAccess _ _ => exact .other rfl rfl fun _ h => State.wvScrub_confined _ _ h
  | weevilPassEnd _ => exact .other rfl rfl fun _ h => State.wvEnd_confined _ h
  | scrubFault _ _ => exact .other rfl rfl fun _ h => State.wvFault_confined _ _ h
  | weevilReload _ _ => exact .other rfl rfl fun _ h => State.wvReload_confined _ _ h
  | hbmPatrolScrub _ _ _ => exact .other rfl rfl fun _ h => State.patrol_confined _ _ _ h
  | tileEccClear _ _ => exact .other rfl rfl fun _ h => State.onTile_confined (fun _ hu => by rwa [State.tileEccClr_mems]) _ _ _ h
  | colonyEccClear _ _ => exact .other rfl rfl fun _ h => State.via_confined (fun _ hu => by rwa [State.setReg_mems]) _ _ _ h
  | hbmEccClear _ =>
    exact .other rfl rfl fun _ h => State.via_confined (fun _ hu => each_confined _ _ (fun _ _ hv => by rwa [State.setReg_mems]) hu) _ _ _ h
  | lightCounterSample _ => exact .keeps rfl rfl (State.lightSample_mems ..)
  | windowMark _ _ => exact .other rfl rfl fun _ h => State.via_confined (fun _ hu => by rwa [State.windowStart_mems]) _ _ _ h
  | windowEnd _ _ => exact .other rfl rfl fun _ h => State.via_confined (fun _ hu => by rwa [State.windowEnd_mems]) _ _ _ h
  | tracePacketSend _ => exact .keeps rfl rfl (State.tracePacket_mems ..)
  | traceRingWrite _ => exact .other rfl rfl fun _ h => State.ringWrite_confined _ h
  | traceReadUpdate _ _ _ => exact .other rfl rfl fun _ h => State.onPart_confined (fun _ hu => by rwa [State.plainWrite_mems]) _ _ h
  | traceLostClear _ _ => exact .other rfl rfl fun _ h => State.onPart_confined (fun _ hu => by rwa [State.setPart_mems]) _ _ h
  | tileTraceLostClear _ _ => exact .other rfl rfl fun _ h => State.via_confined (fun _ hu => by rwa [State.setRegF_mems]) _ _ _ h
  | fireflyBeacon => exact .keeps rfl rfl (State.firefly_mems ..)
  | engineRelease _ _ _ => exact .other rfl rfl fun _ h => State.onTile_confined (fun _ hu => by rwa [State.unhaltMask_mems]) _ _ _ h
  | engineStep _ _ _ => exact .other rfl rfl fun _ h => State.onTile_confined (fun _ hu => by rwa [State.unhaltMask_mems]) _ _ _ h
  | coreTriggerHit _ => exact .keeps rfl rfl (State.triggerHit_mems ..)
  | tapRegacc _ _ _ => exact .other rfl rfl fun _ h => State.tapAccess_confined _ _ _ h
  | globalStopGo _ _ => exact .other rfl rfl fun _ h => State.via_confined (fun _ hu => by rwa [State.stopGo_mems]) _ _ _ h
  | stopMarkerArrival _ => exact .other rfl rfl fun _ h => State.markerAt_confined _ h
  | vulorStopSend => exact .keeps rfl rfl (State.sendStop_mems ..)
  | moltVwaitExpiry =>
    refine .other rfl rfl fun _ h => ?_
    split
    · exact h
    · exact h
  | moltSnapshotWrite => exact .other rfl rfl fun _ h => State.moltWrite_confined h
  | globalStopRelease _ => exact .other rfl rfl fun _ h => State.via_confined (fun _ hu => State.gsRelease_confined hu) _ _ _ h
  | partitionResetComplete _ => exact .other rfl rfl fun _ h => State.resetEnds_confined _ h
  | lowWordRead _ l =>
    refine .other rfl rfl fun _ h => ?_
    cases l with
    | addr a => exact (State.readReg_mems s _ _).symm ▸ h
    | csr c n =>
      dsimp only
      split
      · exact State.onCsr_confined (fun _ hu => by rwa [State.csrRead_mems]) _ _ _ h
      · exact h

/-! ## Every step keeps the canonical form -/

/-- With every tile open to writes, a command keeps the canonical form. -/
theorem exec_confined {i : Instr} {s u : State} {m₀ : Mems} (hexec : exec i s = .next u) (h : Confined Set.univ m₀ s.mems) :
    Confined Set.univ m₀ u.mems := by
  cases exec_effect i s with
  | word hword _ hlocal =>
    obtain rfl := Host.Outcome.next.inj (hword.symm.trans hexec)
    exact State.issueWord_confined _ _ (Set.mem_univ _) hlocal h
  | other hother _ hmems =>
    obtain rfl := Host.Outcome.next.inj (hother.symm.trans hexec)
    exact hmems m₀ h

theorem step_confined {s u : State} {m₀ : Mems} (hstep : step s = .next u) (h : Confined Set.univ m₀ s.mems) :
    Confined Set.univ m₀ u.mems := by
  unfold step at hstep
  split at hstep
  · obtain rfl := Host.Outcome.next.inj hstep
    exact State.tick_confined h
  · exact exec_confined hstep h

/-- A command that stands for a word of a program keeps to the tile of its word. -/
theorem exec_wordOf_confined {i : Instr} {s u : State} {t : TileId} {e : EngId} {w x : Nat} (hword : wordOf i = some (t, e, w, x))
    (hexec : exec i s = .next u) : Confined {t} s.mems u.mems := by
  cases exec_effect i s with
  | word hissue htile hlocal =>
    obtain rfl := Host.Outcome.next.inj (hissue.symm.trans hexec)
    rw [hword] at htile
    cases htile
    exact State.issueWord_confined _ _ rfl hlocal (Confined.refl _ _)
  | other _ hnone _ => cases hword.symm.trans hnone

end Sys2Proof.Machine
end

section
open Sys2Proof Sys2Proof.Machine

/-- Settles O56: a step writes the memories by the operations of `Confined`, which keep the canonical form. -/
theorem stepsKeepMemoriesCanonical : Obligations.StepsKeepMemoriesCanonical := by
  intro s t hs hstep
  exact (step_confined hstep (Confined.refl _ _)).canonical hs

/-- Settles O60: the slots of a word keep to its tile, and so does whatever stops the word. -/
theorem programsKeepToTheirTile : Obligations.ProgramsKeepToTheirTile := by
  intro c t e w x s u hword hexec v hv
  obtain ⟨-, hspad, hacc, hvreg, hpreg⟩ := exec_wordOf_confined hword hexec
  exact ⟨hspad v hv, hacc v hv, fun r l hr hl => hvreg v hv r hr l hl, hpreg v hv⟩

end

/-! ## Vulor ports (R279 to R299): what their state machine turns on -/

section
namespace Sys2Proof.Machine

/-- What the state machine of a port turns on and reports: the fields of the port, its enable bit and where its domain is to go. -/
structure PortView where
  st : PortSt
  gen2 : Bool
  width : BitVec 2
  epochNo : Nat
  fail : BitVec 4
  peer : BitVec 18
  span : BitVec 3
  peerValid : Bool
  retrains : W16
  failures : W16
  leaving : Bool
  en : Bool
  target : BitVec 3

def Port.view (q : Port) (en : Bool) (target : BitVec 3) : PortView :=
  ⟨q.st, q.gen2, q.width, q.epochNo, q.fail, q.peer, q.span, q.peerValid, q.retrains, q.failures, q.leaving, en, target⟩

/-- The view of a port in a state. -/
def State.view (s : State) (v : PortId) : PortView := (s.portAt v).view (s.vulEn v) (s.domAt (domVul v)).target

section
variable {β : Type} (l : List β) (f : State → β → State) (v : PortId)

theorem each_view_mem (hf : ∀ s x, x ∈ l → (f s x).view v = s.view v) (s : State) : (each s l f).view v = s.view v := by
  induction l generalizing s with
  | nil => rfl
  | cons x l ih => exact (ih (fun s y hy => hf s y (List.mem_cons_of_mem _ hy)) _).trans (hf s x List.mem_cons_self)

theorem each_view (hf : ∀ s x, (f s x).view v = s.view v) (s : State) : (each s l f).view v = s.view v :=
  each_view_mem l f v (fun s x _ => hf s x) s

end

/-! ### Writes of registers, ports and domains -/

theorem State.portAt_setPort_other (s : State) {p v : PortId} (q : Port) (h : v ≠ p) : (s.setPort p q).portAt v = s.portAt v :=
  look_put_other _ _ _ (Fin.val_ne_of_ne h)

theorem State.setReg_view (s : State) {a : Nat} (w) {v : PortId} (h : a ≠ portBase v) : (s.setReg a w).view v = s.view v := by
  have hen : (s.setReg a w).vulEn v = s.vulEn v := by
    unfold State.vulEn
    rw [State.reg_setReg_other s w h.symm]
  simp only [State.view, hen]
  rfl

/-- Every register of a port's block lies above the colonies' blocks and below the partitions' windows. -/
theorem portBase_bounds (v : PortId) : 0x05000000 ≤ portBase v ∧ portBase v < 0x05060000 := by
  unfold portBase
  omega

theorem colBase_lt (c : ColId) : colBase c + 0x40000 ≤ 0x05000000 := by
  have := c.isLt
  unfold colBase
  omega

@[simp] theorem State.setTr_view (s : State) (t : TileId) {o : Nat} (w) (v : PortId) (ho : o < 0x2000) : (s.setTr t o w).view v = s.view v := by
  have hcol := colBase_lt (colonyOf t)
  have hport := portBase_bounds v
  have hindex : indexOf t < 16 := by unfold indexOf; omega
  exact s.setReg_view w (by unfold tileBase; omega)

theorem State.add64_view (s : State) {a : Nat} (n) {v : PortId} (h : 0x05060000 ≤ a) : (s.add64 a n).view v = s.view v := by
  have hport := portBase_bounds v
  unfold State.add64
  dsimp only
  rw [State.setReg_view _ _ (by omega), State.setReg_view _ _ (by omega)]

@[simp] theorem State.lightP_view (s : State) (p n k) (v : PortId) : (s.lightP p n k).view v = s.view v := by
  cases p with
  | none => rfl
  | some p => exact s.add64_view k (by unfold partBase; omega)

/-- A core's registers lie below the ports' or are a head core's. -/
theorem intBase_lt (c : CoreId) {o : Nat} (ho : o < 0x4000) : intBase c + o < 0x05000000 := by
  unfold intBase
  split
  · have := colBase_lt (BitVec.ofNat 8 c.val)
    omega
  · omega

theorem State.ordered_view (s : State) (c l) (v : PortId) : (s.ordered c l).view v = s.view v := by
  unfold State.ordered
  dsimp only
  split <;> rfl

theorem State.raise_view (s : State) (c) {src : Nat} (v : PortId) (h : src < 512) : (s.raise c src).view v = s.view v := by
  have hport := portBase_bounds v
  have hbase : ∀ o < 0x4000, intBase c + o < 0x05000000 := fun o => intBase_lt c
  unfold State.raise
  dsimp only
  rw [State.setReg_view]
  · split
    · rfl
    · exact s.ordered_view c _ v
  · split
    · have := hbase (0x140 + 4 * (src / 32)) (by omega)
      omega
    · have := hbase (0x1A0 + 4 * (src / 32 - 8)) (by omega)
      omega

theorem State.setDom_view (s : State) {d : Nat} {q : Dom} {v : PortId} (h : q.target = (s.domAt d).target) : (s.setDom d q).view v = s.view v := by
  have htarget : ((s.setDom d q).domAt (domVul v)).target = (s.domAt (domVul v)).target := by
    by_cases hd : domVul v = d
    · rw [hd, State.domAt_setDom, h]
    · rw [State.domAt_setDom_other s q hd]
  simp only [State.view, htarget]
  rfl

@[simp] theorem State.askWake_view (s : State) (d) (v : PortId) : (s.askWake d).view v = s.view v := by
  unfold State.askWake
  dsimp only
  split
  · rfl
  · exact s.setDom_view rfl

/-- A write of a port that changes no field of its view. -/
theorem State.setPort_view (s : State) {p : PortId} {q : Port} (v : PortId) (h : ∀ en target, q.view en target = (s.portAt p).view en target) :
    (s.setPort p q).view v = s.view v := by
  by_cases hv : v = p
  · subst hv
    exact (congrArg (Port.view · _ _) (s.portAt_setPort v q)).trans (h _ _)
  · simp only [State.view, s.portAt_setPort_other q hv]
    rfl

@[simp] theorem State.setPosterW_view (s : State) (t n v_) (v : PortId) : (s.setPosterW t n v_).view v = s.view v := rfl

@[simp] theorem State.setEng_view (s : State) (t e v_) (v : PortId) : (s.setEng t e v_).view v = s.view v := rfl

@[simp] theorem State.setTile_view (s : State) (t v_) (v : PortId) : (s.setTile t v_).view v = s.view v := rfl

@[simp] theorem State.setMovq_view (s : State) (t q v_) (v : PortId) : (s.setMovq t q v_).view v = s.view v := rfl

@[simp] theorem State.setPart_view (s : State) (p v_) (v : PortId) : (s.setPart p v_).view v = s.view v := rfl

@[simp] theorem State.setCtx_view (s : State) (p c v_) (v : PortId) : (s.setCtx p c v_).view v = s.view v := rfl

@[simp] theorem State.setQueue_view (s : State) (p q v_) (v : PortId) : (s.setQueue p q v_).view v = s.view v := rfl

@[simp] theorem State.setEvt_view (s : State) (p i v_) (v : PortId) : (s.setEvt p i v_).view v = s.view v := rfl

@[simp] theorem State.setWaiter_view (s : State) (p i v_) (v : PortId) : (s.setWaiter p i v_).view v = s.view v := rfl

@[simp] theorem State.setHbmBytes_view (s : State) (a bs) (v : PortId) : (s.setHbmBytes a bs).view v = s.view v := rfl

@[simp] theorem State.send_view (s : State) (o) (v : PortId) : (s.send o).view v = s.view v := rfl

@[simp] theorem State.notice_view (s : State) (p c n) (v : PortId) : (s.notice p c n).view v = s.view v := by
  grind [State.notice, State.setCtx_view]

@[simp] theorem State.transmit_view (s : State) (p l) (v : PortId) : (s.transmit p l).view v = s.view v := by
  grind [State.transmit, State.send_view]

@[simp] theorem State.sendFlit_view (s : State) (p ty slots) (v : PortId) : (s.sendFlit p ty slots).view v = s.view v :=
  (State.transmit_view ..).trans (s.setPort_view v fun _ _ => rfl)

@[simp] theorem State.sendSlots_view (s : State) (p n l) (v : PortId) : (s.sendSlots p n l).view v = s.view v := by
  induction n generalizing s l with
  | zero => rfl
  | succ n ih =>
    unfold State.sendSlots
    split
    · rfl
    · rw [ih, State.sendFlit_view]

@[simp] theorem State.pump_view (s : State) (p k) (v : PortId) : (s.pump p k).view v = s.view v := by
  induction k generalizing s with
  | zero => rfl
  | succ k ih =>
    unfold State.pump
    dsimp only
    split
    · rfl
    next i vc m _ =>
    generalize (if m.ty = .time then { m with value := s.spineStamp (dieOfPort p) } else m) = m
    split
    · rfl
    · rw [ih, State.setPort_view, State.sendSlots_view, State.setPort_view]
      all_goals exact fun _ _ => rfl

@[simp] theorem State.emit_view (s : State) (p vc m) (v : PortId) : (s.emit p vc m).view v = s.view v :=
  (State.pump_view ..).trans (s.setPort_view v fun _ _ => rfl)

@[simp] theorem State.newTag_view (s : State) (v : PortId) : s.newTag.1.view v = s.view v := rfl

@[simp] theorem State.waitWake_view (s : State) (p tl hh) (v : PortId) : (s.waitWake p tl hh).view v = s.view v := by
  grind [State.waitWake, State.askWake_view]

@[simp] theorem State.retest_view (s : State) (p sel) (v : PortId) : (s.retest p sel).view v = s.view v := by
  grind [State.retest, each_view, State.setWaiter_view]

@[simp] theorem State.wake_view (s : State) (p tl key) (v : PortId) : (s.wake p tl key).view v = s.view v := by
  grind [State.wake, State.retest_view]

@[simp] theorem State.tlApply_view (s : State) (p a v_) (v : PortId) : (s.tlApply p a v_).view v = s.view v := by
  grind [State.tlApply, State.askWake_view, State.wake_view, State.setHbmBytes_view, State.view, State.portAt, State.domAt, State.vulEn, State.reg]

@[simp] theorem State.evtSet_view (s : State) (p i err) (v : PortId) : (s.evtSet p i err).view v = s.view v := by
  grind [State.evtSet, State.wake_view, State.setEvt_view]

@[simp] theorem State.forceRemote_view (s : State) (p c o) (v : PortId) : (s.forceRemote p c o).view v = s.view v := by
  unfold State.forceRemote
  dsimp only
  split
  · rfl
  split
  · split
    · exact (State.tlApply_view ..).trans (State.newTag_view ..)
    · exact State.newTag_view ..
  · exact (State.emit_view ..).trans (State.newTag_view ..)
  · exact State.newTag_view ..

@[simp] theorem State.forceSignal_view (s : State) (p c) (v : PortId) : (s.forceSignal p c).view v = s.view v := by
  grind [State.forceSignal, each_view, State.evtSet_view, State.forceRemote_view, State.tlApply_view]

@[simp] theorem State.disarm_view (s : State) (p i) (v : PortId) : (s.disarm p i).view v = s.view v := by
  grind [State.disarm, State.setWaiter_view]

@[simp] theorem State.takeWait_view (s : State) (p q) (v : PortId) : (s.takeWait p q).view v = s.view v := by
  unfold State.takeWait
  dsimp only
  split
  · split <;> rfl
  split
  · split <;> rfl
  split
  · rfl
  split
  · rw [State.setQueue_view, State.waitWake_view]
  · rw [State.setQueue_view, State.setWaiter_view, State.waitWake_view]

@[simp] theorem State.takeWaits_view (s : State) (p) (v : PortId) : (s.takeWaits p).view v = s.view v := by
  grind [State.takeWaits, each_view, State.takeWait_view]

@[simp] theorem State.complete_view (s : State) (p sel) (v : PortId) : (s.complete p sel).view v = s.view v := by
  grind [State.complete, each_view, State.setQueue_view, State.disarm_view, State.setPart_view, State.notice_view]

@[simp] theorem State.clearScalars_view (s : State) (t e) (v : PortId) : (s.clearScalars t e).view v = s.view v := rfl

@[simp] theorem State.dropWalk_view (s : State) (t e) (v : PortId) : (s.dropWalk t e).view v = s.view v := by
  grind [State.dropWalk, State.setTile_view]

@[simp] theorem State.stopEngine_view (s : State) (t e) (v : PortId) : (s.stopEngine t e).view v = s.view v := by
  grind [State.stopEngine, State.clearScalars_view, State.setEng_view, State.dropWalk_view]

@[simp] theorem State.reloadTile_view (s : State) (t) (v : PortId) : (s.reloadTile t).view v = s.view v := by
  unfold State.reloadTile
  dsimp only
  rw [each_view_mem _ _ v fun u g hg => each_view_mem _ _ v (fun w l hl => w.setTr_view t _ v ?_) u, each_view_mem]
  · intro u n hn
    have hn := List.mem_range.1 hn
    rw [State.setPosterW_view, State.setTr_view _ _ _ _ (by omega)]
  · have hg := List.mem_range.1 hg
    have hl := List.mem_range.1 hl
    omega

@[simp] theorem State.settle_view (s : State) (t) (v : PortId) : (s.settle t).view v = s.view v := by
  grind [State.settle, State.reloadTile_view, State.setTile_view]

@[simp] theorem State.stopTile_view (s : State) (t all) (v : PortId) : (s.stopTile t all).view v = s.view v := by
  grind [State.stopTile, State.setTile_view, each_view, State.stopEngine_view, State.settle_view]

@[simp] theorem State.loseCtx_view (s : State) (p c code w place addr parts) (v : PortId) :
    (s.loseCtx p c code w place addr parts).view v = s.view v := by
  unfold State.loseCtx
  dsimp only
  split
  · rfl
  generalize hlost : (if (s.ctxAt p c).st = .active then _ else s) = lost
  have hl : lost.view v = s.view v := by
    rw [← hlost]
    split
    · exact State.lightP_view ..
    · rfl
  generalize hstopped : each lost _ _ = stopped
  have hs : stopped.view v = s.view v := by
    rw [← hstopped, each_view _ _ _ _, hl]
    intro u t
    split
    · exact State.stopTile_view ..
    · rfl
  split
  · exact hs
  · rw [State.notice_view, State.takeWaits_view, State.forceSignal_view, State.complete_view, State.complete_view, each_view, hs]
    intro u e
    split <;> rfl

@[simp] theorem State.mapXfer_view (s : State) (t q tag f) (v : PortId) : (s.mapXfer t q tag f).view v = s.view v := by
  grind [State.mapXfer, State.setMovq_view]

@[simp] theorem State.vulAnswer_view (s : State) (tag part ok data bad) (v : PortId) : (s.vulAnswer tag part ok data bad).view v = s.view v := by
  unfold State.vulAnswer
  dsimp only
  split
  · rfl
  split
  · split
    · rfl
    · exact State.loseCtx_view ..
  · generalize hm : s.mapXfer _ _ tag _ = u
    have hu : u.view v = s.view v := hm ▸ State.mapXfer_view ..
    split <;> exact hu

@[simp] theorem State.takeReply_view (s : State) (m) (v : PortId) : (s.takeReply m).view v = s.view v := by
  grind [State.takeReply, State.vulAnswer_view]

@[simp] theorem State.sendReply_view (s : State) (m came) (v : PortId) : (s.sendReply m came).view v = s.view v := by
  grind [State.sendReply, State.takeReply_view, State.emit_view]

@[simp] theorem State.nackRoute_view (s : State) (m part) (v : PortId) : (s.nackRoute m part).view v = s.view v := by
  grind [State.nackRoute, State.vulAnswer_view, State.sendReply_view]

@[simp] theorem State.takeSlots_view (s : State) (p l) (v : PortId) : (s.takeSlots p l).view v = s.view v := by
  induction l generalizing s with
  | nil => rfl
  | cons b l ih =>
    unfold State.takeSlots
    dsimp only
    split
    · exact ih s
    split
    · exact (ih _).trans (s.setPort_view v fun _ _ => rfl)
    split
    · exact (ih _).trans (s.setPort_view v fun _ _ => rfl)
    · exact (ih _).trans (s.setPort_view v fun _ _ => rfl)

/-! ### The steps of the state machine -/

theorem mate_ne (p : PortId) : mate p ≠ p := by
  revert p
  decide

theorem mate_axisPort (axis : Fin 3) : mate (axisPort axis.val 0) = axisPort axis.val 1 := by
  revert axis
  decide

theorem domVul_ne {p v : PortId} (h : v ≠ p) : domVul v ≠ domVul p := by
  have := Fin.val_ne_of_ne h
  unfold domVul
  omega

section
variable (s : State) (p : PortId)

/-- The view after a write of the port itself. -/
theorem State.setPort_view_same (q : Port) : (s.setPort p q).view p = q.view (s.vulEn p) (s.domAt (domVul p)).target :=
  congrArg (Port.view · _ _) (s.portAt_setPort p q)

theorem State.setPort_view_other (q : Port) {v : PortId} (h : v ≠ p) : (s.setPort p q).view v = s.view v :=
  congrArg (Port.view · _ _) (s.portAt_setPort_other q h)

/-- R280: whether a culvert is open shows in no view. -/
theorem State.setOpen_view (b : Bool) (v : PortId) : (s.setPort p { s.portAt p with isOpen := b }).view v = s.view v :=
  s.setPort_view v fun _ _ => rfl

theorem State.portTo_view_same (st : PortSt) : (s.portTo p st).view p = { s.view p with st := st } := by
  unfold State.portTo
  split
  next hst => simp only [State.view, Port.view, hst]
  next =>
    have hraise : ((s.setPort p { s.portAt p with st := st }).raise (headCore (dieOfPort p)) (16 + p.val)).view p = { s.view p with st := st } :=
      (State.raise_view _ _ p (by omega)).trans (s.setPort_view_same p _)
    dsimp only
    split
    · exact ((State.setOpen_view _ _ true _).trans (State.setOpen_view _ _ true _)).trans hraise
    · exact hraise

theorem State.portTo_view_other (st : PortSt) {v : PortId} (h : v ≠ p) : (s.portTo p st).view v = s.view v := by
  unfold State.portTo
  split
  · rfl
  · have hraise : ((s.setPort p { s.portAt p with st := st }).raise (headCore (dieOfPort p)) (16 + p.val)).view v = s.view v :=
      (State.raise_view _ _ v (by omega)).trans (s.setPort_view_other p _ h)
    dsimp only
    split
    · exact ((State.setOpen_view _ _ true _).trans (State.setOpen_view _ _ true _)).trans hraise
    · exact hraise

theorem State.raise_dom (c n) : (s.raise c n).dom = s.dom := by
  unfold State.raise State.ordered
  dsimp only
  split
  · rfl
  · split <;> rfl

theorem State.portTo_dom (st : PortSt) : (s.portTo p st).dom = s.dom := by
  unfold State.portTo
  split
  · rfl
  · dsimp only
    split <;> simp only [State.setPort_dom, State.raise_dom]

/-- R297: a port falls to OFF only where it is disabled or its domain is to power down. -/
theorem State.portPower_of_stays (hen : (s.view p).en = true) (htarget : (s.view p).target ≠ 2) : s.portPower p = s := by
  unfold State.portPower
  dsimp only
  rw [if_neg]
  rintro ⟨-, hoff | hdown⟩
  · have : s.vulEn p = true := hen
    simp [this] at hoff
  · exact htarget hdown

theorem State.portPower_view_other {v : PortId} (h : v ≠ p) : (s.portPower p).view v = s.view v := by
  unfold State.portPower
  dsimp only
  split
  · rw [State.portTo_view_other _ _ _ h]
    simp only [State.view, s.domAt_setDom_other _ (domVul_ne h)]
    rfl
  · rfl

theorem State.fall_view_same (hen : (s.view p).en = true) (htarget : (s.view p).target ≠ 2) :
    (s.fall p).view p = { s.view p with st := .culverted, width := 0, leaving := false } := by
  unfold State.fall
  dsimp only
  generalize hnacks : each _ ((s.portAt p).held.filter _) _ = u
  have hu : u.view p = { s.view p with st := .culverted, width := 0, leaving := false } := by
    rw [← hnacks, each_view _ _ _ fun _ _ => State.nackRoute_view .., State.portTo_view_same, State.setPort_view_same]
    rfl
  rw [u.portPower_of_stays p (by rw [hu]; exact hen) (by rw [hu]; exact htarget), hu]

theorem State.fall_view_other {v : PortId} (h : v ≠ p) : (s.fall p).view v = s.view v := by
  unfold State.fall
  dsimp only
  rw [State.portPower_view_other _ _ h, each_view _ _ _ fun _ _ => State.nackRoute_view .., State.portTo_view_other _ _ _ h,
    State.setPort_view_other _ _ _ h]

/-- R281: from view `x` an attempt has failed: the port is CULVERTED with the reason, and the failure is counted. -/
def PortView.Failed (x y : PortView) (fail : BitVec 4) : Prop :=
  y.st = .culverted ∧ y.fail = fail ∧ y.failures = BitVec.ofNat 16 (min 0xFFFF (x.failures.toNat + 1))

/-- R281: an attempt of a port that stays enabled fails. -/
theorem State.attemptFails_failed (fail : Nat) (final : Bool) (hst : (s.view p).st = .training ∨ (s.view p).st = .keying)
    (hen : (s.view p).en = true) (htarget : (s.view p).target ≠ 2) :
    (s.view p).Failed ((s.attemptFails p fail final).view p) (BitVec.ofNat 4 fail) := by
  unfold State.attemptFails
  dsimp only
  generalize hcount : s.setPort p _ = u
  have hu : u.view p = { s.view p with
      failures := BitVec.ofNat 16 (min 0xFFFF ((s.view p).failures.toNat + 1)), fail := BitVec.ofNat 4 fail, width := 0 } :=
    hcount ▸ s.setPort_view_same p _
  have hfall := u.fall_view_same p (by rw [hu]; exact hen) (by rw [hu]; exact htarget)
  have hone : (s.view p).Failed ((u.fall p).view p) (BitVec.ofNat 4 fail) := by
    rw [hfall, hu]
    exact ⟨rfl, rfl, rfl⟩
  have hboth : (s.view p).Failed (((u.fall p).fall (mate p)).view p) (BitVec.ofNat 4 fail) := by
    rwa [State.fall_view_other _ _ (mate_ne p).symm]
  have hst : (s.portAt p).st = .training ∨ (s.portAt p).st = .keying := hst
  rcases hst with hst | hst <;> rw [hst] <;> dsimp only <;> split
  · exact hboth
  · exact hone
  · exact hboth
  · exact hone

theorem State.takeAccepted_view (v : PortId) : (s.takeAccepted p).view v = s.view v := by
  unfold State.takeAccepted
  split
  · split
    · exact (State.takeSlots_view ..).trans (s.setPort_view v fun _ _ => rfl)
    · rfl
  · rfl

/-- R281: an ACTIVE port retrains, counted, its lanes down. -/
theorem State.retrain_view (fail : Nat) (hst : (s.portAt p).st = .active) :
    ((s.retrain p fail).view p).st = .retrain ∧ ((s.retrain p fail).view p).width = 0
      ∧ ((s.retrain p fail).view p).retrains = BitVec.ofNat 16 (min 0xFFFF ((s.portAt p).retrains.toNat + 1)) := by
  have htaken : ((s.takeAccepted p).view p).retrains = (s.portAt p).retrains := by
    rw [State.takeAccepted_view]
    rfl
  unfold State.retrain
  rw [if_neg (by simp [hst])]
  dsimp only
  rw [State.portTo_view_same, State.setPort_view_same]
  exact ⟨rfl, rfl, congrArg (fun n : W16 => BitVec.ofNat 16 (min 0xFFFF (n.toNat + 1))) htaken⟩

theorem State.sendKey_view (v : PortId) : (s.sendKey p).view v = s.view v := by
  unfold State.sendKey
  dsimp only
  generalize hkey : s.setPort p _ = u
  have hu : u.view v = s.view v := hkey ▸ s.setPort_view v fun _ _ => rfl
  exact hu

theorem State.beginTraining_view : ((s.beginTraining p).view p).st = .training := by
  have hself : ((s.portTo p .training).view p).st = .training := by rw [State.portTo_view_same]
  unfold State.beginTraining
  dsimp only
  split
  · rwa [State.portTo_view_other _ _ _ (mate_ne p).symm]
  · exact hself

/-- R400: an enabled port's domain comes up, and the port with it. -/
theorem State.portUp_culverted (hst : (s.portAt p).st = .off) (hen : s.vulEn p = true) :
    ((s.portUp p).view p).st = .culverted ∧ ((s.portUp p).domAt (domVul p)).st = 0 := by
  unfold State.portUp
  rw [if_neg (by simp [hst, hen]), State.portTo_view_same]
  refine ⟨rfl, ?_⟩
  rw [State.domAt, State.portTo_dom]
  exact congrArg Dom.st (State.domAt_setDom ..)

/-- R297: a port that is disabled while ACTIVE leaves. -/
theorem State.vulCtl_leaves (w : W32) (hload : s.chitin.loadPassed = true) (hbit : bit w 0 = false) (hst : (s.portAt p).st = .active) :
    ((s.vulCtl p w).view p).leaving = true ∧ ((s.vulCtl p w).view p).st = .active := by
  have hport : (s.plainWrite (portBase p) w).portAt p = s.portAt p := by
    unfold State.plainWrite
    split <;> rfl
  unfold State.vulCtl
  generalize s.plainWrite (portBase p) w = u at hport
  dsimp only
  rw [if_neg (by simp [hload]), if_neg (by simp [hbit]), hport, if_pos hst, State.setPort_view_same]
  exact ⟨rfl, hst⟩

/-- R281, R282: trained lanes take their width and generation, and the port keys. -/
theorem State.trained_keys (tr : Training) {w : BitVec 2} (hst : (s.portAt p).st = .training) (hopen : (s.portAt p).isOpen = true)
    (hsignal : tr.signal = true) (hwidth : linkWidth tr.good tr.peerGood = some w) :
    ((s.trained p tr).view p).st = .keying ∧ ((s.trained p tr).view p).width = w
      ∧ ((s.trained p tr).view p).gen2 = (!bit (s.reg (portBase p)) 1 && tr.peerGen2) := by
  unfold State.trained
  dsimp only
  rw [if_neg (by simp [hst]), if_neg (by simp [hopen]), if_neg (by simp [hsignal]), hwidth]
  dsimp only
  rw [if_pos hst, State.sendKey_view, State.portTo_view_same, State.setPort_view_same]
  exact ⟨rfl, rfl, rfl⟩

/-- Table 11-12: why training fails. -/
theorem State.trained_fails (tr : Training) (hst : (s.portAt p).st = .training) (hen : s.vulEn p = true)
    (htarget : (s.domAt (domVul p)).target ≠ 2) {fail : BitVec 4}
    (hwhy : (s.portAt p).isOpen = false ∧ fail = 3 ∨ (s.portAt p).isOpen = true ∧ tr.signal = false ∧ fail = 1
      ∨ (s.portAt p).isOpen = true ∧ tr.signal = true ∧ linkWidth tr.good tr.peerGood = none ∧ fail = 2) :
    (s.view p).Failed ((s.trained p tr).view p) fail := by
  have hlanes : (s.setPort p { s.portAt p with lanes := tr.good }).view p = s.view p := s.setPort_view p fun _ _ => rfl
  have hfails : ∀ k, (s.view p).Failed (((s.setPort p { s.portAt p with lanes := tr.good }).attemptFails p k false).view p) (BitVec.ofNat 4 k) := by
    intro k
    have := State.attemptFails_failed (s.setPort p { s.portAt p with lanes := tr.good }) p k false
    rw [hlanes] at this
    exact this (.inl hst) hen htarget
  unfold State.trained
  dsimp only
  rw [if_neg (by simp [hst])]
  obtain ⟨hshut, rfl⟩ | ⟨hopen, hsilent, rfl⟩ | ⟨hopen, hsignal, hnone, rfl⟩ := hwhy
  · rw [if_pos (by simp [hshut])]
    exact hfails 3
  · rw [if_neg (by simp [hopen]), if_pos (by simp [hsilent])]
    exact hfails 1
  · rw [if_neg (by simp [hopen]), if_neg (by simp [hsignal]), hnone]
    exact hfails 2

/-- R283, R288: an admitted peer makes a keying port ACTIVE. -/
theorem State.keyed_active (h : PeerHello) (hst : (s.portAt p).st = .keying) (hopen : (s.portAt p).isOpen = true) (hadmits : s.admits p h = true) :
    ((s.keyed p h).view p).st = .active ∧ ((s.keyed p h).view p).peer = h.id ∧ ((s.keyed p h).view p).span = s.spanTo p h.id
      ∧ ((s.keyed p h).view p).peerValid = true ∧ ((s.keyed p h).view p).epochNo = 0 := by
  unfold State.keyed
  dsimp only
  rw [if_neg (by simp [hst]), if_neg (by simp [hopen]), if_neg (by simp [hadmits]), State.pump_view, State.portTo_view_same,
    State.setPort_view_same]
  exact ⟨rfl, rfl, rfl, rfl, rfl⟩

/-- Table 11-12: why keying fails. -/
theorem State.keyed_fails (h : PeerHello) (hst : (s.portAt p).st = .keying) (hen : s.vulEn p = true)
    (htarget : (s.domAt (domVul p)).target ≠ 2) {fail : BitVec 4}
    (hwhy : (s.portAt p).isOpen = false ∧ fail = 3 ∨ (s.portAt p).isOpen = true ∧ s.admits p h = false ∧ fail = 4) :
    (s.view p).Failed ((s.keyed p h).view p) fail := by
  unfold State.keyed
  dsimp only
  rw [if_neg (by simp [hst])]
  obtain ⟨hshut, rfl⟩ | ⟨hopen, hrefused, rfl⟩ := hwhy
  · rw [if_pos (by simp [hshut])]
    exact s.attemptFails_failed p 3 false (.inr hst) hen htarget
  · rw [if_neg (by simp [hopen]), if_pos (by simp [hrefused])]
    exact s.attemptFails_failed p 4 true (.inr hst) hen htarget

/-- R280: a culvert whose conditions have gone closes for both ports of its axis. -/
theorem State.culvertClose_shut (axis : Fin 3) (hgone : s.mayOpen (axisPort axis.val 0) = false) :
    ((s.culvertClose axis).portAt (axisPort axis.val 0)).isOpen = false ∧ ((s.culvertClose axis).portAt (axisPort axis.val 1)).isOpen = false := by
  unfold State.culvertClose
  dsimp only
  rw [if_neg (by simp [hgone]), ← mate_axisPort, State.portAt_setPort, State.portAt_setPort_other _ _ (mate_ne _).symm, State.portAt_setPort]
  exact ⟨rfl, rfl⟩

end

end Sys2Proof.Machine
end

section
open Sys2Proof Sys2Proof.Machine

/-- Settles O29: each clause is a step of the port's state machine, stated above of the port's view. -/
theorem portStates : Obligations.PortStates := by
  intro s r p w tr h a q stays fails retrains
  have hretrains : ∀ (c : Instr) (fail : Nat), q.st = .active → exec c s = .next (s.retrain p fail) → retrains c :=
    fun _ fail hst hexec => ⟨_, hexec, s.retrain_view p fail hst⟩
  refine ⟨fun hst hen => ⟨_, rfl, s.portUp_culverted p hst hen⟩, fun hreq => ?_, fun hst => ⟨hretrains _ 0 hst rfl, hretrains _ 6 hst rfl⟩,
    fun hst => ⟨fun hopen hsignal hwidth => ?_, fun ⟨hen, htarget⟩ => ⟨?_, ?_, ?_, ?_⟩⟩, fun hst => ⟨?_, fun ⟨hen, htarget⟩ => ⟨?_, ?_, ?_⟩⟩, ?_,
    fun hgone => ⟨_, rfl, s.culvertClose_shut a hgone⟩, fun hst => ⟨?_, ?_⟩⟩
  · have hctl : exec (.vulCtlEnableWrite r p w) s = .next (s.vulCtl p w) := congrArg Host.Outcome.next (if_pos hreq)
    have hret : exec (.vulRetrain r p) s = .next (s.vulRetrain p) := congrArg Host.Outcome.next (if_pos hreq)
    refine ⟨fun hload => ?_, fun hload hbit => ?_, fun hload hbit hst => ⟨_, hctl, s.vulCtl_leaves p w hload hbit hst⟩, fun hst hen => ?_,
      fun hst => hretrains _ 0 hst ?_⟩
    · rw [hctl, State.vulCtl, if_pos (by simp [hload])]
    · rw [hctl, State.vulCtl, if_neg (by simp [hload])]
      exact congrArg Host.Outcome.next (if_pos hbit)
    · refine ⟨_, hret, ?_⟩
      have hst : (s.portAt p).st = .culverted := hst
      rw [State.vulRetrain, hst]
      dsimp only
      rw [if_pos hen]
      exact s.beginTraining_view p
    · have hst : (s.portAt p).st = .active := hst
      rw [hret, State.vulRetrain, hst]
  · obtain ⟨k, hk⟩ := Option.ne_none_iff_exists'.1 hwidth
    obtain ⟨hkeying, hw, hgen⟩ := s.trained_keys p tr hst hopen hsignal hk
    exact ⟨_, rfl, hkeying, hk.trans (congrArg some hw.symm), hgen⟩
  · refine ⟨s.attemptFails p 3 false, congrArg Host.Outcome.next (if_pos (.inl hst)), s.attemptFails_failed p 3 false (.inl hst) hen htarget⟩
  · exact fun hshut => ⟨_, rfl, s.trained_fails p tr hst hen htarget (.inl ⟨hshut, rfl⟩)⟩
  · exact fun hopen hsilent => ⟨_, rfl, s.trained_fails p tr hst hen htarget (.inr (.inl ⟨hopen, hsilent, rfl⟩))⟩
  · exact fun hopen hsignal hnone => ⟨_, rfl, s.trained_fails p tr hst hen htarget (.inr (.inr ⟨hopen, hsignal, hnone, rfl⟩))⟩
  · exact fun hopen hadmits => ⟨_, rfl, s.keyed_active p h hst hopen hadmits⟩
  · refine ⟨s.attemptFails p 3 false, congrArg Host.Outcome.next (if_pos (.inl hst)), s.attemptFails_failed p 3 false (.inr hst) hen htarget⟩
  · exact fun hshut => ⟨_, rfl, s.keyed_fails p h hst hen htarget (.inl ⟨hshut, rfl⟩)⟩
  · exact fun hopen hrefused => ⟨_, rfl, s.keyed_fails p h hst hen htarget (.inr ⟨hopen, hrefused, rfl⟩)⟩
  · intro hst hleaving hreplay hbufs hpart hflit
    refine congrArg Host.Outcome.next ?_
    simp only [q] at hst hleaving hreplay hbufs hpart hflit
    rw [State.portLeave, if_neg (by simp [hst, hleaving, hreplay, hbufs, hpart, hflit])]
  · exact fun hdue => congrArg Host.Outcome.next (if_pos ⟨hst, hdue⟩)
  · exact fun hnot => congrArg Host.Outcome.next (if_neg fun hdue => absurd hdue.2 (Nat.not_lt.2 hnot))

end

/-! ## Register accesses (R18, R350, R352, R356, R444, R446, R458, R472, R473) -/

section
namespace Sys2Proof.Machine

/-! ### Traps of a core -/

theorem State.csr_setCsr_other (s : State) (c : CoreId) {m n : Nat} (v : W32) (h : n ≠ m) : (s.setCsr c m v).csr c n = s.csr c n :=
  look_put_other _ _ _ (by omega)

/-- R362: from `s`, core `c` has trapped with a cause: it runs in machine mode at the vector, and no register was written. -/
def State.Trapped (s u : State) (c : CoreId) (cause : W32) : Prop :=
  u.csr c 0x342 = cause ∧ (u.coreAt c).pc = s.csr c 0x305 &&& 0xFFFFFFFC ∧ (u.coreAt c).priv = 3 ∧ u.regs = s.regs

theorem State.csr_setCore (s : State) (c d : CoreId) (v : Core) (n : Nat) : (s.setCore c v).csr d n = s.csr d n := rfl

theorem State.trapEntry_csr (s : State) (c : CoreId) (cause mtval pc : W32) {n : Nat} (h300 : n ≠ 0x300) (h341 : n ≠ 0x341)
    (h342 : n ≠ 0x342) (h343 : n ≠ 0x343) : (s.trapEntry c cause mtval pc).csr c n = s.csr c n := by
  unfold State.trapEntry
  dsimp only
  rw [State.csr_setCore, State.csr_setCsr_other _ c _ h343, State.csr_setCsr_other _ c _ h342, State.csr_setCsr_other _ c _ h341,
    State.csr_setCsr_other _ c _ h300]

theorem State.trapEntry_cause (s : State) (c : CoreId) (cause mtval pc : W32) : (s.trapEntry c cause mtval pc).csr c 0x342 = cause := by
  unfold State.trapEntry
  dsimp only
  rw [State.csr_setCore, State.csr_setCsr_other _ c _ (by decide), State.csr_setCsr]

theorem State.trapEntry_coreAt (s : State) (c : CoreId) (cause mtval pc : W32) :
    (s.trapEntry c cause mtval pc).coreAt c = { s.coreAt c with priv := 3, wfi := false } :=
  State.coreAt_setCore ..

theorem State.csr_drawn (s : State) (c : CoreId) (n : Nat) : s.drawn.csr c n = s.csr c n := rfl

theorem State.coreAt_drawn (s : State) (c : CoreId) : s.drawn.coreAt c = s.coreAt c := rfl

theorem State.excTrap_csr (s : State) (c : CoreId) (cause mtval pc : W32) (n : Nat) :
    (s.excTrap c cause mtval pc).csr c n = (s.trapEntry c cause mtval pc).csr c n := by
  unfold State.excTrap
  dsimp only
  rw [State.csr_setCore]

theorem State.excTrap_coreAt (s : State) (c : CoreId) (cause mtval pc : W32) : (s.excTrap c cause mtval pc).coreAt c
    = { (s.trapEntry c cause mtval pc).coreAt c with pc := (s.trapEntry c cause mtval pc).csr c 0x305 &&& 0xFFFFFFFC } := by
  unfold State.excTrap
  dsimp only
  rw [State.coreAt_setCore]

theorem State.excTrap_regs (s : State) (c : CoreId) (cause mtval pc : W32) : (s.excTrap c cause mtval pc).drawn.regs = s.regs := by
  simp only [State.excTrap, State.trapEntry, State.drawn_regs, State.setCore_regs, State.setCsr_regs]

theorem State.excTrap_trapped (s : State) (c : CoreId) (cause mtval pc : W32) : s.Trapped (s.excTrap c cause mtval pc).drawn c cause := by
  unfold State.Trapped
  rw [State.csr_drawn, State.coreAt_drawn, State.excTrap_csr, State.trapEntry_cause, State.excTrap_coreAt, State.trapEntry_coreAt,
    State.trapEntry_csr _ _ _ _ _ (by decide) (by decide) (by decide) (by decide), State.excTrap_regs]
  exact ⟨rfl, rfl, rfl, rfl⟩

section
variable (s : State) {r : Req} {c : CoreId}

/-- R352: an access of a core that its own reach or PMP denies traps. -/
theorem State.turnedAway_trapped (hcore : reqCore r = some c) (hruns : s.coreRuns c = true) (cause : W32) (a : Nat)
    (hdenied : s.coreSees c a = false ∨ s.pmpReg r (if cause = 5 then 1 else 2) a = false) : s.Trapped (s.turnedAway r cause a) c cause := by
  have hpass : ¬ (!s.coreRuns c ∨ s.coreSees c a ∧ s.pmpReg r (if cause = 5 then 1 else 2) a) := by
    rintro (hstopped | ⟨hsees, hpmp⟩)
    · simp [hruns] at hstopped
    · rcases hdenied with h | h
      · simp [h] at hsees
      · exact absurd (h.symm.trans hpmp) Bool.false_ne_true
  unfold State.turnedAway
  rw [hcore]
  dsimp only
  rw [if_neg hpass]
  exact s.excTrap_trapped ..

theorem State.turnedAway_none (hcore : reqCore r = none) (cause : W32) (a : Nat) : s.turnedAway r cause a = s := by
  unfold State.turnedAway
  rw [hcore]

/-- R446: what no core asks for alone reads 0 where it is turned away. -/
theorem State.readsZero_core (hcore : reqCore r = some c) (a : Nat) : s.readsZero r a = s := by
  cases r with
  | core _ | head _ => rfl
  | pf | vf _ | chitin | tap => cases hcore

theorem State.regWrite_denied {a : Nat} (w : W32) (h : s.reaches r a = false ∨ s.pmpReg r 2 a = false) : s.regWrite r a w = s.turnedAway r 7 a := by
  unfold State.regWrite
  exact if_pos (h.imp (by simp [·]) (by simp [·]))

theorem State.readReg_denied {a : Nat} (h : s.reaches r a = false ∨ s.pmpReg r 1 a = false) :
    s.readReg r a = (s.turnedAway r 5 a).readsZero r a := by
  unfold State.readReg
  exact if_pos (h.imp (by simp [·]) (by simp [·]))

theorem State.regWrite_trapped (hcore : reqCore r = some c) (hruns : s.coreRuns c = true) {a : Nat} (w : W32)
    (hdenied : s.reaches r a = false ∧ s.coreSees c a = false ∨ s.pmpReg r 2 a = false) : s.Trapped (s.regWrite r a w) c 7 := by
  rw [s.regWrite_denied w (hdenied.imp_left And.left)]
  exact s.turnedAway_trapped hcore hruns 7 a (hdenied.imp_left And.right)

theorem State.readReg_trapped (hcore : reqCore r = some c) (hruns : s.coreRuns c = true) {a : Nat}
    (hdenied : s.reaches r a = false ∧ s.coreSees c a = false ∨ s.pmpReg r 1 a = false) : s.Trapped (s.readReg r a) c 5 := by
  rw [s.readReg_denied (hdenied.imp_left And.left), State.readsZero_core _ hcore]
  exact s.turnedAway_trapped hcore hruns 5 a (hdenied.imp_left And.right)

/-- R446: an observation register out of reach reads 0. -/
theorem State.readsZero_obs {a : Nat} {t : TileId} {i : Nat} (hreach : s.reaches r a = false) (hcore : reqCore r = none) (htap : r ≠ .tap)
    (hobs : locate a = some (.obs t, i)) : s.readsZero r a = { s with readData := 0 } := by
  unfold State.readsZero
  rw [hobs]
  cases r with
  | pf => cases hreach
  | tap => exact absurd rfl htap
  | core _ | head _ => cases hcore
  | vf _ | chitin => rfl

end

/-! ### Accesses that reach -/

section
variable (s : State) {r : Req} {a : Nat}

theorem State.regWrite_reached (w : W32) (hreach : s.reaches r a = true) (hpmp : s.pmpReg r 2 a = true) (hpair : ∀ p, locate a ≠ some (.part p, 0xF04)) :
    s.regWrite r a w = s.writeAt r a w := by
  unfold State.regWrite
  rw [if_neg (by simp [hreach, hpmp])]
  split
  next p h => exact absurd h (hpair p)
  next => rfl

theorem State.readReg_reached (hreach : s.reaches r a = true) (hpmp : s.pmpReg r 1 a = true) (hpair : ∀ p, locate a ≠ some (.part p, 0xF04)) :
    s.readReg r a = s.readAt r a := by
  unfold State.readReg
  rw [if_neg (by simp [hreach, hpmp])]
  split
  next p h => exact absurd h (hpair p)
  next => rfl

/-- R18: an unoccupied address discards a write. -/
theorem State.writeAt_unoccupied (w : W32) (h : locate a = none) : s.writeAt r a w = s := by
  unfold State.writeAt
  rw [h]
  split <;> rfl

theorem State.word_unoccupied (h : locate a = none) : s.word a = 0 := by
  unfold State.word
  rw [h]
  split <;> rfl

theorem isLow_unoccupied (h : locate a = none) : isLow a = false := by
  unfold isLow
  rw [h]

/-- R356: a read that no shadow takes part in returns the register's word. -/
theorem State.readAt_readData (hanswers : s.answersRead r a = true) (hlow : isLow a = false) (hhigh : a < 4 ∨ isLow (a - 4) = false) :
    (s.readAt r a).readData = s.word a := by
  have hpair : ¬ (4 ≤ a ∧ isLow (a - 4)) := by
    rintro ⟨h4, hl⟩
    rcases hhigh with h | h
    · omega
    · exact absurd hl (by simp [h])
  unfold State.readAt
  rw [if_neg (by simp [hanswers])]
  split
  · rfl
  · rw [if_neg (by simp [hlow]), if_neg hpair]
    dsimp only
    split <;> rfl

theorem State.readAt_plain (hanswers : s.answersRead r a = true) (hlow : isLow a = false) (hhigh : isLow (a - 4) = false) (hchi : a ≠ chiBase + 0x40) :
    s.readAt r a = { s with readData := s.word a } := by
  unfold State.readAt
  rw [if_neg (by simp [hanswers])]
  split
  · rfl
  · rw [if_neg (by simp [hlow]), if_neg (by simp [hhigh])]
    exact if_neg hchi

end

/-! ### The staged registers of a partition's window -/

/-- R471: a partition's window. -/
theorem locate_part (p : PartId) {o : Nat} (ho : o < 0x40000) : locate (partBase p + o) = some (.part p, o) := by
  have hp := p.isLt
  have hlow : 0x06000000 ≤ partBase p + o := by unfold partBase; omega
  have hhigh : partBase p + o < 0x07000000 := by unfold partBase; omega
  have hpart : BitVec.ofNat 6 ((partBase p + o - 0x06000000) / 0x40000) = p := by
    refine BitVec.eq_of_toNat_eq ?_
    rw [BitVec.toNat_ofNat]
    unfold partBase
    omega
  have hoff : (partBase p + o) % 0x40000 = o := by unfold partBase; omega
  have hpast : ∀ n ≤ 0x06000000, ¬ partBase p + o < n := by omega
  have hspine : ¬ (0x050E0000 ≤ partBase p + o ∧ partBase p + o < 0x05120000) := by omega
  unfold locate
  rw [if_neg (hpast _ (by decide)), if_neg (hpast _ (by decide)), if_neg (hpast _ (by decide)), if_neg hspine, if_pos ⟨hlow, hhigh⟩, hpart, hoff]

/-- Offsets of the registers in which the headgate's commands are staged. -/
def stagedOffsets : List Nat := [0x800, 0x804, 0x820, 0x824, 0x840, 0x844, 0x874, 0x878, 0x884, 0x888]

theorem stagedOffsets_bounds : ∀ o ∈ stagedOffsets, 0x800 ≤ o ∧ o < 0x890 ∧ o % 4 = 0 := by decide

section
variable (s : State) {p : PartId} {a o : Nat} (hloc : locate a = some (.part p, o)) (ho : o ∈ stagedOffsets)

section
include ho

/-- No row of the headgate's window that the image writes is a staged register. -/
theorem imgRows_staged (p : PartId) : (imgRowsOf (.part p)).find? (·.has o) = none := by
  have hrows : ∀ o ∈ stagedOffsets, (imgRowsOf (.part 0)).find? (·.has o) = none := by decide
  exact hrows o ho

theorem State.partWrite_staged (r : Req) (w : W32) : s.partWrite r p o w = s.plainWrite (partBase p + o) w := by
  obtain ⟨hge, hlt, -⟩ := stagedOffsets_bounds o ho
  unfold State.partWrite
  dsimp only
  rw [if_neg (by omega), if_neg (by omega)]
  split
  case h_18 => rfl
  all_goals exact absurd ho (by decide)

theorem State.partWord_staged : s.partWord p o = s.reg (partBase p + o) := by
  obtain ⟨hge, hlt, -⟩ := stagedOffsets_bounds o ho
  unfold State.partWord
  dsimp only
  iterate 12 rw [if_neg (by omega)]

end

include hloc ho

theorem imgMask_staged : imgMask a = 0 := by
  unfold imgMask
  rw [hloc]
  dsimp only
  rw [imgRows_staged ho]

theorem State.imgWord_staged (w : W32) : s.imgWord a w = w := by
  unfold State.imgWord
  rw [imgMask_staged hloc ho]
  split
  · rfl
  · exact BitVec.and_allOnes

theorem State.writeAt_staged (w : W32) (halign : a % 4 = 0) : s.writeAt (.vf p) a w = s.plainWrite (partBase p + o) w := by
  have hown : s.partReq (.vf p) p = true := decide_eq_true rfl
  unfold State.writeAt
  rw [if_neg (by simp [halign]), s.imgWord_staged hloc ho, hloc]
  dsimp only
  rw [State.onPart, State.via, if_pos hown, s.partWrite_staged ho]

theorem State.word_staged (halign : a % 4 = 0) : s.word a = s.reg (partBase p + o) := by
  unfold State.word
  rw [if_neg (by simp [halign]), hloc]
  exact s.partWord_staged ho

end

/-- Past the counters of a partition no register is the low word of a pair. -/
theorem isLow_part {p : PartId} {a o : Nat} (hloc : locate a = some (.part p, o)) (ho : 0x740 < o) : isLow a = false := by
  unfold isLow
  rw [hloc]
  simp only [Bool.or_eq_false_iff, Bool.and_eq_false_iff, decide_eq_false_iff_not]
  omega

/-- The operand that names a staged register of partition `p`. -/
theorem toNat_staged (p : PartId) {o : Nat} (ho : o ∈ stagedOffsets) : (BitVec.ofNat 32 (partBase p + o)).toNat = partBase p + o := by
  obtain ⟨-, hlt, -⟩ := stagedOffsets_bounds o ho
  have := p.isLt
  rw [BitVec.toNat_ofNat]
  unfold partBase
  omega

section
variable (s : State) (p : PartId) {o : Nat} (ho : o ∈ stagedOffsets)
include ho

theorem State.reaches_staged : s.reaches (.vf p) (partBase p + o) = true := by
  obtain ⟨-, hlt, -⟩ := stagedOffsets_bounds o ho
  simp only [State.reaches, Bool.and_eq_true, decide_eq_true_eq]
  omega

theorem locate_staged : locate (partBase p + o) = some (.part p, o) := by
  obtain ⟨-, hlt, -⟩ := stagedOffsets_bounds o ho
  exact locate_part p (by omega)

theorem not_pair_staged (q : PartId) : locate (partBase p + o) ≠ some (.part q, 0xF04) := by
  obtain ⟨-, hlt, -⟩ := stagedOffsets_bounds o ho
  rw [locate_staged p ho]
  simp only [ne_eq, Option.some.injEq, Prod.mk.injEq, not_and]
  omega

theorem align_staged : (partBase p + o) % 4 = 0 := by
  obtain ⟨-, -, halign⟩ := stagedOffsets_bounds o ho
  unfold partBase
  omega

theorem State.regWrite_staged (w : W32) : s.regWrite (.vf p) (partBase p + o) w = s.plainWrite (partBase p + o) w := by
  rw [s.regWrite_reached w (s.reaches_staged p ho) rfl (not_pair_staged p ho), s.writeAt_staged (locate_staged p ho) ho w (align_staged p ho)]

theorem State.readReg_staged : s.readReg (.vf p) (partBase p + o) = { s with readData := s.reg (partBase p + o) } := by
  obtain ⟨hge, hlt, -⟩ := stagedOffsets_bounds o ho
  have habove : 0x05000000 ≤ partBase p + o := by unfold partBase; omega
  have hanswers : s.answersRead (.vf p) (partBase p + o) = true := by
    unfold State.answersRead
    rw [if_pos (.inr habove)]
  have hbefore : locate (partBase p + o - 4) = some (.part p, o - 4) := by
    rw [show partBase p + o - 4 = partBase p + (o - 4) by omega]
    exact locate_part p (by omega)
  have hchi : partBase p + o ≠ chiBase + 0x40 := by unfold chiBase; omega
  rw [s.readReg_reached (s.reaches_staged p ho) rfl (not_pair_staged p ho),
    s.readAt_plain hanswers (isLow_part (locate_staged p ho) (by omega)) (isLow_part hbefore (by omega)) hchi,
    s.word_staged (locate_staged p ho) ho (align_staged p ho)]

end

/-! ### What the register instructions do -/

section
variable (s : State) (r : Req) (a w : W32)

theorem exec_registerWrite_addr : exec (.registerWrite r (.addr a) w) s = .next (s.regWrite r a.toNat w) := rfl

theorem exec_lowWordRead_addr : exec (.lowWordRead r (.addr a)) s = .next (s.readReg r a.toNat) := rfl

/-- R350: neither access of a requester that is no core changes the machine where its reach ends. -/
theorem exec_register_unreached (hreach : s.reaches r a.toNat = false) (hcore : reqCore r = none) :
    exec (.registerWrite r (.addr a) w) s = .next s ∧ exec (.lowWordRead r (.addr a)) s = .next (s.readsZero r a.toNat) := by
  rw [exec_registerWrite_addr, exec_lowWordRead_addr, s.regWrite_denied w (.inl hreach), s.readReg_denied (.inl hreach), s.turnedAway_none hcore,
    s.turnedAway_none hcore]
  exact ⟨rfl, rfl⟩

/-- R18: an unoccupied address that an access reaches discards the write and reads 0. -/
theorem exec_register_unoccupied (hreach : s.reaches r a.toNat = true) (hread : s.pmpReg r 1 a.toNat = true) (hwrite : s.pmpReg r 2 a.toNat = true)
    (hloc : locate a.toNat = none) : exec (.registerWrite r (.addr a) w) s = .next s
      ∧ (s.answersRead r a.toNat = true → (a.toNat < 4 ∨ isLow (a.toNat - 4) = false) →
          ∃ u, exec (.lowWordRead r (.addr a)) s = .next u ∧ u.readData = 0) := by
  have hpair : ∀ p, locate a.toNat ≠ some (.part p, 0xF04) := by simp [hloc]
  rw [exec_registerWrite_addr, s.regWrite_reached w hreach hwrite hpair, s.writeAt_unoccupied w hloc]
  refine ⟨rfl, fun hanswers hhigh => ⟨s.readReg r a.toNat, rfl, ?_⟩⟩
  rw [s.readReg_reached hreach hread hpair, s.readAt_readData hanswers (isLow_unoccupied hloc) hhigh, s.word_unoccupied hloc]

theorem exec_register_staged (p : PartId) {o : Nat} (ho : o ∈ stagedOffsets) :
    exec (.registerWrite (.vf p) (.addr (BitVec.ofNat 32 (partBase p + o))) w) s = .next (s.plainWrite (partBase p + o) w)
      ∧ exec (.lowWordRead (.vf p) (.addr (BitVec.ofNat 32 (partBase p + o)))) s = .next { s with readData := s.reg (partBase p + o) } := by
  rw [exec_registerWrite_addr, exec_lowWordRead_addr, toNat_staged p ho, s.regWrite_staged p ho, s.readReg_staged p ho]
  exact ⟨rfl, rfl⟩

end

section
variable (s : State) {r : Req} {c : CoreId} (hcore : reqCore r = some c) (hruns : s.coreRuns c = true)
include hcore hruns

theorem exec_csr_write (n : BitVec 12) (w : W32) (hmay : s.csrMay c n.toNat true = true) :
    exec (.registerWrite r (.csr c n) w) s = .next ((s.awake c).csrSet c n.toNat w) := by
  change execRegisterWrite r (.csr c n) w s = _
  simp [execRegisterWrite, State.onCsr, hcore, hruns, hmay]

/-- R352: a CSR that the core's mode does not open traps as an illegal instruction. -/
theorem exec_csr_read_trapped (n : BitVec 12) (hmay : s.csrMay c n.toNat false = false) :
    ∃ u, exec (.lowWordRead r (.csr c n)) s = .next u ∧ s.Trapped u c 2 := by
  refine ⟨_, ?_, s.excTrap_trapped c 2 (BitVec.ofNat 32 (s.draw 0)) s.pcFree⟩
  change execLowWordRead r (.csr c n) s = _
  simp [execLowWordRead, State.onCsr, hcore, hruns, hmay]

end

section
variable (s : State) (p : PartId)

theorem exec_pair (w : W32) : exec (.vfIndirectWrite (.vf p) p w) s = .next (s.pairWrite (.vf p) p w)
    ∧ exec (.vfIndirectRead (.vf p) p) s = .next (s.pairRead (.vf p) p) := by
  have hown : s.partReq (.vf p) p = true := decide_eq_true rfl
  have hwrite : s.onPart (.vf p) p (·.pairWrite (.vf p) p w) = s.pairWrite (.vf p) p w := if_pos hown
  have hread : s.onPartRead (.vf p) p (·.pairRead (.vf p) p) = s.pairRead (.vf p) p := if_pos hown
  rw [← hwrite, ← hread]
  exact ⟨rfl, rfl⟩

/-- R473: the pair reaches what its address names. -/
theorem exec_pair_reached (w : W32) {b : Nat} (h : s.pairAddr p = some b) : exec (.vfIndirectWrite (.vf p) p w) s = .next (s.writeAt (.vf p) b w)
    ∧ exec (.vfIndirectRead (.vf p) p) s = .next (s.readAt (.vf p) b) := by
  simpa only [State.pairWrite, State.pairRead, h] using exec_pair s p w

theorem exec_pair_refused (w : W32) (h : s.pairAddr p = none) : exec (.vfIndirectWrite (.vf p) p w) s = .next (s.pairRefused p)
    ∧ exec (.vfIndirectRead (.vf p) p) s = .next { s.pairRefused p with readData := 0 } := by
  simpa only [State.pairWrite, State.pairRead, h] using exec_pair s p w

end

/-- R458: the state in which a REGACC access is made, or is marked refused. -/
def State.tapAt (s : State) (refused : Bool) : State := { s with chitin := { s.chitin with tapIr := 0x18, tapRefused := refused } }

section
variable (s : State) (a w : W32)

theorem exec_tapRegacc (write : Bool) : exec (.tapRegacc write a w) s = .next (s.tapAccess write a.toNat w) := rfl

theorem exec_tap_refused (write : Bool) (h : s.tapAccepts write a.toNat = false) : exec (.tapRegacc write a w) s = .next (s.tapAt true) := by
  simp [exec_tapRegacc, State.tapAccess, State.tapAt, h]

theorem exec_tap_write (h : s.tapAccepts true a.toNat = true) : exec (.tapRegacc true a w) s = .next ((s.tapAt false).regWrite .tap a.toNat w) := by
  simp [exec_tapRegacc, State.tapAccess, State.tapAt, h]

theorem exec_tap_read (h : s.tapAccepts false a.toNat = true) : ∃ u, exec (.tapRegacc false a w) s = .next u
    ∧ u.readData = ((s.tapAt false).readReg .tap a.toNat).readData ∧ u.chitin.tapData = u.readData := by
  have hread : s.tapAccess false a.toNat w = { (s.tapAt false).readReg .tap a.toNat with
      chitin := { ((s.tapAt false).readReg .tap a.toNat).chitin with tapData := ((s.tapAt false).readReg .tap a.toNat).readData } } := by
    simp [State.tapAccess, State.tapAt, h]
  rw [exec_tapRegacc, hread]
  exact ⟨_, rfl, rfl, rfl⟩

end

end Sys2Proof.Machine

open Sys2Proof Sys2Proof.Machine

/-- Settles O45: each clause is what a register instruction does on one side of the tests that an access passes. -/
theorem registerAccess : Obligations.RegisterAccess := by
  unfold Obligations.RegisterAccess
  intro s r p a w o k traps
  refine ⟨fun hreach hcore => ?_, fun c hreach hcore hruns hsees => ?_, fun c hcore hruns => ⟨fun hpmp => ?_, fun hpmp => ?_⟩,
    fun c n hcore hruns => ⟨exec_csr_write s hcore hruns n w, exec_csr_read_trapped s hcore hruns n⟩, exec_register_unoccupied s r a w,
    exec_register_staged s w p, fun b => exec_pair_reached s p w, exec_pair_refused s p w, exec_tap_refused s a w, exec_tap_write s a w,
    exec_tap_read s a w⟩
  · obtain ⟨hwrite, hread⟩ := exec_register_unreached s r a w hreach hcore
    exact ⟨hwrite, hread, fun t i htap hobs => s.readsZero_obs hreach hcore htap hobs⟩
  · have hdenied := And.intro hreach hsees
    exact ⟨⟨_, rfl, s.regWrite_trapped hcore hruns w (.inl hdenied)⟩, ⟨_, rfl, s.readReg_trapped hcore hruns (.inl hdenied)⟩⟩
  · exact ⟨_, rfl, s.regWrite_trapped hcore hruns w (.inr hpmp)⟩
  · exact ⟨_, rfl, s.readReg_trapped hcore hruns (.inr hpmp)⟩
end

/-! ## Versions, contexts and memory objects (R45, R317, R318, R320, R323, R325) -/

section
namespace Sys2Proof.Machine

/-! ### Fields of words, and the least free number -/

theorem fld_ofNat_low {m n k : Nat} (hm : m < 2 ^ k) (hsum : m + n * 2 ^ k < 2 ^ 32) (hk : 0 < k) : fld (BitVec.ofNat 32 (m + n * 2 ^ k)) (k - 1) 0 = m := by
  rw [fld, bits, BitVec.toNat_ofNat, Nat.mod_eq_of_lt hsum, Nat.shiftRight_zero, Nat.sub_zero, Nat.sub_add_cancel hk, Nat.add_mul_mod_self_right, Nat.mod_eq_of_lt hm]

theorem fld_setFld_low (w : W32) {hi v : Nat} (hhi : hi < 32) (hv : v < 2 ^ (hi + 1)) : fld (setFld w hi 0 v) hi 0 = v := by
  refine Nat.eq_of_testBit_eq fun i => ?_
  have hmask : ∀ j (hj : j < 32), (BitVec.ofNat 32 (2 ^ (hi + 1) - 1))[j] = decide (j < hi + 1) := by
    intro j hj
    rw [← BitVec.getLsbD_eq_getElem, BitVec.getLsbD_ofNat, Nat.testBit_two_pow_sub_one, decide_eq_true hj, Bool.true_and]
  rw [fld, bits, Nat.shiftRight_zero, Nat.sub_zero, Nat.testBit_mod_two_pow, BitVec.testBit_toNat]
  by_cases hi' : i < hi + 1
  · have hi32 : i < 32 := by omega
    have hval : (BitVec.ofNat 32 v)[i] = v.testBit i := by
      rw [← BitVec.getLsbD_eq_getElem, BitVec.getLsbD_ofNat, decide_eq_true hi32, Bool.true_and]
    simp [setFld, hmask i hi32, hi', hi32, hval]
  · rw [Nat.testBit_lt_two_pow (hv.trans_le (Nat.pow_le_pow_right (by decide) (by omega)))]
    simp [hi']

theorem firstBelow_eq_some {n i : Nat} {f : Nat → Bool} (hi : i < n) (hleast : ∀ j < i, f j = false) (hf : f i = true) : firstBelow n f = some i :=
  List.find?_range_eq_some.2 ⟨hf, List.mem_range.2 hi, fun j hj => by simp [hleast j hj]⟩

theorem firstBelow_eq_none {n : Nat} {f : Nat → Bool} (h : ∀ j < n, f j = false) : firstBelow n f = none :=
  List.find?_eq_none.2 fun j hj => by simp [h j (List.mem_range.1 hj)]

/-! ### Registers of a partition's window -/

theorem State.reg_setRegF_other (s : State) {a b : Nat} (hi lo v : Nat) (h : b ≠ a) : (s.setRegF a hi lo v).reg b = s.reg b :=
  s.reg_setReg_other _ h

/-- A command of a requester that reaches the window is carried out. -/
theorem State.onPart_reached (s : State) {r : Req} {p : PartId} (f : State → State) (h : s.partReq r p = true) : s.onPart r p f = f s := if_pos h

theorem State.ctxAt_ctxResult (s : State) (p q : PartId) (c d : CtxId) (k : Nat) : (s.ctxResult p c k).ctxAt q d = s.ctxAt q d := by
  rw [State.ctxAt, State.ctxResult, State.setReg_ctx, State.ctxAt]

theorem State.partStopped_ctxResult (s : State) (p q : PartId) (c : CtxId) (k : Nat) : (s.ctxResult p c k).partStopped q = s.partStopped q := by
  rw [State.partStopped, State.ctxResult, State.setReg_gs, State.partStopped]

theorem State.reg_ctxResult (s : State) (p : PartId) (c : CtxId) (k : Nat) :
    (s.ctxResult p c k).reg (partBase p + 0x814) = BitVec.ofNat 32 (c.toNat + k * 2 ^ 8) := State.reg_setReg ..

/-- R349: the number and the result that HGT_CTXRESULT holds. -/
theorem fld_ctxResult (c : CtxId) {k : Nat} (hk : k < 16) :
    fld (BitVec.ofNat 32 (c.toNat + k * 2 ^ 8)) 7 0 = c.toNat ∧ fld (BitVec.ofNat 32 (c.toNat + k * 2 ^ 8)) 11 8 = k := by
  have := c.isLt
  refine ⟨fld_ofNat_low c.isLt (by omega) (by decide), ?_⟩
  rw [fld, bits, BitVec.toNat_ofNat, Nat.shiftRight_eq_div_pow]
  omega

/-- No version register is one of those that a CREATE of a context has staged. -/
theorem verReg_ne_staged (pf : Bool) (p : PartId) {o : Nat} (ho : 0x200 < o) : partBase p + o ≠ verReg pf p := by
  have := p.isLt
  unfold verReg partBase hgtBase
  split <;> omega

/-! ### Versions (R45) -/

section
variable (s : State) {r : Req} {p : PartId} {pf : Bool} (hfn : s.fnKind r p = some pf) (hready : s.hgtReady = true)
include hfn

/-- R45: a function that owns a context is refused. -/
theorem State.version_owned (k : Nat) (h : s.ownedCtxs p pf ≠ []) : s.version r p k = s.setRegF (verReg pf p) 15 14 2 := by
  unfold State.version
  rw [hfn]
  exact if_pos (.inr (by simp [h]))

include hready

theorem State.version_unowned (k : Nat) (h : s.ownedCtxs p pf = []) : s.version r p k
    = if k = 3 ∨ k = 1 ∧ s.timelineMode p = true then s.setRegF (verReg pf p) 15 14 3 else (s.setRegF (verReg pf p) 13 12 k).setRegF (verReg pf p) 15 14 1 := by
  unfold State.version
  rw [hfn]
  exact if_neg (by simp [hready, h])

/-! ### Creation of contexts (R323) -/

theorem State.createCtx_full (hcfg : s.pcfg p ≠ none) (h : ∀ j, j < s.ctxCap p → (s.ctxAt p (BitVec.ofNat 8 j)).st ≠ .free) :
    s.createCtx r p = s.ctxResult p 0 2 := by
  unfold State.createCtx
  rw [hfn]
  dsimp only
  rw [if_neg (by simp [hready]), if_neg (by simp [hcfg]), firstBelow_eq_none fun j hj => decide_eq_false (h j hj)]
  rfl

/-- R323: the context that CREATE makes. -/
theorem State.createCtx_free (hcfg : s.pcfg p ≠ none) {i : Nat} (hi : i < s.ctxCap p) (hleast : ∀ j, j < i → (s.ctxAt p (BitVec.ofNat 8 j)).st ≠ .free)
    (hfree : (s.ctxAt p (BitVec.ofNat 8 i)).st = .free) (hmin : 6 ≤ fld (s.reg (partBase p + 0x808)) 4 0) (hmax : fld (s.reg (partBase p + 0x808)) 4 0 ≤ 16)
    (hvec : pf = true ∨ fld (s.reg (partBase p + 0x808)) 16 8 ≤ 255) (hver : s.regF (verReg pf p) 13 12 ≠ 0 ∨ s.timelineMode p = false) :
    let x := (s.createCtx r p).ctxAt p (BitVec.ofNat 8 i)
    x.st = .active ∧ x.byPf = pf ∧ x.ring = s.reg64 (partBase p + 0x800) (partBase p + 0x804) ∧ x.nlog2.toNat = fld (s.reg (partBase p + 0x808)) 4 0
      ∧ (s.createCtx r p).reg (partBase p + 0x814) = BitVec.ofNat 32 ((BitVec.ofNat 8 i).toNat + 1 * 2 ^ 8) := by
  have hargs : ¬ (fld (s.reg (partBase p + 0x808)) 4 0 < 6 ∨ 16 < fld (s.reg (partBase p + 0x808)) 4 0
      ∨ ((!pf) = true ∧ 255 < if pf = true then fld (s.reg (partBase p + 0x808)) 18 8 else fld (s.reg (partBase p + 0x808)) 16 8)) := by
    rintro (h | h | ⟨hvf, h⟩)
    · omega
    · omega
    · rcases hvec with rfl | hvec
      · cases hvf
      · rw [if_neg (by simpa using hvf)] at h
        omega
  unfold State.createCtx
  rw [hfn]
  dsimp only
  rw [if_neg (by simp [hready]), if_neg (by simp [hcfg]), firstBelow_eq_some hi (fun j hj => decide_eq_false (hleast j hj)) (decide_eq_true hfree)]
  dsimp only
  rw [if_neg hargs, if_neg (fun h => hver.elim (absurd h.1) fun hmode => by simp [hmode] at h)]
  have hring : ∀ o > 0x200, (if s.regF (verReg pf p) 13 12 = 0 then s.setRegF (verReg pf p) 13 12 1 else s).reg (partBase p + o) = s.reg (partBase p + o) := by
    intro o ho
    split
    · exact s.reg_setRegF_other _ _ _ (verReg_ne_staged pf p ho)
    · rfl
  rw [State.ctxAt_ctxResult, State.ctxAt_setCtx, State.reg_ctxResult]
  refine ⟨rfl, rfl, ?_, rfl, rfl⟩
  simp only [State.reg64, hring _ (show 0x800 > 0x200 by decide), hring _ (show 0x804 > 0x200 by decide)]

end

end Sys2Proof.Machine
end

/-! ## The destruction of a context (R325) -/

section
namespace Sys2Proof.Machine

/-- R325: context `c` of partition `p` is DYING, and HGT_CTXRESULT holds `w`. -/
def State.Dying (s : State) (p : PartId) (c : CtxId) (w : W32) : Prop := (s.ctxAt p c).st = .dying ∧ s.reg (partBase p + 0x814) = w

section
variable {p : PartId} {c : CtxId} {w : W32}

/-! ### Writes that keep a context DYING -/

theorem each_dying_mem {β : Type} {l : List β} {f : State → β → State} (hf : ∀ s x, x ∈ l → s.Dying p c w → (f s x).Dying p c w) {s : State}
    (h : s.Dying p c w) : (each s l f).Dying p c w := by
  induction l generalizing s with
  | nil => exact h
  | cons x l ih => exact ih (fun s y hy => hf s y (List.mem_cons_of_mem _ hy)) (hf s x List.mem_cons_self h)

theorem each_dying {β : Type} {l : List β} {f : State → β → State} (hf : ∀ s x, s.Dying p c w → (f s x).Dying p c w) {s : State}
    (h : s.Dying p c w) : (each s l f).Dying p c w :=
  each_dying_mem (fun s x _ => hf s x) h

theorem State.setReg_dying {s : State} {a : Nat} (v : W32) (ha : a ≠ partBase p + 0x814) (h : s.Dying p c w) : (s.setReg a v).Dying p c w := by
  unfold State.Dying
  rw [s.reg_setReg_other v ha.symm]
  exact h

/-- A write of a context table's entry keeps a DYING one so. -/
theorem State.setCtx_dying {s : State} {q : PartId} {d : CtxId} {x : Ctx} (hx : (s.ctxAt q d).st = .dying → x.st = .dying) (h : s.Dying p c w) :
    (s.setCtx q d x).Dying p c w := by
  obtain ⟨hst, hreg⟩ := h
  refine ⟨?_, hreg⟩
  by_cases hsame : (p, c) = (q, d)
  · obtain ⟨rfl, rfl⟩ := Prod.mk.injEq .. ▸ hsame
    rw [State.ctxAt_setCtx]
    exact hx hst
  · rwa [s.ctxAt_setCtx_other _ _ _ _ _ hsame]

section
variable {s : State} (h : s.Dying p c w)
include h

theorem State.setTile_dying (t v) : (s.setTile t v).Dying p c w := h
theorem State.setEng_dying (t e v) : (s.setEng t e v).Dying p c w := h
theorem State.setMovq_dying (t q v) : (s.setMovq t q v).Dying p c w := h
theorem State.setMovd_dying (t d v) : (s.setMovd t d v).Dying p c w := h
theorem State.setPosterW_dying (t n v) : (s.setPosterW t n v).Dying p c w := h
theorem State.setCtl_dying (k v) : (s.setCtl k v).Dying p c w := h
theorem State.setPart_dying (q v) : (s.setPart q v).Dying p c w := h
theorem State.setQueue_dying (q k v) : (s.setQueue q k v).Dying p c w := h
theorem State.setObj_dying (q i v) : (s.setObj q i v).Dying p c w := h
theorem State.setEvt_dying (q i v) : (s.setEvt q i v).Dying p c w := h
theorem State.setWaiter_dying (q i v) : (s.setWaiter q i v).Dying p c w := h
theorem State.setPort_dying (q v) : (s.setPort q v).Dying p c w := h
theorem State.setDom_dying (d v) : (s.setDom d v).Dying p c w := h
theorem State.setHbmBytes_dying (a bs) : (s.setHbmBytes a bs).Dying p c w := h
theorem State.send_dying (o) : (s.send o).Dying p c w := h
theorem State.inject_dying (x) : (s.inject x).Dying p c w := h
theorem State.newTag_dying : s.newTag.1.Dying p c w := h
theorem State.clearScalars_dying (t e) : (s.clearScalars t e).Dying p c w := h

/-! ### Registers of tiles, colonies and counters -/

/-- Every register of a colony's block lies below the partitions' windows. -/
theorem State.setColReg_dying (k : ColId) {o : Nat} (v : W32) (ho : o < 0x40000) : (s.setReg (colBase k + o) v).Dying p c w := by
  have hcol := colBase_lt k
  exact State.setReg_dying v (by unfold partBase; omega) h

theorem State.setTr_dying (t : TileId) {o : Nat} (v : W32) (ho : o < 0x2000) : (s.setTr t o v).Dying p c w := by
  have hindex : indexOf t < 16 := by unfold indexOf; omega
  unfold State.setTr tileBase
  rw [Nat.add_assoc, Nat.add_assoc]
  exact State.setColReg_dying h _ v (by omega)

theorem State.setObs_dying (t : TileId) {o : Nat} (v : W32) (ho : o < 0x1100) : (s.setReg (obsBase t + o) v).Dying p c w := by
  have hindex : indexOf t < 16 := by unfold indexOf; omega
  unfold obsBase
  rw [Nat.add_assoc, Nat.add_assoc]
  exact State.setColReg_dying h _ v (by omega)

theorem State.lightP_dying (q k) {n : Nat} (hn : n < 8) : (s.lightP q n k).Dying p c w := by
  cases q with
  | none => exact h
  | some q =>
    unfold State.lightP State.add64
    refine State.setReg_dying _ ?_ (State.setReg_dying _ ?_ h) <;> unfold partBase <;> omega

theorem State.setBusy_dying (t b) {i : Nat} (hi : i < 64) : (s.setBusy t i b).Dying p c w :=
  State.setTr_dying h t _ (by unfold tagOff; omega)

theorem State.setSem_dying (t n v) : (s.setSem t n v).Dying p c w := by
  have := n.isLt
  exact State.setTr_dying h t _ (by omega)

theorem State.addSem_dying (t n k who) : (s.addSem t n k who).1.Dying p c w := by
  unfold State.addSem
  dsimp only
  split
  · exact State.setSem_dying (State.setPosterW_dying h ..) ..
  · exact State.setTr_dying (State.setSem_dying (State.setPosterW_dying h ..) ..) _ _ (by decide)

/-! ### Reports -/

theorem State.ordered_dying (k l) : (s.ordered k l).Dying p c w := by
  unfold State.ordered
  dsimp only
  split
  · exact h
  · exact State.setCtl_dying h ..

theorem State.raise_dying (k) {src : Nat} (hsrc : src < 512) : (s.raise k src).Dying p c w := by
  have hint : ∀ o < 0x4000, intBase k + o < 0x05000000 := fun o => intBase_lt k
  unfold State.raise
  dsimp only
  refine State.setReg_dying _ ?_ ?_
  · split
    · have := hint (0x140 + 4 * (src / 32)) (by omega)
      unfold partBase
      omega
    · have := hint (0x1A0 + 4 * (src / 32 - 8)) (by omega)
      unfold partBase
      omega
  · split
    · exact h
    · exact State.ordered_dying h ..

theorem State.raiseTile_dying (t) {base : Nat} (hbase : base < 496) : (s.raiseTile t base).Dying p c w :=
  State.raise_dying h _ (by unfold indexOf; omega)

theorem State.trace_dying (t ty unit place info) : (s.trace t ty unit place info).Dying p c w := by
  unfold State.trace
  split
  · exact h
  · split
    · exact h
    · dsimp only
      split
      · exact h
      · exact State.setObs_dying h t _ (by decide)

theorem State.traceUnit_dying (q ty unit place info x) : (s.traceUnit q ty unit place info x).Dying p c w := by
  unfold State.traceUnit State.traceUnitAt
  split
  · exact h
  · exact State.setPart_dying h ..

theorem State.askWake_dying (d) : (s.askWake d).Dying p c w := by
  unfold State.askWake
  dsimp only
  split
  · exact h
  · exact State.setDom_dying h ..

/-- R342: a record enters a context's line or is counted lost; its state stands. -/
theorem State.notice_dying (q d n) : (s.notice q d n).Dying p c w := by
  unfold State.notice
  dsimp only
  split
  · exact h
  split <;> exact State.setCtx_dying id h

end

/-! ### Messages of Vulor ports -/

theorem State.sendFlit_dying {s : State} (h : s.Dying p c w) (q ty slots) : (s.sendFlit q ty slots).Dying p c w :=
  State.send_dying (State.setPort_dying h ..) _

theorem State.sendSlots_dying {s : State} (h : s.Dying p c w) (q n l) : (s.sendSlots q n l).Dying p c w := by
  induction n generalizing s l with
  | zero => exact h
  | succ n ih =>
    unfold State.sendSlots
    split
    · exact h
    · exact ih (State.sendFlit_dying h ..) _

theorem State.pump_dying {s : State} (h : s.Dying p c w) (q n) : (s.pump q n).Dying p c w := by
  induction n generalizing s with
  | zero => exact h
  | succ n ih =>
    unfold State.pump
    dsimp only
    split
    · exact h
    next m _ =>
    generalize ite (m.ty = .time) _ _ = sent
    split
    · exact h
    · exact ih (State.setPort_dying (State.sendSlots_dying (State.setPort_dying h ..) ..) ..)

section
variable {s : State} (h : s.Dying p c w)
include h

theorem State.emit_dying (q vc m) : (s.emit q vc m).Dying p c w := State.pump_dying (State.setPort_dying h ..) ..

/-! ### Fences, commands and waiter slots -/

theorem State.retest_dying (q sel) : (s.retest q sel).Dying p c w := by
  refine each_dying (fun _ _ hu => ?_) h
  split <;> exact hu

theorem State.wake_dying (q tl key) : (s.wake q tl key).Dying p c w := State.retest_dying h ..

theorem State.evtSet_dying (q i err) : (s.evtSet q i err).Dying p c w := State.wake_dying (State.setEvt_dying h ..) ..

theorem State.tlApply_dying (q a v) : (s.tlApply q a v).Dying p c w := by
  unfold State.tlApply
  split
  · exact h
  split
  · exact State.askWake_dying (by exact h) _
  · exact State.wake_dying (State.setHbmBytes_dying h ..) ..

theorem State.forceRemote_dying (q d o) : (s.forceRemote q d o).Dying p c w := by
  unfold State.forceRemote
  dsimp only
  split
  · exact h
  split
  · split
    · exact State.tlApply_dying (State.newTag_dying h) ..
    · exact State.newTag_dying h
  · exact State.emit_dying (by exact h) ..
  · exact State.newTag_dying h

theorem State.forceSignal_dying (q d) : (s.forceSignal q d).Dying p c w := by
  refine each_dying (fun _ _ hu => ?_) (each_dying (fun _ _ hu => State.evtSet_dying hu ..) h)
  split
  · exact State.forceRemote_dying hu ..
  · exact State.tlApply_dying hu ..

theorem State.waitWake_dying (q tl hh) : (s.waitWake q tl hh).Dying p c w := by
  unfold State.waitWake
  split
  · exact State.askWake_dying h _
  · exact h

theorem State.takeWait_dying (q k) : (s.takeWait q k).Dying p c w := by
  have hwake : ∀ tl hh, (s.waitWake q tl hh).Dying p c w := State.waitWake_dying h q
  unfold State.takeWait
  dsimp only
  split
  · split <;> exact h
  split
  · split <;> exact h
  split
  · exact h
  split
  · exact State.setQueue_dying (hwake ..) ..
  · exact State.setQueue_dying (State.setWaiter_dying (hwake ..) ..) ..

theorem State.takeWaits_dying (q) : (s.takeWaits q).Dying p c w := each_dying (fun _ _ hu => State.takeWait_dying hu ..) h

theorem State.complete_dying (q sel) : (s.complete q sel).Dying p c w := by
  refine each_dying (fun u x hu => ?_) (each_dying (fun _ _ hu => State.setQueue_dying hu ..) h)
  dsimp only
  generalize hpart : ite (x.2.2.1.isRunning = true ∧ x.2.2.1.launch.isSome = true) _ _ = part
  have hp : part.Dying p c w := by
    rw [← hpart]
    cases x.2.2.1.slot with
    | none => split <;> exact hu
    | some i => split <;> exact hu
  split
  · exact State.notice_dying hp ..
  · exact hp

theorem State.fireSlot_dying (q i) : (s.fireSlot q i).Dying p c w := by
  have htraced : ((s.disarm q i).traceUnit q 0x03 5 0 i (some (s.waiterAt q i).owner)).Dying p c w :=
    State.traceUnit_dying (State.setWaiter_dying h ..) ..
  unfold State.fireSlot
  dsimp only
  split
  · exact h
  split
  · split
    · exact State.addSem_dying htraced ..
    · exact State.askWake_dying (by exact htraced) _
  · exact State.notice_dying htraced ..
  · split
    · exact htraced
    · split <;> exact htraced

theorem State.fireDue_dying (q) : (s.fireDue q).Dying p c w := each_dying (fun _ _ hu => State.fireSlot_dying hu ..) h

theorem State.freeObj_dying (q i) : (s.freeObj q i).Dying p c w := State.setObj_dying (State.setPart_dying h ..) ..

/-! ### Engines that stop -/

theorem State.dropWalk_dying (t e) : (s.dropWalk t e).Dying p c w := by
  unfold State.dropWalk
  split <;> exact h

theorem State.stopEngine_dying (t e) : (s.stopEngine t e).Dying p c w :=
  State.clearScalars_dying (State.setEng_dying (State.dropWalk_dying h ..) ..) ..

theorem State.reloadTile_dying (t) : (s.reloadTile t).Dying p c w := by
  refine each_dying_mem (fun _ g hg hu => each_dying_mem (fun _ l hl hv => ?_) hu) (each_dying_mem (fun _ n hn hu => ?_) h)
  · have hg := List.mem_range.1 hg
    have hl := List.mem_range.1 hl
    exact State.setTr_dying hv t _ (by omega)
  · have hn := List.mem_range.1 hn
    exact State.setPosterW_dying (State.setTr_dying hu t _ (by omega)) ..

theorem State.settle_dying (t) : (s.settle t).Dying p c w := by
  unfold State.settle
  split
  · exact State.setTile_dying (State.reloadTile_dying h t) ..
  · exact h

theorem State.stopTile_dying (t all) : (s.stopTile t all).Dying p c w := by
  unfold State.stopTile
  dsimp only
  split
  · exact h
  · refine State.settle_dying (State.setTile_dying ?_ ..) t
    refine each_dying (fun _ _ hu => ?_) (State.setTile_dying h ..)
    split
    · exact hu
    · exact State.stopEngine_dying hu ..

theorem State.windowEnd_dying (t) : (s.windowEnd t).Dying p c w := by
  refine State.setTile_dying (each_dying_mem (fun _ n hn hu => ?_) h) ..
  have hn := List.mem_range.1 hn
  dsimp only
  rw [Nat.add_assoc, Nat.add_assoc]
  exact State.setObs_dying (State.setObs_dying hu t _ (by omega)) t _ (by omega)

theorem State.closeWindow_dying (t) : (s.closeWindow t).Dying p c w := by
  unfold State.closeWindow
  split
  · exact h
  · exact State.windowEnd_dying (State.setTile_dying h ..) t

/-! ### Contexts that are lost meanwhile (R324): a DYING one stays as it is -/

theorem State.loseCtx_dying (q d code cul place addr parts) : (s.loseCtx q d code cul place addr parts).Dying p c w := by
  unfold State.loseCtx
  dsimp only
  split
  · exact h
  next hstands =>
  generalize hlost : (if (s.ctxAt q d).st = .active then _ else s) = lost
  have hl : lost.Dying p c w := by
    rw [← hlost]
    split
    · exact State.lightP_dying (State.setCtx_dying (fun hdying => absurd (.inr hdying) hstands) h) _ _ (by decide)
    · exact h
  generalize hstopped : each lost _ _ = stopped
  have hs : stopped.Dying p c w := by
    rw [← hstopped]
    refine each_dying (fun _ _ hu => ?_) hl
    split
    · exact State.stopTile_dying hu ..
    · exact hu
  split
  · exact hs
  · refine State.notice_dying (State.takeWaits_dying (State.forceSignal_dying (State.complete_dying (State.complete_dying
      (each_dying (fun _ _ hu => ?_) hs) ..) ..) ..) _) ..
    split <;> exact hu

theorem State.loseAt_dying (t code e q d addr parts) : (s.loseAt t code e q d addr parts).Dying p c w := by
  unfold State.loseAt
  split
  · exact State.loseCtx_dying h ..
  · exact h

theorem State.engFault_dying (t e code) : (s.engFault t e code).Dying p c w :=
  State.loseAt_dying (State.raiseTile_dying (State.trace_dying (State.setEng_dying (State.dropWalk_dying h ..) ..) ..) _ (by decide)) ..

theorem State.semOverflow_dying (t e) : (s.semOverflow t e).Dying p c w := by
  unfold State.semOverflow
  split
  · exact State.loseAt_dying h ..
  · exact State.engFault_dying h ..

theorem State.post_dying (t n k who src e) : (s.post t n k who src e).Dying p c w := by
  have hadded := State.addSem_dying h t n k who
  unfold State.post
  split
  next heq => rwa [heq] at hadded
  next heq =>
    rw [heq] at hadded
    exact State.semOverflow_dying hadded ..

/-! ### Kills at the tiles -/

theorem State.streamPosts_dying (t q x) : (s.streamPosts t q x).Dying p c w := by
  have hsent : (if x.arm.rsig then each s x.d.tiles fun s g => s.sendPost t g { sem := x.arm.sem, n := 1, src := t, eng := 2 } else s).Dying p c w := by
    split
    · exact each_dying (fun _ _ hu => State.inject_dying hu _) h
    · exact h
  unfold State.streamPosts State.opPost
  dsimp only
  split
  · exact State.post_dying hsent ..
  · exact hsent

theorem State.enterQueue_dying (t a) : (s.enterQueue t a).Dying p c w := h

theorem State.streamDone_dying (t q x) : (s.streamDone t q x).Dying p c w := by
  unfold State.streamDone
  dsimp only
  split
  · exact State.streamPosts_dying h ..
  · have hended := State.setMovd_dying (State.trace_dying h t 0x14 2 x.d.far (x.arm.desc.toNat + q * 8 + x.bytes % 2 ^ 32 * 2 ^ 32)) t x.arm.desc.toNat
    refine State.streamPosts_dying ?_ ..
    split
    · exact hended _
    · exact State.enterQueue_dying (hended _) ..

end

theorem State.completeStreams_dying {s : State} (h : s.Dying p c w) (t q k) : (s.completeStreams t q k).Dying p c w := by
  induction k generalizing s with
  | zero => exact h
  | succ k ih =>
    unfold State.completeStreams
    dsimp only
    split
    · exact h
    · split
      · exact h
      · exact ih (State.streamDone_dying (State.setMovq_dying h ..) ..)

theorem State.popDone_dying {s : State} (h : s.Dying p c w) (t q n) : (s.popDone t q n).Dying p c w := by
  induction n generalizing s with
  | zero => exact h
  | succ n ih =>
    unfold State.popDone
    dsimp only
    split
    · exact h
    · split
      · exact ih (State.setMovq_dying h ..)
      · exact h

section
variable {s : State} (h : s.Dying p c w)
include h

theorem State.finishQueue_dying (t q) : (s.finishQueue t q).Dying p c w :=
  State.closeWindow_dying (State.settle_dying (State.completeStreams_dying h ..) t) t

theorem State.killMover_dying (t) : (s.killMover t).Dying p c w :=
  each_dying (fun _ _ hu => State.setMovd_dying hu ..)
    (each_dying (fun _ _ hu => State.finishQueue_dying (State.popDone_dying (State.setMovq_dying hu ..) ..) ..) (State.setTile_dying h ..))

theorem State.killWeir_dying (t) : (s.killWeir t).Dying p c w := State.setTile_dying h ..

theorem State.enterQuar_dying (t q) : (s.enterQuar t q).Dying p c w :=
  State.settle_dying (State.setTile_dying (each_dying (fun _ _ hu => State.stopEngine_dying hu ..) (State.setTile_dying h ..)) ..) t

theorem State.beginScrub_dying (t d) : (s.beginScrub t d).Dying p c w :=
  State.setTile_dying (each_dying_mem (fun _ _ hi hu => State.setBusy_dying hu _ _ (List.mem_range.1 (List.mem_of_mem_filter hi))) h) ..

theorem State.killTile_dying (t d) : (s.killTile t d).Dying p c w := by
  unfold State.killTile
  dsimp only
  split
  · have hwaits : ∀ {b : Prop} [Decidable b] {v : Tile}, (if b then s.setTile t v else s).Dying p c w := by
      intro b _ v
      split <;> exact h
    split
    · exact hwaits
    · exact State.beginScrub_dying hwaits ..
  · split
    · have hquar := State.enterQuar_dying (State.killWeir_dying (State.killMover_dying h t) t) t .kill
      split
      · exact hquar
      · exact State.askWake_dying hquar _
    · exact State.beginScrub_dying h ..

/-! ### The steps of a kill -/

theorem State.killSteps_dying (q d) : (s.killSteps q d).Dying p c w := by
  unfold State.killSteps
  dsimp only
  split
  · exact h
  refine State.takeWaits_dying ?_ q
  refine each_dying (fun _ _ hu => State.setQueue_dying hu ..) ?_
  refine each_dying (fun _ _ hu => State.freeObj_dying hu ..) ?_
  refine each_dying (fun _ _ hu => State.setEvt_dying hu ..) ?_
  refine each_dying (fun _ _ hu => State.setWaiter_dying hu ..) ?_
  refine State.fireDue_dying (State.forceSignal_dying ?_ ..) q
  refine each_dying (fun _ _ hu => State.killTile_dying hu ..) ?_
  refine State.complete_dying (State.complete_dying ?_ ..) ..
  exact State.setCtx_dying id h

end

/-- R325: a context that a DESTROY finds ACTIVE or LOST is DYING after it. -/
theorem State.destroyCtx_dying (s : State) (hst : (s.ctxAt p c).st = .active ∨ (s.ctxAt p c).st = .lost) (hruns : s.partStopped p = false) :
    (s.destroyCtx p c).Dying p c (s.reg (partBase p + 0x814)) := by
  have hset : (s.setCtx p c { (s.ctxAt p c).dropWaiting with st := .dying, killing := true }).Dying p c (s.reg (partBase p + 0x814)) :=
    ⟨congrArg Ctx.st (s.ctxAt_setCtx ..), rfl⟩
  unfold State.destroyCtx
  rw [if_neg (fun hnot => hst.elim hnot.1 hnot.2), if_neg (by simp [hruns])]
  exact State.killSteps_dying (each_dying (fun _ _ hu => State.setQueue_dying hu ..) hset) ..

end

end Sys2Proof.Machine
end

section
namespace Sys2Proof.Machine

/-! ### DESTROY, and the end of a DYING context (R325) -/

section
variable (s : State) (r : Req) (p : PartId) (c : CtxId)

section
variable (hreq : s.partReq r p = true) (hready : s.hgtReady = true)
include hreq hready

theorem State.destroyCmd_free (hst : (s.ctxAt p c).st = .free) : s.destroyCmd r p c = s.ctxResult p c 3 := by
  rw [State.destroyCmd, s.onPart_reached _ hreq, if_neg (by simp [hready]), hst]
  rfl

theorem State.destroyCmd_again (hst : (s.ctxAt p c).st = .dying) : s.destroyCmd r p c = s.ctxResult p c 5 := by
  rw [State.destroyCmd, s.onPart_reached _ hreq, if_neg (by simp [hready]), hst]
  rfl

/-- R325: DESTROY of an ACTIVE or LOST context begins its kill, and answers BUSY. -/
theorem State.destroyCmd_kills (hst : (s.ctxAt p c).st = .active ∨ (s.ctxAt p c).st = .lost) (hruns : s.partStopped p = false) :
    (s.destroyCmd r p c).Dying p c (BitVec.ofNat 32 (c.toNat + 5 * 2 ^ 8)) := by
  have hanswered : s.destroyCmd r p c = (s.ctxResult p c 5).destroyCtx p c := by
    rw [State.destroyCmd, s.onPart_reached _ hreq, if_neg (by simp [hready])]
    rcases hst with hst | hst <;> rw [hst] <;> rfl
  rw [hanswered, ← s.reg_ctxResult p c 5]
  exact (s.ctxResult p c 5).destroyCtx_dying (by rwa [State.ctxAt_ctxResult]) (by rwa [State.partStopped_ctxResult])

end

/-- R325: a DYING context of which nothing is left becomes FREE, and the answer BUSY that names it becomes OK. -/
theorem State.ctxFree_done (hst : (s.ctxAt p c).st = .dying) (hkill : (s.ctxAt p c).killing = false) (hreset : (s.partAt p).resetting = false)
    (hwaiting : (s.ctxAt p c).waiting = []) (htiles : ∀ t ∈ s.tilesIn p, s.killGoesOn t c = false) :
    s.ctxFree p c = if fld (s.reg (partBase p + 0x814)) 7 0 = c.toNat ∧ fld (s.reg (partBase p + 0x814)) 11 8 = 5 then (s.setCtx p c {}).ctxResult p c 1
      else s.setCtx p c {} := by
  have hleft : ¬ (s.tilesIn p).any (fun t => s.killGoesOn t c) = true := by simpa using htiles
  rw [State.ctxFree, if_neg (by simp [hst, hkill, hreset, hwaiting, hleft])]
  rfl

end

/-! ### Memory objects (R317, R318, R320) -/

theorem State.objAt_setReg (s : State) (a : Nat) (w : W32) (p : PartId) (i : Nat) : (s.setReg a w).objAt p i = s.objAt p i := by
  rw [State.objAt, State.setReg_obj, State.objAt]

theorem State.objAt_objResult (s : State) (p q : PartId) (k i : Nat) : (s.objResult p k).objAt q i = s.objAt q i := State.objAt_setReg ..

/-- R349: the result that HGT_OBJRESULT holds. -/
theorem State.fld_objResult (s : State) (p : PartId) {k : Nat} (hk : k < 16) : fld ((s.objResult p k).reg (partBase p + 0x85C)) 3 0 = k := by
  rw [State.objResult, State.setRegF, State.reg_setReg]
  exact fld_setFld_low _ (by decide) hk

theorem State.reg_objResult_other (s : State) (p : PartId) (k : Nat) {a : Nat} (h : a ≠ partBase p + 0x85C) : (s.objResult p k).reg a = s.reg a :=
  s.reg_setRegF_other _ _ _ h

/-- R35: the staged object is a timeline of another device, in a partition in EVENT mode. -/
def State.stagesAway (s : State) (p : PartId) : Prop :=
  fld (s.reg (partBase p + 0x850)) 9 8 = 3 ∧ bit (s.reg (partBase p + 0x848)) 31 = true ∧ s.timelineMode p = false

section
variable (s : State) (p : PartId)

/-- R318: what a CREATE with arguments that the partition can hold turns on. -/
theorem State.createObj_valid (hcfg : s.pcfg p ≠ none) (hargs : s.objArgsOk p = true) (hhere : ¬ s.stagesAway p) : ¬ ((s.pcfg p).isNone = true
    ∨ (!s.objArgsOk p) = true ∨ (fld (s.reg (partBase p + 0x850)) 9 8 = 3 ∧ bit (s.reg (partBase p + 0x848)) 31 = true ∧ (!s.timelineMode p) = true)) := by
  rintro (hnone | hbad | ⟨hkind, hbit, hmode⟩)
  · exact hcfg (Option.isNone_iff_eq_none.1 hnone)
  · simp [hargs] at hbad
  · exact hhere ⟨hkind, hbit, by simpa using hmode⟩

section
variable (hready : s.hgtReady = true)
include hready

theorem State.createObj_invalid (h : s.pcfg p = none ∨ s.objArgsOk p = false ∨ s.stagesAway p) : s.createObj p = s.objResult p 3 := by
  rw [State.createObj, if_neg (by simp [hready])]
  refine if_pos (h.imp (by simp [·]) (Or.imp (by simp [·]) ?_))
  exact fun ⟨hkind, hbit, hmode⟩ => ⟨hkind, hbit, by simp [hmode]⟩

section
variable (hcfg : s.pcfg p ≠ none) (hargs : s.objArgsOk p = true) (hhere : ¬ s.stagesAway p)
include hcfg hargs hhere

theorem State.createObj_full (h : ∀ j, j < s.objCap p → (s.objAt p j).st ≠ .free) : s.createObj p = s.objResult p 2 := by
  rw [State.createObj, if_neg (by simp [hready]), if_neg (s.createObj_valid p hcfg hargs hhere), firstBelow_eq_none fun j hj => decide_eq_false (h j hj)]
  rfl

/-- R318: the object that CREATE makes, and its handle. -/
theorem State.createObj_free {i : Nat} (h : (firstBelow (s.objCap p) fun j => decide ((s.objAt p j).st = .free)) = some i) :
    let o := (s.createObj p).objAt p i
    let cfg := s.reg (partBase p + 0x850)
    o.st = .live ∧ o.gen = (s.objAt p i).gen ∧ o.kind = cfg.extractLsb' 8 2 ∧ o.owner = some (cfg.extractLsb' 0 8)
      ∧ o.addr = s.reg64 (partBase p + 0x840) (partBase p + 0x844) ∧ o.len = s.reg64 (partBase p + 0x848) (partBase p + 0x84C)
      ∧ (s.createObj p).reg (partBase p + 0x858) = mkHandle i (s.objAt p i).gen ∧ fld ((s.createObj p).reg (partBase p + 0x85C)) 3 0 = 1 := by
  rw [State.createObj, if_neg (by simp [hready]), if_neg (s.createObj_valid p hcfg hargs hhere), h]
  dsimp only
  rw [State.objAt_objResult, State.objAt_setReg, State.objAt_setObj, State.fld_objResult _ _ (by decide), State.reg_objResult_other _ _ _ (by omega), State.reg_setReg]
  exact ⟨rfl, rfl, rfl, rfl, rfl, rfl, rfl, rfl⟩

end

/-! ### FREE, QUERY and release (R320) -/

theorem State.objFree_stale (h : s.objNamed p = none) : s.objFree p = s.objResult p 6 := by
  rw [State.objFree, if_neg (by simp [hready]), h]
  rfl

section
variable {i : Nat} (hnamed : s.objNamed p = some i) (hlive : (s.objAt p i).st = .live)
include hnamed hlive

theorem State.objFree_live : s.objFree p = (s.freeObj p i).objResult p 1 := by
  rw [State.objFree, if_neg (by simp [hready]), hnamed]
  exact if_pos hlive

theorem State.objQuery_live : s.objQuery p = s.setReg (partBase p + 0x85C)
    (BitVec.ofNat 32 (1 + 1 * 16 + min 0xFFFF (s.pendingUses p (s.reg (partBase p + 0x858))) * 2 ^ 16)) := by
  rw [State.objQuery, if_neg (by simp [hready]), hnamed]
  dsimp only
  rw [if_neg (by simp [hlive]), hlive]
  rfl

end

end

theorem State.objRelease_done {i : Nat} (hst : (s.objAt p i).st = .freeing) (hdone : s.doneBefore p (s.objAt p i).freeSeq = true) :
    s.objRelease p i = s.setObj p i { gen := nextGen (s.objAt p i).gen } := if_pos ⟨hst, hdone⟩

end

end Sys2Proof.Machine

open Sys2Proof Sys2Proof.Machine

/-- Settles O36: each clause is a case of one operation of the headgate; that a kill leaves its context DYING and the answer BUSY is `Dying`, which
every operation of the kill keeps. -/
theorem versionsAndContexts : Obligations.VersionsAndContexts := by
  unfold Obligations.VersionsAndContexts
  intro s r p pf c i hfn hready a no b cfg x
  refine ⟨fun hnone => ⟨?_, ?_, ?_⟩, fun howned => ?_, ?_, fun hcfg hfull => ?_, fun hreq => ⟨fun hst => ?_, fun hst => ?_, fun hst hruns => ?_⟩, ?_⟩
  · exact congrArg Host.Outcome.next ((s.version_unowned hfn hready 1 hnone).trans (by simp [no, a]))
  · exact congrArg Host.Outcome.next ((s.version_unowned hfn hready 2 hnone).trans (if_neg (by simp)))
  · exact congrArg Host.Outcome.next ((s.version_unowned hfn hready 3 hnone).trans (if_pos (.inl rfl)))
  · have hrefused : ∀ k, (.next (s.version r p k) : Ans) = .next (no 2) := fun k => congrArg Host.Outcome.next (s.version_owned hfn k howned)
    exact ⟨hrefused 1, hrefused 2, hrefused 3⟩
  · intro hcfg hi hleast hfree hmin hmax hvec hver
    obtain ⟨hst, hby, hring, hn, hreg⟩ := s.createCtx_free hfn hready hcfg hi hleast hfree hmin hmax hvec hver
    obtain ⟨hnum, hres⟩ := fld_ctxResult (BitVec.ofNat 8 i) (show 1 < 16 by decide)
    exact ⟨_, rfl, hst, hby, hring, hn, (congrArg (fld · 11 8) hreg).trans hres,
      ((congrArg (fld · 7 0) hreg).trans hnum).trans (BitVec.toNat_ofNat ..)⟩
  · exact congrArg Host.Outcome.next (s.createCtx_full hfn hready hcfg hfull)
  · exact congrArg Host.Outcome.next (s.destroyCmd_free r p c hreq hready hst)
  · exact congrArg Host.Outcome.next (s.destroyCmd_again r p c hreq hready hst)
  · obtain ⟨hdying, hreg⟩ := s.destroyCmd_kills r p c hreq hready hst hruns
    exact ⟨_, rfl, hdying, (congrArg (fld · 11 8) hreg).trans (fld_ctxResult c (by decide)).2⟩
  · exact fun hst hkill hreset hwaiting htiles => congrArg Host.Outcome.next (s.ctxFree_done p c hst hkill hreset hwaiting htiles)

/-- Settles O38: each clause is a case of one operation on the partition's object table. -/
theorem memoryObjects : Obligations.MemoryObjects := by
  unfold Obligations.MemoryObjects
  intro s r p i hreq hready b cfg h sub away
  have hreached : ∀ f : State → State, (.next (s.onPart r p f) : Ans) = .next (f s) := fun f => congrArg Host.Outcome.next (s.onPart_reached f hreq)
  refine ⟨fun hcfg hargs hhere hfirst => ⟨_, hreached _, s.createObj_free p hready hcfg hargs hhere hfirst⟩, fun hbad => ?_, fun hcfg hargs hhere hfull => ?_,
    fun hnamed hlive => ⟨?_, ?_⟩, fun hstale => ?_, fun x hst hdone => ?_⟩
  · exact (hreached _).trans (congrArg Host.Outcome.next (s.createObj_invalid p hready hbad))
  · exact (hreached _).trans (congrArg Host.Outcome.next (s.createObj_full p hready hcfg hargs hhere hfull))
  · exact (hreached _).trans (congrArg Host.Outcome.next (s.objFree_live p hready hnamed hlive))
  · exact (hreached _).trans (congrArg Host.Outcome.next (s.objQuery_live p hready hnamed hlive))
  · exact (hreached _).trans (congrArg Host.Outcome.next (s.objFree_stale p hready hstale))
  · exact congrArg Host.Outcome.next (s.objRelease_done p hst hdone)
end

/-! ## Commands answer a next state -/

section
namespace Sys2Proof.Machine

/-- R67, R346, R366: no command stops the machine or is refused, whichever of the two effects it has. -/
theorem exec_next (i : Instr) (s : State) : ∃ u, exec i s = .next u := by
  cases exec_effect i s with
  | word hexec _ _ => exact ⟨_, hexec⟩
  | other hexec _ _ => exact ⟨_, hexec⟩

end Sys2Proof.Machine

open Sys2Proof Sys2Proof.Machine

/-- Settles O57: with no command waiting the clock ticks; otherwise the front command runs, and it answers a next state. -/
theorem everyStepGoesOn : Obligations.EveryStepGoesOn := by
  unfold Obligations.EveryStepGoesOn
  intro s
  cases hpending : s.pending with
  | nil => exact ⟨s.tick, by rw [step, hpending]⟩
  | cons c l =>
    obtain ⟨u, hexec⟩ := exec_next c { s with pending := l }
    exact ⟨u, (stepRunsFrontCommand c l s hpending).trans hexec⟩

end

/-! ## Tile registers that act when written (R62, R116, R117, R138, R139, R147, R218, R226, R242, R249) -/

section
namespace Sys2Proof.Machine

/-! ### Bits of a field -/

theorem testBit_fld (w : W32) (hi lo i : Nat) : (fld w hi lo).testBit i = (decide (i < hi + 1 - lo) && w.getLsbD (lo + i)) := by
  rw [fld, bits, Nat.testBit_mod_two_pow, Nat.testBit_shiftRight, BitVec.testBit_toNat]

theorem getLsbD_setFld (w : W32) (hi lo v : Nat) {j : Nat} (hj : j < 32) :
    (setFld w hi lo v).getLsbD j = if lo ≤ j ∧ j ≤ hi then v.testBit (j - lo) else w.getLsbD j := by
  have hmask : (BitVec.ofNat 32 ((2 ^ (hi + 1 - lo) - 1) <<< lo)).getLsbD j = decide (lo ≤ j ∧ j ≤ hi) := by
    rw [BitVec.getLsbD_ofNat, Nat.testBit_shiftLeft, Nat.testBit_two_pow_sub_one]
    simp only [hj, decide_true, Bool.true_and, ← Bool.decide_and]
    exact decide_eq_decide.2 (by omega)
  rw [setFld, BitVec.getLsbD_or, BitVec.getLsbD_and, BitVec.getLsbD_and, BitVec.getLsbD_not, hmask, BitVec.getLsbD_ofNat, Nat.testBit_shiftLeft]
  by_cases hin : lo ≤ j ∧ j ≤ hi <;> simp [hin, hj]

/-- A field reads as the number put into it. -/
theorem fld_setFld (w : W32) {hi lo v : Nat} (hhi : hi < 32) (hv : v < 2 ^ (hi + 1 - lo)) : fld (setFld w hi lo v) hi lo = v := by
  refine Nat.eq_of_testBit_eq fun i => ?_
  rw [testBit_fld]
  by_cases hin : i < hi + 1 - lo
  · rw [getLsbD_setFld w hi lo v (by omega), if_pos (by omega), Nat.add_sub_cancel_left, decide_eq_true hin, Bool.true_and]
  · rw [decide_eq_false hin, Bool.false_and, Nat.testBit_lt_two_pow (hv.trans_le (Nat.pow_le_pow_right (by decide) (by omega)))]

/-- The low half of a word, as a word. -/
theorem ofNat_fld_low (w : W32) : BitVec.ofNat 32 (fld w 15 0) = w &&& 0xFFFF := by
  refine BitVec.eq_of_toNat_eq ?_
  have hlow : fld w 15 0 = w.toNat % 2 ^ 16 := rfl
  rw [BitVec.toNat_and, hlow, BitVec.toNat_ofNat, Nat.mod_eq_of_lt (by omega)]
  exact (Nat.and_two_pow_sub_one_eq_mod w.toNat 16).symm

/-! ### Writes by a requester that may make them -/

section
variable (s : State) {r : Req} {t : TileId}

/-- A write of a tile register that the requester may make is carried out. -/
theorem State.onTile_reached {l : Lim} (f : State → State) (h : s.tileReq r t l = true) : s.onTile r t l f = f s := if_pos h

theorem State.next_onTile {l : Lim} (f : State → State) (h : s.tileReq r t l = true) : (.next (s.onTile r t l f) : Ans) = .next (f s) :=
  congrArg Host.Outcome.next (s.onTile_reached f h)

/-- R403, R474: so is one that could have been held, where the tile's domain runs. -/
theorem State.onTileWake_reached {l : Lim} (x : HeldWrite) (f : State → State) (h : s.tileReq r t l = true) (hruns : s.runs t = true) :
    s.onTileWake r t l x f = f s := by
  have hmay : (s.tileWriter r t l && s.colUp (colonyOf t)) = true := by
    simp only [State.tileReq, State.tileAnswers, State.colAnswers, Bool.and_eq_true] at h ⊢
    exact ⟨h.1, h.2.1⟩
  exact (if_pos hmay).trans (if_pos hruns)

variable (t) (w : W32)

/-! ### What each write does -/

/-- A tile's state holds no register. -/
theorem State.tr_setTile (u : TileId) (v : Tile) (o : Nat) : (s.setTile t v).tr u o = s.tr u o := rfl

/-- R62: the seed that a write of the high word arms. -/
theorem State.srseed_arms : (s.srseed t w).tr t 0x1F04 = w
    ∧ ((s.srseed t w).tileAt t).reseed = some (softSeed (w ++ s.tr t 0x1F00)) := by
  have hlow : (s.setTr t 0x1F04 w).tr t 0x1F00 = s.tr t 0x1F00 := s.reg_setReg_other w (by omega)
  rw [State.srseed, State.tileAt_setTile, State.tr_setTile, State.tr_setTr, hlow]
  exact ⟨rfl, rfl⟩

/-- R139: a written semaphore holds the low half of the word. -/
theorem State.semWrite_eq (n : SemId) : s.semWrite t n w = (s.setTr t (0x100 + 4 * n.toNat) (w &&& 0xFFFF)).setPosterW t n.toNat 0 := by
  have hlow : fld w 15 0 < 65536 := Nat.mod_lt _ (by decide)
  rw [State.semWrite, State.setSem, Nat.mod_eq_of_lt hlow, ofNat_fld_low]

/-- R138: a post of a count other than 0 adds it. -/
theorem State.semPostWrite_adds (h : fld w 15 8 ≠ 0) :
    s.semPostWrite t w = (s.addSem t (w.extractLsb' 0 4) (fld w 15 8) (posterCode 5 0)).1 := if_neg h

/-- R147: the drop count clears. -/
theorem State.imldClear_count : fld ((s.imldClear t).tr t 0x188) 31 16 = 0 := by
  rw [State.imldClear, State.setRegF, State.tr, State.reg_setReg]
  exact fld_setFld _ (by decide) (by decide)

/-- R226, R249: the count of lost armings clears alone. -/
theorem State.dstatWrite_clear (d : Nat) : s.dstatWrite t d 0x10 = s.setMovd t d { s.movd_ t d with overrunCnt := 0 } := by
  have hoverrun : bit 0x10 3 = false := by decide
  have hcount : bit 0x10 4 = true := by decide
  rw [State.dstatWrite, hoverrun, hcount, Bool.not_false, Bool.and_true, if_pos rfl]

end

end Sys2Proof.Machine

open Sys2Proof Sys2Proof.Machine

/-- Settles O10: each command is one operation on a tile's registers, which the requester's right to write brings about. -/
theorem tileRegisters : Obligations.TileRegisters := by
  unfold Obligations.TileRegisters
  constructor
  · intro s r t e n w hreq
    obtain ⟨hword, hseed⟩ := s.srseed_arms t w
    refine ⟨s.next_onTile _ hreq, s.next_onTile _ hreq, ?_, ⟨_, s.next_onTile _ hreq, hword, hseed⟩, ⟨_, s.next_onTile _ hreq, s.imldClear_count t⟩,
      ⟨_, s.next_onTile _ hreq, rfl⟩, fun hruns hcount => ?_⟩
    · exact (s.next_onTile _ hreq).trans (congrArg Host.Outcome.next (s.semWrite_eq t w n))
    · exact congrArg Host.Outcome.next ((s.onTileWake_reached _ _ hreq hruns).trans (s.semPostWrite_adds t w hcount))
  · intro s r t d hreq
    exact ⟨s.next_onTile _ hreq, s.next_onTile _ hreq, s.next_onTile _ hreq,
      (s.next_onTile _ hreq).trans (congrArg Host.Outcome.next (s.dstatWrite_clear t d.toNat))⟩

end

/-! ## What a weir instruction is checked for, and where its operation goes (R78, R88 to R98) -/

section
namespace Sys2Proof.Machine

/-! ### The scratchpad has no part in it -/

/-- The state with another scratchpad. -/
def State.withSpad (s : State) (m : Sparse Byte) (b : Sparse Bool) : State := { s with spad := m, spadPoison := b }

section
variable (s : State) (m : Sparse Byte) (b : Sparse Bool)

-- `(rfl)`: not by definition for `simp`, which else keeps the old decision of a condition it rewrites.
@[simp] theorem State.withSpad_draw (i) : (s.withSpad m b).draw i = s.draw i := (rfl)
@[simp] theorem State.withSpad_reg64 (l h) : (s.withSpad m b).reg64 l h = s.reg64 l h := (rfl)
@[simp] theorem State.withSpad_tr (t o) : (s.withSpad m b).tr t o = s.tr t o := (rfl)
@[simp] theorem State.withSpad_partAt (p) : (s.withSpad m b).partAt p = s.partAt p := (rfl)
@[simp] theorem State.withSpad_tileAt (t) : (s.withSpad m b).tileAt t = s.tileAt t := (rfl)
@[simp] theorem State.withSpad_ctxOf (t) : (s.withSpad m b).ctxOf t = s.ctxOf t := (rfl)
@[simp] theorem State.withSpad_partOf (t) : (s.withSpad m b).partOf t = s.partOf t := (rfl)
@[simp] theorem State.withSpad_share (t k) : (s.withSpad m b).share t k = s.share t k := (rfl)
@[simp] theorem State.withSpad_hasToken (t k) : (s.withSpad m b).hasToken t k = s.hasToken t k := (rfl)
@[simp] theorem State.withSpad_weirOpOf (t k f g v) : (s.withSpad m b).weirOpOf t k f g v = s.weirOpOf t k f g v := (rfl)
@[simp] theorem State.withSpad_alloc (p) : (s.withSpad m b).alloc p = s.alloc p := (rfl)
@[simp] theorem State.withSpad_phbm (p a n) : (s.withSpad m b).phbm p a n = s.phbm p a n := (rfl)
@[simp] theorem State.withSpad_phbmP (p a) : (s.withSpad m b).phbmP p a = s.phbmP p a := (rfl)
@[simp] theorem State.withSpad_phbmShut (p a) : (s.withSpad m b).phbmShut p a = s.phbmShut p a := (rfl)
@[simp] theorem State.withSpad_mapRead (p t u kind c i a) : (s.withSpad m b).mapRead p t u kind c i a = s.mapRead p t u kind c i a := (rfl)
@[simp] theorem State.withSpad_mapClass (p h i) : (s.withSpad m b).mapClass p h i = s.mapClass p h i := (rfl)
@[simp] theorem State.withSpad_mapStale (p t u kind c i a) : (s.withSpad m b).mapStale p t u kind c i a = s.mapStale p t u kind c i a := (rfl)
@[simp] theorem State.withSpad_leafTo (p c lpn h e w) : (s.withSpad m b).leafTo p c lpn h e w = s.leafTo p c lpn h e w := (rfl)
@[simp] theorem State.withSpad_promoted (p c lpn) : (s.withSpad m b).promoted p c lpn = s.promoted p c lpn := (rfl)

theorem State.ite_withSpad (q : Prop) [Decidable q] (v w : State) :
    (if q then v.withSpad m b else w.withSpad m b) = (if q then v else w).withSpad m b :=
  (apply_ite (State.withSpad · m b) q v w).symm

@[simp] theorem State.cacheIn_withSpad (p e) : (s.withSpad m b).cacheIn p e = (s.cacheIn p e).withSpad m b := by
  simp only [State.cacheIn, withSpad_partAt, withSpad_draw]
  split_ifs <;> rfl

@[simp] theorem State.mapHeader_withSpad (p t u c) :
    (s.withSpad m b).mapHeader p t u c = ((s.mapHeader p t u c).1.withSpad m b, (s.mapHeader p t u c).2) := by
  simp only [State.mapHeader, withSpad_reg64, withSpad_alloc, withSpad_mapRead, cacheIn_withSpad, ite_withSpad]
  split_ifs
  · rfl
  cases s.mapRead p t u 0 c 0 ((s.reg64 (partBase p + 0x400) (partBase p + 0x404)).toNat + 8 * c.toNat) with
  | error r => rfl
  | ok root =>
    dsimp only
    generalize (if root = 0 then s else _) = s1
    simp only [withSpad_phbmShut, withSpad_phbmP, withSpad_phbm, withSpad_partAt]
    cases s1.phbmShut p root <;> dsimp only <;> split_ifs <;> rfl

@[simp] theorem State.resolve_withSpad (p t u c lpn) :
    (s.withSpad m b).resolve p t u c lpn = ((s.resolve p t u c lpn).1.withSpad m b, (s.resolve p t u c lpn).2) := by
  simp only [State.resolve, withSpad_reg64, withSpad_mapStale, mapHeader_withSpad]
  obtain ⟨s1, r | h⟩ := s.mapHeader p t u c
  · rfl
  simp only [withSpad_mapRead, withSpad_mapStale, cacheIn_withSpad, withSpad_alloc, ite_withSpad]
  split_ifs
  · rfl
  cases s1.mapRead p t u 1 c (lpn.toNat / 4096) (h.dir + 8 * (lpn.toNat / 4096)) with
  | error r => rfl
  | ok d =>
    dsimp only
    generalize s1.cacheIn p _ = s2
    split_ifs
    · rfl
    · rfl
    cases s2.mapRead p t u 2 c lpn.toNat (d / 32768 * 32768 + 8 * (lpn.toNat % 4096)) with
    | error r => rfl
    | ok e =>
      simp only [withSpad_leafTo, withSpad_promoted]

@[simp] theorem State.weirPage_withSpad (p t lpn e) :
    (s.withSpad m b).weirPage p t lpn e = ((s.weirPage p t lpn e).1.withSpad m b, (s.weirPage p t lpn e).2) := by
  simp only [State.weirPage, resolve_withSpad, withSpad_ctxOf]
  obtain ⟨s1, r⟩ := s.resolve p t .weir (s.ctxOf t) lpn
  cases r <;> rfl

@[simp] theorem State.weirList_withSpad (t p f) :
    (s.withSpad m b).weirList t p f = ((s.weirList t p f).1.withSpad m b, (s.weirList t p f).2) := by
  simp only [State.weirList, withSpad_tr, mapHeader_withSpad, withSpad_ctxOf]
  obtain ⟨s1, r | h⟩ := s.mapHeader p t .weir (s.ctxOf t)
  · cases r <;> rfl
  · simp only [withSpad_mapClass, withSpad_weirOpOf, withSpad_tileAt]
    split_ifs <;> rfl

/-- R94: the value page of a WEIR.ATTEND; another weir instruction has none. -/
def State.valuePage (s : State) (p : PartId) (t : TileId) (k : WeirKind) (f : WeirF) : State × Except Verdict PageAt :=
  if k = .attend then
    match valueLpn f.lpn (s.tr t (0x1908 + 16 * f.pset.toNat)) with
    | none => (s, .error (.fault 0x30))
    | some l => s.weirPage p t l 0
  else (s, .ok noPage)

/-- R91, R92, R235: what is checked once the pages of a weir instruction have resolved. -/
def weirVerdict (t : TileId) (k : WeirKind) (f : WeirF) (c : W32) (g : PageAt) (r : State × Except Verdict PageAt) : State × Except Verdict WeirOp :=
  match r.2 with
  | .error v => (r.1, .error v)
  | .ok v =>
    let remote := decide (g.tile ≠ t) || (decide (k = .attend) && decide (v.tile ≠ t))
    if weirFault k f c g v ≠ 0 then (r.1, .error (.fault (weirFault k f c g v)))
    else if remote && decide (r.1.share t 2 = 0) then (r.1, .error (.fault 0x33))
    else if remote && !r.1.hasToken t 2 then (r.1, .error .wait)
    else (r.1, .ok (r.1.weirOpOf t k f g v))

theorem State.weirPlan_resolved {t : TileId} {k : WeirKind} {f f' : WeirF} {p : PartId} {s1 : State} {g : PageAt} (hoffset : f.offset s t = some f')
    (hpart : s.partOf t = some p) (hlist : ¬ (k = .gather ∧ f'.list = true)) (hpage : s.weirPage p t f'.lpn 0 = (s1, .ok g)) :
    s.weirPlan t k f = weirVerdict t k f' (s1.tr t (0x1900 + 16 * f'.pset.toNat)) g (s1.valuePage p t k f') := by
  rw [State.weirPlan, hoffset, hpart]
  dsimp only
  rw [if_neg hlist, hpage]
  rfl

theorem State.valuePage_withSpad (p t k f) :
    (s.withSpad m b).valuePage p t k f = ((s.valuePage p t k f).1.withSpad m b, (s.valuePage p t k f).2) := by
  simp only [State.valuePage, withSpad_tr, weirPage_withSpad]
  split_ifs
  · cases valueLpn f.lpn (s.tr t (0x1908 + 16 * f.pset.toNat)) <;> rfl
  · rfl

theorem weirVerdict_withSpad (t k f c g) (r : Except Verdict PageAt) :
    weirVerdict t k f c g (s.withSpad m b, r) = ((weirVerdict t k f c g (s, r)).1.withSpad m b, (weirVerdict t k f c g (s, r)).2) := by
  cases r with
  | error v => rfl
  | ok v =>
    simp only [weirVerdict, State.withSpad_share, State.withSpad_hasToken, State.withSpad_weirOpOf]
    split_ifs <;> rfl

theorem State.weirPlan_withSpad (t k f) :
    (s.withSpad m b).weirPlan t k f = ((s.weirPlan t k f).1.withSpad m b, (s.weirPlan t k f).2) := by
  have hoffset : f.offset (s.withSpad m b) t = f.offset s t := rfl
  cases hf : f.offset s t with
  | none => simp only [State.weirPlan, hoffset, hf]
  | some f' =>
  cases hp : s.partOf t with
  | none => simp only [State.weirPlan, hoffset, hf, withSpad_partOf, hp]
  | some p =>
  by_cases hlist : k = .gather ∧ f'.list = true
  · simp only [State.weirPlan, hoffset, hf, withSpad_partOf, hp, if_pos hlist, weirList_withSpad]
  cases hpage : s.weirPage p t f'.lpn 0 with
  | mk s1 r =>
  have hpage' := s.weirPage_withSpad m b p t f'.lpn 0
  rw [hpage] at hpage'
  cases r with
  | error v => simp only [State.weirPlan, hoffset, hf, withSpad_partOf, hp, if_neg hlist, hpage, hpage']
  | ok g =>
    rw [s.weirPlan_resolved hf hp hlist hpage, (s.withSpad m b).weirPlan_resolved hf hp hlist hpage', valuePage_withSpad, weirVerdict_withSpad,
      withSpad_tr]

theorem State.racy_withSpad (t r) : s.racy t r = s.withSpad (s.racy t r).spad (s.racy t r).spadPoison := s.racy_frame t r

/-- R205: what a reader sees of writes under way changes nothing of what a weir instruction is checked for. -/
theorem State.weirPlan_racy (t u : TileId) (r : Reader) (k f) : ((s.racy t r).weirPlan u k f).2 = (s.weirPlan u k f).2 := by
  rw [racy_withSpad, weirPlan_withSpad]

end

/-! ### Issue -/

section
variable {s s' : State} {t : TileId} {k : WeirKind} {f : WeirF} {o : WeirOp}

/-- R97: a list-mode WEIR.GATHER that can begin stops its word. -/
theorem State.weirCheck_list (hwalk : (s.tileAt t).walk = none) (hroom : (s.tileAt t).wei.length < 4) (hplan : (s.weirPlan t .gather f).2 = .ok o)
    (hlist : o.f.list = true) : s.weirCheck t .gather f = .stop fun s => (s.weirPlan t .gather f).1.weirBegin t o := by
  have hwalked : (s.tileAt t).walked = false := by rw [Tile.walked, hwalk]
  simp only [State.weirCheck, hwalked, hwalk, Option.isSome_none, Bool.false_eq_true, if_false, if_neg (Nat.not_le.2 hroom)]
  generalize s.weirPlan t .gather f = y at hplan ⊢
  obtain ⟨s1, r⟩ := y
  obtain rfl : r = .ok o := hplan
  simp [hlist]

theorem State.weirCheck_racy (r : Reader) (h : s.weirCheck t k f = .ok) : (s.racy t r).weirCheck t k f = .ok := by
  have hplan := s.weirPlan_racy t t r k f
  unfold State.weirCheck at h ⊢
  rw [State.racy_tileAt]
  dsimp only at h ⊢
  split_ifs at h ⊢
  · rfl
  generalize s.weirPlan t k f = y at hplan h
  generalize (s.racy t r).weirPlan t k f = z at hplan ⊢
  obtain ⟨s1, v⟩ := y
  obtain ⟨s2, w⟩ := z
  obtain rfl : w = v := hplan
  cases w with
  | error v =>
    cases v with
    | ok => rfl
    | _ => cases h
  | ok o =>
    dsimp only at h ⊢
    split_ifs at h ⊢
    rfl

/-- R121: a weir instruction that is legal and passes its checks issues, whatever writes are under way at its tile. -/
theorem State.Ready.issue_weir (h : s.Ready t 3 9) (hlegal : f.legal k = true) (hcheck : s.weirCheck t k f = .ok) :
    s.issueWord t 3 9 [slotWeir t k f] = s.pastWord t 3 9 fun u => u.weirIssue t k f :=
  State.issueWord_one h (by decide) (slotWeir t k f) hlegal List.nodup_nil hcheck (State.weirCheck_racy .other hcheck) rfl rfl rfl

theorem State.Ready.issue_weirNop (h : s.Ready t 3 9) (g : Bool) (n : SemId) (hroom : g = true → (s.tileAt t).wei.length < 4) :
    s.issueWord t 3 9 [slotWeirNop t g n] = s.pastWord t 3 9 fun u => u.weirNopIssue t g n := by
  have hcheck : ∀ u : State, u.tileAt t = s.tileAt t → (slotWeirNop t g n).check u = .ok := by
    intro u hu
    refine if_neg fun hfull => ?_
    rw [hu] at hfull
    exact absurd (hroom hfull.1) (Nat.not_lt.2 hfull.2)
  exact State.issueWord_one h (by decide) (slotWeirNop t g n) rfl List.nodup_nil (hcheck s rfl) (hcheck _ (s.racy_tileAt t t .other)) rfl rfl rfl

/-- R121: a word of one slot whose check stops it issues nothing: what the check says happens. -/
theorem State.Ready.issue_stopped {e : EngId} {w : Nat} (h : s.Ready t e w) (hw : 0 < w) (o : SlotOp) (hlegal : o.legal = true)
    (hwrites : o.writes.Nodup) (hneed : o.need = none) {act act' : State → State} (hcheck : o.check s = .stop act')
    (hracy : o.check (s.racy t .other) = .stop act) : s.issueWord t e w [o] = act s := by
  have hinside : ¬ 8192 < s.pcOf t e + w := Nat.not_lt.2 h.inside
  have hok : wordOk [o] = true := by
    cases huse : o.use <;> cases hctl : o.ctl <;> simp [wordOk, useIn, writesOk, hlegal, hwrites, huse, hctl]
  have hmet : s.met t e [o] = true := by simp [State.met, waitsOf, hneed]
  have hfree : unitWait s [o] = false := by simp [unitWait, hcheck]
  have hbad : firstBad (s.racy t .other) [o] = some (.stop act) := by simp [firstBad, hracy]
  rw [State.issueWord, h.beforeWord, if_neg hinside, State.tryWord]
  simp only [hok, h.loopBroken hw, hmet, hfree, hbad, Bool.not_true, Bool.false_eq_true, if_false]

end

/-! ### What an issued operation leaves -/

section
variable (s : State) {s' : State} {t : TileId} {k : WeirKind} {f : WeirF} {o : WeirOp}

/-- R269: of the packets that a load is cut into one carries it. -/
theorem State.injectCut_load (part : CanLoad) (n : Nat) (p : CanPkt) :
    ∃ x ∈ (s.injectCut p part n).canal.pkts, x.2.load = p.load ∧ x.2.src = p.src ∧ x.2.dst = p.dst := by
  have hlast : ∀ (u : State) (p : CanPkt), ∃ x ∈ (u.inject p).canal.pkts, x.2.load = p.load ∧ x.2.src = p.src ∧ x.2.dst = p.dst :=
    fun u p => ⟨(u.canal.next, p), by simp, rfl, rfl, rfl⟩
  induction n generalizing s p with
  | zero => exact hlast s p
  | succ n ih =>
    unfold State.injectCut
    split
    · exact hlast s p
    · exact ih _ { p with data := p.data - 64 }

theorem State.injectCut_tileAt (part : CanLoad) (n : Nat) (p : CanPkt) (u : TileId) : (s.injectCut p part n).tileAt u = s.tileAt u := by
  rw [State.injectCut_frame]
  rfl

theorem State.injectCut_engAt (part : CanLoad) (n : Nat) (p : CanPkt) (u : TileId) (e : EngId) : (s.injectCut p part n).engAt u e = s.engAt u e := by
  rw [State.injectCut_frame]
  rfl

theorem State.weirSend_own (h : o.page.tile = t) :
    s.weirSend t o = s.setTile t { s.tileAt t with weirArrived := (s.tileAt t).weirArrived ++ [(t, o.seq)] } := by
  subst h
  exact if_pos rfl

theorem State.weirSend_away (h : o.page.tile ≠ t) : s.weirSend t o =
    let n := (weirLines o.kind o.f o.cfg o.page.clsWord).1 + (weirLines o.kind o.f o.cfg o.page.clsWord).2.1
    s.injectCut { cls := .request, src := .tile t, dst := .tile o.page.tile, data := n, load := .weir o.page.tile t o.seq, bad := false }
      (.weirData t o.seq) n := if_neg h

theorem State.weirSend_wei (o : WeirOp) : ((s.weirSend t o).tileAt t).wei = (s.tileAt t).wei := by
  by_cases h : o.page.tile = t
  · rw [s.weirSend_own h, State.tileAt_setTile]
  · rw [s.weirSend_away h, State.injectCut_tileAt]

theorem State.weirSend_engAt (o : WeirOp) (u : TileId) (e : EngId) : (s.weirSend t o).engAt u e = s.engAt u e := by
  by_cases h : o.page.tile = t
  · rw [s.weirSend_own h]
    rfl
  · rw [s.weirSend_away h, State.injectCut_engAt]

/-- R88: a planned operation enters the issued ones, takes its number and is sent; its tile's remote bucket pays. -/
theorem State.weirIssue_planned (hwalk : (s.tileAt t).walk = none) (hplan : s.weirPlan t k f = (s', .ok o)) : s.weirIssue t k f
    = (((s'.setTile t { s'.tileAt t with wei := (s'.tileAt t).wei ++ [o], weirFrom := 0 }).setEng t 3
        { s.engAt t 3 with seq := (s.engAt t 3).seq + 1 }).weirSend t o).charge t 2 (64 * weirCharge k o.f o.cfg t o.page o.vpage) := by
  unfold State.weirIssue
  dsimp only
  rw [hwalk, hplan]

end
end Sys2Proof.Machine

open Sys2Proof Sys2Proof.Machine

/-- Settles O19: the word of a weir instruction holds one slot, whose checks read no scratchpad; what it leaves is what `weirSend` sends. -/
theorem weirIssue : Obligations.WeirIssue := by
  unfold Obligations.WeirIssue
  refine ⟨fun s t f hready => ?_, fun s s' t k f o hwalk hplan => ?_⟩
  · have his : ∀ k, f.legal k = true → s.weirCheck t k f = .ok →
        (.next (s.issueWord t 3 9 [slotWeir t k f]) : Ans) = .next (s.pastWord t 3 9 fun u => u.weirIssue t k f) :=
      fun k hlegal hcheck => congrArg Host.Outcome.next (hready.issue_weir hlegal hcheck)
    refine ⟨his _, his _, his _, his _, his _, his _, fun g n hroom => congrArg Host.Outcome.next (hready.issue_weirNop g n hroom),
      fun s' o hlegal hwalk hroom hplan hlist => congrArg Host.Outcome.next ?_⟩
    have hcheck := State.weirCheck_list hwalk hroom (congrArg Prod.snd hplan) hlist
    have hracy : (s.racy t .other).weirCheck t .gather f = .stop fun s => (s.weirPlan t .gather f).1.weirBegin t o := by
      refine State.weirCheck_list ?_ ?_ ((s.weirPlan_racy t t .other .gather f).trans (congrArg Prod.snd hplan)) hlist <;> rwa [State.racy_tileAt]
    rw [hready.issue_stopped (by decide) (slotWeir t .gather f) hlegal List.nodup_nil rfl hcheck hracy, hplan]
  · intro u
    have hu : u = _ := s.weirIssue_planned hwalk hplan
    have htile : ∀ v w, ((s'.setTile t v).setEng t 3 w).tileAt t = v := fun v _ => s'.tileAt_setTile t v
    rw [hu]
    refine ⟨?_, fun hown => ?_, fun haway => ?_, ?_⟩
    · exact (State.weirSend_wei _ o).trans (congrArg Tile.wei (htile _ _))
    · rw [State.weirSend_own _ hown, htile]
      exact congrArg Tile.weirArrived (State.tileAt_setTile ..)
    · rw [State.weirSend_away _ haway]
      exact State.injectCut_load ..
    · exact (congrArg Eng.seq (State.weirSend_engAt _ o t 3)).trans (congrArg Eng.seq (State.engAt_setEng ..))
end

/-! ## The weir's operations and its stop (R88, R89, R97, R103, R104, R205) -/

section
namespace Sys2Proof.Machine

section
variable (s : State) {v t : TileId} {o : WeirOp}

/-- R88: a free weir takes the operation that arrived first. -/
theorem State.weirAccept_first {q : Nat} {l : List (TileId × Nat)} (hfree : s.running v = none) (harrived : (s.tileAt v).weirArrived = (t, q) :: l)
    (hop : (s.tileAt t).weirOp q = some o) (hsent : o.sent = none) (hserved : s.weirServed o = true) (hclash : s.weirClash v o = false) :
    let s1 := s.setTile v { s.tileAt v with weirArrived := l, weirRunning := some (t, q) }
    s.weirAccept v = (s1.setTile t ((s1.tileAt t).setWeirOp { o with accepted := true, old := s1.snap t })).weirTouch o := by
  have hbring : s.bringWeir v = s := State.bring_arrived _ _ (by rw [harrived]; rfl)
  unfold State.weirAccept
  rw [hfree, hbring]
  dsimp only
  rw [harrived]
  dsimp only
  rw [hop]
  simp [hsent, hserved, hclash]

section
variable (hruns : s.running v = some (t, o))
include hruns

/-- R89: what runs and is no list operation writes its results, where it has not yet, and leaves. -/
theorem State.weirComplete_runs (hrange : ((s.tileAt t).walk.any fun x => decide (x.seq = o.seq)) = false) (hserved : s.weirServed o = true) :
    s.weirComplete v = (if o.done then s else
      (((s.weirRun (((s.racy t (.weir t o.seq)).mixed t o.old).weirLinks t o) v t o).weirTouch o).inboundLines t o.lands).weirAnswer v t o).weirFinish
        v t o := by
  unfold State.weirComplete
  rw [hruns]
  simp [hrange, hserved]

/-- R97: an empty entry of a list gives the row of no page. -/
theorem State.gatherNext_empty {p : PartId} (hlist : ((s.tileAt t).walk.any fun x => decide (x.seq = o.seq)) = true) (hentry : o.entry < o.f.rows)
    (hpart : s.partOf t = some p) (hsent : o.sent = none) (hbad : (s.racy t (.weir t o.seq)).spadBad t o.entryByte 16 = false)
    (hempty : isEmptyEntry ((s.racy t (.weir t o.seq)).spadW t o.entryByte).toNat ((s.racy t (.weir t o.seq)).spadW t (o.entryByte + 4)).toNat
      ((s.racy t (.weir t o.seq)).spadW t (o.entryByte + 8)).toNat = true) :
    s.gatherNext v = (s.gatherRow t o o.entry none).nextEntry t o := by
  unfold State.gatherNext
  rw [hruns]
  dsimp only
  unfold State.gatherEntry
  rw [hruns]
  simp [hlist, hentry, hpart, hsent, hbad, hempty]

end

/-- The next entry of a list operation none of whose entries has been forwarded. -/
theorem State.nextEntry_unsent (hsent : o.sent = none) : s.nextEntry t o
    = (s.setTile t ((s.tileAt t).setWeirOp { o with entry := o.entry + 1 })).inboundLines t (o.entryLines o.entry) := by
  obtain ⟨⟩ := o
  cases hsent
  rfl

theorem State.trace_engAt (t u : TileId) (ty unit place info : Nat) (e : EngId) : (s.trace t ty unit place info).engAt u e = s.engAt u e := by
  unfold State.trace
  dsimp only
  split
  · rfl
  · split_ifs <;> rfl

/-- R104: a resume clears the record of a STOPPED engine, which goes on. -/
theorem State.weirResume_stopped (hvalid : (s.tileAt t).wstop.valid = true) (hstopped : (s.engAt t 3).st = .stopped) :
    let w := (s.tileAt t).wstop
    let s2 := (s.setTile t { s.tileAt t with wstop := { w with valid := false } }).trace t 0x05 3 w.lpn.toNat (0x10 + w.reason.toNat * 256)
    s.weirResume t = s2.setEng t 3 { s2.engAt t 3 with st := .run } := by
  intro w s2
  have hst : (s2.engAt t 3).st = .stopped := (congrArg Eng.st (State.trace_engAt ..)).trans hstopped
  unfold State.weirResume
  dsimp only
  rw [hvalid, Bool.not_true, if_neg Bool.false_ne_true, hst]

/-- R104: a fault clears the record, and gives a code that lies in range. -/
theorem State.weirStopFault_valid (code : Byte) (hvalid : (s.tileAt t).wstop.valid = true) :
    s.weirStopFault t code = (s.setTile t { s.tileAt t with wstop := { (s.tileAt t).wstop with valid := false }, weirFrom := 0 }).engFault t 3
      (if 0x20 ≤ code.toNat ∧ code.toNat ≤ 0x7F then code.toNat else 0x34) := if_neg (by simp [hvalid])

end
end Sys2Proof.Machine

open Sys2Proof Sys2Proof.Machine

/-- Settles O20: each command is one case of the weir's operations. -/
theorem weirRunsAndStops : Obligations.WeirRunsAndStops := by
  unfold Obligations.WeirRunsAndStops
  refine ⟨fun s v t o => ⟨fun q l hfree harrived hop hsent hserved hclash => ?_, fun hruns hrange hserved => ⟨fun hdone => ?_, fun hdone => ?_⟩,
    fun p hruns hlist hentry hpart => ?_⟩, fun s r t code hreq => ⟨fun hvalid hstopped => ⟨?_, ?_⟩, ?_⟩⟩
  · exact congrArg Host.Outcome.next (s.weirAccept_first hfree harrived hop hsent hserved hclash)
  · exact congrArg Host.Outcome.next ((s.weirComplete_runs hruns hrange hserved).trans (by rw [hdone]; rfl))
  · exact congrArg Host.Outcome.next ((s.weirComplete_runs hruns hrange hserved).trans (by rw [hdone]; rfl))
  · intro a y hsent hbad hscore hrow hlpn
    have hempty : isEmptyEntry (y.spadW t a).toNat (y.spadW t (a + 4)).toNat (y.spadW t (a + 8)).toNat = true := by
      rw [hscore, hrow, hlpn]
      decide
    exact congrArg Host.Outcome.next ((s.gatherNext_empty hruns hlist hentry hpart hsent hbad hempty).trans (State.nextEntry_unsent _ hsent))
  · exact (s.next_onTile _ hreq).trans (congrArg Host.Outcome.next (s.weirResume_stopped hvalid hstopped))
  · exact (s.next_onTile _ hreq).trans (congrArg Host.Outcome.next (s.weirStopFault_valid code hvalid))
  · exact s.next_onTile _ hreq
end

/-! ## Page operations (R83 to R86) -/

section
namespace Sys2Proof.Machine

section
variable (s : State) {t : TileId} {op : Nat} {sl : SlotId} {c : CtxId}

/-- R83: a go write during an operation sets overrun and nothing else. -/
theorem State.pageStart_overrun (h : (s.tileAt t).pageop ≠ none) :
    s.pageStart t op sl c = s.setTile t { s.tileAt t with poOverrun := true } := if_pos (Option.isSome_iff_ne_none.2 h)

section
variable (hidle : (s.tileAt t).pageop = none)
include hidle

/-- R83: an op that is not listed ends at once. -/
theorem State.pageStart_unlisted (h : ¬ (1 ≤ op ∧ op ≤ 4)) : s.pageStart t op sl c = s.pageResult t 2 := by
  unfold State.pageStart
  simp [hidle, h]

section
variable (hlisted : 1 ≤ op ∧ op ≤ 4)
include hlisted

/-- R84: so does one that a check refuses. -/
theorem State.pageStart_refused (h : s.pageCheck t op sl c ((s.tr t 0x1818).extractLsb' 0 23) ≠ 0) :
    s.pageStart t op sl c = s.pageResult t (s.pageCheck t op sl c ((s.tr t 0x1818).extractLsb' 0 23)) := by
  unfold State.pageStart
  simp [hidle, hlisted, h]

/-- R83: an operation whose checks pass starts, and its slot is busy. -/
theorem State.pageStart_starts (h : s.pageCheck t op sl c ((s.tr t 0x1818).extractLsb' 0 23) = 0) :
    s.pageStart t op sl c = (s.setTile t { s.tileAt t with
      pageop := some { op := BitVec.ofNat 3 op, slot := sl, ctx := c, lpn := (s.tr t 0x1814).extractLsb' 0 24, frame := (s.tr t 0x1818).extractLsb' 0 23,
                       moved := false, poison := false } }).setBusy t sl.toNat true := by
  unfold State.pageStart
  simp [hidle, hlisted, h]

end

end

variable {o : PageOp} (ho : (s.tileAt t).pageop = some o)
include ho

/-- R85: the data of an operation that nothing holds crosses the canal and moves. -/
theorem State.pageData_moves (hmoved : o.moved = false) (hfree : s.slotUsed t o.slot = false)
    (hserved : s.pageServed t (decide (o.op = 2) || decide (o.op = 3)) = true) :
    let s0 := s.pageCross t o
    let e := if o.op = 2 ∨ o.op = 3 then s0.linkErr (2 ^ 22) else .none
    let m := s0.pageMove t o
    let s1 := ((m.1.pageHurt t o e).linkCount t .can e).drawn
    s.pageData t = s1.setTile t { s1.tileAt t with pageop := some { o with moved := true, poison := m.2 || decide (e = .poisoned) } } := by
  have hgo : ¬ (o.moved = true ∨ s.slotUsed t o.slot = true) := by simp [hmoved, hfree]
  unfold State.pageData
  dsimp only
  rw [ho]
  dsimp only
  rw [if_neg hgo, hserved, Bool.not_true, if_neg Bool.false_ne_true]
  simp only [Bool.or_eq_true, decide_eq_true_eq]

/-- R84, R86: an operation that has moved its data ends: its slot's tag, and its result. -/
theorem State.pageEnd_moved (hmoved : o.moved = true) (hscrub : (s.tileAt t).scrub.contains o.slot = false) :
    let s1 := if o.op = 1 ∨ o.op = 2 then s.fillTag t o.slot.toNat o.ctx o.lpn else s.clearTag t o.slot.toNat
    s.pageEnd t = (s1.setTile t { s.tileAt t with pageop := none, lastCisAccess := s.time }).pageResult t (if o.poison then 3 else 0) := by
  have htime : (if o.op = 1 ∨ o.op = 2 then s.fillTag t o.slot.toNat o.ctx o.lpn else s.clearTag t o.slot.toNat).time = s.time := by
    split <;> rfl
  unfold State.pageEnd
  dsimp only
  rw [ho]
  dsimp only
  rw [hmoved, hscrub, Bool.not_true, if_neg Bool.false_ne_true, if_neg Bool.false_ne_true, htime]

end
end Sys2Proof.Machine

open Sys2Proof Sys2Proof.Machine

/-- Settles O21: each command is one case of an operation of the vault. -/
theorem pageOperations : Obligations.PageOperations := by
  unfold Obligations.PageOperations
  refine ⟨fun s r t sl c op hreq => ?_, fun s t o ho => ⟨fun hmoved hfree hserved => ?_, fun hmoved hscrub => ?_⟩⟩
  · have hreached : ∀ f : State → State, (.next (s.onTile r t .open_ f) : Ans) = .next (f s) := fun f => s.next_onTile f hreq
    intro tl frame lpn starts
    have hstarts : ∀ i n, 1 ≤ n ∧ n ≤ 4 → exec i s = .next (s.onTile r t .open_ fun s => s.pageStart t n sl c) → starts i n := fun i n hn hi =>
      ⟨fun hidle hok => (hi.trans (hreached _)).trans (congrArg Host.Outcome.next (s.pageStart_starts hidle hn hok)),
        fun hidle hbad => (hi.trans (hreached _)).trans (congrArg Host.Outcome.next (s.pageStart_refused hidle hn hbad)),
        fun hbusy => (hi.trans (hreached _)).trans (congrArg Host.Outcome.next (s.pageStart_overrun hbusy))⟩
    refine ⟨hstarts _ 1 (by decide) rfl, hstarts _ 2 (by decide) rfl, hstarts _ 3 (by decide) rfl, hstarts _ 4 (by decide) rfl, fun hop hidle => ?_⟩
    have hunlisted : ¬ (1 ≤ op.toNat ∧ op.toNat ≤ 4) := by omega
    exact (congrArg Host.Outcome.next (if_neg hunlisted)).trans ((hreached _).trans (congrArg Host.Outcome.next (s.pageStart_unlisted hidle hunlisted)))
  · exact congrArg Host.Outcome.next (s.pageData_moves ho hmoved hfree hserved)
  · exact congrArg Host.Outcome.next (s.pageEnd_moved ho hmoved hscrub)
end

/-! ## The tags of a vault while time passes (R82, R86) -/

section
namespace Sys2Proof.Machine

/-- Tables 4-4 and 19-2: an address among the tags of some vault's slots. -/
def TagAddr (a : Nat) : Prop :=
  0x01000000 ≤ a ∧ a < 0x05000000 ∧ 0x20000 ≤ a % 0x40000 ∧ 0x1C00 ≤ a % 0x2000 ∧ a % 0x2000 < 0x1E00

theorem tagAddr_tag (t : TileId) {i : Nat} (hi : i < 64) : TagAddr (tileBase t + tagOff i) := by
  have hcol : (colonyOf t).toNat < 256 := (colonyOf t).isLt
  have hindex : indexOf t < 16 := by unfold indexOf; omega
  unfold TagAddr tileBase colBase tagOff
  omega

/-! ### Registers of other blocks -/

theorem not_tagAddr_obs (t : TileId) {o : Nat} (ho : o < 0x100) : ¬ TagAddr (obsBase t + o) := by
  have hindex : indexOf t < 16 := by unfold indexOf; omega
  unfold TagAddr obsBase colBase
  omega

theorem not_tagAddr_tile (t : TileId) {o : Nat} (ho : o < 0x1C00) : ¬ TagAddr (tileBase t + o) := by
  unfold TagAddr tileBase colBase
  omega

theorem not_tagAddr_int (c : CoreId) {o : Nat} (ho : o < 0x4000) : ¬ TagAddr (intBase c + o) := by
  have hbound := intBase_lt c ho
  unfold TagAddr intBase colBase
  split <;> omega

theorem not_tagAddr_low {a : Nat} (h : a < 0x01000000) : ¬ TagAddr a := fun ha => absurd ha.1 (Nat.not_le.2 h)

theorem not_tagAddr_high {a : Nat} (h : 0x05000000 ≤ a) : ¬ TagAddr a := fun ha => absurd ha.2.1 (Nat.not_lt.2 h)

/-! ### What writes no register -/

section
variable {a : Nat}

theorem each_reg_mem {β : Type} (l : List β) (f : State → β → State) (hf : ∀ s x, x ∈ l → (f s x).reg a = s.reg a) (s : State) :
    (each s l f).reg a = s.reg a := by
  induction l generalizing s with
  | nil => rfl
  | cons x l ih => exact (ih (fun s y hy => hf s y (List.mem_cons_of_mem _ hy)) _).trans (hf s x List.mem_cons_self)

theorem each_reg {β : Type} (l : List β) (f : State → β → State) (hf : ∀ s x, (f s x).reg a = s.reg a) (s : State) : (each s l f).reg a = s.reg a :=
  each_reg_mem l f (fun s x _ => hf s x) s

theorem State.weirHurt_reg (s : State) (t : TileId) (q : Nat) (bad : Bool) : (s.weirHurt t q bad).reg a = s.reg a := by
  unfold State.weirHurt
  split
  · split <;> rfl
  · rfl

theorem State.mapFlight_reg (s : State) (t : TileId) (q st : Nat) (pos : Pos) (f : Xfer → Xfer) : (s.mapFlight t q st pos f).reg a = s.reg a := by
  unfold State.mapFlight
  dsimp only
  split <;> rfl

theorem State.canalArrive_reg (s : State) (p : CanPkt) : (s.canalArrive p).reg a = s.reg a := by
  unfold State.canalArrive
  split
  · rfl
  · dsimp only
    split
    · exact s.mapFlight_reg ..
    · rfl
  · exact s.mapFlight_reg ..
  · exact s.weirHurt_reg ..
  · exact s.weirHurt_reg ..
  · rfl
  · rfl

theorem State.beatOut_reg (s : State) (b : CanBeat) : (s.beatOut b).reg a = s.reg a := by
  unfold State.beatOut
  dsimp only
  split
  · rfl
  · split
    · exact State.canalArrive_reg ..
    · rfl

theorem State.markSpad_reg (s : State) (t : TileId) (l : Nat) (b : Bool) : (s.markSpad t l b).reg a = s.reg a := by
  cases b <;> rfl

theorem State.fillBuf_reg (s : State) (e : Nat) : (s.fillBuf e).reg a = s.reg a := by
  unfold State.fillBuf
  dsimp only
  split_ifs <;> rfl

theorem State.runClock_reg (s : State) (d k : Nat) : (s.runClock d k).reg a = s.reg a := by
  unfold State.runClock
  dsimp only
  split <;> rfl

end

section
variable {a : Nat} (ha : TagAddr a)
include ha

theorem State.setReg_tag (s : State) {b : Nat} (w : W32) (hb : ¬ TagAddr b) : (s.setReg b w).reg a = s.reg a :=
  s.reg_setReg_other w fun h => hb (h ▸ ha)

theorem State.incReg_tag (s : State) {b : Nat} (hi lo n : Nat) (hb : ¬ TagAddr b) : (s.incReg b hi lo n).reg a = s.reg a := s.setReg_tag ha _ hb

theorem State.add64_tag (s : State) {b : Nat} (n : Nat) (hb : ¬ TagAddr b) (hb' : ¬ TagAddr (b + 4)) : (s.add64 b n).reg a = s.reg a :=
  (State.setReg_tag ha _ _ hb').trans (s.setReg_tag ha _ hb)

/-! ### Error records -/

theorem State.light_tag (s : State) (p : Option PartId) (n k : Nat) (hn : n < 8) : (s.light p n k).reg a = s.reg a := by
  have hdev : ∀ u : State, (u.add64 (dbgBase + 8 * n) k).reg a = u.reg a := fun u =>
    u.add64_tag ha k (not_tagAddr_low (by unfold dbgBase; omega)) (not_tagAddr_low (by unfold dbgBase; omega))
  unfold State.light
  refine (hdev _).trans ?_
  cases p with
  | none => rfl
  | some p => exact s.add64_tag ha k (not_tagAddr_high (by unfold partBase; omega)) (not_tagAddr_high (by unfold partBase; omega))

theorem State.lightP_tag (s : State) (p : Option PartId) (n k : Nat) : (s.lightP p n k).reg a = s.reg a := by
  cases p with
  | none => rfl
  | some p => exact s.add64_tag ha k (not_tagAddr_high (by unfold partBase; omega)) (not_tagAddr_high (by unfold partBase; omega))

theorem State.arriveErr_tag (s : State) (c : CoreId) (r : ErrRec) : (s.arriveErr c r).reg a = s.reg a := by
  have hint : ¬ TagAddr (intBase c + 0x400) := not_tagAddr_int c (by norm_num)
  have hlost : ∀ w, ((s.setReg (intBase c + 0x400) w).incReg (intBase c + 0x400) 31 16 1).reg a = s.reg a := fun w =>
    (State.incReg_tag ha _ 31 16 1 hint).trans (s.setReg_tag ha w hint)
  have hset : ∀ (u : State) k, (u.setCtl c k).reg a = u.reg a := fun _ _ => rfl
  unfold State.arriveErr
  dsimp only
  split
  · rfl
  split
  · rfl
  split
  · exact (hset _ _).trans (hlost _)
  · exact hlost _

theorem State.countErr_tag (s : State) (r : ErrRec) : (s.countErr r).reg a = s.reg a := by
  unfold State.countErr
  split
  · exact (State.light_tag ha _ _ _ _ (by decide)).trans (each_reg _ _ (fun u p => u.lightP_tag ha _ _ _) s)
  · refine s.light_tag ha _ _ _ ?_
    split <;> decide

/-- R366: a DEFERRED error is recorded and counted; it has no automatic effect. -/
theorem State.errAt_tag (s : State) (t : TileId) {r : ErrRec} (hsev : r.sev.toNat = 2) : (s.errAt t r).reg a = s.reg a := by
  unfold State.errAt State.escalate
  rw [hsev]
  exact (State.countErr_tag ha _ r).trans (s.arriveErr_tag ha _ r)

theorem State.linkCount_tag (s : State) (r : TileId) (u : ErrUnit) (e : LinkErr) : (s.linkCount r u e).reg a = s.reg a := by
  have hspine : ∀ hi lo n, (s.incReg (spineBase (dieOf r) + 8) hi lo n).reg a = s.reg a := fun hi lo n =>
    s.incReg_tag ha hi lo n (not_tagAddr_high (by unfold spineBase; omega))
  cases e with
  | none => rfl
  | corrected => exact hspine ..
  | poisoned => exact (State.errAt_tag ha _ r rfl).trans (hspine ..)

/-! ### The canal -/

theorem State.beatMove_tag (s : State) (r : TileId) (o k i : Nat) (e : LinkErr) : (s.beatMove r o k i e).reg a = s.reg a := by
  unfold State.beatMove
  dsimp only
  split
  · rfl
  · refine (State.linkCount_tag ha ..).trans ?_
    split
    · exact State.beatOut_reg ..
    · rfl

theorem State.canalCycle_tag (s : State) (noisy : Bool) : (s.canalCycle noisy).reg a = s.reg a := by
  have hmoves := each_reg s.canalMoves.zipIdx
    (fun u y => u.beatMove y.1.1 y.1.2.1 y.1.2.2.1 y.1.2.2.2 (if noisy then u.linkErr y.2 else .none)) (fun u y => u.beatMove_tag ha ..) s
  have hwaits := each_reg (s.bridgeWaits s.canal.busy s.canalMoves) (fun u d => u.incReg (spineBase d + 4) 15 0 1)
    (fun u d => u.incReg_tag ha _ _ _ (not_tagAddr_high (by unfold spineBase; omega)))
  unfold State.canalCycle
  dsimp only
  by_cases hquiet : s.canal.bufs.isEmpty ∧ s.canal.front.isEmpty
  · rw [if_pos hquiet]
  · rw [if_neg hquiet]
    cases noisy <;> exact (hwaits _).trans hmoves

theorem State.canalRun_tag (n : Nat) (s : State) : (State.canalRun n s).reg a = s.reg a := by
  induction n generalizing s with
  | zero => rfl
  | succ n ih =>
    unfold State.canalRun
    split
    · rfl
    · exact (ih _).trans (s.canalCycle_tag ha true)

/-! ### Clocks and furrows -/

theorem State.tcnt_tag (s : State) (t : TileId) (n k : Nat) (hn : n < 8) : (s.tcnt t n k).reg a = s.reg a := by
  have hhigh : ¬ TagAddr (obsBase t + 8 * n + 4) := by
    rw [Nat.add_assoc]
    exact not_tagAddr_obs t (by omega)
  exact (State.setReg_tag ha _ _ hhigh).trans (s.setReg_tag ha _ (not_tagAddr_obs t (by omega)))

theorem State.countWait_tag (s : State) (i k : Nat) : (s.countWait i k).reg a = s.reg a := by
  unfold State.countWait
  dsimp only
  refine (State.tcnt_tag ha _ _ 7 _ (by norm_num)).trans ?_
  split <;> rfl

theorem State.landWait_tag (s : State) (u : TileId) (k : Nat) : (s.landWait u k).reg a = s.reg a := by
  unfold State.landWait
  split
  · rfl
  · exact s.incReg_tag ha _ _ _ (not_tagAddr_tile u (by decide))

theorem State.furrowNoise_tag (s : State) (e : Nat) : (s.furrowNoise e).reg a = s.reg a := by
  unfold State.furrowNoise
  dsimp only
  split
  · rfl
  split
  · rfl
  refine (State.linkCount_tag ha ..).trans ?_
  split_ifs
  · rfl
  · exact State.markSpad_reg ..
  · rfl

theorem State.haloNoise_tag (s : State) (e : Nat) : (s.haloNoise e).reg a = s.reg a := by
  unfold State.haloNoise
  dsimp only
  split
  · split
    · rfl
    refine (State.linkCount_tag ha ..).trans ?_
    split
    · exact State.markSpad_reg ..
    · rfl
  · rfl

theorem State.furrowErrs_tag (s : State) : s.furrowErrs.reg a = s.reg a := by
  unfold State.furrowErrs
  dsimp only
  split
  · rfl
  · exact (each_reg _ _ (fun u e => u.haloNoise_tag ha e) _).trans (each_reg _ _ (fun u e => u.furrowNoise_tag ha e) s)

theorem State.elapse_tag (s : State) (k : Nat) : (s.elapse k).reg a = s.reg a := by
  unfold State.elapse
  refine Eq.trans (b := (each _ _ fun u q => u.setCopy q (look (fun _ => 0) u.copies q - 40 * k)).reg a) rfl ?_
  refine (each_reg _ (fun u q => u.setCopy q (look (fun _ => 0) u.copies q - 40 * k)) (fun _ _ => rfl) _).trans ?_
  refine (each_reg _ _ (fun u d => u.runClock_reg d k) _).trans ?_
  refine (State.furrowErrs_tag ha _).trans ((State.canalRun_tag ha _ _).trans ?_)
  refine (each_reg _ _ (fun u t => u.landWait_tag ha t k) _).trans ?_
  refine (each_reg _ _ (fun u e => u.fillBuf_reg e) _).trans ?_
  refine (each_reg _ _ (fun u i => u.countWait_tag ha i k) _).trans ?_
  exact each_reg _ (fun u b => u.refill b k) (fun _ _ => rfl) s

theorem State.reach_tag (s : State) (x : W64) : (s.reach x).reg a = s.reg a := by
  unfold State.reach
  split
  · exact s.elapse_tag ha _
  · rfl

end
/-! ## Ages (R86) -/

/-- R86: the age of one slot, at a tick. -/
def State.ageSlot (s : State) (t : TileId) (i : Nat) : State :=
  if tagValid (s.tag t i) then s.setTr t (tagOff i) (incFld (s.tag t i) 23 16 1) else s

theorem State.tag_ageSlot_same {s : State} {t : TileId} {i : Nat} (hv : tagValid (s.tag t i) = true) :
    (s.ageSlot t i).tag t i = incFld (s.tag t i) 23 16 1 := by
  rw [State.ageSlot, if_pos hv]
  exact s.tr_setTr t _ _

theorem State.tag_ageSlot_other (s : State) (t : TileId) {i j : Nat} (h : i ≠ j) : (s.ageSlot t j).tag t i = s.tag t i := by
  unfold State.ageSlot
  split
  · exact s.reg_setReg_other _ (by unfold tagOff; omega)
  · rfl

theorem State.tag_each_ageSlot_other {t : TileId} {i : Nat} (l : List Nat) (hi : i ∉ l) (s : State) :
    (each s l fun u j => u.ageSlot t j).tag t i = s.tag t i := by
  induction l generalizing s with
  | nil => rfl
  | cons j l ih =>
    obtain ⟨hij, hil⟩ := not_or.1 (mt List.mem_cons.2 hi)
    exact (ih hil _).trans (s.tag_ageSlot_other t hij)

theorem State.tag_each_ageSlot {t : TileId} {i : Nat} (l : List Nat) (hl : l.Nodup) (hi : i ∈ l) {s : State} (hv : tagValid (s.tag t i) = true) :
    (each s l fun u j => u.ageSlot t j).tag t i = incFld (s.tag t i) 23 16 1 := by
  induction l generalizing s with
  | nil => exact absurd hi List.not_mem_nil
  | cons j l ih =>
    obtain ⟨hjl, hnodup⟩ := List.nodup_cons.1 hl
    by_cases hij : i = j
    · subst hij
      exact (State.tag_each_ageSlot_other l hjl _).trans (State.tag_ageSlot_same hv)
    · have hkept := s.tag_ageSlot_other t hij
      exact (ih hnodup ((List.mem_cons.1 hi).resolve_left hij) (hkept ▸ hv)).trans (congrArg (incFld · 23 16 1) hkept)

theorem tagAge_incFld (w : W32) : tagAge (incFld w 23 16 1) = min 255 (tagAge w + 1) := by
  refine fld_setFld w (by omega) ?_
  show min 255 (tagAge w + 1) < 256
  omega

/-- R86: an expiry of the tick counter ages every valid slot. -/
theorem State.ageTick_ages {s : State} {t : TileId} {i : Nat} (hi : i < 64) (hn : fld (s.tr t 0x1804) 15 0 ≠ 0) (hv : tagValid (s.tag t i) = true) :
    tagAge ((s.ageTick t).tag t i) = min 255 (tagAge (s.tag t i) + 1) := by
  rw [State.ageTick, if_neg hn, ← tagAge_incFld]
  have hreach := s.reach_tag (tagAddr_tag t hi) (BitVec.ofNat 64 ((s.tileAt t).ageFrom.toNat + 40 * fld (s.tr t 0x1804) 15 0))
  refine congrArg tagAge ?_
  refine (State.tag_each_ageSlot (List.range 64) List.nodup_range (List.mem_range.2 hi) ?_).trans (congrArg (incFld · 23 16 1) hreach)
  exact (congrArg tagValid hreach).trans hv

/-! ## A vault's temperature (R106, R107) -/

theorem bit_setBit_same (w : W32) {i : Nat} (hi : i < 32) (b : Bool) : bit (setBit w i b) i = b := by
  rw [bit, setBit, getLsbD_setFld w i i _ hi, if_pos ⟨le_rfl, le_rfl⟩, Nat.sub_self]
  cases b <;> rfl

theorem bit_setFld_other (w : W32) {hi lo i : Nat} (v : Nat) (hi32 : i < 32) (h : ¬ (lo ≤ i ∧ i ≤ hi)) : bit (setFld w hi lo v) i = bit w i := by
  rw [bit, getLsbD_setFld w hi lo v hi32, if_neg h, bit]

theorem bit_setBit_other (w : W32) {i j : Nat} (b : Bool) (hi : i < 32) (h : i ≠ j) : bit (setBit w j b) i = bit w i :=
  bit_setFld_other w _ hi (by omega)

/-- R106, R107: what a temperature leaves in the vault's status. -/
theorem State.tr_vaultTemp (s : State) (t : TileId) (c : Byte) :
    (s.vaultTemp t c).tr t 0x1800 = setFld (setBit (setBit (s.tr t 0x1800) 2 (decide (85 < c.toNat))) 3
      (decide (95 ≤ c.toNat) || (bit (s.tr t 0x1800) 3 && decide (92 ≤ c.toNat)))) 15 8 c.toNat := State.tr_setTr _ t _ _

theorem State.vaultTemp_doubled (s : State) (t : TileId) (c : Byte) : bit ((s.vaultTemp t c).tr t 0x1800) 2 = decide (85 < c.toNat) := by
  rw [State.tr_vaultTemp, bit_setFld_other _ _ (by omega) (by omega), bit_setBit_other _ _ (by omega) (by omega), bit_setBit_same _ (by omega)]

theorem State.vaultTemp_degrees (s : State) (t : TileId) (c : Byte) : fld ((s.vaultTemp t c).tr t 0x1800) 15 8 = c.toNat := by
  rw [State.tr_vaultTemp]
  exact fld_setFld _ (by omega) c.isLt

theorem State.vaultTemp_throttled (s : State) (t : TileId) {c : Byte} (hc : 95 ≤ c.toNat) : bit ((s.vaultTemp t c).tr t 0x1800) 3 = true := by
  rw [State.tr_vaultTemp, bit_setFld_other _ _ (by omega) (by omega), bit_setBit_same _ (by omega), decide_eq_true hc, Bool.true_or]

/-! ## Map invalidation (R80, R271) -/

theorem partAt_each_inject {β : Type} (l : List β) (f : State → β → CanPkt) (p : PartId) (s : State) :
    (each s l fun u x => u.inject (f u x)).partAt p = s.partAt p := by
  induction l generalizing s with
  | nil => rfl
  | cons x l ih => exact ih _

theorem State.mapInvalidate_begins {s : State} {p : PartId} {w : W32} (hgo : bit w 31 = true) (hnone : (s.partAt p).mapInv = none) :
    ((s.mapInvalidate p w).partAt p).mapInv
      = some { ctx := w.extractLsb' 0 8, all := bit w 8, root := bit w 9, lpn := (s.reg (partBase p + 0x40C)).extractLsb' 0 24 } := by
  unfold State.mapInvalidate
  simp only [hgo, hnone, Bool.not_true, Option.isSome_none, Bool.false_eq_true, if_false]
  exact (congrArg Part.mapInv (partAt_each_inject _ _ p _)).trans (congrArg Part.mapInv (s.partAt_setPart p _))

theorem State.mapInvalidate_again {s : State} {p : PartId} {w : W32} (hgo : bit w 31 = true) (hbusy : (s.partAt p).mapInv ≠ none) :
    s.mapInvalidate p w = s.setPart p { s.partAt p with mapOverrun := true } := by
  unfold State.mapInvalidate
  rw [hgo]
  exact if_pos (Option.isSome_iff_ne_none.2 hbusy)

/-- R80: the invalidation ends once it has arrived and nothing uses what it covers. -/
theorem State.mapInvEnd_ends {s : State} {p : PartId} {v : MapInv} (hv : (s.partAt p).mapInv = some v)
    (harrived : ∀ x ∈ s.canal.pkts, x.2.load ≠ .inval p) (hunused : s.mapUsed p v = false) :
    s.mapInvEnd p = s.setPart p { s.partAt p with mapInv := none, mapCache := (s.partAt p).mapCache.filter fun e => !v.covers e } := by
  unfold State.mapInvEnd
  rw [State.bring_arrived s _ (by simpa using harrived)]
  dsimp only
  rw [hv]
  exact if_neg (by simp [hunused])

end Sys2Proof.Machine

open Sys2Proof Sys2Proof.Machine

/-- Settles O22: the invalidation, the tick and the temperature each leave what their own rule above says. -/
theorem mapAndVault : Obligations.MapAndVault := by
  unfold Obligations.MapAndVault
  refine ⟨fun s r p w hreq hgo => ⟨fun hnone => ?_, fun hbusy => ?_, fun v hv harrived hunused => ?_⟩, fun s r t w c i => ⟨fun hreq => ?_, fun hi hn hv => ?_, rfl, ?_, fun hc => ?_⟩⟩
  · exact ⟨_, congrArg Host.Outcome.next (s.onPart_reached _ hreq), State.mapInvalidate_begins hgo hnone⟩
  · exact congrArg Host.Outcome.next ((s.onPart_reached _ hreq).trans (State.mapInvalidate_again hgo hbusy))
  · refine ⟨_, congrArg Host.Outcome.next (State.mapInvEnd_ends hv harrived hunused), ?_⟩
    rw [State.partAt_setPart]
    exact ⟨rfl, fun e he => by simpa using (List.mem_filter.1 he).2⟩
  · exact s.next_onTile _ hreq
  · exact ⟨_, rfl, State.ageTick_ages hi hn hv⟩
  · exact ⟨_, rfl, s.vaultTemp_doubled t c, s.vaultTemp_degrees t c⟩
  · exact ⟨_, rfl, s.vaultTemp_throttled t hc⟩
end

/-! ## Residency: writes of TIL_SPOWN, the end of a handover, and of a slot scrub (R109, R212, R214) -/

section
namespace Sys2Proof.Machine

/-! ### What dropping keys leaves -/

section
variable {α : Type} (d : Nat → α) (p : Nat → Bool) (m : Sparse α) {k : Nat}

theorem look_dropIf_dropped (hk : p k = true) : look d (dropIf p m) k = d k := by
  induction m with
  | nil => rfl
  | cons e m ih =>
    obtain ⟨j, w⟩ := e
    rw [dropIf]
    split
    · exact ih
    next hkept => rw [look, if_neg fun (heq : j = k) => hkept (heq ▸ hk), ih]

theorem look_dropIf_kept (hk : p k = false) : look d (dropIf p m) k = look d m k := by
  induction m with
  | nil => rfl
  | cons e m ih =>
    obtain ⟨j, w⟩ := e
    rw [dropIf, look]
    split
    next hdrop => rw [ih, if_neg fun (heq : j = k) => Bool.false_ne_true (hk.symm.trans (heq ▸ hdrop))]
    · rw [look, ih]

end

/-! ### Who holds a tile -/

/-- R212, R213: the tile is context `c`'s, in the QUARANTINE `q`, with the kills `l` that came meanwhile. -/
def State.Holder (s : State) (t : TileId) (c : CtxId) (q : Option Quar) (l : List CtxId) : Prop :=
  (s.tileAt t).ctx = c ∧ (s.tileAt t).quar = q ∧ (s.tileAt t).quarWait = l

section
variable {s : State} {t : TileId} {c : CtxId} {q : Option Quar} {l : List CtxId}

theorem each_holder {β : Type} {m : List β} {f : State → β → State} (hf : ∀ u x, u.Holder t c q l → (f u x).Holder t c q l) (h : s.Holder t c q l) :
    (each s m f).Holder t c q l := by
  induction m generalizing s with
  | nil => exact h
  | cons x m ih => exact ih (hf s x h)

theorem State.setTile_holder {v : Tile} (h : v.ctx = c ∧ v.quar = q ∧ v.quarWait = l) : (s.setTile t v).Holder t c q l := by
  rwa [State.Holder, State.tileAt_setTile]

variable (h : s.Holder t c q l)
include h

theorem State.setTr_holder (o : Nat) (w : W32) : (s.setTr t o w).Holder t c q l := h

theorem State.setPosterW_holder (n : Nat) (w : W32) : (s.setPosterW t n w).Holder t c q l := h

theorem State.setEng_holder (e : EngId) (v : Eng) : (s.setEng t e v).Holder t c q l := h

theorem State.clearScalars_holder (e : EngId) : (s.clearScalars t e).Holder t c q l := h

theorem State.dropWalk_holder (e : EngId) : (s.dropWalk t e).Holder t c q l := by
  unfold State.dropWalk
  split
  · exact State.setTile_holder h
  · exact h

theorem State.stopEngine_holder (e : EngId) : (s.stopEngine t e).Holder t c q l :=
  State.clearScalars_holder (State.setEng_holder (State.dropWalk_holder h e) ..) ..

theorem State.reloadTile_holder : (s.reloadTile t).Holder t c q l := by
  refine each_holder (fun _ _ hu => each_holder (fun _ _ hv => ?_) hu) (each_holder (fun _ _ hu => ?_) h)
  · exact State.setTr_holder hv ..
  · exact State.setPosterW_holder (State.setTr_holder hu ..) ..

theorem State.settle_holder : (s.settle t).Holder t c q l := by
  have hreload := State.reloadTile_holder h
  unfold State.settle
  dsimp only
  split
  · generalize s.reloadTile t = u at hreload ⊢
    exact State.setTile_holder hreload
  · exact h

theorem State.stopAll_holder : (s.stopAll t).Holder t c q l :=
  State.settle_holder (State.setTile_holder (each_holder (fun _ e hu => State.stopEngine_holder hu e) h))

theorem State.trace_holder (ty unit place info : Nat) : (s.trace t ty unit place info).Holder t c q l := by
  unfold State.trace
  split
  · exact h
  · split
    · exact h
    dsimp only
    split <;> exact State.setTile_holder h

theorem State.beginProgram_holder (e : EngId) (pc : BitVec 13) : (s.beginProgram t e pc).Holder t c q l := by
  unfold State.beginProgram
  refine State.trace_holder ?_ _ _ _ _
  split
  · exact State.setTile_holder h
  · exact h

theorem State.startNow_holder (e : EngId) (pc : BitVec 13) : (s.startNow t e pc).Holder t c q l := by
  unfold State.startNow
  dsimp only
  split
  · exact State.beginProgram_holder h e pc
  · split <;> exact h
  · split <;> exact h
  · exact h

theorem State.releaseStarts_holder : (s.releaseStarts t).Holder t c q l := by
  unfold State.releaseStarts
  split
  · exact h
  · exact each_holder (fun _ e hu => each_holder (fun _ pc hv => State.startNow_holder hv e pc) hu) h

theorem State.quarOver_holder : (s.quarOver t).Holder t c q l := each_holder (fun _ _ hu => hu) h

end

/-- R213: a tile that enters QUARANTINE stays its context's. -/
theorem State.enterQuar_holder (s : State) (t : TileId) (q : Quar) : (s.enterQuar t q).Holder t (s.ctxOf t) (some q) (s.tileAt t).quarWait :=
  State.stopAll_holder (State.setTile_holder ⟨rfl, rfl, rfl⟩)

/-! ### What is zeroed -/

/-- R114: the reload writes semaphores and address generators alone. -/
theorem State.reloadTile_tr (s : State) (t : TileId) {o : Nat} (ho : 0x1000 ≤ o) : (s.reloadTile t).tr t o = s.tr t o := by
  have hset : ∀ (u : State) {b : Nat} (w : W32), b < 0x1000 → (u.setTr t b w).reg (tileBase t + o) = u.reg (tileBase t + o) :=
    fun u b w hb => u.reg_setReg_other w (by omega)
  refine (each_reg_mem _ _ (fun u g hg => each_reg_mem _ _ (fun v l hl => ?_) u) _).trans (each_reg_mem _ _ (fun u n hn => ?_) s)
  · have hgen := List.mem_range.1 hg
    have hloop := List.mem_range.1 hl
    exact hset v _ (by omega)
  · have hsem := List.mem_range.1 hn
    exact hset u _ (by omega)

theorem State.settle_tr (s : State) (t : TileId) {o : Nat} (ho : 0x1000 ≤ o) : (s.settle t).tr t o = s.tr t o := by
  unfold State.settle
  split
  · exact (State.tr_setTile ..).trans (s.reloadTile_tr t ho)
  · rfl

theorem State.settle_regionF (s : State) (t : TileId) : (s.settle t).regF (tileBase t + 0x1E00) 27 16 = s.regF (tileBase t + 0x1E00) 27 16 :=
  congrArg (fld · 27 16) (s.settle_tr t (by norm_num))

/-- R214: the working region, the accumulators and the vector and predicate registers of a tile are zeroed. -/
def State.zeroTile (s : State) (t : TileId) : State := ((s.zeroWorking t).zeroAcc t).zeroVregs t

section
variable (s : State) (t : TileId)

theorem State.zeroTile_spadB {b : Nat} (hb : 64 * s.regF (tileBase t + 0x1E00) 27 16 ≤ b) (hlast : b < 262144) : (s.zeroTile t).spadB t b = 0 :=
  look_dropIf_dropped zeroByte _ s.spad (by simp only [Bool.and_eq_true, decide_eq_true_eq]; omega)

theorem State.zeroTile_spadB_resident {b : Nat} (hb : b < 64 * s.regF (tileBase t + 0x1E00) 27 16) : (s.zeroTile t).spadB t b = s.spadB t b :=
  look_dropIf_kept zeroByte _ s.spad (by simp only [Bool.and_eq_false_iff, decide_eq_false_iff_not]; omega)

theorem State.zeroTile_accW {i : Nat} (hi : i < 16384) : (s.zeroTile t).accW t i = 0 :=
  look_dropIf_dropped zeroWord _ s.acc (by simp only [Bool.and_eq_true, decide_eq_true_eq]; omega)

theorem State.zeroTile_vregL {i l : Nat} (hi : i < 32) (hl : l < 32) : (s.zeroTile t).vregL t i l = 0 :=
  look_dropIf_dropped zeroWord _ s.vreg (by simp only [Bool.and_eq_true, decide_eq_true_eq]; omega)

theorem State.zeroTile_pregW {i : Nat} (hi : i < 8) : (s.zeroTile t).pregW t i = 0 :=
  look_dropIf_dropped zeroWord _ s.preg (by simp only [Bool.and_eq_true, decide_eq_true_eq]; omega)

theorem State.zeroTile_tileAt (u : TileId) : (s.zeroTile t).tileAt u = s.tileAt u := rfl

end

/-! ### The end of a handover -/

/-! What a tile holds is read from the memories alone. -/

section
variable {s u : State} (h : u.mems = s.mems) (t : TileId)
include h

theorem State.spadB_congr (b : Nat) : u.spadB t b = s.spadB t b := congrArg (fun m : Mems => look zeroByte m.spad (t.toNat * 262144 + b)) h

theorem State.accW_congr (i : Nat) : u.accW t i = s.accW t i := congrArg (fun m : Mems => look zeroWord m.acc (t.toNat * 16384 + i)) h

theorem State.vregL_congr (r l : Nat) : u.vregL t r l = s.vregL t r l := congrArg (fun m : Mems => look zeroWord m.vreg ((t.toNat * 32 + r) * 32 + l)) h

theorem State.pregW_congr (r : Nat) : u.pregW t r = s.pregW t r := congrArg (fun m : Mems => look zeroWord m.preg (t.toNat * 8 + r)) h

end

/-- R214: a tile whose handover has ended, before what its QUARANTINE held goes on. -/
def State.handedOver (s : State) (t : TileId) (c : CtxId) : State :=
  let u := (s.settle t).zeroTile t
  let v := u.setTile t { u.tileAt t with ctx := c }
  v.setTile t { v.tileAt t with quar := none, quarWait := [] }

section
variable {s : State} {t : TileId} {c : CtxId}

theorem State.zeroTile_holder {d : CtxId} {q : Option Quar} {l : List CtxId} (h : s.Holder t d q l) : (s.zeroTile t).Holder t d q l := by
  rwa [State.Holder, State.zeroTile_tileAt]

theorem State.killEnds_handover {d : CtxId} (h : s.Holder t d (some (.handover c)) []) : (s.tileAt t).killEnds = none := by
  obtain ⟨-, hquar, hwait⟩ := h
  rw [Tile.killEnds, hquar, hwait]
  rfl

/-- R214 step 4: a handover that nothing outstanding holds, and no kill has met, ends. -/
theorem State.quarClear_handover (h : s.Holder t (s.ctxOf t) (some (.handover c)) []) (hruns : s.runs t = true) (hquiet : s.quiesced t = true)
    (hin : s.inbound t = false) (hhalo : s.haloInto t = false) : s.quarClear t = ((s.handedOver t c).quarOver t).releaseStarts t := by
  have hzeroed := State.zeroTile_holder (State.settle_holder h)
  rw [State.zeroTile] at hzeroed
  have hends := State.killEnds_handover h
  have hendsLater := State.killEnds_handover hzeroed
  obtain ⟨-, hquar, -⟩ := h
  obtain ⟨-, -, hwait⟩ := hzeroed
  unfold State.quarClear
  dsimp only
  rw [hquar]
  refine (if_neg (by simp [hruns, hquiet, hin, hhalo, hends])).trans ?_
  rw [hendsLater, if_neg (by simp [hwait])]
  rfl

theorem State.handedOver_holder (s : State) (t : TileId) (c : CtxId) : (s.handedOver t c).Holder t c none [] :=
  State.setTile_holder ⟨congrArg Tile.ctx (State.tileAt_setTile ..), rfl, rfl⟩

/-- R214, R215: a handover's end leaves the memories zeroed; what its QUARANTINE held goes on, and writes none. -/
theorem State.handover_mems (s : State) (t : TileId) (c : CtxId) :
    (((s.handedOver t c).quarOver t).releaseStarts t).mems = ((s.settle t).zeroTile t).mems := by
  rw [State.releaseStarts_mems, State.quarOver_mems, State.handedOver]
  exact (State.setTile_mems ..).trans (State.setTile_mems ..)

end

/-! ### A slot scrub -/

theorem State.clearTag_invalid (s : State) (t : TileId) (sl : Nat) : tagValid ((s.clearTag t sl).tag t sl) = false := by
  have hword : (s.clearTag t sl).tag t sl = 0 := (State.reg_setReg_other _ _ (by omega)).trans (s.tr_setTr t _ _)
  rw [hword]
  rfl

theorem State.emptySlot_invalid (s : State) (t : TileId) (sl : Nat) : tagValid ((s.emptySlot t sl).tag t sl) = false := (s.zeroSlot t sl).clearTag_invalid t sl

theorem State.emptySlot_tileAt (s : State) (t u : TileId) (sl : Nat) : (s.emptySlot t sl).tileAt u = s.tileAt u := rfl

theorem State.emptySlot_cisB (s : State) (t : TileId) (sl : Nat) {b : Nat} (hb : b < 65536) : (s.emptySlot t sl).cisB t (sl * 65536 + b) = 0 :=
  look_dropIf_dropped zeroByte _ s.cis (by simp only [Bool.and_eq_true, decide_eq_true_eq]; omega)

/-- R109: a scrub that no access holds empties the slot. -/
theorem State.scrubDone_empties {s : State} {t : TileId} {sl : SlotId} (hscrub : (s.tileAt t).scrub = [sl]) (hused : s.slotUsed t sl = false)
    (hpage : (s.tileAt t).pageop = none) (hserves : s.serves (domCis t) = true) :
    s.scrubDone t sl = (s.setTile t { s.tileAt t with scrub := [] }).emptySlot t sl.toNat := by
  unfold State.scrubDone
  dsimp only
  rw [if_neg (by simp [hscrub, hused, hpage]), hserves, hscrub]
  simp

/-! ### Writes of TIL_SPOWN -/

theorem engines_any_not_idle_iff (s : State) (t : TileId) : (engines.any fun e => decide ((s.engAt t e).st ≠ .idle)) = true ↔ ∃ e : EngId, (s.engAt t e).st ≠ .idle := by
  have hall : ∀ e : EngId, e ∈ engines := by decide
  simp only [List.any_eq_true, decide_eq_true_eq]
  exact ⟨fun ⟨e, _, he⟩ => ⟨e, he⟩, fun ⟨e, he⟩ => ⟨e, hall e, he⟩⟩

/-- R403, R474: a write that could have been held is carried out at a tile in RUN. -/
theorem State.onTileWake_runs {s : State} {r : Req} {t : TileId} {l : Lim} (x : HeldWrite) (f : State → State) (hreq : s.tileWriter r t l = true)
    (hcol : s.colUp (colonyOf t) = true) (hruns : s.runs t = true) : s.onTileWake r t l x f = f s :=
  (if_pos (Bool.and_eq_true_iff.2 ⟨hreq, hcol⟩)).trans (if_pos hruns)

/-- R212: the contexts that the tile's partition may have. -/
def State.quotaAt (s : State) (t : TileId) : Nat :=
  match (s.partOf t).bind s.pcfg with
  | none => 0
  | some g => g.contexts.toNat

section
variable {s : State} {t : TileId} {w : W32} (hw : bit w 10 = false) (hidle : ∀ e : EngId, (s.engAt t e).st = .idle) (hquar : (s.tileAt t).quar = none)
    (hquota : (w.extractLsb' 0 8).toNat < s.quotaAt t)

theorem State.spownNow_clears (hw : bit w 10 = true) : s.spownNow t w = s.setTile t { s.tileAt t with spRefused := false } := if_pos hw

include hw

theorem State.spownNow_refuses (h : (∃ e : EngId, (s.engAt t e).st ≠ .idle) ∨ (s.tileAt t).quar ≠ none ∨ s.quotaAt t ≤ (w.extractLsb' 0 8).toNat) :
    s.spownNow t w = s.setTile t { s.tileAt t with spRefused := true } := by
  rw [← engines_any_not_idle_iff, ← Option.isSome_iff_ne_none] at h
  exact (if_neg (by simp [hw])).trans (if_pos h)

include hidle hquar hquota

/-- R212: with idle engines, no QUARANTINE and a context within the quota, the outcome is the owner's matter. -/
theorem State.spownNow_accepts : s.spownNow t w
    = if !(s.tileAt t).owned then s.setTile t { s.tileAt t with ctx := w.extractLsb' 0 8, owned := true }
      else if w.extractLsb' 0 8 = (s.tileAt t).ctx then s else s.enterQuar t (.handover (w.extractLsb' 0 8)) := by
  refine (if_neg (by simp [hw])).trans (if_neg ?_)
  rw [engines_any_not_idle_iff, hquar]
  rintro (⟨e, he⟩ | hin | hover)
  · exact he (hidle e)
  · exact Bool.false_ne_true hin
  · exact Nat.not_le.2 hquota hover

theorem State.spownNow_takes (howned : (s.tileAt t).owned = false) :
    s.spownNow t w = s.setTile t { s.tileAt t with ctx := w.extractLsb' 0 8, owned := true } :=
  (State.spownNow_accepts hw hidle hquar hquota).trans (if_pos (by rw [howned]; rfl))

theorem State.spownNow_owner (howned : (s.tileAt t).owned = true) : s.spownNow t w
    = if w.extractLsb' 0 8 = (s.tileAt t).ctx then s else s.enterQuar t (.handover (w.extractLsb' 0 8)) :=
  (State.spownNow_accepts hw hidle hquar hquota).trans (if_neg (by rw [howned]; exact Bool.false_ne_true))

end

end Sys2Proof.Machine

open Sys2Proof Sys2Proof.Machine

/-- Settles O23: the outcomes of a write of TIL_SPOWN, and what the ends of a handover and of a slot scrub leave. -/
theorem residency : Obligations.Residency := by
  unfold Obligations.Residency
  refine ⟨fun s r t w hreq hcol hruns => ?_, fun s t sl c => ⟨fun hquar hwait hruns hquiet hin hhalo => ?_, fun hscrub hused hpage hserves => ?_⟩⟩
  · have hdone : exec (.spownWrite r t w) s = .next (s.spownNow t w) := congrArg Host.Outcome.next (State.onTileWake_runs _ _ hreq hcol hruns)
    rw [hdone]
    refine ⟨fun hw => ?_, fun hw hbad => ?_, fun hw hidle hquar hquota howned => ?_, fun hw hidle hquar hquota howned hsame => ?_,
      fun hw hidle hquar hquota howned hother => ?_⟩
    · exact congrArg Host.Outcome.next (State.spownNow_clears hw)
    · exact congrArg Host.Outcome.next (State.spownNow_refuses hw hbad)
    · exact congrArg Host.Outcome.next (State.spownNow_takes hw hidle hquar hquota howned)
    · exact congrArg Host.Outcome.next ((State.spownNow_owner hw hidle hquar hquota howned).trans (if_pos hsame))
    · obtain ⟨hctx, hin, -⟩ := s.enterQuar_holder t (.handover (w.extractLsb' 0 8))
      exact ⟨_, congrArg Host.Outcome.next ((State.spownNow_owner hw hidle hquar hquota howned).trans (if_neg hother)), hin, hctx⟩
  · have hmems := s.handover_mems t c
    have hregion := s.settle_regionF t
    obtain ⟨hctx, hnone, -⟩ := State.releaseStarts_holder (State.quarOver_holder (s.handedOver_holder t c))
    refine ⟨_, congrArg Host.Outcome.next (State.quarClear_handover ⟨rfl, hquar, hwait⟩ hruns hquiet hin hhalo), hctx, hnone, fun b hb hlast => ?_, fun b hb => ?_,
      fun i hi => ?_, fun i l hi hl => ?_, fun i hi => ?_⟩
    · exact (State.spadB_congr hmems t b).trans ((s.settle t).zeroTile_spadB t (hregion.symm ▸ hb) hlast)
    · exact (State.spadB_congr hmems t b).trans (((s.settle t).zeroTile_spadB_resident t (hregion.symm ▸ hb)).trans (State.spadB_congr (s.settle_mems t) t b))
    · exact (State.accW_congr hmems t i).trans ((s.settle t).zeroTile_accW t hi)
    · exact (State.vregL_congr hmems t i l).trans ((s.settle t).zeroTile_vregL t hi hl)
    · exact (State.pregW_congr hmems t i).trans ((s.settle t).zeroTile_pregW t hi)
  · refine ⟨_, congrArg Host.Outcome.next (State.scrubDone_empties hscrub hused hpage hserves), State.emptySlot_invalid .., ?_, fun b hb => State.emptySlot_cisB _ t _ hb⟩
    rw [State.emptySlot_tileAt, State.tileAt_setTile]
end

/-! ## Words of an engine: how they issue (R118 to R131, R137, R145) -/

section
namespace Sys2Proof.Machine

/-! ### What a word meets -/

section
variable {s : State} {t : TileId} {e : EngId} {w : Nat} {ops : List SlotOp} (h : s.Ready t e w) (hw : 0 < w)
include h

theorem State.Ready.issueWord_tried : s.issueWord t e w ops = s.tryWord t e w ops := by
  rw [State.issueWord, h.beforeWord, if_neg (Nat.not_lt.2 h.inside)]

include hw

/-- R137: a word whose waits are not met leaves its engine waiting on them. -/
theorem State.Ready.tryWord_waits (hok : wordOk ops = true) (hmet : s.met t e ops = false) : s.tryWord t e w ops = s.waitOn t e (waitsOf ops) false := by
  simp only [State.tryWord, hok, h.loopBroken hw, hmet, Bool.not_true, Bool.not_false, Bool.false_eq_true, if_false, if_true]

variable (hok : wordOk ops = true) (hmet : s.met t e ops = true) (hfree : unitWait s ops = false)
include hok hmet hfree

/-- R121, R145: a word whose slots may stand together, whose waits are met and whose slots all pass issues them. -/
theorem State.Ready.tryWord_issues (hcheck : firstBad (s.racy t .other) ops = none) :
    s.tryWord t e w ops = s.issueSlots (s.racy t .other) t e (s.pcOf t e) w ops := by
  simp only [State.tryWord, hok, h.loopBroken hw, hmet, hfree, hcheck, Bool.not_true, Bool.false_eq_true, if_false]

/-- R145: a slot's fault is its word's. -/
theorem State.Ready.tryWord_faults {c : Nat} (hcheck : firstBad (s.racy t .other) ops = some (.fault c)) :
    s.tryWord t e w ops = s.engFault t e c := by
  simp only [State.tryWord, hok, h.loopBroken hw, hmet, hfree, hcheck, Bool.not_true, Bool.false_eq_true, if_false]

end

/-! ### Words of one slot -/

/-- A slot stands alone in a word and waits for no semaphore. -/
structure SlotOp.Alone (o : SlotOp) : Prop where
  legal : o.legal = true
  writes : o.writes.Nodup
  need : o.need = none

/-- R121, R205: it waits for no unit either, and passes its checks as the engine sees the scratchpad. -/
structure SlotOp.Passes (o : SlotOp) (s : State) (t : TileId) : Prop extends o.Alone where
  free : o.check s ≠ .wait
  check : o.check (s.racy t .other) = .ok

theorem wordOk_one {o : SlotOp} (hlegal : o.legal = true) (hwrites : o.writes.Nodup) : wordOk [o] = true := by
  cases huse : o.use <;> cases hctl : o.ctl <;> simp [wordOk, useIn, writesOk, hlegal, hwrites, huse, hctl]

theorem unitWait_eq_false {s : State} {ops : List SlotOp} (h : ∀ o ∈ ops, o.check s ≠ .wait) : unitWait s ops = false := by
  refine List.any_eq_false.2 fun o ho => ?_
  have hfree := h o ho
  split
  · exact absurd ‹_› hfree
  · exact Bool.false_ne_true

theorem firstBad_eq_none {s : State} {ops : List SlotOp} (h : ∀ o ∈ ops, o.check s = .ok) : firstBad s ops = none := by
  induction ops with
  | nil => rfl
  | cons o ops ih =>
    rw [firstBad, h o List.mem_cons_self]
    exact ih fun x hx => h x (List.mem_cons_of_mem o hx)

/-- A slot whose check asks for nothing. -/
theorem SlotOp.Alone.passes {o : SlotOp} (ho : o.Alone) (hcheck : ∀ s, o.check s = .ok) (s : State) (t : TileId) : o.Passes s t :=
  ⟨ho, (hcheck s).trans_ne Verdict.noConfusion, hcheck _⟩

theorem SlotOp.Alone.met {o : SlotOp} (ho : o.Alone) (s : State) (t : TileId) (e : EngId) : s.met t e [o] = true := by
  simp [State.met, waitsOf, ho.need]

theorem State.setEng_setEng_run (s : State) {t : TileId} {e : EngId} {g : Eng} (g' : Eng) (h : g.st = .run) :
    (s.setEng t e g).setEng t e g' = s.setEng t e g' :=
  s.setEng_setEng t e g g' fun hreset => by rw [hreset] at h; cases h

section
variable {s u : State} {t : TileId} {e : EngId} {w : Nat} {o : SlotOp} {g : Eng} (h : s.Ready t e w) (hw : 0 < w)
include h

/-- R145: the one slot takes effect on what its wait leaves. -/
theorem State.Ready.issueSlots_one {y : State} (hwait : (s.waitRecords t e (s.engAt t e).waited [o]).consume t [o] = u)
    (heng : u.engAt t e = s.engAt t e) : s.issueSlots y t e (s.pcOf t e) w [o]
      = (o.apply y (u.setEng t e (s.engAt t e).issuing)).advance s t e (s.pcOf t e) w [o] := by
  simp only [State.issueSlots, hwait, heng, each, List.foldl, Eng.issuing, h.step, Bool.false_eq_true, false_and, if_false]

include hw

/-- R129: the word ends no loop. -/
theorem State.Ready.notLast : ∀ l ∈ (s.engAt t e).loops, l.last.toNat ≠ s.pcOf t e :=
  fun l hl hlast => h.loops l hl ⟨by omega, by omega⟩

theorem State.Ready.issue_one (ho : o.Passes s t) :
    s.issueWord t e w [o] = (o.apply (s.racy t .other) (s.issuing t e)).advance s t e (s.pcOf t e) w [o] := by
  rw [h.issueWord_tried, h.tryWord_issues hw (wordOk_one ho.legal ho.writes) (ho.met s t e) (unitWait_eq_false (by simpa using ho.free))
    (firstBad_eq_none (by simpa using ho.check))]
  refine h.issueSlots_one ?_ rfl
  simp [State.waitRecords_none _ _ _ _ _ ho.need, State.consume, each, ho.need]

/-- R121: the slot takes effect, and control goes past the word. -/
theorem State.Ready.issue_past (ho : o.Passes s t) (hgoto : o.goto s = none) (hskip : o.skip s = none)
    (happly : o.apply (s.racy t .other) (s.issuing t e) = u.setEng t e g) (hrun : g.st = .run) (hloops : ∀ l ∈ g.loops, l.last.toNat ≠ s.pcOf t e) :
    s.issueWord t e w [o] = u.setEng t e { g with pc := BitVec.ofNat 14 (s.pcOf t e + w) } := by
  have hnext : g.closeAt (s.pcOf t e) (s.pcOf t e + w) = { g with pc := BitVec.ofNat 14 (s.pcOf t e + w) } :=
    Eng.closeAt_past _ _ _ hloops
  simp only [h.issue_one hw ho, happly, State.advance, List.findSome?, hgoto, hskip, State.engAt_setEng, hnext, u.setEng_setEng_run _ hrun]

/-- An effect on the issuing engine alone. -/
theorem State.Ready.issue_engine (φ : Eng → Eng) (ho : o.Passes s t) (hgoto : o.goto s = none) (hskip : o.skip s = none)
    (happly : ∀ cur : State, o.apply (s.racy t .other) cur = cur.setEng t e (φ (cur.engAt t e))) (hrun : (φ (s.engAt t e).issuing).st = .run)
    (hloops : ∀ l ∈ (φ (s.engAt t e).issuing).loops, l.last.toNat ≠ s.pcOf t e) :
    s.issueWord t e w [o] = s.setEng t e { φ (s.engAt t e).issuing with pc := BitVec.ofNat 14 (s.pcOf t e + w) } := by
  have hissuing : (s.engAt t e).issuing.st = .run := rfl
  refine h.issue_past hw ho hgoto hskip ?_ hrun hloops
  rw [happly, State.issuing, State.engAt_setEng, s.setEng_setEng_run _ hissuing]

/-- R125: or to the address that the slot gives. -/
theorem State.Ready.issue_goto (ho : o.Passes s t) {q : Nat} (hgoto : o.goto s = some q)
    (happly : o.apply (s.racy t .other) (s.issuing t e) = s.issuing t e) :
    s.issueWord t e w [o] = s.setEng t e { (s.engAt t e).issuing with pc := BitVec.ofNat 14 q } := by
  have hrun : (s.engAt t e).issuing.st = .run := rfl
  simp only [h.issue_one hw ho, happly, State.advance, List.findSome?, hgoto]
  simp only [State.issuing, State.engAt_setEng, s.setEng_setEng_run _ hrun]

/-- R145: a slot that stands alone and does not wait faults its engine with its code. -/
theorem State.Ready.issue_faults (ho : o.Alone) (hfree : o.check s ≠ .wait) {c : Nat} (hcheck : o.check (s.racy t .other) = .fault c) :
    s.issueWord t e w [o] = s.engFault t e c := by
  refine h.issueWord_tried.trans (h.tryWord_faults hw (wordOk_one ho.legal ho.writes) (ho.met s t e) (unitWait_eq_false (by simpa using hfree)) ?_)
  rw [firstBad, hcheck]

end

/-! ## Scalar instructions (R123 to R126, R134) -/

/-! ### Registers -/

theorem State.setSR_setEng (s : State) (t : TileId) (e : EngId) (g : Eng) (d : BitVec 4) (v : W32) :
    (s.setEng t e g).setSR t e d v = (s.setSR t e d v).setEng t e g := by
  unfold State.setSR
  split <;> rfl

theorem nodup_wrS (d : BitVec 4) : (wrS d).Nodup := by
  unfold wrS
  split
  · exact List.nodup_nil
  · exact List.nodup_singleton _

section
variable {s : State} {t : TileId} {e : EngId} {o : SlotOp} (h : s.Ready t e 3)
include h

/-- R123, R124: a slot that puts `v` into its register. -/
theorem State.Ready.issue_writes (ho : o.Passes s t) (hgoto : o.goto s = none) (hskip : o.skip s = none) {d : BitVec 4} {v : W32}
    (happly : ∀ cur, o.apply (s.racy t .other) cur = cur.setSR t e d v) :
    s.issueWord t e 3 [o] = (s.setSR t e d v).setEng t e ((s.engAt t e).past 3) :=
  h.issue_past (by decide) ho hgoto hskip ((happly _).trans (s.setSR_setEng t e _ d v)) rfl (h.notLast (by decide))

theorem State.Ready.issue_alu (d a b : BitVec 4) (f : W32 → W32 → W32) :
    s.issueWord t e 3 [slotAlu t e d a b f] = (s.setSR t e d (f (s.sR t e a) (s.sR t e b))).setEng t e ((s.engAt t e).past 3) := by
  refine h.issue_writes (SlotOp.Alone.passes ⟨rfl, nodup_wrS d, rfl⟩ (fun _ => rfl) s t) rfl rfl fun cur => ?_
  simp only [slotAlu, State.scR, State.racy_sR]

theorem State.Ready.issue_imm (d a : BitVec 4) (f : W32 → W32) :
    s.issueWord t e 3 [slotImm t e d a f] = (s.setSR t e d (f (s.sR t e a))).setEng t e ((s.engAt t e).past 3) := by
  refine h.issue_writes (SlotOp.Alone.passes ⟨rfl, nodup_wrS d, rfl⟩ (fun _ => rfl) s t) rfl rfl fun cur => ?_
  simp only [slotImm, State.scR, State.racy_sR]

theorem State.Ready.issue_li (d : BitVec 4) (i : BitVec 20) :
    s.issueWord t e 3 [slotLi t e d i] = (s.setSR t e d (i.signExtend 32)).setEng t e ((s.engAt t e).past 3) :=
  h.issue_writes (SlotOp.Alone.passes ⟨rfl, nodup_wrS d, rfl⟩ (fun _ => rfl) s t) rfl rfl fun _ => rfl

theorem State.Ready.issue_lih (d : BitVec 4) {i : BitVec 20} (hi : i.toNat < 4096) :
    s.issueWord t e 3 [slotLih t e d i] = (s.setSR t e d (lih (s.sR t e d) i)).setEng t e ((s.engAt t e).past 3) := by
  have hreserved : i.extractLsb' 12 8 = 0 := by
    refine BitVec.eq_of_toNat_eq ?_
    rw [BitVec.extractLsb'_toNat, Nat.shiftRight_eq_div_pow, Nat.div_eq_of_lt hi]
    rfl
  refine h.issue_writes (SlotOp.Alone.passes ⟨decide_eq_true hreserved, nodup_wrS d, rfl⟩ (fun _ => rfl) s t) rfl rfl fun cur => ?_
  simp only [slotLih, State.scR, State.racy_sR]

theorem State.Ready.issue_rdix (d : BitVec 4) (k : Nat) :
    s.issueWord t e 3 [slotRdix t e d k] = (s.setSR t e d (s.rdix t e k)).setEng t e ((s.engAt t e).past 3) := by
  refine h.issue_writes (SlotOp.Alone.passes ⟨rfl, nodup_wrS d, rfl⟩ (fun _ => rfl) s t) rfl rfl fun cur => ?_
  simp only [slotRdix, State.scR, State.rdix, State.racy_engAt]

theorem State.Ready.issue_nop : s.issueWord t e 3 [{}] = s.setEng t e ((s.engAt t e).past 3) :=
  h.issue_past (by decide) (SlotOp.Alone.passes ⟨rfl, List.nodup_nil, rfl⟩ (fun _ => rfl) s t) rfl rfl rfl rfl (h.notLast (by decide))

end

/-- R124: SC.LIH puts its 12 bits above the low 20 of its register. -/
theorem lih_eq (x : W32) {i : BitVec 20} (hi : i.toNat < 4096) : lih x i = BitVec.ofNat 32 (i.toNat * 2 ^ 20 + x.toNat % 2 ^ 20) := by
  have hlow : x.toNat % 2 ^ 20 < 2 ^ 20 := Nat.mod_lt _ (by decide)
  have hword : i.toNat * 2 ^ 20 + x.toNat % 2 ^ 20 < 2 ^ 32 := by omega
  refine BitVec.eq_of_toNat_eq ?_
  rw [lih, BitVec.toNat_append, BitVec.extractLsb'_toNat, BitVec.extractLsb'_toNat, BitVec.toNat_ofNat, Nat.shiftRight_zero, Nat.shiftRight_zero,
    Nat.mod_eq_of_lt hi, ← Nat.shiftLeft_add_eq_or_of_lt hlow, Nat.shiftLeft_eq, Nat.mod_eq_of_lt hword]

end Sys2Proof.Machine

open Sys2Proof Sys2Proof.Machine

/-- Settles O4: each instruction is the word of one slot, which passes and puts its value into its register. -/
theorem scalarResults : Obligations.ScalarResults := by
  unfold Obligations.ScalarResults
  refine ⟨fun s t e d a b h => ?_, fun s t e d a imm i k h => ?_⟩
  · have his : ∀ f : W32 → W32 → W32, (.next (s.issueWord t e 3 [slotAlu t e d a b f]) : Ans)
        = .next ((s.setSR t e d (f (s.sR t e a) (s.sR t e b))).setEng t e ((s.engAt t e).past 3)) :=
      fun f => congrArg Host.Outcome.next (h.issue_alu d a b f)
    have hflag : ∀ p : Prop, [Decidable p] → flagW (decide p) = if p then 1 else 0 := fun p _ => by simp [flagW]
    refine ⟨his _, his _, his _, his _, his _, his _, his _, his _, (his _).trans ?_, (his _).trans ?_, his _⟩
    · rw [BitVec.slt, hflag]
    · rw [BitVec.ult, hflag]
  · have his : ∀ {o : SlotOp} {v v' : W32}, s.issueWord t e 3 [o] = (s.setSR t e d v).setEng t e ((s.engAt t e).past 3) → v = v' →
        (.next (s.issueWord t e 3 [o]) : Ans) = .next ((s.setSR t e d v').setEng t e ((s.engAt t e).past 3)) :=
      fun hword hv => hv ▸ congrArg Host.Outcome.next hword
    refine ⟨his (h.issue_imm d a _) rfl, his (h.issue_imm d a _) rfl, his (h.issue_li d i) rfl, fun hi => his (h.issue_lih d hi) (lih_eq _ hi),
      his (h.issue_rdix d k.toNat) ?_, congrArg Host.Outcome.next h.issue_nop⟩
    unfold State.rdix
    cases (s.engAt t e).loops[k.toNat]? with
    | none => rfl
    | some l => exact BitVec.ofNat_toNat 32 l.index

end

/-! ## Scalar accesses of the scratchpad (R124, R126, R205) -/

section
namespace Sys2Proof.Machine

theorem State.racy_quarHeld (s : State) (t u : TileId) (r : Reader) (a n : Nat) : (s.racy t r).quarHeld u a n = s.quarHeld u a n := by
  rw [State.racy_frame]
  rfl

section
variable {s : State} {t : TileId} {e : EngId} {a : BitVec 4} {imm : W16}

theorem scAddr_good {x : W32} (halign : (x + imm.signExtend 32).toNat % 4 = 0) (hin : (x + imm.signExtend 32).toNat < 262144) :
    scAddr x imm = some (x + imm.signExtend 32).toNat := if_pos ⟨halign, hin⟩

theorem scAddr_bad {x : W32} (hbad : (x + imm.signExtend 32).toNat % 4 ≠ 0 ∨ 262144 ≤ (x + imm.signExtend 32).toNat) : scAddr x imm = none :=
  if_neg fun hgood => hbad.elim (fun hodd => hodd hgood.1) (Nat.not_le.2 hgood.2)

/-- R126: an address that is not a word of the scratchpad fails either access, in whatever state. -/
theorem State.lwCheck_bad (haddr : scAddr (s.sR t e a) imm = none) : s.lwCheck t e a imm = .fault 0x3B := by rw [State.lwCheck, haddr]

theorem State.swCheck_bad (haddr : scAddr (s.sR t e a) imm = none) : s.swCheck t e a imm = .fault 0x3B := by rw [State.swCheck, haddr]

section
variable {v : Nat} (haddr : scAddr (s.sR t e a) imm = some v) (hquar : s.quarHeld t v 4 = false)
include haddr hquar

theorem State.swCheck_ok : s.swCheck t e a imm = .ok := by
  simp only [State.swCheck, haddr, hquar, Bool.false_eq_true, if_false]

theorem State.lwCheck_eq : s.lwCheck t e a imm = if s.spadP t (v / 64) then .poison .spad v else .ok := by
  simp only [State.lwCheck, haddr, hquar, Bool.false_eq_true, if_false]

theorem State.lwCheck_ne_wait : s.lwCheck t e a imm ≠ .wait := by
  rw [State.lwCheck_eq haddr hquar]
  split <;> exact Verdict.noConfusion

variable (h : s.Ready t e 3) (d : BitVec 4)
include h

/-- R124: SC.LW, at an address that nothing holds, of a line that is not poison. -/
theorem State.Ready.issue_lw (hclean : (s.racy t .other).spadP t (v / 64) = false) : s.issueWord t e 3 [slotLw t e d a imm]
    = (s.setSR t e d ((s.racy t .other).spadW t v)).setEng t e ((s.engAt t e).past 3) := by
  have hseen : scAddr ((s.racy t .other).sR t e a) imm = some v := by rw [State.racy_sR, haddr]
  have hcheck : (s.racy t .other).lwCheck t e a imm = .ok := by
    rw [State.lwCheck_eq hseen ((s.racy_quarHeld ..).trans hquar), hclean]
    exact if_neg Bool.false_ne_true
  refine h.issue_writes ⟨⟨rfl, nodup_wrS d, rfl⟩, State.lwCheck_ne_wait haddr hquar, hcheck⟩ rfl rfl fun cur => ?_
  simp only [slotLw, State.scR, hseen]

/-- R124: SC.SW writes four bytes. -/
theorem State.Ready.issue_sw : s.issueWord t e 3 [slotSw t e d a imm]
    = (s.setSpadBytes t v (natLe 4 (s.sR t e d).toNat)).setEng t e ((s.engAt t e).past 3) := by
  have hseen : scAddr ((s.racy t .other).sR t e a) imm = some v := by rw [State.racy_sR, haddr]
  have hcheck : s.swCheck t e a imm = .ok := State.swCheck_ok haddr hquar
  refine h.issue_past (by decide) ⟨⟨rfl, List.nodup_nil, rfl⟩, hcheck.trans_ne Verdict.noConfusion,
    State.swCheck_ok hseen ((s.racy_quarHeld ..).trans hquar)⟩ rfl rfl (u := s.setSpadBytes t v (natLe 4 (s.sR t e d).toNat)) ?_ rfl
    (h.notLast (by decide))
  simp only [slotSw, State.racy_sR, haddr]
  rfl

end

/-- R126: neither access issues where its address is not a word of the scratchpad. -/
theorem State.Ready.issue_badAddr (h : s.Ready t e 3) {o : SlotOp} (ho : o.Alone)
    (hcheck : ∀ u : State, scAddr (u.sR t e a) imm = none → o.check u = .fault 0x3B) (haddr : scAddr (s.sR t e a) imm = none) :
    s.issueWord t e 3 [o] = s.engFault t e 0x3B :=
  h.issue_faults (by decide) ho ((hcheck s haddr).trans_ne Verdict.noConfusion) (hcheck _ (by rw [State.racy_sR, haddr]))

end

end Sys2Proof.Machine

open Sys2Proof Sys2Proof.Machine

/-- Settles O5: an address that is a word of the scratchpad passes the checks of its access; any other fails them with STREAM_OPERAND. -/
theorem scalarMemory : Obligations.ScalarMemory := by
  unfold Obligations.ScalarMemory
  refine ⟨fun s t e d a imm h halign hin hquar => ?_, fun s t e d a imm h hbad => ?_⟩
  · have haddr := scAddr_good halign hin
    exact ⟨fun hclean => congrArg Host.Outcome.next (State.Ready.issue_lw haddr hquar h d hclean),
      congrArg Host.Outcome.next (State.Ready.issue_sw haddr hquar h d)⟩
  · have haddr := scAddr_bad hbad
    exact ⟨congrArg Host.Outcome.next (h.issue_badAddr (o := slotLw t e d a imm) ⟨rfl, nodup_wrS d, rfl⟩ (fun _ => State.lwCheck_bad) haddr),
      congrArg Host.Outcome.next (h.issue_badAddr (o := slotSw t e d a imm) ⟨rfl, List.nodup_nil, rfl⟩ (fun _ => State.swCheck_bad) haddr)⟩

end

/-! ## Control flow (R113, R125, R129, R130, R141) -/

section
namespace Sys2Proof.Machine

section
variable {s : State} {t : TileId} {e : EngId} {off : W16} {taken : State → Bool}

/-- R125: outside every loop the target alone decides. -/
theorem State.branchCheck_outside (p : Nat) (hloops : (s.engAt t e).loops = []) :
    s.branchCheck t e p off = if 0 ≤ (p : Int) + off.toInt ∧ (p : Int) + off.toInt < 8192 then .ok else .fault 0x39 := by
  unfold State.branchCheck branchTo
  dsimp only
  split_ifs
  · simp [hloops]
  · rfl

/-- R125: a branch reads what writes under way at the scratchpad do not touch. -/
theorem slotBranch_check_racy (hsame : taken (s.racy t .other) = taken s) :
    (slotBranch t e off taken).check (s.racy t .other) = (slotBranch t e off taken).check s := by
  simp only [slotBranch, hsame, State.racy_pcOf, State.branchCheck, State.racy_engAt]

theorem slotBranch_alone : (slotBranch t e off taken).Alone := ⟨rfl, List.nodup_nil, rfl⟩

section
variable (h : s.Ready t e 3) (hsame : taken (s.racy t .other) = taken s)
include h hsame

theorem State.Ready.issue_notTaken (htaken : taken s = false) :
    s.issueWord t e 3 [slotBranch t e off taken] = s.setEng t e ((s.engAt t e).past 3) := by
  have hcheck : (slotBranch t e off taken).check s = .ok := if_neg (by rw [htaken]; exact Bool.false_ne_true)
  exact h.issue_past (by decide) ⟨slotBranch_alone, hcheck.trans_ne Verdict.noConfusion, (slotBranch_check_racy hsame).trans hcheck⟩
    (if_neg (by rw [htaken]; exact Bool.false_ne_true)) rfl rfl rfl (h.notLast (by decide))

variable (htaken : taken s = true) (hloops : (s.engAt t e).loops = [])
include htaken hloops

theorem State.Ready.issue_taken (hlow : 0 ≤ (s.pcOf t e : Int) + off.toInt) (hhigh : (s.pcOf t e : Int) + off.toInt < 8192) :
    s.issueWord t e 3 [slotBranch t e off taken]
      = s.setEng t e { (s.engAt t e).issuing with pc := BitVec.ofInt 14 ((s.pcOf t e : Int) + off.toInt) } := by
  have hcheck : (slotBranch t e off taken).check s = .ok :=
    (if_pos htaken).trans ((State.branchCheck_outside _ hloops).trans (if_pos ⟨hlow, hhigh⟩))
  have hgoto : (slotBranch t e off taken).goto s = some ((s.pcOf t e : Int) + off.toInt).toNat := (if_pos htaken).trans (if_pos ⟨hlow, hhigh⟩)
  have hpc : BitVec.ofInt 14 ((s.pcOf t e : Int) + off.toInt) = BitVec.ofNat 14 ((s.pcOf t e : Int) + off.toInt).toNat := by
    rw [← BitVec.ofInt_natCast, Int.toNat_of_nonneg hlow]
  rw [hpc]
  exact h.issue_goto (by decide) ⟨slotBranch_alone, hcheck.trans_ne Verdict.noConfusion, (slotBranch_check_racy hsame).trans hcheck⟩ hgoto rfl

theorem State.Ready.issue_outside (hout : (s.pcOf t e : Int) + off.toInt < 0 ∨ 8192 ≤ (s.pcOf t e : Int) + off.toInt) :
    s.issueWord t e 3 [slotBranch t e off taken] = s.engFault t e 0x39 := by
  have hcheck : (slotBranch t e off taken).check s = .fault 0x39 :=
    (if_pos htaken).trans ((State.branchCheck_outside _ hloops).trans (if_neg (by omega)))
  exact h.issue_faults (by decide) slotBranch_alone (hcheck.trans_ne Verdict.noConfusion) ((slotBranch_check_racy hsame).trans hcheck)

end
end

/-! ### Loops (R129, R130) -/

section
variable {s : State} {t : TileId} {e : EngId} {a : BitVec 4} {n : BitVec 13}

section
variable (h : s.Ready t e 3) (hloops : (s.engAt t e).loops = []) (hbody : 3 ≤ n.toNat) (hcount : (s.sR t e a).toNat ≤ 1048575)
include hloops hbody hcount

/-- R129: outside every loop a body that its word does not pass, and a count that fits, begin a loop. -/
theorem slotLoop_passes : (slotLoop t e 3 a n).Passes s t := by
  have hcheck : ∀ u : State, u.engAt t e = s.engAt t e → u.sR t e a = s.sR t e a → (slotLoop t e 3 a n).check u = .ok := by
    intro u heng hreg
    simp [slotLoop, State.loopCheck, heng, hreg, hloops, Nat.not_lt.2 hcount, Nat.not_lt.2 hbody]
  exact ⟨⟨rfl, List.nodup_nil, rfl⟩, (hcheck s rfl rfl).trans_ne Verdict.noConfusion, hcheck _ (State.racy_engAt ..) (State.racy_sR ..)⟩

include h

/-- R129: LP.BEGIN enters its loop at the next word. -/
theorem State.Ready.issue_loop (hpos : 0 < (s.sR t e a).toNat) : s.issueWord t e 3 [slotLoop t e 3 a n] = s.setEng t e { (s.engAt t e).past 3 with loops :=
    [{ first := BitVec.ofNat 14 (s.pcOf t e + 3), last := BitVec.ofNat 14 (s.pcOf t e + n.toNat), remaining := BitVec.ofNat 20 (s.sR t e a).toNat,
       index := 0 }] } := by
  have hsome : s.sR t e a ≠ 0 := fun hzero => by rw [hzero] at hpos; exact absurd hpos (by decide)
  have hinside := h.inside
  rw [h.issue_engine (by decide) (slotLoop_passes hloops hbody hcount) rfl (if_neg hsome) (o := slotLoop t e 3 a n) (φ := fun g => { g with loops := g.loops
      ++ [{ first := BitVec.ofNat 14 (s.pcOf t e + 3), last := BitVec.ofNat 14 (s.pcOf t e + n.toNat),
            remaining := BitVec.ofNat 20 (s.sR t e a).toNat, index := 0 }] }) ?_ rfl ?_]
  · simp only [Eng.past, Eng.issuing, hloops, List.nil_append]
    rfl
  · intro cur
    simp only [slotLoop, State.loopEnter, State.racy_pcOf, State.racy_sR, if_neg hpos.ne']
  · simp only [Eng.issuing, hloops, List.nil_append, List.mem_singleton, forall_eq, BitVec.toNat_ofNat]
    omega

/-- R130: with a count of 0 it goes past the last word of the body. -/
theorem State.Ready.issue_loopSkipped (hzero : (s.sR t e a).toNat = 0) : s.issueWord t e 3 [slotLoop t e 3 a n] = s.setEng t e
    { (s.engAt t e).issuing with pc := BitVec.ofNat 14 (s.pcOf t e + n.toNat + s.wordLen t e (s.pcOf t e + n.toNat)) } := by
  have hskip : (slotLoop t e 3 a n).skip s = some (s.pcOf t e + n.toNat) := if_pos (BitVec.eq_of_toNat_eq hzero)
  have happly : (slotLoop t e 3 a n).apply (s.racy t .other) (s.issuing t e) = s.issuing t e := by
    simp only [slotLoop, State.loopEnter, State.racy_sR, hzero, if_true]
  have hgoto : (slotLoop t e 3 a n).goto s = none := rfl
  have hrun : (s.engAt t e).issuing.st = .run := rfl
  have hnext : ∀ q next, (s.engAt t e).issuing.closeAt q next = { (s.engAt t e).issuing with pc := BitVec.ofNat 14 next } :=
    fun q next => Eng.closeAt_past _ q next (by simp [Eng.issuing, hloops])
  simp only [h.issue_one (by decide) (slotLoop_passes hloops hbody hcount), happly, State.advance, List.findSome?, hgoto, hskip]
  simp only [State.issuing, State.engAt_setEng, hnext, s.setEng_setEng_run _ hrun]

end

end

theorem Eng.closeAt_again {g : Eng} {q : Nat} {l : Loop} {r : List Loop} (next : Nat) (hloops : g.loops = r ++ [l]) (hlast : l.last.toNat = q)
    (hmore : 1 < l.remaining.toNat) :
    g.closeAt q next = { g with loops := r ++ [{ l with remaining := l.remaining - 1, index := l.index + 1 }], pc := l.first } := by
  simp [Eng.closeAt, closeLoops, hloops, hlast, hmore]

theorem Eng.closeAt_over {g : Eng} {q : Nat} {l : Loop} {r : List Loop} (next : Nat) (hloops : g.loops = r ++ [l]) (hlast : l.last.toNat = q)
    (hover : l.remaining.toNat ≤ 1) : g.closeAt q next = ({ g with loops := r } : Eng).closeAt q next := by
  simp [Eng.closeAt, closeLoops, hloops, hlast, Nat.not_lt.2 hover]

end Sys2Proof.Machine

open Sys2Proof Sys2Proof.Machine

/-- Settles O6: a branch issues by whether it is taken and where it leads, SC.END, SC.FENCE and LP.BEGIN change their engine alone, and
the innermost loop decides what closes. -/
theorem controlFlow : Obligations.ControlFlow := by
  unfold Obligations.ControlFlow
  refine ⟨fun s t e a b off h hloops => ?_, fun s t e a n h hloops => ⟨?_, ?_, fun hbody hcount => ⟨fun hpos => ?_, fun hzero => ?_⟩⟩,
    fun g q next l r hloops hlast => ⟨Eng.closeAt_again next hloops hlast, Eng.closeAt_over next hloops hlast⟩⟩
  · have hbr : ∀ (p : Prop) (taken : State → Bool), taken (s.racy t .other) = taken s → (taken s = true ↔ p) →
        (¬p → (.next (s.issueWord t e 3 [slotBranch t e off taken]) : Ans) = .next (s.setEng t e ((s.engAt t e).past 3)))
        ∧ (p → 0 ≤ (s.pcOf t e : Int) + off.toInt → (s.pcOf t e : Int) + off.toInt < 8192 → (.next (s.issueWord t e 3 [slotBranch t e off taken]) : Ans)
            = .next (s.setEng t e { (s.engAt t e).issuing with pc := BitVec.ofInt 14 ((s.pcOf t e : Int) + off.toInt) }))
        ∧ (p → ((s.pcOf t e : Int) + off.toInt < 0 ∨ 8192 ≤ (s.pcOf t e : Int) + off.toInt) →
            (.next (s.issueWord t e 3 [slotBranch t e off taken]) : Ans) = .next (s.engFault t e 0x39)) :=
      fun p taken hsame htaken =>
        ⟨fun hnot => congrArg Host.Outcome.next (h.issue_notTaken hsame (Bool.eq_false_iff.2 fun ht => hnot (htaken.1 ht))),
          fun hp hlow hhigh => congrArg Host.Outcome.next (h.issue_taken hsame (htaken.2 hp) hloops hlow hhigh),
          fun hp hout => congrArg Host.Outcome.next (h.issue_outside hsame (htaken.2 hp) hloops hout)⟩
    have hregs : ∀ f : W32 → W32 → Bool, f ((s.racy t .other).sR t e a) ((s.racy t .other).sR t e b) = f (s.sR t e a) (s.sR t e b) :=
      fun f => by rw [State.racy_sR, State.racy_sR]
    exact ⟨hbr _ _ (hregs (· == ·)) (by simp), hbr _ _ (hregs (· != ·)) (by simp), hbr _ _ (hregs BitVec.slt) (by simp [BitVec.slt]),
      hbr _ _ (hregs fun u v => !u.slt v) (by simp [BitVec.slt]), hbr _ (fun _ => true) rfl (by simp)⟩
  · exact congrArg Host.Outcome.next (h.issue_engine (o := slotEnd t e) (by decide) (fun g => { g with ending := true })
      (SlotOp.Alone.passes ⟨rfl, List.nodup_nil, rfl⟩ (fun _ => rfl) s t) rfl rfl (fun _ => rfl) rfl (h.notLast (by decide)))
  · exact congrArg Host.Outcome.next (h.issue_engine (o := slotFence t e) (by decide) (fun g => { g with fence := some g.seq })
      (SlotOp.Alone.passes ⟨rfl, List.nodup_nil, rfl⟩ (fun _ => rfl) s t) rfl rfl (fun _ => rfl) rfl (h.notLast (by decide)))
  · exact congrArg Host.Outcome.next (h.issue_loop hloops hbody hcount hpos)
  · exact congrArg Host.Outcome.next (h.issue_loopSkipped hloops hbody hcount hzero)

end

/-! ## Generator words and semaphores (R134, R137 to R140) -/

section
namespace Sys2Proof.Machine

theorem and_low24 (x : W32) : x &&& 0xFFFFFF = BitVec.ofNat 32 (x.toNat % 2 ^ 24) := by
  refine BitVec.eq_of_toNat_eq ?_
  rw [BitVec.toNat_and, BitVec.toNat_ofNat, Nat.mod_eq_of_lt (by omega)]
  exact Nat.and_two_pow_sub_one_eq_mod x.toNat 24

theorem State.setReg_setEng (s : State) (t : TileId) (e : EngId) (g : Eng) (a : Nat) (w : W32) :
    (s.setEng t e g).setReg a w = (s.setReg a w).setEng t e g := by
  unfold State.setReg State.setEng
  rfl

theorem State.setTr_setEng (s : State) (t : TileId) (e : EngId) (g : Eng) (u : TileId) (o : Nat) (w : W32) :
    (s.setEng t e g).setTr u o w = (s.setTr u o w).setEng t e g := s.setReg_setEng t e g _ w

/-- R134: AG.SET of a generator and a word that exist. -/
theorem State.Ready.issue_agSet {s : State} {t : TileId} {e : EngId} {g : BitVec 3} {w : BitVec 3} (h : s.Ready t e 3) (hg : g ≠ 0) (hw : w.toNat ≤ 4)
    (a : BitVec 4) (c : BitVec 2) : s.issueWord t e 3 [slotAg t e a g c w]
      = (s.agSetOp t e g.toNat c.toNat w.toNat (s.sR t e a)).setEng t e ((s.engAt t e).past 3) := by
  have hlegal : (slotAg t e a g c w).legal = true :=
    (Bool.and_eq_true _ _).mpr ⟨decide_eq_true hg, decide_eq_true hw⟩
  have happly : (slotAg t e a g c w).apply (s.racy t .other) (s.issuing t e)
      = (s.agSetOp t e g.toNat c.toNat w.toNat (s.sR t e a)).setEng t e (s.engAt t e).issuing := by
    simp only [slotAg, State.racy_sR, State.agSetOp, State.issuing, State.setTr_setEng]
  exact h.issue_past (by decide) (SlotOp.Alone.passes ⟨hlegal, List.nodup_nil, rfl⟩ (fun _ => rfl) s t) rfl rfl happly rfl (h.notLast (by decide))

/-! ### Semaphores -/

theorem State.engAt_setSem (s : State) (t : TileId) (n : SemId) (v : Nat) (u : TileId) (e : EngId) : (s.setSem t n v).engAt u e = s.engAt u e := by
  rw [State.engAt, State.engAt, State.setSem, State.setTr, State.setReg_eng]

/-- R136: a semaphore holds a number that fits it. -/
theorem State.semVal_setSem (s : State) (t : TileId) (n : SemId) {v : Nat} (hv : v ≤ 65535) : (s.setSem t n v).semVal t n = v := by
  rw [State.semVal, State.setSem, State.tr_setTr]
  simp only [fld, bits, BitVec.toNat_ofNat]
  omega

theorem State.semVal_setTr_other (s : State) (t : TileId) (n : SemId) {o : Nat} (w : W32) (ho : 0x140 ≤ o) : (s.setTr t o w).semVal t n = s.semVal t n := by
  have hn := n.isLt
  rw [State.semVal, State.semVal, State.tr, State.tr, State.setTr, State.reg_setReg_other s w (by omega)]

section
variable {s : State} {t : TileId} {e : EngId} {n : SemId} {k : Byte} (h : s.Ready t e 3) (hk : k ≠ 0) (hfirst : (s.engAt t e).waited = none)

/-- R137: a word's one wait is met where the semaphore, as its engine is tested, has reached the count. -/
theorem State.met_wait (s : State) (t : TileId) (e : EngId) (n : SemId) (k : Byte) :
    s.met t e [slotWait n k] = decide (k.toNat ≤ s.semLeft t e n) := by
  simp [State.met, waitsOf, slotWait, needOf]

theorem wordOk_wait (hk : k ≠ 0) : wordOk [slotWait n k] = true := wordOk_one (decide_eq_true hk) List.nodup_nil

include h hk hfirst

theorem State.Ready.issue_wait (hmet : k.toNat ≤ s.semLeft t e n) : s.issueWord t e 3 [slotWait n k]
    = (s.setSem t n (s.semVal t n - k.toNat)).setEng t e ((s.engAt t e).past 3) := by
  have hcheck : ∀ u : State, (slotWait n k).check u = .ok := fun _ => rfl
  rw [h.issueWord_tried, h.tryWord_issues (by decide) (wordOk_wait hk) ((s.met_wait t e n k).trans (decide_eq_true hmet))
    (unitWait_eq_false (by simp [hcheck])) (firstBad_eq_none (by simp [hcheck]))]
  have hrun : (s.engAt t e).issuing.st = .run := rfl
  have hnext : (s.engAt t e).issuing.closeAt (s.pcOf t e) (s.pcOf t e + 3) = (s.engAt t e).past 3 :=
    Eng.closeAt_past _ _ _ (h.notLast (by decide))
  have hrecords : s.waitRecords t e (s.engAt t e).waited [slotWait n k] = s := by rw [hfirst]; rfl
  have hwait : (s.waitRecords t e (s.engAt t e).waited [slotWait n k]).consume t [slotWait n k] = s.setSem t n (s.semVal t n - k.toNat) := by
    rw [hrecords]
    rfl
  rw [h.issueSlots_one hwait (s.engAt_setSem ..)]
  simp only [State.advance, List.findSome?, slotWait, State.engAt_setEng, hnext, State.setEng_setEng_run _ _ hrun]

theorem State.Ready.waits_for (hunmet : s.semLeft t e n < k.toNat) : s.issueWord t e 3 [slotWait n k]
    = s.setEng t e { s.engAt t e with st := .wait, waited := some 0, waitUnit := false, waits := [(n, k)] } := by
  rw [h.issueWord_tried, h.tryWord_waits (by decide) (wordOk_wait hk) ((s.met_wait t e n k).trans (decide_eq_false (Nat.not_le.2 hunmet)))]
  simp [State.waitOn, waitsOf, slotWait, hfirst]

end

/-- R139: no engine is tested before MXE. -/
theorem State.semLeft_first (s : State) (t : TileId) (n : SemId) : s.semLeft t 0 n = s.semVal t n := by
  have hnone : engines.filter (fun x => decide (x < 0)) = [] := by decide
  rw [State.semLeft, hnone, State.afterClaims]

/-! ### Posts -/

section
variable (s : State) {t : TileId} {n : SemId} {k : Nat} (who : W32)

theorem State.addSem_fits (h : s.semVal t n + k ≤ 65535) : s.addSem t n k who = ((s.setPosterW t n.toNat who).setSem t n (s.semVal t n + k), false) :=
  if_pos h

theorem State.addSem_overflows (h : 65535 < s.semVal t n + k) : s.addSem t n k who
    = ((((s.setPosterW t n.toNat who).setSem t n 65535).setTr t 0x144 (setBit ((s.setPosterW t n.toNat who).tr t 0x144) n.toNat true)), true) :=
  if_neg (Nat.not_le.2 h)

theorem State.posterW_setTr (u : TileId) (o : Nat) (w : W32) (i : Nat) : (s.setTr u o w).posterW t i = s.posterW t i := by
  rw [State.posterW, State.posterW, State.setTr, State.setReg_poster]

theorem State.posterW_addSem (t : TileId) (n : SemId) (k : Nat) : (s.addSem t n k who).1.posterW t n.toNat = who := by
  by_cases h : s.semVal t n + k ≤ 65535
  · rw [s.addSem_fits who h, State.setSem, State.posterW_setTr, State.posterW_setPosterW]
  · rw [s.addSem_overflows who (Nat.not_le.1 h), State.posterW_setTr, State.setSem, State.posterW_setTr, State.posterW_setPosterW]

end

end Sys2Proof.Machine

open Sys2Proof Sys2Proof.Machine

/-- Settles O7: the slot writes the low 24 bits of its register. -/
theorem generatorWordSet : Obligations.GeneratorWordSet := by
  unfold Obligations.GeneratorWordSet
  intro s t e a g c w h hg hw
  refine congrArg Host.Outcome.next ((h.issue_agSet hg hw a c).trans ?_)
  rw [State.agSetOp, and_low24]

/-- Settles O8: the value that `semLeft` leaves an engine decides its wait, and the sum with the value decides a post. -/
theorem semaphores : Obligations.Semaphores := by
  unfold Obligations.Semaphores
  refine ⟨fun s t e n k h hk hfirst => ⟨fun hmet => congrArg Host.Outcome.next (h.issue_wait hk hfirst hmet),
    fun hunmet => congrArg Host.Outcome.next (h.waits_for hk hfirst hunmet), s.semLeft_first t n⟩,
    fun s t n k who => ⟨fun hfit => ?_, fun hover => ?_, fun hover => ?_, s.posterW_addSem who t n k⟩⟩
  · rw [s.addSem_fits who hfit]
    exact ⟨rfl, State.semVal_setSem _ t n hfit⟩
  · rw [s.addSem_overflows who hover]
    exact ⟨rfl, (State.semVal_setTr_other _ t n _ (by decide)).trans (State.semVal_setSem _ t n le_rfl)⟩
  · rw [s.addSem_overflows who hover, State.tr_setTr]
    exact bit_setBit_same _ (by omega) true
end

/-! ## Posts and signals (R141 to R143, R335, R336, R340) -/

section
namespace Sys2Proof.Machine

/-! ### Their issue -/

section
variable (s : State) (m : Sparse Byte) (b : Sparse Bool)

theorem State.withSpad_rpostTo (t a) : (s.withSpad m b).rpostTo t a = s.rpostTo t a := (rfl)
theorem State.withSpad_evtCheck (t h) : (s.withSpad m b).evtCheck t h = s.evtCheck t h := (rfl)
theorem State.withSpad_tlCheck (t h) : (s.withSpad m b).tlCheck t h = s.tlCheck t h := (rfl)

variable (t u : TileId) (r : Reader)

theorem State.racy_rpostTo (a : W32) : (s.racy t r).rpostTo u a = s.rpostTo u a := by rw [State.racy_withSpad, State.withSpad_rpostTo]
theorem State.racy_evtCheck (h : W32) : (s.racy t r).evtCheck u h = s.evtCheck u h := by rw [State.racy_withSpad, State.withSpad_evtCheck]
theorem State.racy_tlCheck (h : W32) : (s.racy t r).tlCheck u h = s.tlCheck u h := by rw [State.racy_withSpad, State.withSpad_tlCheck]

end

section
variable {s : State} {t : TileId} {e : EngId} (h : s.Ready t e 3)
include h

/-- R141: a post or signal that issues waits behind what waits already, for the operations its engine has issued. -/
theorem State.Ready.issue_pends {o : SlotOp} (ho : o.Passes s t) (hgoto : o.goto s = none) (hskip : o.skip s = none) {x : PendKind}
    (happly : ∀ cur, o.apply (s.racy t .other) cur = cur.pendOp t e x) : s.issueWord t e 3 [o] = s.setEng t e
      { (s.engAt t e).past 3 with pend := (s.engAt t e).pend ++ [{ seq := (s.engAt t e).seq, kind := x }] } :=
  h.issue_engine (by decide) (fun g => { g with pend := g.pend ++ [{ seq := g.seq, kind := x }] }) ho hgoto hskip happly rfl (h.notLast (by decide))

theorem State.Ready.issue_post {k : Byte} (hk : k ≠ 0) (n : SemId) : s.issueWord t e 3 [slotPost t e n k] = s.setEng t e
    { (s.engAt t e).past 3 with pend := (s.engAt t e).pend ++ [{ seq := (s.engAt t e).seq, kind := .post n k }] } :=
  h.issue_pends (SlotOp.Alone.passes ⟨decide_eq_true hk, List.nodup_nil, rfl⟩ (fun _ => rfl) s t) rfl rfl fun _ => rfl

theorem State.Ready.issue_rpost {k : Byte} (hk : k ≠ 0) (n : SemId) {a : BitVec 4} {d : TileId} (hd : s.rpostTo t (s.sR t e a) = some d) :
    s.issueWord t e 3 [slotRpost t e n k a] = s.setEng t e
      { (s.engAt t e).past 3 with pend := (s.engAt t e).pend ++ [{ seq := (s.engAt t e).seq, kind := .rpost d n k }] } := by
  have hseen : (s.racy t .other).rpostTo t ((s.racy t .other).sR t e a) = some d := by rw [State.racy_rpostTo, State.racy_sR, hd]
  have hcheck : ∀ u : State, u.rpostTo t (u.sR t e a) = some d → (slotRpost t e n k a).check u = .ok := fun u hu => by simp only [slotRpost, hu]
  refine h.issue_pends ⟨⟨decide_eq_true hk, List.nodup_nil, rfl⟩, (hcheck s hd).trans_ne Verdict.noConfusion, hcheck _ hseen⟩ rfl rfl fun cur => ?_
  simp only [slotRpost, hseen]

theorem State.Ready.issue_evt {a : BitVec 4} (hcheck : s.evtCheck t (s.sR t e a) = .ok) : s.issueWord t e 3 [slotEvt t e a] = s.setEng t e
    { (s.engAt t e).past 3 with pend := (s.engAt t e).pend ++ [{ seq := (s.engAt t e).seq, kind := .evt (s.sR t e a) }] } := by
  refine h.issue_pends ⟨⟨rfl, List.nodup_nil, rfl⟩, hcheck.trans_ne Verdict.noConfusion, ?_⟩ rfl rfl fun cur => ?_
  · exact (State.racy_evtCheck ..).trans (by rw [State.racy_sR, hcheck])
  · simp only [slotEvt, State.racy_sR]

theorem State.Ready.issue_tl {a b : BitVec 4} (hlow : 1 ≤ b.toNat) (hhigh : b.toNat ≤ 14) (hcheck : s.tlCheck t (s.sR t e a) = .ok) :
    s.issueWord t e 3 [slotTl t e a b] = s.setEng t e { (s.engAt t e).past 3 with pend := (s.engAt t e).pend
      ++ [{ seq := (s.engAt t e).seq, kind := .tl (s.sR t e a) (s.sR t e (b + 1) ++ s.sR t e b) }] } := by
  have hlegal : (slotTl t e a b).legal = true := (Bool.and_eq_true _ _).mpr ⟨decide_eq_true hlow, decide_eq_true hhigh⟩
  refine h.issue_pends ⟨⟨hlegal, List.nodup_nil, rfl⟩, hcheck.trans_ne Verdict.noConfusion, ?_⟩ rfl rfl fun cur => ?_
  · exact (State.racy_tlCheck ..).trans (by rw [State.racy_sR, hcheck])
  · simp only [slotTl, State.racy_sR]

end

/-! ### Their effect, in the order of their issue -/

/-- Of an engine's waiting posts and signals the first that `p` chooses stands behind those it does not choose. -/
theorem firstPend_append {p : PendKind → Bool} {m l : List Pend} {x : Pend} (hm : ∀ y ∈ m, p y.kind = false) (hx : p x.kind = true) :
    firstPend p (m ++ x :: l) = some (x, m ++ l) := by
  induction m with
  | nil => exact if_pos hx
  | cons y m ih =>
    obtain ⟨hy, hm⟩ := List.forall_mem_cons.1 hm
    simp [firstPend, hy, ih hm]

/-- R141, R142: a post takes effect or sets out, with `l` left waiting. -/
def State.postGoes (s : State) (t : TileId) (e : EngId) (l : List Pend) (k : PendKind) : State :=
  let s := s.setEng t e { s.engAt t e with pend := l }
  match k with
  | .post n k => (s.post t n k.toNat (posterCode 1 e.toNat) t e).settle t
  | .rpost d n k => (s.sendPost t d { sem := n, n := k.toNat, src := t, eng := e }).settle t
  | _ => s

/-- R143, R340: a signal of a tile of partition `p` is sent, with `l` left waiting; what a handle resolves to decides a TL.SIG. -/
def State.signalGoes (s : State) (p : PartId) (t : TileId) (e : EngId) (l : List Pend) (k : PendKind) : State :=
  let g := s.engAt t e
  let s := s.setEng t e { g with pend := l }
  match k with
  | .evt h => ((s.trace t 0x02 e.toNat g.pc.toNat h.toNat).signal p false h 0 false).settle t
  | .tl h v =>
    let s := s.trace t 0x02 e.toNat g.pc.toNat (h.toNat + v.toNat % 2 ^ 32 * 2 ^ 32)
    match s.objResolve p (s.ctxOf t) h [3] (s.launchSeq p t) with
    | .ok o => (if o.remote then s.sendSignal t p o v else s.signal p true h v false).settle t
    | .error _ => s.settle t
  | _ => s

section
variable {s : State} {t : TileId} {e : EngId} {m l : List Pend} {x : Pend} (hpend : (s.engAt t e).pend = m ++ x :: l)
include hpend

/-- R141, R142: the oldest post goes, whatever signals stand before it, once the operations before it have completed. -/
theorem State.postNow_oldest (hm : ∀ y ∈ m, (∃ h, y.kind = .evt h) ∨ ∃ h v, y.kind = .tl h v)
    (hx : (∃ n k, x.kind = .post n k) ∨ ∃ d n k, x.kind = .rpost d n k) :
    s.postNow t e = if s.doneBelow t e x.seq = true then s.postGoes t e (m ++ l) x.kind else s := by
  unfold State.postNow
  dsimp only
  rw [hpend, firstPend_append]
  · dsimp only
    cases s.doneBelow t e x.seq <;> rfl
  · intro y hy
    obtain ⟨h, hkind⟩ | ⟨h, v, hkind⟩ := hm y hy <;> rw [hkind]
  · obtain ⟨n, k, hkind⟩ | ⟨d, n, k, hkind⟩ := hx <;> rw [hkind]

/-- R143: so does the oldest signal, whatever posts stand before it. -/
theorem State.signalNow_oldest {p : PartId} (hm : ∀ y ∈ m, (∃ n k, y.kind = .post n k) ∨ ∃ d n k, y.kind = .rpost d n k)
    (hx : (∃ h, x.kind = .evt h) ∨ ∃ h v, x.kind = .tl h v) (hpart : s.partOf t = some p) :
    s.signalNow t e = if s.doneBelow t e x.seq = true then s.signalGoes p t e (m ++ l) x.kind else s := by
  have hmoved : ∀ g : Eng, (s.setEng t e g).partOf t = some p := fun g => by
    rw [← hpart, State.partOf, State.partOf, State.partOfCol, State.partOfCol, State.setEng_part]
  unfold State.signalNow
  dsimp only
  rw [hpend, firstPend_append]
  · simp only [hmoved]
    cases s.doneBelow t e x.seq <;> rfl
  · intro y hy
    obtain ⟨n, k, hkind⟩ | ⟨d, n, k, hkind⟩ := hm y hy <;> rw [hkind]
  · obtain ⟨h, hkind⟩ | ⟨h, v, hkind⟩ := hx <;> rw [hkind]

end

/-- R142: a post that has reached its tile adds to the semaphore. -/
theorem State.remotePostArrival_takes {s : State} {t : TileId} {y : RPost} {r : List RPost} (hposts : (s.tileAt t).rposts = y :: r) (hruns : s.runs t = true) :
    exec (.remotePostArrival t) s
      = .next ((s.setTile t { s.tileAt t with rposts := r }).post t y.sem y.n (posterCode 2 y.src.toNat) y.src y.eng) := by
  have harrived : s.bringPost t = s := s.bringPost_arrived t (by rw [hposts]; exact List.cons_ne_nil _ _)
  show execRemotePostArrival t s = _
  simp only [execRemotePostArrival, harrived, hruns, if_true, State.rpostArrive, hposts]

end Sys2Proof.Machine

open Sys2Proof Sys2Proof.Machine

/-- Settles O9: a post or signal that issues enters its engine's list, of which the first post and the first signal go once `doneBelow` allows it. -/
theorem postsAndSignals : Obligations.PostsAndSignals := by
  unfold Obligations.PostsAndSignals
  refine ⟨fun s t e n k a b h => ⟨fun hk => congrArg Host.Outcome.next (h.issue_post hk n), fun hk d hd => congrArg Host.Outcome.next (h.issue_rpost hk n hd),
    fun hcheck => congrArg Host.Outcome.next (h.issue_evt hcheck), fun hlow hhigh hcheck => congrArg Host.Outcome.next (h.issue_tl hlow hhigh hcheck)⟩,
    fun s t e m l x hpend => ?_, fun s t y r hposts hruns => State.remotePostArrival_takes hposts hruns, fun s t e p m l x hpend hm hpart => ?_⟩
  · intro g s1 hm
    have hgoes : ∀ hx, s.doneBelow t e x.seq = true → exec (.postTakesEffect t e) s = .next (s.postGoes t e (m ++ l) x.kind) :=
      fun hx hdone => congrArg Host.Outcome.next ((State.postNow_oldest hpend hm hx).trans (if_pos hdone))
    have hheld : ∀ hx, s.doneBelow t e x.seq = false → exec (.postTakesEffect t e) s = .next s :=
      fun hx hdone => congrArg Host.Outcome.next ((State.postNow_oldest hpend hm hx).trans (if_neg (by rw [hdone]; exact Bool.false_ne_true)))
    refine ⟨fun n k hx => ⟨fun hdone => ?_, hheld (.inl ⟨n, k, hx⟩)⟩, fun d n k hx => ⟨fun hdone => ?_, hheld (.inr ⟨d, n, k, hx⟩)⟩⟩
    · rw [hgoes (.inl ⟨n, k, hx⟩) hdone, hx]
      rfl
    · rw [hgoes (.inr ⟨d, n, k, hx⟩) hdone, hx]
      rfl
  · intro g s1
    have hgoes : ∀ hx, s.doneBelow t e x.seq = true → exec (.engineSignalSend t e) s = .next (s.signalGoes p t e (m ++ l) x.kind) :=
      fun hx hdone => congrArg Host.Outcome.next ((State.signalNow_oldest hpend hm hx hpart).trans (if_pos hdone))
    refine ⟨fun hdone => ⟨fun h hx => ?_, fun h v hx => ?_⟩, fun hdone hx =>
      congrArg Host.Outcome.next ((State.signalNow_oldest hpend hm hx hpart).trans (if_neg (by rw [hdone]; exact Bool.false_ne_true)))⟩
    · rw [hgoes (.inl ⟨h, hx⟩) hdone, hx]
      rfl
    · rw [hgoes (.inr ⟨h, v, hx⟩) hdone, hx]
      intro s2
      have htl : s.signalGoes p t e (m ++ l) (.tl h v) = match s2.objResolve p (s2.ctxOf t) h [3] (s2.launchSeq p t) with
          | .ok o => (if o.remote then s2.sendSignal t p o v else s2.signal p true h v false).settle t
          | .error _ => s2.settle t := rfl
      rw [htl]
      refine ⟨fun o hres hremote => ?_, fun o hres hremote => ?_, fun c hres => ?_⟩ <;> rw [hres]
      · dsimp only
        rw [hremote]
        rfl
      · dsimp only
        rw [hremote]
        rfl
end

/-! ## Programs: their starts and ends, and halted engines (R111 to R113, R215, R242, R443, R456) -/

section
namespace Sys2Proof.Machine

/-! ### Starts -/

section
variable {s : State} {t : TileId} {e : EngId} (pc : BitVec 13)

/-- R111, R215: a start that may be made, at a tile that runs and holds no start back. -/
theorem State.startReq_now {r : Req} (hwriter : s.tileWriter r t .launch = true) (hcol : s.colUp (colonyOf t) = true) (hruns : s.runs t = true)
    (hquar : (s.tileAt t).quar = none) (hrealign : (s.tileAt t).realign = 0) : s.startReq r t e pc = s.startNow t e pc := by
  have hmay : (s.tileWriter r t .launch && s.colUp (colonyOf t)) = true := by rw [hwriter, hcol, Bool.and_true]
  have hfree : ¬ ((s.tileAt t).quar.isSome = true ∨ (s.tileAt t).realign ≠ 0) := by simp [hquar, hrealign]
  refine (if_pos hmay).trans ?_
  simp only [State.startOp, hruns, Bool.not_true, Bool.false_eq_true, if_false, if_neg hfree]

theorem State.startNow_idle (h : (s.engAt t e).st = .idle) : s.startNow t e pc = s.beginProgram t e pc := by
  simp only [State.startNow, h]

/-- R111: a running engine keeps one start pending. -/
theorem State.startNow_pends (h : (s.engAt t e).st = .run ∨ (s.engAt t e).st = .wait) (hnone : (s.engAt t e).pending = none) :
    s.startNow t e pc = s.setEng t e { s.engAt t e with pending := some pc } := by
  obtain h | h := h <;> simp only [State.startNow, h, hnone, Option.isNone_none, if_true]

theorem State.startNow_full (h : (s.engAt t e).st = .run ∨ (s.engAt t e).st = .wait) (hsome : (s.engAt t e).pending ≠ none) :
    s.startNow t e pc = s.setEng t e { s.engAt t e with startRefused := true } := by
  have hfull : (s.engAt t e).pending.isNone = false := Option.isNone_eq_false_iff.2 (Option.isSome_iff_ne_none.2 hsome)
  obtain h | h := h <;> simp only [State.startNow, h, hfull, Bool.false_eq_true, if_false]

theorem State.startNow_refuses (h : (s.engAt t e).st = .stopped ∨ (s.engAt t e).st = .halted ∨ (s.engAt t e).st = .faulted) :
    s.startNow t e pc = s.setEng t e { s.engAt t e with startRefused := true } := by
  obtain h | h | h := h <;> simp only [State.startNow, h]

/-! ### What a program begins with -/

/-- R242: the code of the first valid stop record of the tile's queues, which the MOV engine alone minds. -/
def State.stopCode (s : State) (t : TileId) (e : EngId) : Option Byte :=
  if e = 2 then (List.range 4).findSome? fun q => let x := (s.movq_ t q).stop; if x.valid then some x.code else none else none

theorem State.stopCode_eq_none : s.stopCode t e = none ↔ (e ≠ 2 ∨ ∀ q, q < 4 → (s.movq_ t q).stop.valid = false) := by
  unfold State.stopCode
  split_ifs with h
  · simp [h, List.findSome?_eq_none_iff]
  · exact ⟨fun _ => .inl h, fun _ => rfl⟩

/-- R112: the engine of a program that begins. -/
theorem State.beginProgram_engAt : (s.beginProgram t e pc).engAt t e
    = { s.engAt t e with
        st := if (s.stopCode t e).isSome then .stopped else .run, code := (s.stopCode t e).getD 0, bank := (s.engAt t e).bank != (s.engAt t e).arm,
        arm := false, loops := [], pc := pc.setWidth 14, startPc := pc.setWidth 14, ending := false, fence := none, waitUnit := false, waits := [],
        waited := none, skipBreak := false, stepping := false } := by
  unfold State.beginProgram
  dsimp only
  rw [State.trace_engAt, State.engAt_setEng]
  cases (s.tileAt t).reseed <;> rfl

end

/-! ### Ends -/

/-- R113: the end of a program with no start pending. -/
theorem State.programEnd_ends {s : State} {t : TileId} {e : EngId} (hending : (s.engAt t e).ending = true)
    (hst : (s.engAt t e).st = .run ∨ (s.engAt t e).st = .wait) (hdone : s.oldest t e = none) (hpend : (s.engAt t e).pend = [])
    (hpending : (s.engAt t e).pending = none) :
    let g := s.engAt t e
    let s1 := (s.trace t 0x10 e.toNat g.startPc.toNat 1).setEng t e { g with st := .idle, ending := false, pending := none, fence := none }
    s.programEnd t e = (if bit (s1.tr t (0x40 * e.toNat + 0x0C)) 3 then s1.raiseTile t 16 else s1).closeWindow t := by
  have hend : s.canEnd t e = true := by
    obtain hst | hst := hst <;> simp [State.canEnd, hending, hst, hdone, hpend]
  intro g s1
  simp only [State.programEnd, hend, hpending, Bool.not_true, Bool.false_eq_true, if_false]
  rfl

/-! ### Halted engines -/

theorem each_still {β : Type} {l : List β} {f : State → β → State} (h : ∀ u, ∀ y ∈ l, f u y = u) (s : State) : each s l f = s := by
  induction l with
  | nil => rfl
  | cons y l ih => exact (congrArg (each · l f) (h s y List.mem_cons_self)).trans (ih fun u z hz => h u z (List.mem_cons_of_mem y hz))

/-- Of a list of which `f` minds one element alone. -/
theorem each_only {β : Type} {l m : List β} {f : State → β → State} {x : β} (hl : x ∉ l) (hm : x ∉ m)
    (hother : ∀ u y, y ≠ x → f u y = u) (s : State) : each s (l ++ x :: m) f = f s x := by
  have hstill : ∀ n : List β, x ∉ n → ∀ u, each u n f = u := fun n hn => each_still fun u y hy => hother u y fun hyx => hn (hyx ▸ hy)
  unfold each
  rw [List.foldl_append, List.foldl_cons]
  exact (hstill m hm _).trans (congrArg (f · x) (hstill l hl s))

/-- A mask of one engine names that engine. -/
theorem mask_one (e f : EngId) : (BitVec.ofNat 4 (2 ^ e.toNat)).getLsbD f.toNat = decide (f = e) := by
  revert e f
  decide

theorem engines_split (e : EngId) : ∃ l m, engines = l ++ e :: m ∧ e ∉ l ∧ e ∉ m := by
  have hmem : ∀ e : EngId, e ∈ engines := by decide
  obtain ⟨l, m, hengines⟩ := List.append_of_mem (hmem e)
  have hnodup : (l ++ e :: m).Nodup := hengines ▸ (by decide : engines.Nodup)
  rw [List.nodup_middle, List.nodup_cons, List.mem_append, not_or] at hnodup
  exact ⟨l, m, hengines, hnodup.1⟩

/-- R456: a release or step of a halted engine that no global stop holds. -/
theorem State.unhaltMask_one {s : State} {t : TileId} {e : EngId} (hhalted : (s.engAt t e).st = .halted) (hstop : (s.engAt t e).gstop = false)
    (htile : s.tileStopped t = false) (step : Bool) : s.unhaltMask t (BitVec.ofNat 4 (2 ^ e.toNat)) step
      = s.setEng t e { s.engAt t e with st := (s.engAt t e).before, gstop := false, stepping := step, skipBreak := true } := by
  obtain ⟨l, m, hengines, hl, hm⟩ : ∃ l m, engines = l ++ e :: m ∧ e ∉ l ∧ e ∉ m := engines_split e
  unfold State.unhaltMask
  rw [hengines, each_only hl hm fun u f hf => by simp only [mask_one, decide_eq_false hf, Bool.false_and, Bool.false_eq_true, if_false]]
  simp only [mask_one, hhalted, hstop, htile, State.unhalt, decide_true, Bool.not_false, Bool.and_true, Bool.or_true, if_true]

end Sys2Proof.Machine

open Sys2Proof Sys2Proof.Machine

/-- Settles O11: a start is decided by its engine's state, an end closes what the program left, and a mask of one engine reaches that engine. -/
theorem programStartsAndEnds : Obligations.ProgramStartsAndEnds := by
  unfold Obligations.ProgramStartsAndEnds
  refine ⟨fun s r t e pc hwriter hcol hruns hquar hrealign => ?_, fun s t e hending hst hdone hpend hpending =>
    congrArg Host.Outcome.next (State.programEnd_ends hending hst hdone hpend hpending), fun s r t e hreq hhalted hstop htile => ?_⟩
  · have hstart : exec (.programStart r t e pc) s = .next (s.startNow t e pc) :=
      congrArg Host.Outcome.next (State.startReq_now pc hwriter hcol hruns hquar hrealign)
    intro g free
    rw [hstart]
    refine ⟨fun hidle => ⟨_, congrArg Host.Outcome.next (State.startNow_idle pc hidle), rfl, ?_⟩, fun hbusy => ⟨fun hnone => ?_, fun hsome => ?_⟩,
      fun hstopped => congrArg Host.Outcome.next (State.startNow_refuses pc hstopped)⟩
    · rw [State.beginProgram_engAt]
      refine ⟨rfl, rfl, rfl, rfl, fun hfree => ?_, fun hheld => ?_⟩
      · rw [State.stopCode_eq_none.2 hfree]
        exact ⟨rfl, rfl⟩
      · exact if_pos (Option.isSome_iff_ne_none.2 fun hnone => hheld (State.stopCode_eq_none.1 hnone))
    · exact congrArg Host.Outcome.next (State.startNow_pends pc hbusy hnone)
    · exact congrArg Host.Outcome.next (State.startNow_full pc hbusy hsome)
  · exact ⟨(s.next_onTile _ hreq).trans (congrArg Host.Outcome.next (State.unhaltMask_one hhalted hstop htile false)),
      (s.next_onTile _ hreq).trans (congrArg Host.Outcome.next (State.unhaltMask_one hhalted hstop htile true))⟩

end

/-! ## Words in instruction memory: what they spell (R118 to R124, Tables 5-3, 5-5, 6-2, 6-5, 7-2 to 7-5, 9-3, 4-7) -/

section
namespace Sys2Proof.Machine

/-! ### Fields of words that are written as concatenations -/

section
variable {m n : Nat} (x : BitVec m) (y : BitVec n)

/-- A field that lies in the low part. -/
theorem bits_append_low {hi lo : Nat} (h : hi < n) : bits (x ++ y).toNat hi lo = bits y.toNat hi lo := by
  refine Nat.eq_of_testBit_eq fun i => ?_
  simp only [bits, Nat.testBit_mod_two_pow, Nat.testBit_shiftRight, BitVec.testBit_toNat, BitVec.getLsbD_append]
  by_cases hi' : i < hi + 1 - lo
  · rw [if_pos (by omega)]
  · simp [hi']

/-- A field that lies in the high part. -/
theorem bits_append_high {hi lo : Nat} (h : n ≤ lo) (hle : lo ≤ hi) : bits (x ++ y).toNat hi lo = bits x.toNat (hi - n) (lo - n) := by
  refine Nat.eq_of_testBit_eq fun i => ?_
  simp only [bits, Nat.testBit_mod_two_pow, Nat.testBit_shiftRight, BitVec.testBit_toNat, BitVec.getLsbD_append]
  rw [if_neg (by omega), show hi - n + 1 - (lo - n) = hi + 1 - lo by omega, show lo - n + i = lo + i - n by omega]

/-- The operation code in the low byte. -/
theorem bits_op (k : Byte) : bits (x ++ k).toNat 7 0 = k.toNat :=
  (bits_append_low x k (by decide)).trans (Nat.mod_eq_of_lt k.isLt)

/-- The whole of a word. -/
theorem bits_all {hi : Nat} (h : m = hi + 1) : bits x.toNat hi 0 = x.toNat := by
  subst h
  exact Nat.mod_eq_of_lt x.isLt

theorem testBit_append_low {i : Nat} (h : i < n) : (x ++ y).toNat.testBit i = y.toNat.testBit i := by
  rw [BitVec.testBit_toNat, BitVec.getLsbD_append, if_pos h, BitVec.testBit_toNat]

theorem testBit_append_high {i : Nat} (h : n ≤ i) : (x ++ y).toNat.testBit i = x.toNat.testBit (i - n) := by
  rw [BitVec.testBit_toNat, BitVec.getLsbD_append, if_neg (Nat.not_lt.2 h), BitVec.testBit_toNat]

theorem testBit_ofBool (b : Bool) : (BitVec.ofBool b).toNat.testBit 0 = b := by
  cases b <;> rfl

theorem zero_bits (hi lo : Nat) : bits 0 hi lo = 0 := by
  rw [bits, Nat.zero_shiftRight, Nat.zero_mod]

end

/-! ### Scalar slots (Table 5-5) -/

section
variable (op : Byte)

theorem scR3_fields (d a b : BitVec 4) : bits (scR3 op d a b).toNat 7 0 = op.toNat ∧ bits (scR3 op d a b).toNat 11 8 = d.toNat
    ∧ bits (scR3 op d a b).toNat 15 12 = a.toNat ∧ bits (scR3 op d a b).toNat 19 16 = b.toNat ∧ bits (scR3 op d a b).toNat 31 20 = 0 := by
  simp (disch := decide) only [scR3, bits_append_low, bits_append_high, bits_all, Nat.reduceSub, BitVec.ofNat_eq_ofNat, BitVec.toNat_zero, zero_bits, and_self]

theorem scI_fields (d a : BitVec 4) (imm : W16) : bits (scI op d a imm).toNat 7 0 = op.toNat ∧ bits (scI op d a imm).toNat 11 8 = d.toNat
    ∧ bits (scI op d a imm).toNat 15 12 = a.toNat ∧ bits (scI op d a imm).toNat 31 16 = imm.toNat := by
  simp (disch := decide) only [scI, bits_append_low, bits_append_high, bits_all, Nat.reduceSub, and_self]

theorem scL_fields (d : BitVec 4) (imm : BitVec 20) : bits (scL op d imm).toNat 7 0 = op.toNat ∧ bits (scL op d imm).toNat 11 8 = d.toNat
    ∧ bits (scL op d imm).toNat 31 12 = imm.toNat := by
  simp (disch := decide) only [scL, bits_append_low, bits_append_high, bits_all, Nat.reduceSub, and_self]

theorem scS_fields (n : SemId) (k : Byte) (a : BitVec 4) : bits (scS op n k a).toNat 7 0 = op.toNat ∧ bits (scS op n k a).toNat 11 8 = n.toNat
    ∧ bits (scS op n k a).toNat 19 12 = k.toNat ∧ bits (scS op n k a).toNat 23 20 = a.toNat ∧ bits (scS op n k a).toNat 31 24 = 0 := by
  simp (disch := decide) only [scS, bits_append_low, bits_append_high, bits_all, Nat.reduceSub, BitVec.ofNat_eq_ofNat, BitVec.toNat_zero, zero_bits, and_self]

theorem scS_top (n : SemId) (k : Byte) : bits (scS op n k 0).toNat 31 20 = 0 := by
  have hzero : bits ((0 : BitVec 8) ++ (0 : BitVec 4)).toNat 11 0 = 0 := by decide
  simp (disch := decide) only [scS, bits_append_high, Nat.reduceSub, hzero]

theorem rdix_fields (d : BitVec 4) (k : BitVec 2) : let x := ((0 : BitVec 14) ++ k ++ (0 : BitVec 4) ++ d ++ op).toNat
    bits x 7 0 = op.toNat ∧ bits x 11 8 = d.toNat ∧ bits x 31 16 = k.toNat := by
  have himm : bits ((0 : BitVec 14) ++ k).toNat 15 0 = k.toNat := by
    rw [bits_all _ rfl, BitVec.toNat_append]
    simp
  simp (disch := decide) only [bits_append_low, bits_append_high, bits_all, himm, Nat.reduceSub, and_self]

theorem loop_fields (a : BitVec 4) (n : BitVec 13) : let x := ((0 : BitVec 7) ++ n ++ a ++ op).toNat
    bits x 7 0 = op.toNat ∧ bits x 11 8 = a.toNat ∧ bits x 24 12 = n.toNat ∧ bits x 31 25 = 0 := by
  simp (disch := decide) only [bits_append_low, bits_append_high, bits_all, Nat.reduceSub, BitVec.ofNat_eq_ofNat, BitVec.toNat_zero, zero_bits, and_self]

theorem agSet_fields (a : BitVec 4) (g : BitVec 3) (c : BitVec 2) (w : BitVec 3) : let x := ((0 : BitVec 12) ++ w ++ c ++ g ++ a ++ op).toNat
    bits x 7 0 = op.toNat ∧ bits x 11 8 = a.toNat ∧ bits x 14 12 = g.toNat ∧ bits x 16 15 = c.toNat ∧ bits x 19 17 = w.toNat ∧ bits x 31 20 = 0 := by
  simp (disch := decide) only [bits_append_low, bits_append_high, bits_all, Nat.reduceSub, BitVec.ofNat_eq_ofNat, BitVec.toNat_zero, zero_bits, and_self]

end

/-- Reserved fields that are 0 ask for no more. -/
theorem SlotOp.need0_nil (o : SlotOp) : o.need0 [] = o := by
  rw [SlotOp.need0, List.all_nil, Bool.and_true]

theorem SlotOp.need0_zero (o : SlotOp) (l : List Nat) : o.need0 (0 :: l) = o.need0 l := by
  rw [SlotOp.need0, List.all_cons, beq_self_eq_true, Bool.true_and, SlotOp.need0]

/-- A command whose word holds the slot that `o'` names too. -/
theorem issue_congr {s : State} {t : TileId} {e : EngId} {w : Nat} {o o' : SlotOp} (h : o' = o) :
    (.next (s.issueWord t e w [o]) : Ans) = .next (s.issueWord t e w [o']) := h ▸ rfl

/-- Table 5-5: the bits of a scalar instruction spell its slot: each format gives the operands back. -/
theorem exec_scalarSlot {c : Instr} {t : TileId} {e : EngId} {b : BitVec 32} (h : scalarBits c = some (t, e, b)) (s : State) :
    exec c s = .next (s.issueWord t e 3 [scalarSlot t e 3 b.toNat]) := by
  unfold scalarBits at h
  split at h
  case h_34 => cases h
  all_goals
    simp only [Option.some.injEq, Prod.mk.injEq] at h
    obtain ⟨rfl, rfl, rfl⟩ := h
    refine issue_congr ?_
  case h_1 | h_25 | h_33 => rfl
  case h_19 d k =>
    have hk : k.toNat % 65536 = k.toNat ∧ k.toNat % 4 = k.toNat ∧ k.toNat / 4 = 0 := by omega
    simp only [scalarSlot, rdix_fields, Nat.reduceMul, Nat.reduceAdd, BitVec.ofNat_toNat, BitVec.setWidth_eq, BitVec.reduceToNat, BitVec.toNat_setWidth,
      Nat.reducePow, hk, SlotOp.need0_zero, SlotOp.need0_nil]
  all_goals simp only [scalarSlot, scR3_fields, scI_fields, scL_fields, scS_fields, scS_top, loop_fields, agSet_fields, Nat.reduceMul, Nat.reduceAdd,
    BitVec.ofNat_toNat, BitVec.setWidth_eq, BitVec.reduceToNat, SlotOp.need0_zero, SlotOp.need0_nil]

/-! ### VXE slots (Tables 7-2 to 7-5) -/

theorem vBits_op (op : BitVec 7) (f : VxV) : bits (vBits op f).toNat 6 0 = op.toNat := by
  simp (disch := decide) only [vBits, bits_append_low, bits_all]

theorem vOf_vBits (op : BitVec 7) (f : VxV) : vOf (vBits op f).toNat = f := by
  simp (disch := decide) only [vOf, vBits, bits_append_low, bits_append_high, bits_all, Nat.reduceSub, BitVec.ofNat_toNat, BitVec.setWidth_eq]

theorem cBits_op (op : BitVec 7) (f : VxC) : bits (cBits op f).toNat 6 0 = op.toNat := by
  simp (disch := decide) only [cBits, bits_append_low, bits_all]

theorem cBits_top (op : BitVec 7) (f : VxC) : bits (cBits op f).toNat 31 31 = 0 := by
  simp (disch := decide) only [cBits, bits_append_high, Nat.reduceSub, BitVec.ofNat_eq_ofNat, BitVec.toNat_zero, zero_bits]

theorem cOf_cBits (op : BitVec 7) (f : VxC) : cOf (cBits op f).toNat = f := by
  simp (disch := decide) only [cOf, cBits, bits_append_low, bits_append_high, bits_all, Nat.reduceSub, BitVec.ofNat_toNat, BitVec.setWidth_eq]

theorem mBits_op (op : BitVec 6) (f : VxM) : bits (mBits op f).toNat 5 0 = op.toNat := by
  simp (disch := decide) only [mBits, bits_append_low, bits_all]

theorem mOf_mBits (op : BitVec 6) (f : VxM) : mOf (mBits op f).toNat = f := by
  simp (disch := decide) only [mOf, mBits, bits_append_low, bits_append_high, bits_all, Nat.reduceSub, BitVec.ofNat_toNat, BitVec.setWidth_eq]

theorem gBits_op (op : BitVec 6) (f : VxG) : bits (gBits op f).toNat 5 0 = op.toNat := by
  simp (disch := decide) only [gBits, bits_append_low, bits_all]

theorem gBits_reserved (op : BitVec 6) (f : VxG) : bits (gBits op f).toNat 19 19 = 0 := by
  simp (disch := decide) only [gBits, bits_append_low, bits_append_high, Nat.reduceSub, BitVec.ofNat_eq_ofNat, BitVec.toNat_zero, zero_bits]

theorem gOf_gBits (op : BitVec 6) (f : VxG) : gOf (gBits op f).toNat = f := by
  simp (disch := decide) only [gOf, gBits, bits_append_low, bits_append_high, bits_all, Nat.reduceSub, BitVec.ofNat_toNat, BitVec.setWidth_eq]

/-- Tables 7-3 to 7-5: the bits of a vector instruction spell its slot. -/
theorem exec_vectorSlot {c : Instr} {t : TileId} {i : Nat} {b : BitVec 32} (h : vectorBits c = some (t, i, b)) (s : State) :
    exec c s = .next (s.issueWord t 1 3 [slotOf false t 1 3 i b.toNat]) := by
  unfold vectorBits at h
  split at h
  case h_61 => cases h
  all_goals
    simp only [Option.some.injEq, Prod.mk.injEq] at h
    obtain ⟨rfl, rfl, rfl⟩ := h
    refine issue_congr ?_
  all_goals simp only [slotOf, Bool.false_eq_true, if_false, vaSlot, vbSlot, ldSlot, stSlot, vBits_op, vOf_vBits, cBits_op, cBits_top, cOf_cBits, mBits_op,
    mOf_mBits, gBits_op, gBits_reserved, gOf_gBits, BitVec.reduceToNat, SlotOp.need0_zero, SlotOp.need0_nil]

/-! ### Slots of MXE, MOV and WEI (Tables 6-2, 6-5, 9-3, 4-7) -/

theorem mxSlot_mxBits (t : TileId) (f : MxF) : mxSlot t (mxBits f).toNat = slotMx t f := by
  have hop : bits (mxBits f).toNat 7 0 = 1 := bits_op _ 1
  unfold mxSlot
  dsimp only
  rw [hop]
  simp (disch := decide) only [mxBits, bits_append_low, bits_append_high, bits_all, testBit_append_low, testBit_append_high, testBit_ofBool,
    Nat.reduceSub, BitVec.ofNat_toNat, BitVec.setWidth_eq, BitVec.ofNat_eq_ofNat, BitVec.toNat_zero, zero_bits, SlotOp.need0_zero, SlotOp.need0_nil]

theorem drSlot_drBits (t : TileId) (f : DrF) : drSlot t (drBits f).toNat = slotDr t f := by
  have hop : bits (drBits f).toNat 7 0 = 1 := bits_op _ 1
  unfold drSlot
  dsimp only
  rw [hop]
  simp (disch := decide) only [drBits, bits_append_low, bits_append_high, bits_all, testBit_append_low, testBit_append_high, testBit_ofBool,
    Nat.reduceSub, BitVec.ofNat_toNat, BitVec.setWidth_eq, BitVec.ofNat_eq_ofNat, BitVec.toNat_zero, zero_bits, SlotOp.need0_zero, SlotOp.need0_nil]

theorem issueSlot_issueBits (t : TileId) (f : IssueF) : issueSlot t (issueBits f).toNat = slotIssue t f := by
  have hop : bits (issueBits f).toNat 7 0 = 1 := bits_op _ 1
  unfold issueSlot
  dsimp only
  rw [hop]
  simp (disch := decide) only [issueBits, bits_append_low, bits_append_high, bits_all, testBit_append_low, testBit_append_high, testBit_ofBool,
    Nat.reduceSub, BitVec.ofNat_toNat, BitVec.setWidth_eq, BitVec.ofNat_eq_ofNat, BitVec.toNat_zero, zero_bits, SlotOp.need0_zero, SlotOp.need0_nil]

theorem issueSlot_drainBits (t : TileId) (g : Bool) (n : SemId) : issueSlot t (drainBits g n).toNat = slotDrain t g n := by
  have hop : bits (drainBits g n).toNat 7 0 = 2 := bits_op _ 2
  unfold issueSlot
  dsimp only
  rw [hop]
  simp (disch := decide) only [drainBits, bits_append_low, bits_append_high, bits_all, testBit_append_low, testBit_append_high, testBit_ofBool,
    Nat.reduceSub, BitVec.ofNat_toNat, BitVec.setWidth_eq, BitVec.ofNat_eq_ofNat, BitVec.toNat_zero, zero_bits, SlotOp.need0_zero, SlotOp.need0_nil]

/-- Table 4-7: the operation codes of the weir instructions other than WEIR.NOP. -/
def weirCodes : List (Byte × WeirKind) := [(1, .score), (2, .attend), (3, .topk), (4, .append), (5, .reuse), (6, .gather)]

theorem weiSlot_weirBits (t : TileId) {op : Byte} {k : WeirKind} (f : WeirF) (hk : (op, k) ∈ weirCodes) :
    weiSlot t (weirBits op f).toNat = slotWeir t k f := by
  have hop : bits (weirBits op f).toNat 7 0 = op.toNat := bits_op _ op
  unfold weiSlot
  dsimp only
  rw [hop]
  simp (disch := decide) only [weirBits, bits_append_low, bits_append_high, bits_all, testBit_append_low, testBit_append_high, testBit_ofBool,
    Nat.reduceSub, BitVec.ofNat_toNat, BitVec.setWidth_eq, BitVec.ofNat_eq_ofNat, BitVec.toNat_zero, zero_bits, SlotOp.need0_zero, SlotOp.need0_nil]
  simp only [weirCodes, List.mem_cons, Prod.mk.injEq, List.not_mem_nil, or_false] at hk
  obtain ⟨rfl, rfl⟩ | ⟨rfl, rfl⟩ | ⟨rfl, rfl⟩ | ⟨rfl, rfl⟩ | ⟨rfl, rfl⟩ | ⟨rfl, rfl⟩ := hk <;> rfl

theorem weiSlot_weirNopBits (t : TileId) (g : Bool) (n : SemId) : weiSlot t (weirNopBits g n).toNat = slotWeirNop t g n := by
  have hop : bits (weirNopBits g n).toNat 7 0 = 0 := by
    simp (disch := decide) only [weirNopBits, bits_append_low, BitVec.ofNat_eq_ofNat, BitVec.toNat_zero, zero_bits]
  unfold weiSlot
  dsimp only
  rw [hop]
  simp (disch := decide) only [weirNopBits, bits_append_low, bits_append_high, bits_all, testBit_append_low, testBit_append_high, testBit_ofBool,
    Nat.reduceSub, BitVec.ofNat_toNat, BitVec.setWidth_eq, BitVec.ofNat_eq_ofNat, BitVec.toNat_zero, zero_bits, SlotOp.need0_zero, SlotOp.need0_nil]

end Sys2Proof.Machine
end

/-! ## The fetch of a word (R118 to R122, R424) -/

section
namespace Sys2Proof.Machine

/-! ### One present slot -/

/-- Table 5-3: engine, slot and width in halfwords of the slots that an engine's instructions other than the scalar ones take. -/
def slotForms : List (EngId × Nat × Nat) := [(0, 0, 8), (0, 1, 4), (1, 0, 2), (1, 1, 2), (1, 2, 2), (1, 3, 2), (2, 0, 4), (3, 0, 8)]

section
variable {s : State} {t : TileId} {e : EngId} {n b : Nat}

/-- A word's halfwords, taken apart: the lowest is its header. -/
theorem State.imemNat_split {h : W16} (hword : s.imemNat t e (s.pcOf t e) (n + 1) = h.toNat + 65536 * b) :
    (s.imemH t e (s.engAt t e).bank (s.pcOf t e)).toNat = h.toNat ∧ s.imemNat t e (s.pcOf t e + 1) n = b := by
  have hlow := (s.imemH t e (s.engAt t e).bank (s.pcOf t e)).isLt
  have hhigh := h.isLt
  rw [State.imemNat] at hword
  omega

/-- R123: a control word with one slot. -/
theorem State.fetchWord_control (hword : s.imemNat t e (s.pcOf t e) 3 = (headerBits true 1 3).toNat + 65536 * b) :
    s.fetchWord t e = some (3, [scalarSlot t e 3 b]) := by
  obtain ⟨hheader, hrest⟩ := State.imemNat_split hword
  have horder : ∀ l, issueOrder e true l = l := fun l => if_neg fun h => Bool.false_ne_true h.2
  rw [← hrest, ← horder [scalarSlot t e 3 _], State.fetchWord, hheader]
  rfl

/-- R118, R119, Table 5-3: a word of engine `e` whose one slot is slot `i`, of `n` halfwords. -/
theorem State.fetchWord_slot {i : Nat} (hslot : (e, i, n) ∈ slotForms)
    (hword : s.imemNat t e (s.pcOf t e) (n + 1) = (headerBits false (BitVec.ofNat 5 (2 ^ i)) (BitVec.ofNat 4 (n + 1))).toNat + 65536 * b) :
    s.fetchWord t e = some (n + 1, [slotOf false t e (n + 1) i b]) := by
  obtain ⟨hheader, hrest⟩ := State.imemNat_split hword
  rw [← hrest, State.fetchWord, hheader]
  simp only [slotForms, List.mem_cons, Prod.mk.injEq, List.not_mem_nil, or_false] at hslot
  obtain ⟨rfl, rfl, rfl⟩ | ⟨rfl, rfl, rfl⟩ | ⟨rfl, rfl, rfl⟩ | ⟨rfl, rfl, rfl⟩ | ⟨rfl, rfl, rfl⟩ | ⟨rfl, rfl, rfl⟩ | ⟨rfl, rfl, rfl⟩ | ⟨rfl, rfl, rfl⟩ := hslot
    <;> rfl

end

/-! ### A fence that has passed changes no word -/

section
variable (s : State) (t : TileId) (e : EngId)

/-- R141: the state in which the word after a passed fence is read. -/
def State.unfenced (s : State) (t : TileId) (e : EngId) : State := s.setEng t e { s.engAt t e with fence := none }

theorem State.unfenced_bank : ((s.unfenced t e).engAt t e).bank = (s.engAt t e).bank := by
  rw [State.unfenced, State.engAt_setEng]

theorem State.unfenced_pcOf : (s.unfenced t e).pcOf t e = s.pcOf t e := by
  rw [State.pcOf, State.unfenced, State.engAt_setEng, State.pcOf]

theorem State.unfenced_imemH (b : Bool) (a : Nat) : (s.unfenced t e).imemH t e b a = s.imemH t e b a := by
  rw [State.imemH, State.imemH, State.unfenced, State.setEng_imem]

theorem State.unfenced_imemP (b : Bool) (w : Nat) : (s.unfenced t e).imemP t e b w = s.imemP t e b w := by
  rw [State.imemP, State.imemP, State.unfenced, State.setEng_imemBad]

theorem State.unfenced_imemNat (q n : Nat) : (s.unfenced t e).imemNat t e q n = s.imemNat t e q n := by
  induction n generalizing q with
  | zero => rfl
  | succ n ih => rw [State.imemNat, State.imemNat, s.unfenced_bank, s.unfenced_imemH, ih]

theorem State.unfenced_slotBits (mask i q : Nat) (l : List Nat) : (s.unfenced t e).slotBits t e mask i q l = s.slotBits t e mask i q l := by
  induction l generalizing i q with
  | nil => rfl
  | cons w l ih => simp only [State.slotBits, s.unfenced_imemNat, ih]

theorem State.unfenced_fetchWord : (s.unfenced t e).fetchWord t e = s.fetchWord t e := by
  simp only [State.fetchWord, s.unfenced_pcOf, s.unfenced_bank, s.unfenced_imemH, s.unfenced_slotBits]

theorem State.unfenced_fetchBad : (s.unfenced t e).fetchBad t e = s.fetchBad t e := by
  simp only [State.fetchBad, State.wordLen, s.unfenced_pcOf, s.unfenced_bank, s.unfenced_imemH, s.unfenced_imemP]

/-- What comes before a word ends in the word itself, at the state or behind its fence. -/
theorem State.beforeWord_congr {s : State} {t : TileId} {e : EngId} (l : List (SemId × Byte)) {f g : State → State} (hword : f s = g s)
    (hfence : f (s.unfenced t e) = g (s.unfenced t e)) : s.beforeWord t e l f = s.beforeWord t e l g := by
  have hfence' : f (s.setEng t e { s.engAt t e with fence := none }) = g (s.setEng t e { s.engAt t e with fence := none }) := hfence
  simp only [State.beforeWord, hword, hfence']

end

/-! ### What ENGINE_WORD_ISSUE reads -/

section
variable {s : State} {t : TileId} {e : EngId} {w : Nat} {ops : List SlotOp}

/-- R118: the length of a legal word, whose header is one halfword of it. -/
theorem State.fetchWord_pos (hfetch : s.fetchWord t e = some (w, ops)) : 0 < w := by
  unfold State.fetchWord at hfetch
  dsimp only at hfetch
  split_ifs at hfetch with hbad
  simp only [Option.some.injEq, Prod.mk.injEq] at hfetch
  omega

/-- R118, R424: a word that is whole in instruction memory issues as its slots do. -/
theorem State.issueNext_fetched (hfetch : s.fetchWord t e = some (w, ops)) (hbad : s.fetchBad t e = none) :
    s.issueNext t e = s.issueWord t e w ops := by
  have hw := State.fetchWord_pos hfetch
  have hpast : ∀ u : State, 8192 ≤ u.pcOf t e → 8192 < u.pcOf t e + w := fun u h => by omega
  unfold State.issueNext State.issueWord
  rw [hfetch]
  refine State.beforeWord_congr _ ?_ ?_
  · by_cases hend : 8192 ≤ s.pcOf t e
    · simp only [if_pos hend, if_pos (hpast s hend)]
    · simp only [if_neg hend, hbad, hfetch]
  · have hfetch' := (s.unfenced_fetchWord t e).trans hfetch
    have hbad' := (s.unfenced_fetchBad t e).trans hbad
    by_cases hend : 8192 ≤ (s.unfenced t e).pcOf t e
    · simp only [if_pos hend, if_pos (hpast _ hend)]
    · simp only [if_neg hend, hbad', hfetch']

end

/-- The command is the issue of one slot, which a fetch finds where the halfwords at the engine's address are the number `x`. -/
def Instr.ReadsAs (c : Instr) (t : TileId) (e : EngId) (w x : Nat) : Prop :=
  ∃ o, (∀ s : State, exec c s = .next (s.issueWord t e w [o])) ∧ ∀ s : State, s.imemNat t e (s.pcOf t e) w = x → s.fetchWord t e = some (w, [o])

section
variable {c : Instr} {t : TileId} {e : EngId}

theorem Instr.readsAs_slot {i n b : Nat} {o : SlotOp} (hslot : (e, i, n) ∈ slotForms)
    (hspells : slotOf false t e (n + 1) i b = o) (hexec : ∀ s : State, exec c s = .next (s.issueWord t e (n + 1) [o])) :
    Instr.ReadsAs c t e (n + 1) ((headerBits false (BitVec.ofNat 5 (2 ^ i)) (BitVec.ofNat 4 (n + 1))).toNat + 65536 * b) :=
  ⟨o, hexec, fun _ hword => hspells ▸ State.fetchWord_slot hslot hword⟩

theorem Instr.readsAs_scalar {b : BitVec 32} (h : scalarBits c = some (t, e, b)) :
    Instr.ReadsAs c t e 3 ((headerBits true 1 3).toNat + 65536 * b.toNat) :=
  ⟨_, exec_scalarSlot h, fun _ hword => State.fetchWord_control hword⟩

theorem vectorBits_slot {i : Nat} {b : BitVec 32} (h : vectorBits c = some (t, i, b)) : i < 4 := by
  unfold vectorBits at h
  split at h
  case h_61 => cases h
  all_goals
    simp only [Option.some.injEq, Prod.mk.injEq] at h
    omega

theorem Instr.readsAs_vector {i : Nat} {b : BitVec 32} (h : vectorBits c = some (t, i, b)) :
    Instr.ReadsAs c t 1 3 ((headerBits false (BitVec.ofNat 5 (2 ^ i)) 3).toNat + 65536 * b.toNat) := by
  have hslot : ((1 : EngId), i, 2) ∈ slotForms := by
    have hi := vectorBits_slot h
    interval_cases i <;> decide
  exact Instr.readsAs_slot hslot rfl (exec_vectorSlot h)

theorem Instr.readsAs_weir {op : Byte} {k : WeirKind} (f : WeirF)
    (hk : (op, k) ∈ weirCodes)
    (hexec : ∀ s : State, exec c s = .next (s.issueWord t 3 9 [slotWeir t k f])) :
    Instr.ReadsAs c t 3 9 ((headerBits false 1 9).toNat + 65536 * (weirBits op f).toNat) :=
  Instr.readsAs_slot (i := 0) (n := 8) (by decide) (weiSlot_weirBits t f hk) hexec

/-- R118 to R120: the word of an instruction of a slot reads as that instruction. -/
theorem wordOf_readsAs {w x : Nat} (h : wordOf c = some (t, e, w, x)) : Instr.ReadsAs c t e w x := by
  unfold wordOf at h
  split at h
  case h_16 =>
    split at h
    case h_1 hscalar =>
      cases h
      exact Instr.readsAs_scalar hscalar
    case h_2 hvector =>
      cases h
      exact Instr.readsAs_vector hvector
    case h_3 => cases h
  all_goals cases h
  case h_1 f => exact Instr.readsAs_slot (i := 0) (by decide) (mxSlot_mxBits t f) fun _ => rfl
  case h_2 => exact Instr.readsAs_slot (i := 0) (n := 8) (b := 0) (by decide) rfl fun _ => rfl
  case h_3 f => exact Instr.readsAs_slot (i := 1) (by decide) (drSlot_drBits t f) fun _ => rfl
  case h_4 => exact Instr.readsAs_slot (i := 1) (n := 4) (b := 0) (by decide) rfl fun _ => rfl
  case h_5 => exact Instr.readsAs_slot (i := 0) (n := 4) (b := 0) (by decide) rfl fun _ => rfl
  case h_6 f => exact Instr.readsAs_slot (i := 0) (by decide) (issueSlot_issueBits t f) fun _ => rfl
  case h_7 g n => exact Instr.readsAs_slot (i := 0) (by decide) (issueSlot_drainBits t g n) fun _ => rfl
  case h_8 g n => exact Instr.readsAs_slot (i := 0) (by decide) (weiSlot_weirNopBits t g n) fun _ => rfl
  case h_9 f => exact Instr.readsAs_weir f (by decide) fun _ => rfl
  case h_10 f => exact Instr.readsAs_weir f (by decide) fun _ => rfl
  case h_11 f => exact Instr.readsAs_weir f (by decide) fun _ => rfl
  case h_12 f => exact Instr.readsAs_weir f (by decide) fun _ => rfl
  case h_13 f => exact Instr.readsAs_weir f (by decide) fun _ => rfl
  case h_14 f => exact Instr.readsAs_weir f (by decide) fun _ => rfl
  case h_15 => exact Instr.readsAs_slot (i := 2) (n := 2) (b := 0) (by decide) rfl fun _ => rfl

end

end Sys2Proof.Machine

open Sys2Proof Sys2Proof.Machine

/-- Settles O12: a word fetched whole issues as its slots do, and the encoding of an instruction is fetched as the slot of that instruction. -/
theorem issueReadsEncodedWord : Obligations.IssueReadsEncodedWord := by
  have hreads : ∀ (c : Instr) (t : TileId) (e : EngId) (w x : Nat) (s : State), wordOf c = some (t, e, w, x) → s.imemNat t e (s.pcOf t e) w = x →
      s.fetchBad t e = none → exec (.engineWordIssue t e) s = exec c s := by
    intro c t e w x s hword hmem hbad
    obtain ⟨o, hexec, hfetch⟩ := wordOf_readsAs hword
    rw [hexec s]
    exact congrArg Host.Outcome.next (State.issueNext_fetched (hfetch s hmem) hbad)
  unfold Obligations.IssueReadsEncodedWord
  refine ⟨hreads, fun s t e w ops hfetch hbad hready hok hmet hcheck => ?_, fun s t e d a b x hword hmem hbad hready => ?_⟩
  · refine congrArg Host.Outcome.next ((State.issueNext_fetched hfetch hbad).trans (hready.issueWord_tried.trans ?_))
    exact hready.tryWord_issues (State.fetchWord_pos hfetch) hok hmet (unitWait_eq_false fun o ho => (hcheck o ho).1)
      (firstBad_eq_none fun o ho => (hcheck o ho).2)
  · rw [hreads _ t e 3 x s hword hmem hbad]
    exact congrArg Host.Outcome.next (hready.issue_alu d a b (· + ·))

end

/-! ## Rotation hops (R252, R254) -/

section
namespace Sys2Proof.Machine

/-- A partition of colony 0 alone. -/
def oneColony : PartCfg :=
  { cx := 0, cy := 0, width := 1, height := 1, reloc := false, resident := 0, rd := 10, wr := 10, rm := 10, fence := true, trace := 0, tracePct := 0,
    stages := 0, fabStages := 1, ingress := 1, contexts := 4, queues := 4, events := 8, waiters := 8, hbmUnits := 1, lat0 := 4, lat1 := 4, group := 1 }

/-- Tile 0 of a partition whose tiles run departs with set 0, which has one line there; at its successor, tile 1, set 0 has none. -/
def unequalRing : State :=
  let s := (State.reset.setPart 0 { loaded := true, cfg := some oneColony }).setDom 1 { st := 0 }
  (s.setTr 0 (setOff 0) 0x1000).setRset 0 0 { departing := true }

/-- R254: no line of the receiver's may be written, so the hop does not complete. -/
theorem unequalRing_waits : ((unequalRing.hopDone 0 0).rsetAt 0 0).departing = true := by decide

end Sys2Proof.Machine

open Sys2Proof Sys2Proof.Machine

/-- Refutes O28: a hop completes once its lines have landed, and which lines may land the receiver's own FUR_RSETk says, not the sender's. In `unequalRing`
the sender's set has a line and the receiver's has none: the hop stays under way, where the second clause has it complete. -/
theorem not_furrowMoves : ¬ Obligations.FurrowMoves := by
  unfold Obligations.FurrowMoves
  rintro ⟨hmoves, -, -⟩
  obtain ⟨-, hcompletes, -⟩ := hmoves unequalRing 0 0
  have hhop := Host.Outcome.next.inj (hcompletes (by decide) (by decide) (by decide) (by decide) (by decide))
  have hstill := unequalRing_waits
  exact absurd (hhop ▸ hstill) (by decide)

end

/-! ## Matrix engine, drain and fabric extension (R149 to R172, R304 to R309) -/

section
namespace Sys2Proof.Machine

/-! ### What the scratchpad has no part in -/

section
variable (s : State) (t u : TileId) (r : Reader)

/-- R205: what a reader sees of writes under way changes nothing of what an MX slot or a DR slot reads at its issue. -/
@[simp] theorem MxF.offset_racy (f : MxF) : f.offset (s.racy t r) u = f.offset s u := by
  rw [State.racy_withSpad]
  rfl

@[simp] theorem drOffset_racy (f : DrF) : drOffset (s.racy t r) u f = drOffset s u f := by
  rw [State.racy_withSpad]
  rfl

@[simp] theorem State.racy_mxCheck (f : MxF) : (s.racy t r).mxCheck u f = s.mxCheck u f := by
  rw [State.racy_withSpad]
  rfl

@[simp] theorem State.racy_drCheck (f : DrF) : (s.racy t r).drCheck u f = s.drCheck u f := by
  rw [State.racy_withSpad]
  rfl

end

/-! ### What a slot that passes leaves in its queue (R150, R153, R160) -/

section
variable {s pre : State} (cur : State) {t : TileId}

/-- R150, R154: an MX slot passes where its fields stay in range and its rows in the plan. -/
theorem State.mxCheck_ok {f : MxF} (h : s.mxCheck t f = .ok) : ∃ g m, f.offset s t = some g ∧ rowsAt s t f.rm (f.mM1.toNat + 1) = some m := by
  cases hoffset : f.offset s t with
  | none =>
    simp only [State.mxCheck, hoffset] at h
    split_ifs at h
  | some g =>
    cases hrows : rowsAt s t f.rm (f.mM1.toNat + 1) with
    | none =>
      simp only [State.mxCheck, hoffset, hrows] at h
      split_ifs at h
    | some m => exact ⟨g, m, rfl, rfl⟩

/-- R160: so does a DR slot. -/
theorem State.drCheck_ok {f : DrF} (h : s.drCheck t f = .ok) : ∃ g m, drOffset s t f = some g ∧ rowsAt s t f.rm (s.drPlan t f) = some m := by
  unfold State.drCheck at h
  cases hoffset : drOffset s t f with
  | none => simp [hoffset] at h
  | some g =>
    cases hrows : rowsAt s t f.rm (s.drPlan t f) with
    | none => simp [hoffset, hrows] at h
    | some m => exact ⟨g, m, rfl, rfl⟩

/-- The state after an instruction of the matrix engine has taken its number and left `tl` at its tile. -/
def State.enqueue (cur : State) (t : TileId) (tl : Tile) : State :=
  (cur.setTile t tl).setEng t 0 { cur.engAt t 0 with seq := (cur.engAt t 0).seq + 1 }

/-- R153: a problem that passes goes behind what waits, with its offsets applied and its parameter set latched. -/
theorem State.mxIssue_enters {f : MxF} (h : pre.mxCheck t f = .ok) :
    ∃ o : MxOp, State.mxIssue pre cur t f = cur.enqueue t { cur.tileAt t with mxq := (cur.tileAt t).mxq ++ [o] }
      ∧ f.offset pre t = some o.f ∧ o.seq = (cur.engAt t 0).seq ∧ o.running = false ∧ o.setRow = pre.tr t (0x1000 + 16 * f.pset.toNat) := by
  obtain ⟨g, m, hoffset, hrows⟩ := State.mxCheck_ok h
  simp only [State.mxIssue, hoffset, hrows]
  exact ⟨_, rfl, rfl, rfl, rfl, rfl⟩

/-- R160: a drain that passes goes behind what waits, with its offsets applied. -/
theorem State.drIssue_enters {f : DrF} (h : pre.drCheck t f = .ok) :
    ∃ o : DrOp, State.drIssue pre cur t f = cur.enqueue t { cur.tileAt t with drq := (cur.tileAt t).drq ++ [o] }
      ∧ drOffset pre t f = some o.f ∧ o.seq = (cur.engAt t 0).seq ∧ o.running = false := by
  obtain ⟨g, m, hoffset, hrows⟩ := State.drCheck_ok h
  simp only [State.drIssue, hoffset, hrows]
  exact ⟨_, rfl, rfl, rfl, rfl⟩

end

/-! ### Words that hold one slot of the matrix engine -/

section
variable {s : State} {t : TileId} {w : Nat} (hw : 0 < w)
include hw

/-- R121: a word without an effect only takes its place in the program. -/
theorem State.Ready.issue_empty {e : EngId} (h : s.Ready t e w) : s.issueWord t e w [{}] = s.setEng t e ((s.engAt t e).past w) :=
  h.issue_past hw (SlotOp.Alone.passes ⟨rfl, List.nodup_nil, rfl⟩ (fun _ => rfl) s t) rfl rfl rfl rfl (h.notLast hw)

/-- R121, R153: a word whose slot leaves an instruction in a queue: of the state the tile and its engine change. -/
theorem State.Ready.issue_enqueues (h : s.Ready t 0 w) {o : SlotOp} (ho : o.Passes s t) (hgoto : o.goto s = none) (hskip : o.skip s = none) {tl : Tile}
    (happly : o.apply (s.racy t .other) (s.issuing t 0) = (s.issuing t 0).enqueue t tl) :
    ∃ g, s.issueWord t 0 w [o] = (s.setTile t tl).setEng t 0 g := by
  have henqueue : (s.issuing t 0).enqueue t tl = (s.setTile t tl).setEng t 0 { (s.engAt t 0).issuing with seq := (s.engAt t 0).seq + 1 } := by
    have hissuing : (s.engAt t 0).issuing.st = .run := rfl
    rw [State.enqueue, State.issuing, State.engAt_setEng]
    exact (s.setTile t tl).setEng_setEng_run _ hissuing
  exact ⟨_, h.issue_past hw ho hgoto hskip (happly.trans henqueue) rfl (h.notLast hw)⟩

end

section
variable {s : State} {t : TileId}

theorem slotMx_passes {f : MxF} (hlegal : f.legal = true) (hcheck : s.mxCheck t f = .ok) : (slotMx t f).Passes s t :=
  ⟨⟨hlegal, List.nodup_nil, rfl⟩, hcheck.trans_ne Verdict.noConfusion, (s.racy_mxCheck t t .other f).trans hcheck⟩

theorem slotDr_passes {f : DrF} (hlegal : f.legal = true) (hcheck : s.drCheck t f = .ok) : (slotDr t f).Passes s t :=
  ⟨⟨hlegal, List.nodup_nil, rfl⟩, hcheck.trans_ne Verdict.noConfusion, (s.racy_drCheck t t .other f).trans hcheck⟩

/-- R153: the word of an MX.PROB that passes. -/
theorem State.Ready.issue_mx (h : s.Ready t 0 9) {f : MxF} (hlegal : f.legal = true) (hcheck : s.mxCheck t f = .ok) :
    ∃ (o : MxOp) (g : Eng), s.issueWord t 0 9 [slotMx t f] = (s.setTile t { s.tileAt t with mxq := (s.tileAt t).mxq ++ [o] }).setEng t 0 g
      ∧ f.offset s t = some o.f ∧ o.seq = (s.engAt t 0).seq ∧ o.running = false ∧ o.setRow = s.tr t (0x1000 + 16 * f.pset.toNat) := by
  obtain ⟨o, henters, hoffset, hseq, hqueued, hset⟩ := State.mxIssue_enters (s.issuing t 0) ((s.racy_mxCheck t t .other f).trans hcheck)
  obtain ⟨g, hissue⟩ := h.issue_enqueues (by decide) (slotMx_passes hlegal hcheck) rfl rfl henters
  rw [MxF.offset_racy] at hoffset
  rw [State.issuing, State.engAt_setEng] at hseq
  rw [State.racy_tr] at hset
  exact ⟨o, g, hissue, hoffset, hseq, hqueued, hset⟩

/-- R160: the word of a DR.WRITE that passes. -/
theorem State.Ready.issue_dr (h : s.Ready t 0 5) {f : DrF} (hlegal : f.legal = true) (hcheck : s.drCheck t f = .ok) :
    ∃ (o : DrOp) (g : Eng), s.issueWord t 0 5 [slotDr t f] = (s.setTile t { s.tileAt t with drq := (s.tileAt t).drq ++ [o] }).setEng t 0 g
      ∧ drOffset s t f = some o.f ∧ o.seq = (s.engAt t 0).seq ∧ o.running = false := by
  obtain ⟨o, henters, hoffset, hseq, hqueued⟩ := State.drIssue_enters (s.issuing t 0) ((s.racy_drCheck t t .other f).trans hcheck)
  obtain ⟨g, hissue⟩ := h.issue_enqueues (by decide) (slotDr_passes hlegal hcheck) rfl rfl henters
  rw [drOffset_racy] at hoffset
  rw [State.issuing, State.engAt_setEng] at hseq
  exact ⟨o, g, hissue, hoffset, hseq, hqueued⟩

end

/-! ### Starts and completions (R154, R158, R159, R163, R424) -/

section
variable (o : DrOp) (s : State) (t : TileId)

/-- R162: of a drain only what its set gives is latched. -/
@[simp] theorem DrOp.latch_seq : (o.latch s t).seq = o.seq := rfl
@[simp] theorem DrOp.latch_f : (o.latch s t).f = o.f := rfl
@[simp] theorem DrOp.latch_rows : (o.latch s t).rows = o.rows := rfl
@[simp] theorem DrOp.latch_pc : (o.latch s t).pc = o.pc := rfl

end

section
variable {s : State} {t : TileId} (hruns : s.runs t = true)
include hruns

section
variable {o : MxOp} (hnext : ((s.tileAt t).mxq.find? fun o => !o.running) = some o) (hhold : s.mxHold t o = false) (hfault : o.startFault = 0)
include hnext hhold hfault

/-- R158: the first queued problem starts, its mask free of poison. -/
theorem State.mxStart_starts (hmask : (s.racy t .other).maskPoison t o.f.msk (o.f.a.toNat + sx 16 (fld o.setMsk 15 0)) o.rows = none) :
    s.mxStart t = s.setTile t { s.tileAt t with
      mxq := (s.tileAt t).mxq.map fun x => if x.seq = o.seq then { x with running := true, since := s.edges t, old := s.snap t } else x } := by
  simp [State.mxStart, hnext, hruns, hhold, hfault, hmask]

/-- R424: a poisoned line of its mask halts the engine. -/
theorem State.mxStart_poisoned {l : Nat} (hmask : (s.racy t .other).maskPoison t o.f.msk (o.f.a.toNat + sx 16 (fld o.setMsk 15 0)) o.rows = some l) :
    s.mxStart t = s.mxePoison t o.seq o.pc l := by
  simp [State.mxStart, hnext, hruns, hhold, hfault, hmask]

end

section
variable {o : DrOp} (hnext : ((s.tileAt t).drq.find? fun o => !o.running) = some o) (hhold : s.drHold t o = false)
  (hfault : (o.latch s t).startFault s t = 0) (hport : s.portHeld t (o.latch s t).chain = false)
include hnext hhold hfault hport

/-- R158, R162, R163: the first queued drain starts with its set as it stands, its mask free of poison. -/
theorem State.drStart_starts (hmask : (s.racy t (.drain o.seq)).maskPoison t o.f.msk (o.latch s t).maskLine o.rows = none) :
    s.drStart t = s.drRun t (o.latch s t) := by
  simp [State.drStart, hnext, hruns, hhold, hfault, hport, hmask]

/-- R424: a poisoned line of its mask halts the engine. -/
theorem State.drStart_poisoned {l : Nat} (hmask : (s.racy t (.drain o.seq)).maskPoison t o.f.msk (o.latch s t).maskLine o.rows = some l) :
    s.drStart t = s.mxePoison t o.seq o.pc l := by
  simp [State.drStart, hnext, hruns, hhold, hfault, hport, hmask]

end

/-- R163: the one drain that is ready completes. -/
theorem State.drComplete_one {o : DrOp} (hready : ((s.tileAt t).drq.filter fun o => o.ready) = [o]) : s.drComplete t = s.drDone t o := by
  simp [State.drComplete, hruns, hready]

/-- R158: of two that are ready either does. -/
theorem State.drComplete_either {o o' : DrOp} {l : List DrOp} (hready : ((s.tileAt t).drq.filter fun o => o.ready) = o :: o' :: l) :
    s.drComplete t = s.drawn.drDone t o ∨ s.drComplete t = s.drawn.drDone t o' := by
  have hpick : s.drComplete t = s.drawn.drDone t (if s.draw 0 % 2 = 0 then o else o') := by simp [State.drComplete, hruns, hready]
  rw [hpick]
  split_ifs
  · exact .inl rfl
  · exact .inr rfl

end

/-! ### Beats (R169, R304 to R307) -/

section
variable {s : State} {t : TileId}

/-- A tile register is none of a tile's state. -/
theorem State.setTr_tileAt (s : State) (t : TileId) (o : Nat) (w : W32) (u : TileId) : (s.setTr t o w).tileAt u = s.tileAt u := rfl

theorem State.numStat_tileAt (s : State) (t : TileId) (n : Nat) (u : TileId) : (s.numStat t n).tileAt u = s.tileAt u := by
  unfold State.numStat
  split_ifs
  · rfl
  · exact s.setTr_tileAt ..

/-- R169: a beat that is sent stands behind the sent ones. -/
theorem State.sendBeat_extSent (s : State) (t : TileId) (o : DrOp) (i : Nat) (b : Beat) :
    ∃ f, ((s.sendBeat t o i b).tileAt t).extSent = (s.tileAt t).extSent ++ [(f, o.seq, i, false)] := by
  have htile : ∀ n x, (((s.numStat t n).drawn.send x).tileAt t) = s.tileAt t := fun n _ => s.numStat_tileAt t n t
  simp only [State.sendBeat, State.tileAt_setTile, htile]
  exact ⟨_, rfl⟩

/-- R169, R309: the tile that holds the grant sends its next beat, or its drain faults where a stage of the chain has FAILED. The turn that
passes on is none of what either is decided by. -/
theorem State.extSend_granted {o : DrOp} {i : Nat} {b : Beat} (hgrant : s.portGrant (colonyOf t) = some t) (hbeat : s.tileBeat t = some (o, i, b)) :
    s.extSend t = if s.portFailed t o.chain = true then (s.setTurn (colonyOf t) (BitVec.ofNat 4 (indexOf t + 1))).extFault t o false
    else (s.setTurn (colonyOf t) (BitVec.ofNat 4 (indexOf t + 1))).sendBeat t o i b := by
  have hbeat' : (s.setTurn (colonyOf t) (BitVec.ofNat 4 (indexOf t + 1))).tileBeat t = some (o, i, b) := hbeat
  rw [State.extSend, if_neg (not_not_intro hgrant)]
  dsimp only
  rw [hbeat']
  rfl

section
variable {f k : Bool} {q i : Nat} {o : DrOp} (hsent : ((s.tileAt t).extSent.find? fun x => decide (x.1 = f)) = some (f, q, i, k))
  (hdrain : ((s.tileAt t).drq.find? fun o => decide (o.seq = q)) = some o)
include hsent hdrain

/-- R163: the result of the oldest beat out is taken. -/
theorem State.extResult_taken {b : Beat} (hbeat : o.beats[i]? = some b) (hk : k = false) (v : BitVec 512) : s.extResult t f (some v)
    = (s.setTile t { s.tileAt t with extSent := (s.tileAt t).extSent.erase (f, q, i, k) }).takeResult t o i b v := by
  simp [State.extResult, hsent, hdrain, hbeat, hk]

/-- R170, R307: a result that is missing, and any of a beat that was out at a GSR, faults the drain. -/
theorem State.extResult_missing {r : Option (BitVec 512)} (hr : k = true ∨ r = none) : s.extResult t f r
    = (s.setTile t { s.tileAt t with extSent := (s.tileAt t).extSent.erase (f, q, i, k) }).extFault t o true := by
  have hnone : (if k = true then none else r) = none := by
    obtain rfl | rfl := hr
    · rfl
    · exact ite_self _
  simp [State.extResult, hsent, hdrain, hnone]

end
end

end Sys2Proof.Machine

open Sys2Proof Sys2Proof.Machine

/-- Settles O13: a word of the matrix engine holds one slot, whose checks read no scratchpad; each start and completion is decided by the first of its queue. -/
theorem problemsAndDrains : Obligations.ProblemsAndDrains := by
  unfold Obligations.ProblemsAndDrains
  refine ⟨fun s t f g => ⟨fun hready => ⟨?_, fun hlegal hcheck => ?_⟩, fun hready => ⟨?_, fun hlegal hcheck => ?_⟩⟩, fun s t hruns => ?_⟩
  · exact congrArg Host.Outcome.next (hready.issue_empty (by decide))
  · obtain ⟨o, e, hissue, hoffset, hseq, hqueued, hset⟩ := hready.issue_mx hlegal hcheck
    exact ⟨_, o, congrArg Host.Outcome.next hissue, congrArg Tile.mxq (State.tileAt_setTile ..), hoffset, hseq, hqueued, hset, rfl, rfl, rfl⟩
  · exact congrArg Host.Outcome.next (hready.issue_empty (by decide))
  · obtain ⟨o, e, hissue, hoffset, hseq, hqueued⟩ := hready.issue_dr hlegal hcheck
    exact ⟨_, o, congrArg Host.Outcome.next hissue, congrArg Tile.drq (State.tileAt_setTile ..), hoffset, hseq, hqueued, rfl, rfl, rfl⟩
  · refine ⟨fun o hnext hhold hfault => ⟨fun hmask => ?_, fun l hmask => ?_⟩, fun o l hqueue hrunning => ?_,
      fun o hnext hhold hfault hport => ⟨fun hmask => ?_, fun l hmask => ?_⟩, fun o hready => ?_, fun o o' l hready => ?_⟩
    · exact congrArg Host.Outcome.next (State.mxStart_starts hruns hnext hhold hfault hmask)
    · exact congrArg Host.Outcome.next (State.mxStart_poisoned hruns hnext hhold hfault hmask)
    · have hcompletes : ¬ ((!o.running) = true ∨ (!s.runs t) = true) := by simp [hrunning, hruns]
      refine congrArg Host.Outcome.next ?_
      rw [State.mxComplete, hqueue]
      exact if_neg hcompletes
    · exact congrArg Host.Outcome.next (State.drStart_starts hruns hnext hhold hfault hport hmask)
    · exact congrArg Host.Outcome.next (State.drStart_poisoned hruns hnext hhold hfault hport hmask)
    · exact congrArg Host.Outcome.next (State.drComplete_one hruns hready)
    · exact (State.drComplete_either hruns hready).imp (congrArg Host.Outcome.next) (congrArg Host.Outcome.next)

/-- Settles O14: the port's turn and the beats out are no part of what decides a beat's sending and its answer. -/
theorem extensionBeats : Obligations.ExtensionBeats := by
  unfold Obligations.ExtensionBeats
  refine fun s t c => ⟨fun o i b hgrant hbeat => ⟨fun hopen => ?_, fun hfailed => ?_⟩, fun f q i k o b v hsent hdrain hbeat => ⟨fun hk => ⟨?_, ?_⟩,
    fun hk r => ?_⟩, rfl⟩
  · exact ⟨_, congrArg Host.Outcome.next ((State.extSend_granted hgrant hbeat).trans (if_neg (Bool.eq_false_iff.1 hopen))), rfl,
      State.sendBeat_extSent _ t o i b⟩
  · exact congrArg Host.Outcome.next ((State.extSend_granted hgrant hbeat).trans (if_pos hfailed))
  · exact congrArg Host.Outcome.next (State.extResult_taken hsent hdrain hbeat hk v)
  · exact congrArg Host.Outcome.next (State.extResult_missing hsent hdrain (.inr rfl))
  · exact congrArg Host.Outcome.next (State.extResult_missing hsent hdrain (.inl hk))

end

/-! ## Vector engine (R173 to R197) -/

section
namespace Sys2Proof.Machine

/-! ### What no line of the scratchpad decides (R205) -/

/-- What `g` gives of a state does not depend on its scratchpad. -/
def SpadBlind {α : Type} (g : State → α) : Prop := ∀ s m b, g (s.withSpad m b) = g s

/-- R205: so a reader among writes under way has it as the state has it. -/
theorem SpadBlind.racy {α : Type} {g : State → α} (h : SpadBlind g) (s : State) (t : TileId) (r : Reader) : g (s.racy t r) = g s := by
  rw [State.racy_withSpad, h]

theorem State.lanes_blind (t : TileId) (p : BitVec 3) : SpadBlind fun s => s.lanes t p := fun _ _ _ => rfl

/-! ### Words of one vector slot -/

/-- A slot of the vector engine: it stands alone in a word, leaves control to go on, and is checked without a look at the scratchpad. -/
structure SlotOp.Vector (o : SlotOp) : Prop extends o.Alone where
  goto : ∀ s, o.goto s = none
  skip : ∀ s, o.skip s = none
  check : SpadBlind o.check

/-- A slot that works on registers alone: its effect reads no scratchpad either. -/
structure SlotOp.OnRegisters (o : SlotOp) : Prop extends o.Vector where
  apply : SpadBlind o.apply

/-- R442: to count does not change what a slot is. -/
theorem SlotOp.Vector.counts {o : SlotOp} (ho : o.Vector) (t : TileId) (n : Nat) (k : State → Nat) : (o.counts t n k).Vector :=
  ⟨⟨ho.legal, ho.writes, ho.need⟩, ho.goto, ho.skip, ho.check⟩

theorem SlotOp.OnRegisters.counts {o : SlotOp} (ho : o.OnRegisters) (t : TileId) (n : Nat) {k : State → Nat} (hk : SpadBlind k) :
    (o.counts t n k).OnRegisters :=
  ⟨ho.toVector.counts t n k, fun s m b => funext fun cur => by simp only [SlotOp.counts, ho.apply s m b, hk s m b]⟩

/-- One that asks for no check is legal, writes each register once and reads no scratchpad. -/
theorem SlotOp.onRegisters {legal : Bool} {apply : State → State → State} {writes : List Nat} (hlegal : legal = true) (hwrites : writes.Nodup)
    (hblind : SpadBlind apply) : SlotOp.OnRegisters { legal := legal, apply := apply, writes := writes } :=
  ⟨⟨⟨hlegal, hwrites, rfl⟩, fun _ => rfl, fun _ => rfl, fun _ _ _ => rfl⟩, hblind⟩

/-- R195: a matrix spans registers that follow each other. -/
theorem nodup_wrV (d n : Nat) : (wrV d n).Nodup :=
  List.nodup_range.map fun i j (hij : 32 + d + i = 32 + d + j) => by omega

section
variable {s : State} {t : TileId} {o : SlotOp} (h : s.Ready t 1 3)
include h

/-- R121, R205: a vector slot that passes takes effect, the scratchpad as the engine sees it. -/
theorem State.Ready.issue_vector (ho : o.Vector) (hcheck : o.check s = .ok) :
    s.issueWord t 1 3 [o] = s.pastWord t 1 3 (o.apply (s.racy t .other)) :=
  State.issueWord_one h (by decide) o ho.legal ho.writes hcheck ((ho.check.racy s t .other).trans hcheck) ho.need (ho.goto s) (ho.skip s)

/-- R177: one that works on registers reads the state before its word. -/
theorem State.Ready.issue_onRegisters (ho : o.OnRegisters) (hcheck : o.check s = .ok) :
    s.issueWord t 1 3 [o] = s.pastWord t 1 3 (o.apply s) := by
  rw [h.issue_vector ho.toVector hcheck, ho.apply.racy s t .other]

section
variable {legal : Bool} {apply : State → State → State} {writes : List Nat} (hlegal : legal = true) (hwrites : writes.Nodup) (hblind : SpadBlind apply)
include hlegal hwrites hblind

theorem State.Ready.issue_registers :
    s.issueWord t 1 3 [{ legal := legal, apply := apply, writes := writes }] = s.pastWord t 1 3 (apply s) :=
  h.issue_onRegisters (SlotOp.onRegisters hlegal hwrites hblind) rfl

/-- R442: one whose effect counts. -/
theorem State.Ready.issue_counts {n : Nat} {k : State → Nat} (hk : SpadBlind k) :
    s.issueWord t 1 3 [SlotOp.counts t n k { legal := legal, apply := apply, writes := writes }]
      = s.pastWord t 1 3 fun u => (apply s u).tcnt t n (k s) :=
  h.issue_onRegisters ((SlotOp.onRegisters hlegal hwrites hblind).counts t n hk) rfl

end
end

/-! ### Legal fields (R180, R181) -/

theorem vLegal_iff {f : VxV} {m : Nat} {useB useC useP : Bool} : vLegal f m useB useC useP = true
    ↔ f.pk.toNat ≤ m ∧ (useB = true ∨ f.vb = 0) ∧ (useC = true ∨ f.vc = 0) ∧ (useP = true ∨ f.p = 0) := by
  simp only [vLegal, Bool.and_eq_true, Bool.or_eq_true, decide_eq_true_eq, and_assoc]

theorem VxV.pk_le_zero {f : VxV} (hpk : f.pk = 0) : f.pk.toNat ≤ 0 := by rw [hpk]; decide

/-! ### Arithmetic (R186) -/

section
variable {s : State} {t : TileId} {f : VxV} (h : s.Ready t 1 3)
include h

/-- R186, R442: a floating-point instruction of `n` sources; the sources that it does not use are 0. -/
theorem State.Ready.issue_fp {n : Nat} (g : Fp → Fp → Fp → Fp) (hpk : f.pk.toNat ≤ 2) (hb : 2 ≤ n ∨ f.vb = 0) (hc : 3 ≤ n ∨ f.vc = 0) :
    s.issueWord t 1 3 [slotFp t f n g]
      = s.pastWord t 1 3 fun u => (s.vxFp u t f n g).tcnt t 3 (s.lanes t f.p * 2 ^ f.pk.toNat * (if n = 3 then 2 else 1)) := by
  have hlegal : vLegal f 2 (decide (2 ≤ n)) (decide (3 ≤ n)) true = true :=
    vLegal_iff.2 ⟨hpk, hb.imp_left decide_eq_true, hc.imp_left decide_eq_true, .inl rfl⟩
  exact h.issue_counts hlegal (List.nodup_singleton _) (fun _ _ _ => rfl) fun _ _ _ => rfl

/-- R186: an integer instruction, of packings up to `m`. -/
theorem State.Ready.issue_int {m : Nat} (g : Nat → Nat → Nat → Nat) (hpk : f.pk.toNat ≤ m) (hc : f.vc = 0) :
    s.issueWord t 1 3 [slotInt t f m g] = s.pastWord t 1 3 fun u => s.vxInt u t f g :=
  h.issue_registers (vLegal_iff.2 ⟨hpk, .inl rfl, .inr hc, .inl rfl⟩) (List.nodup_singleton _) fun _ _ _ => rfl

end

/-! ### Lanes of the registers (R174, R181) -/

section
variable (s : State) (t v : TileId)

/-- R174: a write of a lane leaves every other lane. -/
theorem State.vregL_setVregL_other (r q : BitVec 5) {l i : Nat} (w : W32) (hl : l < 32) (hi : i < 32) (hother : ¬(v = t ∧ q = r ∧ i = l)) :
    (s.setVregL t r.toNat l w).vregL v q.toNat i = s.vregL v q.toNat i := by
  have hr := r.isLt
  have hq := q.isLt
  refine look_put_other _ _ _ fun hkey => hother ⟨?_, ?_, ?_⟩
  · exact BitVec.eq_of_toNat_eq (by omega)
  · exact BitVec.eq_of_toNat_eq (by omega)
  · omega

theorem State.numStat_vregL (n r l : Nat) : (s.numStat t n).vregL v r l = s.vregL v r l := State.vregL_congr (s.numStat_mems t n) v r l

/-- R181: a write of result `x.1` to lane `x.2`, where its predicate bit is 1. -/
def State.putLane (t : TileId) (r : Nat) (mask : W32) (s : State) (x : Lane × Nat) : State :=
  if mask.getLsbD x.2 then (s.setVregL t r x.2 x.1.v).markLane t r x.2 x.1.bad else s

theorem State.putLane_vregL (r q : BitVec 5) (mask : W32) {x : Lane × Nat} {i : Nat} (hx : x.2 < 32) (hi : i < 32) (hclean : x.1.bad = false) :
    (s.putLane t r.toNat mask x).vregL v q.toNat i
      = if v = t ∧ q = r ∧ i = x.2 ∧ mask.getLsbD i = true then x.1.v else s.vregL v q.toNat i := by
  have hmark : ∀ u : State, (u.markLane t r.toNat x.2 x.1.bad).vregL v q.toNat i = u.vregL v q.toNat i := by
    intro u
    rw [hclean]
    rfl
  by_cases hlane : v = t ∧ q = r ∧ i = x.2
  · obtain ⟨rfl, rfl, rfl⟩ := hlane
    by_cases hmask : mask.getLsbD x.2 = true
    · simp [State.putLane, hmask, hmark]
    · simp [State.putLane, hmask]
  · rw [if_neg fun hwritten => hlane ⟨hwritten.1, hwritten.2.1, hwritten.2.2.1⟩, State.putLane]
    split
    · rw [hmark, s.vregL_setVregL_other t v r q _ hx hi hlane]
    · rfl

/-- R181: after writes of `g i` to each lane `i` of a list. -/
theorem State.each_putLane_vregL (r q : BitVec 5) (mask : W32) {g : Nat → Lane} {l : List Nat} {i : Nat} (hl : ∀ j ∈ l, j < 32 ∧ (g j).bad = false)
    (hi : i < 32) : (each s (l.map fun j => (g j, j)) (State.putLane t r.toNat mask)).vregL v q.toNat i
      = if v = t ∧ q = r ∧ i ∈ l ∧ mask.getLsbD i = true then (g i).v else s.vregL v q.toNat i := by
  induction l generalizing s with
  | nil => simp [each]
  | cons j l ih =>
    obtain ⟨hj, hclean⟩ := hl j List.mem_cons_self
    have hrest := ih (s.putLane t r.toNat mask (g j, j)) fun k hk => hl k (List.mem_cons_of_mem j hk)
    rw [State.putLane_vregL s t v r q mask (x := (g j, j)) hj hi hclean] at hrest
    refine hrest.trans ?_
    by_cases hsame : i = j
    · subst hsame
      simp only [List.mem_cons, true_or, true_and]
      by_cases hwritten : v = t ∧ q = r ∧ mask.getLsbD i = true
      · rw [if_pos hwritten, ite_self]
      · rw [if_neg hwritten, if_neg fun hlater => hwritten ⟨hlater.1, hlater.2.1, hlater.2.2.2⟩]
    · simp [hsame]

theorem zipIdx_map_range (g : Nat → Lane) (n : Nat) : ((List.range n).map g).zipIdx = (List.range n).map fun i => (g i, i) :=
  List.ext_getElem (by simp) fun i hi hj => by simp

theorem State.putLanes_eq (r : Nat) (mask : W32) (out : List Lane) :
    s.putLanes t r mask out = (each s out.zipIdx (State.putLane t r mask)).numStat t (statOf mask out) := rfl

/-- R181: a write of 32 results, none of them poison, under a predicate. -/
theorem State.putLanes_vregL (r q : BitVec 5) (mask : W32) {g : Nat → Lane} {i : Nat} (hclean : ∀ j, j < 32 → (g j).bad = false) (hi : i < 32) :
    (s.putLanes t r.toNat mask ((List.range 32).map g)).vregL v q.toNat i
      = if v = t ∧ q = r ∧ mask.getLsbD i = true then (g i).v else s.vregL v q.toNat i := by
  rw [State.putLanes_eq, State.numStat_vregL, zipIdx_map_range,
    s.each_putLane_vregL t v r q mask (fun j hj => ⟨List.mem_range.1 hj, hclean j (List.mem_range.1 hj)⟩) hi]
  simp [hi]

end

/-! ### Lanes that hold one element (Table 7-1) -/

theorem laneEls_whole (x : W32) : laneEls 0 x = [x.toNat] := by
  have hfits : x.toNat % 2 ^ 32 = x.toNat := Nat.mod_eq_of_lt x.isLt
  simpa [laneEls, pkW] using hfits

theorem packLane_whole (n : Nat) : packLane 0 [n] = BitVec.ofNat 32 n := by
  refine BitVec.eq_of_toNat_eq ?_
  simp [packLane, pkW]

theorem laneOp_whole (g : Nat → Nat → Nat → Res) (a b c : W32 × Bool) :
    (laneOp 0 g a b c).v = BitVec.ofNat 32 (g a.1.toNat b.1.toNat c.1.toNat).code := by
  simp [laneOp, laneEls_whole, packLane_whole]

/-- R421: a lane that is not poison reads as its register holds it. -/
theorem State.vl_clean {s : State} {t : TileId} {r l : Nat} (h : s.vregP t r l = false) : s.vl t r l = (s.vregL t r l, false) := by
  rw [State.vl, h]
  rfl

/-- R186: the result of one lane of an integer instruction on whole lanes. -/
def State.intLane (s : State) (t : TileId) (f : VxV) (g : Nat → Nat → Nat → Nat) (i : Nat) : Lane :=
  laneOp 0 (fun a b _ => { code := g 32 a b % 2 ^ 32 }) (s.vl t f.va.toNat i) (s.vl t f.vb.toNat i) (0, false)

theorem State.vxInt_whole (s cur : State) (t : TileId) {f : VxV} (g : Nat → Nat → Nat → Nat) (hpk : f.pk = 0) :
    s.vxInt cur t f g = cur.putLanes t f.vd.toNat (s.pval t f.p.toNat) ((List.range 32).map (s.intLane t f g)) := by
  have hwhole : f.pk.toNat = 0 := congrArg BitVec.toNat hpk
  rw [State.vxInt, hwhole]
  rfl

theorem State.intLane_clean {s : State} {t : TileId} {f : VxV} {i : Nat} (g : Nat → Nat → Nat → Nat) (ha : s.vregP t f.va.toNat i = false)
    (hb : s.vregP t f.vb.toNat i = false) : (s.intLane t f g i).bad = false
      ∧ (s.intLane t f g i).v = BitVec.ofNat 32 (g 32 (s.vregL t f.va.toNat i).toNat (s.vregL t f.vb.toNat i).toNat) := by
  rw [State.intLane, State.vl_clean ha, State.vl_clean hb]
  exact ⟨rfl, (laneOp_whole ..).trans (BitVec.eq_of_toNat_eq (by simp))⟩

/-! ### Moves, selection and predicates (R187) -/

section
variable {s : State} {t : TileId} {f : VxV} (h : s.Ready t 1 3)
include h

theorem State.Ready.issue_sel (hpk : f.pk = 0) (hc : f.vc = 0) : s.issueWord t 1 3 [slotSel t f]
    = s.pastWord t 1 3 fun u => u.putLanes t f.vd.toNat 0xFFFFFFFF ((List.range 32).map fun i =>
        moved (if (s.pval t f.p.toNat).getLsbD i then s.vl t f.va.toNat i else s.vl t f.vb.toNat i)) :=
  h.issue_registers (vLegal_iff.2 ⟨VxV.pk_le_zero hpk, .inl rfl, .inr hc, .inl rfl⟩) (List.nodup_singleton _) fun _ _ _ => rfl

theorem State.Ready.issue_move {useB : Bool} {g : State → Nat → Lane} (hpk : f.pk = 0) (hb : useB = true ∨ f.vb = 0) (hc : f.vc = 0)
    (hblind : SpadBlind g) : s.issueWord t 1 3 [slotMove t f useB g] = s.pastWord t 1 3 fun u => s.vxMove u t f (g s) :=
  h.issue_registers (vLegal_iff.2 ⟨VxV.pk_le_zero hpk, hb, .inr hc, .inl rfl⟩) (List.nodup_singleton _) fun s m b => by
    rw [hblind s m b]
    rfl

theorem State.Ready.issue_lidx (hpk : f.pk = 0) (hva : f.va = 0) (hb : f.vb = 0) (hc : f.vc = 0) :
    s.issueWord t 1 3 [(slotMove t f false fun _ i => moved (BitVec.ofNat 32 i, false)).need0 [f.va.toNat]]
      = s.pastWord t 1 3 fun u => s.vxMove u t f fun i => moved (BitVec.ofNat 32 i, false) := by
  have hlegal : vLegal f 0 false false true = true := vLegal_iff.2 ⟨VxV.pk_le_zero hpk, .inr hb, .inr hc, .inl rfl⟩
  exact h.issue_registers (Bool.and_eq_true_iff.2 ⟨hlegal, by simp [hva]⟩) (List.nodup_singleton _) fun _ _ _ => rfl

theorem State.Ready.issue_bcs (hpk : f.pk = 0) (hva : f.va.toNat < 16) (hb : f.vb = 0) (hc : f.vc = 0) :
    s.issueWord t 1 3 [slotBcs t f] = s.pastWord t 1 3 fun u => s.vxMove u t f fun _ => moved (s.sR t 1 (f.va.setWidth 4), false) := by
  have hlegal : vLegal f 0 false false true = true := vLegal_iff.2 ⟨VxV.pk_le_zero hpk, .inr hb, .inr hc, .inl rfl⟩
  exact h.issue_registers (Bool.and_eq_true_iff.2 ⟨hlegal, decide_eq_true hva⟩) (List.nodup_singleton _) fun _ _ _ => rfl

/-- R424: VX.GETL of a lane that is not poison. -/
theorem State.Ready.issue_getl (hpk : f.pk = 0) (hp : f.p = 0) (hc : f.vc = 0) (hd : f.vd.toNat < 16)
    (hclean : s.vregP t f.va.toNat f.vb.toNat = false) : s.issueWord t 1 3 [slotGetl t f]
      = s.pastWord t 1 3 fun u => u.setSR t 1 (f.vd.setWidth 4) (s.vregL t f.va.toNat f.vb.toNat) := by
  have hlegal : vLegal f 0 true false false = true := vLegal_iff.2 ⟨VxV.pk_le_zero hpk, .inl rfl, .inr hc, .inr hp⟩
  have hslot : (slotGetl t f).OnRegisters :=
    ⟨⟨⟨Bool.and_eq_true_iff.2 ⟨hlegal, decide_eq_true hd⟩, nodup_wrS _, rfl⟩, fun _ => rfl, fun _ => rfl, fun _ _ _ => rfl⟩, fun _ _ _ => rfl⟩
  have hlane : s.vl t f.va.toNat f.vb.toNat = (s.vregL t f.va.toNat f.vb.toNat, false) := State.vl_clean hclean
  rw [h.issue_onRegisters hslot (by simp [slotGetl, hlane])]
  simp only [slotGetl, hlane, State.scR]

theorem State.Ready.issue_cmp (hpk : f.pk = 0) (hd : f.vd ≠ 0) (hd' : f.vd.toNat < 8) (hcond : f.vc.toNat % 8 ≠ 7) (htype : f.vc.toNat < 24) :
    s.issueWord t 1 3 [slotCmp t f] = s.pastWord t 1 3 fun u => s.vxCmpOp u t f := by
  have hlegal : (slotCmp t f).legal = true := by
    have htype' : f.vc.toNat / 8 ≠ 3 := by omega
    simpa [slotCmp, hpk, hd', hcond, htype'] using hd
  exact h.issue_registers hlegal (List.nodup_singleton _) fun _ _ _ => rfl

theorem State.Ready.issue_plog (hpk : f.pk = 0) (hp : f.p = 0) (hd : f.vd ≠ 0) (hd' : f.vd.toNat < 8) (ha : f.va.toNat < 8) (hb : f.vb.toNat < 8)
    (hc : f.vc.toNat ≤ 4) : s.issueWord t 1 3 [slotPlog t f] = s.pastWord t 1 3 fun u => s.vxPlogOp u t f := by
  have hlegal : (slotPlog t f).legal = true := by simpa [slotPlog, hpk, hp, hd', ha, hb, hc] using hd
  exact h.issue_registers hlegal (List.nodup_singleton _) fun _ _ _ => rfl

end

/-- R187: what VX.PLOG puts into its predicate register. -/
def plogValue (op : Nat) (a b : W32) : W32 :=
  match op with
  | 0 => a &&& b
  | 1 => a ||| b
  | 2 => a ^^^ b
  | 3 => a &&& ~~~b
  | _ => ~~~a

theorem State.vxPlogOp_eq (s u : State) (t : TileId) (f : VxV) : s.vxPlogOp u t f
    = u.setPval t (f.vd.toNat % 8) (plogValue f.vc.toNat (s.pval t (f.va.toNat % 8)) (s.pval t (f.vb.toNat % 8))) := rfl

/-- R187: where its fields name predicate registers in full. -/
theorem State.vxPlogOp_named (s u : State) (t : TileId) {f : VxV} (hd : f.vd.toNat < 8) (ha : f.va.toNat < 8) (hb : f.vb.toNat < 8) :
    s.vxPlogOp u t f = u.setPval t f.vd.toNat (plogValue f.vc.toNat (s.pval t f.va.toNat) (s.pval t f.vb.toNat)) := by
  rw [State.vxPlogOp_eq, Nat.mod_eq_of_lt hd, Nat.mod_eq_of_lt ha, Nat.mod_eq_of_lt hb]

/-! ### Functions, reductions and matrices (R188 to R196) -/

/-- R192: the scan reads registers alone. -/
theorem State.vxScanOp_blind (t : TileId) (f : VxV) : SpadBlind fun pre cur => State.vxScanOp pre cur t f := by
  intro s m b
  have hlane : ∀ r l, (s.withSpad m b).vl t r l = s.vl t r l := fun _ _ => rfl
  have hpred : ∀ p, (s.withSpad m b).pval t p = s.pval t p := fun _ => rfl
  funext cur
  simp only [State.vxScanOp, hlane, hpred]

section
variable {s : State} {t : TileId} {f : VxV} (h : s.Ready t 1 3)
include h

/-- R190: a transcendental of `n` operands. -/
theorem State.Ready.issue_tu {n : Nat} (g : Nat → Nat → Nat → Res) (hpk : f.pk = 0) (hb : n = 2 ∨ f.vb = 0) (hc : f.vc = 0) :
    s.issueWord t 1 3 [slotTu t f n g] = s.pastWord t 1 3 fun u => (s.vxTu u t f n g).tcnt t 4 (s.lanes t f.p) :=
  h.issue_counts (vLegal_iff.2 ⟨VxV.pk_le_zero hpk, hb.imp_left decide_eq_true, .inr hc, .inl rfl⟩) (List.nodup_singleton _)
    (fun _ _ _ => rfl) fun _ _ _ => rfl

/-- R191: a sum; VX.RSUMA with no lane counts nothing. -/
theorem State.Ready.issue_sum (acc : Bool) {n : Nat} (hpk : f.pk.toNat ≤ 1) (hb : f.vb = 0) (hc : f.vc = 0)
    (hcount : (if acc && decide (s.lanes t f.p = 0) then 0 else 1) = n) :
    s.issueWord t 1 3 [slotSum t f acc] = s.pastWord t 1 3 fun u => (s.vxSumOp u t f acc).tcnt t 3 n := by
  subst hcount
  exact h.issue_counts (vLegal_iff.2 ⟨hpk, .inr hb, .inr hc, .inl rfl⟩) (List.nodup_singleton _) (fun _ _ _ => rfl) fun _ _ _ => rfl

theorem State.Ready.issue_ext (mx : Bool) (hpk : f.pk.toNat ≤ 1) (hb : f.vb = 0) (hc : f.vc = 0) :
    s.issueWord t 1 3 [slotExt t f mx] = s.pastWord t 1 3 fun u => (s.vxExtOp u t f mx).tcnt t 3 1 :=
  h.issue_counts (vLegal_iff.2 ⟨hpk, .inr hb, .inr hc, .inl rfl⟩) (List.nodup_singleton _) (fun _ _ _ => rfl) fun _ _ _ => rfl

theorem State.Ready.issue_scan (hpk : f.pk = 0) :
    s.issueWord t 1 3 [slotScan t f] = s.pastWord t 1 3 fun u => (s.vxScanOp u t f).tcnt t 3 32 :=
  h.issue_counts (vLegal_iff.2 ⟨VxV.pk_le_zero hpk, .inl rfl, .inl rfl, .inl rfl⟩) (List.nodup_singleton _)
    (State.vxScanOp_blind t f) fun _ _ _ => rfl

theorem State.Ready.issue_mm (ta tb : Bool) (hlegal : mmLegal f = true) :
    s.issueWord t 1 3 [slotMm t f ta tb] = s.pastWord t 1 3 fun u => (s.vxMmOp u t f ta tb).tcnt t 3 (matK f * matK f) :=
  h.issue_counts hlegal (nodup_wrV _ _) (fun _ _ _ => rfl) fun _ _ _ => rfl

theorem State.Ready.issue_chol (hlegal : cholLegal f = true) :
    s.issueWord t 1 3 [slotChol t f] = s.pastWord t 1 3 fun u => (s.vxCholOp u t f).tcnt t 3 (matK f * matK f) :=
  h.issue_counts hlegal (nodup_wrV _ _) (fun _ _ _ => rfl) fun _ _ _ => rfl

theorem State.Ready.issue_chsv (hlegal : chsvLegal f = true) :
    s.issueWord t 1 3 [slotChsv t f] = s.pastWord t 1 3 fun u => (s.vxChsvOp u t f).tcnt t 3 (2 * matK f) :=
  h.issue_counts hlegal (List.nodup_singleton _) (fun _ _ _ => rfl) fun _ _ _ => rfl

theorem State.Ready.issue_cvt {f : VxC} (hlegal : cvtLegal f = true) : s.issueWord t 1 3 [slotCvt t f] = s.pastWord t 1 3 fun u =>
    (s.vxCvtOp u t f).tcnt t 3 (if f.dst = 2 ∨ f.dst = 11 then 0 else s.lanes t f.p * (VxCspan f).2 * (32 / cvtW f.dst.toNat)) :=
  h.issue_counts hlegal (nodup_wrV _ _) (fun _ _ _ => rfl) fun _ _ _ => rfl

end

/-! ### Accesses of the scratchpad (R182 to R185, R193) -/

section
variable {s : State} {t : TileId}

/-- R133: no generator moves nothing. -/
theorem State.agOffset_none (e : EngId) (c : Nat) : s.agOffset t e 0 c = 0 := if_pos rfl

theorem agField_still (x : BitVec 12) : agField 12 x.toNat 0 = some x.toNat := by
  have hx := x.isLt
  have hword : (BitVec.ofInt 32 ((x.toNat : Int) + 0)).toNat = x.toNat := by
    rw [add_zero, BitVec.ofInt_natCast, BitVec.toNat_ofNat]
    omega
  rw [agField, hword]
  exact if_pos hx

/-- R215: without a QUARANTINE no line is held. -/
theorem State.linesHeld_free (hquar : (s.tileAt t).quar = none) (ls : List Nat) : s.linesHeld t ls = false := by
  simp [State.linesHeld, State.quarHeld, hquar]

section
variable {f : VxM} (n ch : Nat) (hag : f.ag = 0) (hcb : f.cb = 0)
include hag hcb

/-- R182: the lines of a plain access follow the one that it names. -/
theorem State.vxLines_plain :
    s.vxLines t f n ch = if 4096 < f.line.toNat + n then .error (vxFault t 0x48 0 0 0) else .ok ((List.range n).map (f.line.toNat + ·)) := by
  have hoffset : agField 12 f.line.toNat (s.agOffset t 1 f.ag.toNat ch) = some f.line.toNat := by
    rw [hag]
    exact (congrArg _ (State.agOffset_none ..)).trans (agField_still f.line)
  rw [State.vxLines, hoffset]
  exact if_pos hcb

theorem State.vxMCheck_inside (hquar : (s.tileAt t).quar = none) (hin : f.line.toNat + n ≤ 4096) : s.vxMCheck t f n ch = .ok := by
  rw [State.vxMCheck, State.vxLines_plain n ch hag hcb, if_neg (Nat.not_lt.2 hin)]
  exact if_neg (Bool.eq_false_iff.1 (State.linesHeld_free hquar _))

theorem State.vxMCheck_outside (hout : 4096 < f.line.toNat + n) : s.vxMCheck t f n ch = vxFault t 0x48 0 0 0 := by
  rw [State.vxMCheck, State.vxLines_plain n ch hag hcb, if_pos hout]

end

/-- R182 to R185: a load, store, gather or scatter is checked by its lines, not by what they hold. -/
theorem slotLd_vector (f : VxM) (n lo : Nat) : (slotLd t f n lo).Vector :=
  ⟨⟨rfl, List.nodup_singleton _, rfl⟩, fun _ => rfl, fun _ => rfl, fun _ _ _ => rfl⟩

theorem slotSt_vector (f : VxM) (n lo : Nat) : (slotSt t f n lo).Vector :=
  ⟨⟨rfl, List.nodup_nil, rfl⟩, fun _ => rfl, fun _ => rfl, fun _ _ _ => rfl⟩

theorem slotGath_vector (f : VxG) : (slotGath t f).Vector :=
  ⟨⟨rfl, List.nodup_singleton _, rfl⟩, fun _ => rfl, fun _ => rfl, fun _ _ _ => rfl⟩

theorem slotScat_vector (f : VxG) : (slotScat t f).Vector :=
  ⟨⟨rfl, List.nodup_nil, rfl⟩, fun _ => rfl, fun _ => rfl, fun _ _ _ => rfl⟩

/-- R193: so is a tap with move, by its circular buffer. -/
theorem slotTap_vector {f : VxV} (hpk : f.pk = 0) (hc : f.vc = 0) (hbuffer : f.vb.toNat % 8 ≠ 0) : (slotTap t f).Vector := by
  have hlegal : (slotTap t f).legal = true := by simp [slotTap, SlotOp.counts, vxSlot, hpk, hc, hbuffer]
  exact ⟨⟨hlegal, List.nodup_singleton _, rfl⟩, fun _ => rfl, fun _ => rfl, fun _ _ _ => rfl⟩

theorem State.Ready.issue_tap (h : s.Ready t 1 3) {f : VxV} (hpk : f.pk = 0) (hc : f.vc = 0) (hbuffer : f.vb.toNat % 8 ≠ 0)
    (hcheck : s.tapCheck t f = .ok) : s.issueWord t 1 3 [slotTap t f]
      = s.pastWord t 1 3 fun u => (((s.racy t .other).vxTapOp u t f).vxeAccess t).tcnt t 3 (s.lanes t f.p) := by
  have hlanes : (s.racy t .other).lanes t f.p = s.lanes t f.p := (State.lanes_blind t f.p).racy s t .other
  rw [← hlanes]
  exact h.issue_vector (slotTap_vector hpk hc hbuffer) hcheck

end

end Sys2Proof.Machine

open Sys2Proof Sys2Proof.Machine

/-- Settles O16: of the lanes written each is its own result, and a write of a lane leaves all others. -/
theorem vectorLaneResult : Obligations.VectorLaneResult := by
  unfold Obligations.VectorLaneResult
  intro s t f g hpk hclean
  have hlane : ∀ i, i < 32 → (s.intLane t f g i).bad = false
      ∧ (s.intLane t f g i).v = BitVec.ofNat 32 (g 32 (s.vregL t f.va.toNat i).toNat (s.vregL t f.vb.toNat i).toNat) :=
    fun i hi => State.intLane_clean g (hclean i hi).1 (hclean i hi).2
  have hread : ∀ (v : TileId) (q : BitVec 5) i, i < 32 → (s.vxInt s t f g).vregL v q.toNat i
      = if v = t ∧ q = f.vd ∧ (s.pval t f.p.toNat).getLsbD i = true then (s.intLane t f g i).v else s.vregL v q.toNat i := by
    intro v q i hi
    rw [s.vxInt_whole s t g hpk]
    exact s.putLanes_vregL t v f.vd q _ (fun j hj => (hlane j hj).1) hi
  refine ⟨fun i hi => ?_, fun v r i hi hother => ?_, fun hp => ?_⟩
  · rw [hread t f.vd i hi, (hlane i hi).2]
    simp
  · rw [hread v r i hi, if_neg fun hwritten => hother (Prod.ext hwritten.1 hwritten.2.1)]
  · rw [hp]
    rfl

/-- Settles O15: the word of an arithmetic instruction holds one slot, which is legal and reads no scratchpad. -/
theorem vectorArithmetic : Obligations.VectorArithmetic := by
  unfold Obligations.VectorArithmetic
  refine ⟨fun s t f h hpk => ?_, fun s t f h hc => ?_⟩
  · refine ⟨?_, fun hc => ?_, fun hc hb => ?_⟩
    · have three := fun g => h.issue_fp (n := 3) g hpk (.inl (by decide)) (.inl (by decide))
      exact ⟨congrArg Host.Outcome.next (three fpFma), congrArg Host.Outcome.next (three fpFms), congrArg Host.Outcome.next (three fpFnma)⟩
    · have two := fun g => h.issue_fp (n := 2) g hpk (.inl (by decide)) (.inr hc)
      exact ⟨congrArg Host.Outcome.next (two fpAdd), congrArg Host.Outcome.next (two fpSub), congrArg Host.Outcome.next (two fpMul),
        congrArg Host.Outcome.next (two fpMin), congrArg Host.Outcome.next (two fpMax)⟩
    · have one := fun g => h.issue_fp (n := 1) g hpk (.inr hb) (.inr hc)
      exact ⟨congrArg Host.Outcome.next (one fpAbs), congrArg Host.Outcome.next (one fpNeg)⟩
  · refine ⟨fun hpk => ?_, fun hpk => ?_⟩
    · have packed := fun g => h.issue_int g hpk hc
      exact ⟨congrArg Host.Outcome.next (packed _), congrArg Host.Outcome.next (packed iSub), congrArg Host.Outcome.next (packed _),
        congrArg Host.Outcome.next (packed iShl), congrArg Host.Outcome.next (packed iShr), congrArg Host.Outcome.next (packed iSra)⟩
    · have whole := fun g => h.issue_int g (VxV.pk_le_zero hpk) hc
      exact ⟨congrArg Host.Outcome.next (whole _), congrArg Host.Outcome.next (whole _), congrArg Host.Outcome.next (whole _)⟩

/-- Settles O17: the word of each instruction holds one slot, which is legal and works on registers alone. -/
theorem vectorMovesAndFunctions : Obligations.VectorMovesAndFunctions := by
  unfold Obligations.VectorMovesAndFunctions
  refine ⟨fun s t f h hpk => ⟨fun hc => ⟨?_, ?_, ?_, fun hb => ⟨?_, fun hva => ?_, fun hva => ?_⟩, fun hp hd hclean => ?_⟩,
    fun hd hd' hcond htype => ?_, fun hp hd hd' ha hb hc => ?_⟩, fun s t f g h => ⟨fun hpk hb hc => ?_, fun hpk hc => ?_, fun hpk hb hc => ?_,
    fun hpk => ?_, fun hlegal => ?_, fun hlegal => ?_, fun hlegal => ?_, fun hlegal => ?_⟩⟩
  · exact congrArg Host.Outcome.next (h.issue_sel hpk hc)
  · exact congrArg Host.Outcome.next (h.issue_move hpk (.inl rfl) hc fun _ _ _ => rfl)
  · exact congrArg Host.Outcome.next (h.issue_move hpk (.inl rfl) hc fun _ _ _ => rfl)
  · exact congrArg Host.Outcome.next (h.issue_move hpk (.inr hb) hc fun _ _ _ => rfl)
  · exact congrArg Host.Outcome.next (h.issue_lidx hpk hva hb hc)
  · exact congrArg Host.Outcome.next (h.issue_bcs hpk hva hb hc)
  · exact congrArg Host.Outcome.next (h.issue_getl hpk hp hc hd hclean)
  · exact congrArg Host.Outcome.next (h.issue_cmp hpk hd hd' hcond htype)
  · refine congrArg Host.Outcome.next ((h.issue_plog hpk hp hd hd' ha hb hc).trans (congrArg (s.pastWord t 1 3) (funext fun u => ?_)))
    exact s.vxPlogOp_named u t hd' ha hb
  · have tu : ∀ k : Nat → Nat → Res, (.next (s.issueWord t 1 3 [slotTu t f 1 fun a _ => k a]) : Ans)
        = .next (s.pastWord t 1 3 fun u => (s.vxTu u t f 1 fun a _ => k a).tcnt t 4 (s.lanes t f.p)) :=
      fun k => congrArg Host.Outcome.next (h.issue_tu (fun a _ => k a) hpk (.inr hb) hc)
    exact ⟨tu _, tu _, tu _, tu _, tu _, tu _, tu _, tu _, tu _, tu _, tu _⟩
  · exact congrArg Host.Outcome.next (h.issue_tu tuDiv hpk (.inl rfl) hc)
  · exact ⟨congrArg Host.Outcome.next (h.issue_sum false hpk hb hc rfl), congrArg Host.Outcome.next (h.issue_sum true hpk hb hc (by simp)),
      congrArg Host.Outcome.next (h.issue_ext true hpk hb hc), congrArg Host.Outcome.next (h.issue_ext false hpk hb hc)⟩
  · exact congrArg Host.Outcome.next (h.issue_scan hpk)
  · exact ⟨congrArg Host.Outcome.next (h.issue_mm false false hlegal), congrArg Host.Outcome.next (h.issue_mm false true hlegal),
      congrArg Host.Outcome.next (h.issue_mm true false hlegal)⟩
  · exact congrArg Host.Outcome.next (h.issue_chol hlegal)
  · exact congrArg Host.Outcome.next (h.issue_chsv hlegal)
  · exact congrArg Host.Outcome.next (h.issue_cvt hlegal)

/-- Settles O18: the word of an access holds one slot, whose check looks at its lines and not at what they hold. -/
theorem vectorScratchpad : Obligations.VectorScratchpad := by
  unfold Obligations.VectorScratchpad
  refine ⟨fun s t f g k h => ⟨?_, fun hcheck => ?_, fun hcheck => ⟨?_, ?_⟩, fun hcheck => ?_, fun hcheck => ⟨?_, ?_⟩, fun hcheck => ⟨?_, ?_⟩,
    fun hpk hc hbuffer hcheck => ?_⟩, fun s t f n ch hag hcb _ hquar => ⟨State.vxMCheck_inside n ch hag hcb hquar, State.vxMCheck_outside n ch hag hcb⟩⟩
  · exact congrArg Host.Outcome.next (h.issue_empty (by decide))
  · exact congrArg Host.Outcome.next (h.issue_vector (slotLd_vector f 2 0) hcheck)
  · exact congrArg Host.Outcome.next (h.issue_vector (slotLd_vector f 1 0) hcheck)
  · exact congrArg Host.Outcome.next (h.issue_vector (slotLd_vector f 1 16) hcheck)
  · exact congrArg Host.Outcome.next (h.issue_vector (slotSt_vector f 2 0) hcheck)
  · exact congrArg Host.Outcome.next (h.issue_vector (slotSt_vector f 1 0) hcheck)
  · exact congrArg Host.Outcome.next (h.issue_vector (slotSt_vector f 1 16) hcheck)
  · exact congrArg Host.Outcome.next (h.issue_vector (slotGath_vector g) hcheck)
  · exact congrArg Host.Outcome.next (h.issue_vector (slotScat_vector g) hcheck)
  · exact congrArg Host.Outcome.next (h.issue_tap hpk hc hbuffer hcheck)

end

/-! ## The mover: arming, MOV.DRAIN and queue limits (R225 to R227, R231, R246) -/

section
namespace Sys2Proof.Machine

/-! ### Words of the MOV engine -/

theorem State.armOf_blind (t : TileId) (f : IssueF) : SpadBlind fun s => s.armOf t f := fun _ _ _ => rfl

theorem State.moverIdle_blind (t : TileId) : SpadBlind fun s => s.moverIdle t := fun _ _ _ => rfl

section
variable {s : State} {t : TileId} (h : s.Ready t 2 5)
include h

/-- R121: a word of the MOV engine whose one slot passes takes effect. -/
theorem State.Ready.issue_mover {o : SlotOp} (ho : o.Alone) (hgoto : o.goto s = none) (hskip : o.skip s = none) (hblind : SpadBlind o.check)
    (hcheck : o.check s = .ok) : s.issueWord t 2 5 [o] = s.pastWord t 2 5 (o.apply (s.racy t .other)) :=
  State.issueWord_one h (by decide) o ho.legal ho.writes hcheck ((hblind.racy s t .other).trans hcheck) ho.need hgoto hskip

/-- R225, R227: a MOV.ISSUE whose line stays in its field takes a number and makes its arming. -/
theorem State.Ready.issue_arms {f : IssueF} {a : Arm} (harm : s.armOf t f = some a) : s.issueWord t 2 5 [slotIssue t f]
    = s.pastWord t 2 5 fun u => (u.setEng t 2 { u.engAt t 2 with seq := (u.engAt t 2).seq + 1 }).arm t a := by
  have hseen : (s.racy t .other).armOf t f = some a := ((State.armOf_blind t f).racy s t .other).trans harm
  have hcheck : (slotIssue t f).check s = .ok := by simp [slotIssue, harm]
  refine (h.issue_mover ⟨rfl, List.nodup_nil, rfl⟩ rfl rfl (fun _ _ _ => rfl) hcheck).trans (congrArg (s.pastWord t 2 5) (funext fun u => ?_))
  simp only [slotIssue, hseen]

/-- R246: a MOV.DRAIN that finds the tile's movers idle posts its semaphore. -/
theorem State.Ready.issue_drain (g : Bool) (n : SemId) (hidle : s.moverIdle t = true) :
    s.issueWord t 2 5 [slotDrain t g n] = s.pastWord t 2 5 fun u => u.opPost t g n 2 0 :=
  h.issue_mover (o := slotDrain t g n) ⟨rfl, List.nodup_nil, rfl⟩ rfl rfl (fun _ _ _ => rfl) (if_pos hidle)

end

/-! ### Armings -/

section
variable {s : State} {t : TileId}

/-- R133: without a generator a field stands as it is written. -/
theorem agField_zero (x : BitVec 12) : agField 12 x.toNat 0 = some x.toNat := by
  have hx := x.isLt
  have hsame : (BitVec.ofInt 32 ((x.toNat : Int) + 0)).toNat = x.toNat := by
    rw [BitVec.toNat_ofInt]
    omega
  simp only [agField, hsame]
  exact if_pos hx

/-- R225, R227: what a MOV.ISSUE without a generator latches. -/
theorem State.armOf_plain {f : IssueF} (hag : f.ag = 0) : s.armOf t f
    = some { desc := f.desc, line := f.line, sem := f.sem, sigEn := f.sigEn, rsig := f.rsig,
             n1 := if f.rm = 0 then none else some (s.sR t 2 f.rm).toNat, farOfs := 0, mlineOfs := 0, seq := some (s.engAt t 2).seq } := by
  have hofs : ∀ c, s.agOffset t 2 f.ag.toNat c = 0 := fun c => by rw [hag]; rfl
  simp only [State.armOf, hofs, agField_zero, Option.map_some, BitVec.ofNat_toNat, BitVec.setWidth_eq]
  rfl

/-- R225: MOV_CTRL with its go bit arms its descriptor. -/
theorem State.movCtrl_arms {w : W32} (hgo : bit w 31 = true) : s.movCtrl t w = s.arm t (ctrlArm w) := if_pos hgo

variable {a : Arm}

/-- R226: the arming of an idle descriptor enters its queue. -/
theorem State.arm_idle (harmed : (s.movd_ t a.desc.toNat).armed = false) (hrunning : (s.movd_ t a.desc.toNat).running = false) :
    s.arm t a = s.enterQueue t a := by
  simp [State.arm, harmed, hrunning]

section
variable (hbusy : (s.movd_ t a.desc.toNat).armed = true ∨ (s.movd_ t a.desc.toNat).running = true)
include hbusy

/-- R226: that of a busy one is latched in its pending slot where that is empty. -/
theorem State.arm_pends (hpending : (s.movd_ t a.desc.toNat).pending = none) :
    s.arm t a = s.setMovd t a.desc.toNat { s.movd_ t a.desc.toNat with pending := some a } := by
  have hnotIdle : ¬((!(s.movd_ t a.desc.toNat).armed) = true ∧ (!(s.movd_ t a.desc.toNat).running) = true) := by simpa [or_iff_not_imp_left] using hbusy
  simp only [State.arm, if_neg hnotIdle, hpending, Option.isNone_none, if_true]

/-- R226: it is refused and counted where the slot is full. -/
theorem State.arm_overruns (hpending : (s.movd_ t a.desc.toNat).pending ≠ none) : s.arm t a = s.setMovd t a.desc.toNat
    { s.movd_ t a.desc.toNat with rearmOverrun := true, overrunCnt := BitVec.ofNat 16 (min 0xFFFF ((s.movd_ t a.desc.toNat).overrunCnt.toNat + 1)) } := by
  have hnotIdle : ¬((!(s.movd_ t a.desc.toNat).armed) = true ∧ (!(s.movd_ t a.desc.toNat).running) = true) := by simpa [or_iff_not_imp_left] using hbusy
  simp only [State.arm, if_neg hnotIdle, Option.isNone_iff_eq_none, if_neg hpending]
  rfl

end

/-! ### Queue limits (R231) -/

variable {q : Nat} {w : W32}

theorem State.queueCfg_clears (hclear : bit w 8 = true) : s.queueCfg t q w = s.setMovq t q { s.movq_ t q with cfgRefused := false } := if_pos hclear

theorem State.queueCfg_sets (hclear : bit w 8 = false) (harms : (s.movq_ t q).arms = []) (hstreams : (s.movq_ t q).streams = []) (hlow : 1 ≤ fld w 6 0)
    (hhigh : fld w 6 0 ≤ 64) : s.queueCfg t q w = s.setTr t (0x1710 + 4 * q) (BitVec.ofNat 32 (fld w 6 0)) := by
  have hfits : ¬(fld w 6 0 = 0 ∨ 64 < fld w 6 0) := by omega
  simp only [State.queueCfg, hclear, harms, hstreams, List.isEmpty_nil, Bool.not_true, Bool.false_eq_true, false_or, if_false, if_neg hfits]

theorem State.queueCfg_refuses (hclear : bit w 8 = false)
    (hbad : (s.movq_ t q).arms ≠ [] ∨ (s.movq_ t q).streams ≠ [] ∨ fld w 6 0 = 0 ∨ 64 < fld w 6 0) :
    s.queueCfg t q w = s.setMovq t q { s.movq_ t q with cfgRefused := true } := by
  simp only [State.queueCfg, hclear, Bool.false_eq_true, if_false]
  exact if_pos (by simpa using hbad)

end

end Sys2Proof.Machine

open Sys2Proof Sys2Proof.Machine

/-- Settles O24: a word of the MOV engine holds one slot; an arming and a write of a limit are each decided by the queue and descriptor as they stand. -/
theorem moverArming : Obligations.MoverArming := by
  unfold Obligations.MoverArming
  intro s t f g n r w q a
  refine ⟨fun h => ⟨?_, fun harm => ?_, fun hidle => ?_⟩, State.armOf_plain, fun hreq hgo => ?_, ⟨State.arm_idle, State.arm_pends, State.arm_overruns⟩,
    fun hreq => ⟨fun hclear => ?_, fun hclear harms hstreams hlow hhigh => ?_, fun hclear hbad => ?_⟩⟩
  · exact congrArg Host.Outcome.next (h.issue_empty (by decide))
  · exact congrArg Host.Outcome.next (h.issue_arms harm)
  · exact congrArg Host.Outcome.next (h.issue_drain g n hidle)
  · exact (s.next_onTile _ hreq).trans (congrArg Host.Outcome.next (State.movCtrl_arms hgo))
  · exact (s.next_onTile _ hreq).trans (congrArg Host.Outcome.next (State.queueCfg_clears hclear))
  · exact (s.next_onTile _ hreq).trans (congrArg Host.Outcome.next (State.queueCfg_sets hclear harms hstreams hlow hhigh))
  · exact (s.next_onTile _ hreq).trans (congrArg Host.Outcome.next (State.queueCfg_refuses hclear hbad))

end

/-! ## What reports, posts and losses leave of the movers and the scratchpads (R138, R140, R324, R341, R357, R450) -/

section
namespace Sys2Proof.Machine

/-- The mover queues, the descriptors' states and the scratchpads. -/
structure Movers where
  movq : Sparse MovQ
  movd : Sparse MovD
  spad : Sparse Byte

/-- Those of a state. -/
def State.movers (s : State) : Movers := ⟨s.movq, s.movd, s.spad⟩

section
variable {s u : State} (h : u.movers = s.movers) (t : TileId)
include h

theorem State.movq_of_movers (q : Nat) : u.movq_ t q = s.movq_ t q := congrArg (fun v : Movers => look (fun _ => {}) v.movq (t.toNat * 4 + q)) h

theorem State.movd_of_movers (d : Nat) : u.movd_ t d = s.movd_ t d := congrArg (fun v : Movers => look (fun _ => {}) v.movd (t.toNat * 8 + d)) h

theorem State.spad_of_movers : u.spad = s.spad := congrArg Movers.spad h

end

/-- What each step of a walk keeps, the walk keeps. -/
theorem each_keeps {β : Type} {P : State → Prop} {l : List β} {f : State → β → State} (hf : ∀ u, ∀ x ∈ l, P u → P (f u x)) {s : State} (h : P s) :
    P (each s l f) := by
  induction l generalizing s with
  | nil => exact h
  | cons x l ih => exact ih (fun u y hy => hf u y (List.mem_cons_of_mem x hy)) (hf s x List.mem_cons_self h)

theorem each_movers {β : Type} (l : List β) (f : State → β → State) (hf : ∀ s x, (f s x).movers = s.movers) (s : State) :
    (each s l f).movers = s.movers :=
  each_keeps (P := fun u => u.movers = s.movers) (fun u x _ hu => (hf u x).trans hu) rfl

section
variable (s : State)

/-! ### Writes of other tables -/

@[simp] theorem State.setReg_movers (a w) : (s.setReg a w).movers = s.movers := rfl
@[simp] theorem State.setTr_movers (t o w) : (s.setTr t o w).movers = s.movers := s.setReg_movers _ _
@[simp] theorem State.incReg_movers (a hi lo n) : (s.incReg a hi lo n).movers = s.movers := s.setReg_movers _ _
@[simp] theorem State.setEng_movers (t e v) : (s.setEng t e v).movers = s.movers := rfl
@[simp] theorem State.setTile_movers (t v) : (s.setTile t v).movers = s.movers := rfl
@[simp] theorem State.setPosterW_movers (t n v) : (s.setPosterW t n v).movers = s.movers := rfl
@[simp] theorem State.setCtl_movers (c v) : (s.setCtl c v).movers = s.movers := rfl
@[simp] theorem State.setPart_movers (p v) : (s.setPart p v).movers = s.movers := rfl
@[simp] theorem State.setCtx_movers (p c v) : (s.setCtx p c v).movers = s.movers := rfl
@[simp] theorem State.setQueue_movers (p q v) : (s.setQueue p q v).movers = s.movers := rfl
@[simp] theorem State.setEvt_movers (p i v) : (s.setEvt p i v).movers = s.movers := rfl
@[simp] theorem State.setWaiter_movers (p i v) : (s.setWaiter p i v).movers = s.movers := rfl
@[simp] theorem State.setPort_movers (p v) : (s.setPort p v).movers = s.movers := rfl
@[simp] theorem State.setDom_movers (d v) : (s.setDom d v).movers = s.movers := rfl
@[simp] theorem State.setHbmBytes_movers (a bs) : (s.setHbmBytes a bs).movers = s.movers := rfl
@[simp] theorem State.send_movers (o) : (s.send o).movers = s.movers := rfl
@[simp] theorem State.inject_movers (p) : (s.inject p).movers = s.movers := rfl
@[simp] theorem State.newTag_movers : s.newTag.1.movers = s.movers := rfl
@[simp] theorem State.clearScalars_movers (t e) : (s.clearScalars t e).movers = s.movers := rfl
@[simp] theorem State.disarm_movers (p i) : (s.disarm p i).movers = s.movers := rfl

@[simp] theorem State.askWake_movers (d) : (s.askWake d).movers = s.movers := by
  grind [State.askWake, State.setDom_movers]

/-! ### Reports -/

@[simp] theorem State.lightP_movers (p n k) : (s.lightP p n k).movers = s.movers := by
  cases p with
  | none => rfl
  | some p => exact (State.setReg_movers ..).trans (s.setReg_movers ..)

@[simp] theorem State.trace_movers (t ty unit place info) : (s.trace t ty unit place info).movers = s.movers := by
  grind [State.trace, State.setTile_movers, State.incReg_movers]

@[simp] theorem State.ordered_movers (c l) : (s.ordered c l).movers = s.movers := by
  grind [State.ordered, State.setCtl_movers]

@[simp] theorem State.raiseTile_movers (t base) : (s.raiseTile t base).movers = s.movers := by
  grind [State.raiseTile, State.raise, State.setReg_movers, State.ordered_movers]

@[simp] theorem State.notice_movers (p c n) : (s.notice p c n).movers = s.movers := by
  grind [State.notice, State.setCtx_movers]

end

/-! ### Messages of Vulor ports -/

@[simp] theorem State.sendFlit_movers (s : State) (p ty slots) : (s.sendFlit p ty slots).movers = s.movers := rfl

@[simp] theorem State.sendSlots_movers (s : State) (p n l) : (s.sendSlots p n l).movers = s.movers := by
  induction n generalizing s l with
  | zero => rfl
  | succ n ih => grind [State.sendSlots, State.sendFlit_movers]

@[simp] theorem State.pump_movers (s : State) (p n) : (s.pump p n).movers = s.movers := by
  induction n generalizing s with
  | zero => rfl
  | succ n ih => grind [State.pump, State.sendSlots_movers, State.setPort_movers]

section
variable (s : State)

@[simp] theorem State.emit_movers (p vc m) : (s.emit p vc m).movers = s.movers := by
  grind [State.emit, State.pump_movers, State.setPort_movers]

/-! ### Fences and commands -/

@[simp] theorem State.wake_movers (p tl key) : (s.wake p tl key).movers = s.movers := by
  grind [State.wake, State.retest, each_movers, State.setWaiter_movers]

@[simp] theorem State.evtSet_movers (p i err) : (s.evtSet p i err).movers = s.movers := by
  grind [State.evtSet, State.wake_movers, State.setEvt_movers]

@[simp] theorem State.tlApply_movers (p a v) : (s.tlApply p a v).movers = s.movers := by
  grind [State.tlApply, State.askWake_movers, State.wake_movers, State.setHbmBytes_movers, State.movers]

@[simp] theorem State.forceRemote_movers (p c o) : (s.forceRemote p c o).movers = s.movers := by
  grind [State.forceRemote, State.newTag_movers, State.tlApply_movers, State.emit_movers, State.movers]

@[simp] theorem State.forceSignal_movers (p c) : (s.forceSignal p c).movers = s.movers := by
  grind [State.forceSignal, each_movers, State.evtSet_movers, State.forceRemote_movers, State.tlApply_movers]

@[simp] theorem State.takeWait_movers (p q) : (s.takeWait p q).movers = s.movers := by
  grind [State.takeWait, State.waitWake, State.setQueue_movers, State.askWake_movers, State.setWaiter_movers]

@[simp] theorem State.takeWaits_movers (p) : (s.takeWaits p).movers = s.movers := by
  grind [State.takeWaits, each_movers, State.takeWait_movers]

@[simp] theorem State.complete_movers (p sel) : (s.complete p sel).movers = s.movers := by
  grind [State.complete, each_movers, State.setQueue_movers, State.disarm_movers, State.setPart_movers, State.notice_movers]

/-! ### Engines that stop, and a tile that has nothing left -/

@[simp] theorem State.dropWalk_movers (t e) : (s.dropWalk t e).movers = s.movers := by
  grind [State.dropWalk, State.setTile_movers]

@[simp] theorem State.stopEngine_movers (t e) : (s.stopEngine t e).movers = s.movers :=
  (State.clearScalars_movers ..).trans ((State.setEng_movers ..).trans (s.dropWalk_movers t e))

@[simp] theorem State.reloadTile_movers (t) : (s.reloadTile t).movers = s.movers := by
  grind [State.reloadTile, each_movers, State.setPosterW_movers, State.setTr_movers]

@[simp] theorem State.settle_movers (t) : (s.settle t).movers = s.movers := by
  grind [State.settle, State.reloadTile_movers, State.setTile_movers]

@[simp] theorem State.stopTile_movers (t all) : (s.stopTile t all).movers = s.movers := by
  grind [State.stopTile, State.setTile_movers, each_movers, State.stopEngine_movers, State.settle_movers]

@[simp] theorem State.windowEnd_movers (t) : (s.windowEnd t).movers = s.movers := by
  grind [State.windowEnd, State.latchCounters, each_movers, State.setReg_movers, State.setTile_movers]

@[simp] theorem State.closeWindow_movers (t) : (s.closeWindow t).movers = s.movers := by
  grind [State.closeWindow, State.windowEnd_movers, State.setTile_movers]

/-! ### Losses and posts -/

@[simp] theorem State.loseCtx_movers (p c code w place addr parts) : (s.loseCtx p c code w place addr parts).movers = s.movers := by
  grind [State.loseCtx, State.lightP_movers, State.setCtx_movers, each_movers, State.stopTile_movers, State.setQueue_movers, State.complete_movers,
    State.forceSignal_movers, State.takeWaits_movers, State.notice_movers]

@[simp] theorem State.loseAt_movers (t code e q d addr parts) : (s.loseAt t code e q d addr parts).movers = s.movers := by
  grind [State.loseAt, State.loseCtx_movers]

@[simp] theorem State.engFault_movers (t e code) : (s.engFault t e code).movers = s.movers := by
  grind [State.engFault, State.faultAtPc, State.setEng_movers, State.dropWalk_movers, State.trace_movers, State.loseAt_movers, State.raiseTile_movers]

@[simp] theorem State.addSem_movers (t n k who) : (s.addSem t n k who).1.movers = s.movers := by
  grind [State.addSem, State.setSem, State.setPosterW_movers, State.setTr_movers]

@[simp] theorem State.post_movers (t n k who src e) : (s.post t n k who src e).movers = s.movers := by
  grind [State.post, State.semOverflow, State.addSem_movers, State.loseAt_movers, State.engFault_movers]

@[simp] theorem State.opPost_movers (t g n e q) : (s.opPost t g n e q).movers = s.movers := by
  grind [State.opPost, State.post_movers]

/-- R229: the posts of a completed stream. -/
@[simp] theorem State.streamPosts_movers (t q x) : (s.streamPosts t q x).movers = s.movers := by
  grind [State.streamPosts, State.sendPost, each_movers, State.inject_movers, State.opPost_movers]

end

/-! ### Messages to the host -/

/-- Messages that are sent change what has been sent alone. -/
theorem each_send_frame {β : Type} (l : List β) (f : β → Out) (s : State) :
    (each s l fun u x => u.send (f x)) = { s with out := (each s l fun u x => u.send (f x)).out } := by
  induction l generalizing s with
  | nil => rfl
  | cons x l ih => exact ih (s.send (f x))

section
variable (s : State)

/-- R316: the answers to ATS Invalidate Requests change what is sent and what waits alone. -/
theorem State.settleAts_frame : s.settleAts = { s with atsWait := s.settleAts.atsWait, out := s.settleAts.out } := by
  unfold State.settleAts
  dsimp only
  rw [each_send_frame]

@[simp] theorem State.settleAts_movers : s.settleAts.movers = s.movers := by
  rw [s.settleAts_frame]
  rfl

theorem State.settleAts_engAt (t : TileId) (e : EngId) : s.settleAts.engAt t e = s.engAt t e := by
  rw [s.settleAts_frame]
  rfl

theorem State.settleAts_bucketOf (t : TileId) (k : Nat) : s.settleAts.bucketOf t k = s.bucketOf t k := by
  rw [s.settleAts_frame]
  rfl

end

end Sys2Proof.Machine
end

/-! ## The mover's faults and stops (R237 to R243) -/

section
namespace Sys2Proof.Machine

section
variable (s : State) (t : TileId)

/-! ### What a queue keeps -/

theorem State.movq_setMovq (q : Nat) (u : TileId) (k : Nat) (v : MovQ) :
    (s.setMovq t q v).movq_ u k = if u.toNat * 4 + k = t.toNat * 4 + q then v else s.movq_ u k := by
  split
  next hkey => exact (congrArg (look _ _) hkey).trans (s.movqAt_setMovq t q v)
  next hkey => exact look_put_other _ _ _ hkey

@[simp] theorem State.movEngineFault_movers (code) : (s.movEngineFault t code).movers = s.movers := by
  grind [State.movEngineFault, State.setEng_movers]

@[simp] theorem State.movEngineStop_movers (code) : (s.movEngineStop t code).movers = s.movers := by
  grind [State.movEngineStop, State.setEng_movers]

/-! ### Faults (R243) -/

/-- R243: a queue that has faulted with a code holds it, and its stop record is dropped. -/
def MovQ.Faulted (m : MovQ) (code : Nat) : Prop := m.faulted = true ∧ m.code = BitVec.ofNat 8 code ∧ m.stop.valid = false

theorem State.movFault_faulted (i : Option Nat) (f : MFault) : ((s.movFault t i f).movq_ t f.q).Faulted f.code := by
  unfold State.movFault
  rw [State.movq_of_movers (State.loseAt_movers ..), State.movq_of_movers (State.movEngineFault_movers ..),
    State.movq_of_movers (State.raiseTile_movers ..), State.movq_of_movers (State.trace_movers ..)]
  simp only [State.movq_of_movers (State.setTr_movers ..), State.movqAt_setMovq]
  exact ⟨rfl, rfl, rfl⟩

theorem State.midFault_faulted (i : Nat) (x : Stream) (p : Option Pos) (f : MFault) : ((s.midFault t i x p f).movq_ t f.q).Faulted f.code :=
  State.movFault_faulted ..

theorem State.xferFault_faulted (q : Nat) (x : Stream) (f : Xfer) (code : Nat) (mask : W64) : ((s.xferFault t q x f code mask).movq_ t q).Faulted code :=
  State.midFault_faulted ..

/-- R242: the code that a stop converted to a fault gives its queue. -/
theorem State.movStopFault_faulted {q : Nat} (code : Byte) (hvalid : (s.movq_ t q).stop.valid = true) : ((s.movStopFault t q code).movq_ t q).Faulted
    (if 0x20 ≤ code.toNat ∧ code.toNat ≤ 0x7F then code.toNat else if (s.movq_ t q).stop.code = 0x10 then 0x34 else 0x56) := by
  simp only [State.movStopFault, hvalid, Bool.not_true, Bool.false_eq_true, if_false]
  split
  · exact State.movFault_faulted ..
  · exact State.midFault_faulted ..

end

/-! ### Refusals (R237, R241) -/

section
variable {s : State} {t : TileId}

theorem MovQ.why_of_runs {m : MovQ} (h : m.runs = true) : m.why = none := by
  simp only [MovQ.runs, Bool.and_eq_true, Option.isNone_iff_eq_none] at h
  exact h.1.2

/-- The far side of a HOST transfer stands in no power domain. -/
theorem State.farDoms_host {d : DescV} {f : Xfer} (hspace : d.space = 4) (hpage : f.page = none) : s.farDoms t d f = [] := by
  simp [State.farDoms, hspace, hpage]

/-- A transfer of no page looks up none. -/
theorem State.xferPage_none {d : DescV} (f : Xfer) (h : ¬(d.space = 1 ∨ d.space = 2)) : s.xferPage t d f = (s, none) := if_neg h

/-- R241: why the next HOST transfer stops. -/
theorem State.nextWhy_host {d : DescV} {f : Xfer} (hspace : d.space = 4) (hpage : f.page = none) (x : Xlat) :
    s.nextWhy t d f x = (s, (xlatReason x).map (hostWhy d f)) := by
  have hnone : s.xferPage t d f = (s, none) := State.xferPage_none f (by omega)
  simp [State.nextWhy, hnone, State.shutDom, State.farDoms_host hspace hpage, hspace]

/-- R237, R241: the next transfer of a running queue, to the host, finds no translation: the queue stops. -/
theorem State.refuse_host {q i : Nat} {y : Stream} {p : Pos} {x : Xlat} {n : Nat} (hreason : xlatReason x = some n) (hrun : (s.movq_ t q).runs = true)
    (hflight : (s.movq_ t q).inflight = []) (hnext : (s.movq_ t q).upcoming = some (i, y, p)) (hruns : s.runs t = true) (hlimit : 0 < s.outLimit t q)
    (htoken : s.hasToken t (y.d.cls t) = true) (hspace : y.d.space = 4) :
    s.refuse t q x = s.setMovq t q { s.movq_ t q with why := some (hostWhy y.d (y.xfer i p) n) } := by
  have hfree : ¬((s.movq_ t q).faulted = true ∨ (s.movq_ t q).stop.valid = true) := by
    simp only [MovQ.runs, Bool.and_eq_true, Bool.not_eq_true'] at hrun
    simp [hrun]
  have hmay : ¬((!(s.movq_ t q).runs) = true ∨ (!s.runs t) = true ∨ s.outLimit t q ≤ 0 ∨ (!s.hasToken t (y.d.cls t)) = true) := by
    simp [hrun, hruns, htoken, Nat.pos_iff_ne_zero.1 hlimit]
  have hwhy : s.nextWhy t y.d (y.xfer i p) x = (s, some (hostWhy y.d (y.xfer i p) n)) := by
    rw [State.nextWhy_host hspace rfl, hreason, Option.map_some]
  simp only [State.refuse, if_neg hfree, hflight, List.findSome?_nil, hnext, List.length_nil, if_neg hmay, hwhy, MovQ.addWhy, MovQ.why_of_runs hrun]

end

/-! ### Page request groups (R241) -/

section
variable (s : State) (t : TileId)

/-- R241: a group that sets out leaves its index in the stop record of its queue, and nothing else of any queue changes. -/
theorem State.sendPrg_movq (w : PrgWait) (q : Nat) :
    ∃ g, (s.sendPrg w).movq_ t q = { s.movq_ t q with stop := { (s.movq_ t q).stop with prgi := g } } := by
  unfold State.sendPrg
  split
  · exact ⟨(s.movq_ t q).stop.prgi, rfl⟩
  next i _ =>
  dsimp only
  rw [each_send_frame]
  have hset := fun (u : State) v => u.movq_setMovq w.tile w.q.toNat t q v
  by_cases hkey : t.toNat * 4 + q = w.tile.toNat * 4 + w.q.toNat
  · have hsame : s.movq_ w.tile w.q.toNat = s.movq_ t q := congrArg (look _ _) hkey.symm
    refine ⟨i, (hset _ _).trans ((if_pos hkey).trans ?_)⟩
    rw [← hsame]
    rfl
  · exact ⟨(s.movq_ t q).stop.prgi, (hset _ _).trans (if_neg hkey)⟩

theorem State.sendPrg_engAt (w : PrgWait) (e : EngId) : (s.sendPrg w).engAt t e = s.engAt t e := by
  unfold State.sendPrg
  split
  · rfl
  · dsimp only
    rw [each_send_frame]
    rfl

theorem State.raiseTile_engAt (u : TileId) (base : Nat) (e : EngId) : (s.raiseTile u base).engAt t e = s.engAt t e := by
  unfold State.raiseTile State.raise State.ordered
  dsimp only
  split_ifs <;> rfl

/-- R241: the next group of a function that waits for an index sets out. -/
def State.nextPrg (fn : Option PartId) : State :=
  match s.prgWait.find? fun w => decide (w.fn = fn) with
  | none => s
  | some w => { s with prgWait := s.prgWait.erase w }.sendPrg w

theorem State.nextPrg_movq (fn : Option PartId) (q : Nat) :
    ∃ g, (s.nextPrg fn).movq_ t q = { s.movq_ t q with stop := { (s.movq_ t q).stop with prgi := g } } := by
  unfold State.nextPrg
  split
  · exact ⟨(s.movq_ t q).stop.prgi, rfl⟩
  · exact State.sendPrg_movq _ t _ q

variable {s t}

/-- R241: an answer to the group that a stop record names enters it, and an index is free. -/
theorem State.prgAnswer_eq {fn : Option PartId} {i : BitVec 9} {q : BitVec 2} (ok : Bool)
    (hgroup : (s.prg.find? fun g => decide (g.1 = fn) && decide (g.2.1 = i)) = some (fn, i, t, q)) (hprg : (s.movq_ t q.toNat).stop.prg = 1)
    (hindex : (s.movq_ t q.toNat).stop.prgi = i) :
    let u : State := { s with prg := s.prg.filter fun x => !(decide (x.1 = fn) && decide (x.2.1 = i)) }
    s.prgAnswer fn i ok = ((u.setMovq t q.toNat
      { s.movq_ t q.toNat with stop := { (s.movq_ t q.toNat).stop with prg := if ok then 2 else 3 } }).raiseTile t 64).nextPrg fn := by
  unfold State.prgAnswer
  simp only [hgroup]
  rw [if_pos ⟨hprg, hindex⟩]
  rfl

/-- R241: it says whether the group succeeded. -/
theorem State.prgAnswer_tells {fn : Option PartId} {i : BitVec 9} {q : BitVec 2} (ok : Bool)
    (hgroup : (s.prg.find? fun g => decide (g.1 = fn) && decide (g.2.1 = i)) = some (fn, i, t, q)) (hprg : (s.movq_ t q.toNat).stop.prg = 1)
    (hindex : (s.movq_ t q.toNat).stop.prgi = i) : ((s.prgAnswer fn i ok).movq_ t q.toNat).stop.prg = if ok then 2 else 3 := by
  rw [State.prgAnswer_eq ok hgroup hprg hindex]
  obtain ⟨g, hsent⟩ := State.nextPrg_movq _ t fn q.toNat
  rw [hsent, State.movq_of_movers (State.raiseTile_movers ..), State.movqAt_setMovq]

/-! ### Stop records (R238) -/

/-- R238: a running MOV engine stops. -/
theorem State.movEngineStop_engAt {code : Nat} (hrun : (s.engAt t 2).st = .run) : ((s.movEngineStop t code).engAt t 2).st = .stopped := by
  simp only [State.movEngineStop, hrun, State.engAt_setEng]

theorem State.setReg_engAt (a : Nat) (w : W32) (e : EngId) : (s.setReg a w).engAt t e = s.engAt t e := rfl

theorem State.incReg_engAt (a hi lo n : Nat) (e : EngId) : (s.incReg a hi lo n).engAt t e = s.engAt t e := State.setReg_engAt ..

theorem State.lightP_engAt (p : Option PartId) (n k : Nat) (e : EngId) : (s.lightP p n k).engAt t e = s.engAt t e := by
  cases p with
  | none => rfl
  | some p => exact (State.setReg_engAt ..).trans (State.setReg_engAt ..)

/-- R238: a queue that stops with nothing outstanding writes its stop record, of where its next transfer stands, and the running engine stops. -/
theorem State.stopRecord_writes {q i : Nat} {w : StopWhy} {y : Stream} {p : Pos} (hwhy : (s.movq_ t q).why = some w)
    (hflight : (s.movq_ t q).inflight = []) (hnext : (s.movq_ t q).upcoming = some (i, y, p)) (hstream : (s.movq_ t q).streams[i - (s.movq_ t q).base]? = some y) :
    (let m := (s.stopRecord t q).movq_ t q
     m.stop.valid = true ∧ m.stop.code = w.code ∧ m.stop.reason = w.reason ∧ m.stop.addr = y.farAt p ∧ m.why = none)
      ∧ ((s.engAt t 2).st = .run → ((s.stopRecord t q).engAt t 2).st = .stopped) := by
  have hsent : ∀ (b : Prop) [Decidable b] (u : State) (x : PrgWait), (∃ g, ((if b then u.sendPrg x else u).raiseTile t 64).movq_ t q
      = { u.movq_ t q with stop := { (u.movq_ t q).stop with prgi := g } }) ∧ ((if b then u.sendPrg x else u).raiseTile t 64).engAt t 2 = u.engAt t 2 := by
    intro b _ u x
    rw [State.movq_of_movers (State.raiseTile_movers ..), State.raiseTile_engAt]
    split
    · exact ⟨u.sendPrg_movq t x q, u.sendPrg_engAt t x 2⟩
    · exact ⟨⟨_, rfl⟩, rfl⟩
  simp only [State.stopRecord, hwhy, hflight, hnext, List.any_nil, Bool.false_eq_true, if_false, Option.map_some, hstream]
  obtain ⟨⟨g, hqueue⟩, heng⟩ := hsent (w.code = 0x12) _ _
  rw [hqueue, heng]
  rw [State.movq_of_movers (State.movEngineStop_movers ..), State.movq_of_movers (State.trace_movers ..), State.movq_of_movers (State.lightP_movers ..),
    State.movq_of_movers (State.incReg_movers ..), State.movqAt_setMovq]
  refine ⟨⟨rfl, rfl, rfl, rfl, rfl⟩, fun hrun => State.movEngineStop_engAt ?_⟩
  rw [State.trace_engAt, State.lightP_engAt, State.incReg_engAt]
  exact hrun

/-- R242: a valid stop with no group outstanding is resumed. -/
theorem State.movResume_clears {q : Nat} (hvalid : (s.movq_ t q).stop.valid = true) (hprg : (s.movq_ t q).stop.prg ≠ 1) :
    s.movResume t q = ((s.setMovq t q { s.movq_ t q with stop := { (s.movq_ t q).stop with valid := false } }).trace t 0x05 2 (s.movq_ t q).stop.addr.toNat
      ((s.movq_ t q).stop.code.toNat + (s.movq_ t q).stop.reason.toNat * 256 + q * 2 ^ 11)).movEngineGo t := by
  simp only [State.movResume, hvalid, hprg, Bool.not_true, Bool.false_eq_true, or_self, if_false]

/-- R242: a resume is discarded while the group is outstanding. -/
theorem State.movResume_waits {q : Nat} (hprg : (s.movq_ t q).stop.prg = 1) : s.movResume t q = s := if_pos (.inr hprg)

end

end Sys2Proof.Machine

open Sys2Proof Sys2Proof.Machine

/-- Settles O27: each command is one case of an operation on a stopped queue. -/
theorem moverStops : Obligations.MoverStops := by
  unfold Obligations.MoverStops
  intro s t q code r
  refine ⟨fun i y p _ _ hflight hnext hrun hruns hlimit htoken hspace => ?_, fun w i y p hwhy hflight hnext hstream => ?_,
    fun fn ix ok hgroup hprg hindex hreq => ⟨_, rfl, ?_⟩, fun hreq hvalid => ⟨fun hprg => ?_, fun hprg => ?_, ?_⟩⟩
  · exact congrArg Host.Outcome.next (State.refuse_host (n := 0) rfl hrun hflight hnext hruns hlimit htoken hspace)
  · obtain ⟨⟨hvalid, hcode, hreason, haddr, hcleared⟩, hengine⟩ := State.stopRecord_writes hwhy hflight hnext hstream
    refine ⟨_, rfl, ?_⟩
    rw [State.movq_of_movers (State.settleAts_movers _), State.settleAts_engAt]
    exact ⟨hvalid, hcode, hreason, haddr, hcleared, hengine⟩
  · have hfn : fnReq r = some fn := by
      rw [hreq]
      cases fn <;> rfl
    rw [hfn]
    exact State.prgAnswer_tells ok hgroup hprg hindex
  · exact (s.next_onTile _ hreq).trans (congrArg Host.Outcome.next (State.movResume_clears hvalid hprg))
  · exact (s.next_onTile _ hreq).trans (congrArg Host.Outcome.next (State.movResume_waits hprg))
  · obtain ⟨hfaulted, hcode, hcleared⟩ := s.movStopFault_faulted t code hvalid
    refine ⟨_, s.next_onTile _ hreq, ?_⟩
    rw [State.movq_of_movers (State.settleAts_movers _)]
    refine ⟨hfaulted, hcleared, hcode.trans ?_⟩
    split_ifs
    · exact BitVec.ofNat_toNat ..
    · rfl
    · rfl

end

/-! ## The start of a stream (R219, R222, R223, R226 to R229) -/

section
namespace Sys2Proof.Machine

/-! ### A descriptor without a generator's offsets (R133, R227) -/

section
variable {w : List W32}

theorem set_getD_self {i : Nat} (h : i < w.length) : w.set i (w.getD i 0) = w := by
  rw [List.getD_eq_getElem _ _ h, List.set_getElem_self]

/-- A field that is set to what it holds changes no word. -/
theorem setFld_fld (x : W32) (hi lo : Nat) : setFld x hi lo (fld x hi lo) = x := by
  refine BitVec.eq_of_getLsbD_eq fun j hj => ?_
  rw [getLsbD_setFld x hi lo _ hj]
  split
  next hin =>
    have hplace : lo + (j - lo) = j := by omega
    rw [testBit_fld, hplace, decide_eq_true (by omega), Bool.true_and]
  · rfl

theorem descOf_far (w : List W32) : (descOf w).far = (w.getD 0 0).toNat + (w.getD 1 0).toNat * 2 ^ 32 := rfl

theorem descOf_mline (w : List W32) : (descOf w).mline = fld (w.getD 11 0) 11 0 := rfl

theorem descOf_mline_lt (w : List W32) : (descOf w).mline < 4096 := Nat.mod_lt _ (by decide)

theorem descOf_far_lt (w : List W32) : (descOf w).far < 2 ^ 64 := by
  have hlow := (w.getD 0 0).isLt
  have hhigh := (w.getD 1 0).isLt
  rw [descOf_far]
  omega

/-- R133: far and mline stay in their fields. -/
theorem latched_fits (w : List W32) :
    ¬(((descOf w).far : Int) < 0 ∨ 2 ^ 64 ≤ ((descOf w).far : Int) ∨ ((descOf w).mline : Int) < 0 ∨ 4096 ≤ ((descOf w).mline : Int)) := by
  have hfar := descOf_far_lt w
  have hline := descOf_mline_lt w
  omega

/-- R219: the words of far and mline that a stream latches are the descriptor's own. -/
theorem latched_words (h : w.length = 16) :
    let far : Int := (descOf w).far
    let v := (w.set 0 (BitVec.ofInt 32 far)).set 1 (BitVec.ofInt 32 (far / 2 ^ 32))
    v.set 11 (setFld (v.getD 11 0) 11 0 (((descOf w).mline : Int) % 4096).toNat) = w := by
  have hlow := (w.getD 0 0).isLt
  have hhigh := (w.getD 1 0).isLt
  have hfar := descOf_far w
  have hzero : BitVec.ofInt 32 ((descOf w).far : Int) = w.getD 0 0 := BitVec.eq_of_toNat_eq (by rw [BitVec.toNat_ofInt]; omega)
  have hone : BitVec.ofInt 32 (((descOf w).far : Int) / 2 ^ 32) = w.getD 1 0 := BitVec.eq_of_toNat_eq (by rw [BitVec.toNat_ofInt]; omega)
  have hline : (((descOf w).mline : Int) % 4096).toNat = fld (w.getD 11 0) 11 0 := by
    have := descOf_mline_lt w
    rw [← descOf_mline]
    omega
  simp only [hzero, hone, hline, set_getD_self (by omega : 0 < w.length), set_getD_self (by omega : 1 < w.length), setFld_fld,
    set_getD_self (by omega : 11 < w.length)]

end

/-! ### Streams that complete meanwhile (R226, R228, R229) -/

section
variable (s : State) (t : TileId)

theorem State.movd_setMovd_other {d e : Nat} (v : MovD) (h : e ≠ d) : (s.setMovd t d v).movd_ t e = s.movd_ t e :=
  look_put_other _ _ _ fun hkey => h (by omega)

theorem State.enterQueue_streams (a : Arm) (q : Nat) : ((s.enterQueue t a).movq_ t q).streams = (s.movq_ t q).streams := by
  refine (congrArg MovQ.streams (s.movq_setMovq t _ t q _)).trans ?_
  split
  next hkey => exact congrArg (fun k => (look (fun _ => ({} : MovQ)) s.movq k).streams) hkey.symm
  · rfl

theorem State.enterQueue_running (a : Arm) (d : Nat) : ((s.enterQueue t a).movd_ t d).running = (s.movd_ t d).running := by
  by_cases hd : d = a.desc.toNat
  · subst hd
    exact (congrArg MovD.running (State.movdAt_setMovd ..)).trans rfl
  · exact congrArg MovD.running (State.movd_setMovd_other _ _ _ hd)

variable (q : Nat) (x : Stream)

/-- R226: of the streams that stand in queues a completed one leaves all as they are. -/
theorem State.streamDone_streams (k : Nat) : ((s.streamDone t q x).movq_ t k).streams = (s.movq_ t k).streams := by
  unfold State.streamDone
  dsimp only
  split
  · rw [State.movq_of_movers (State.streamPosts_movers ..)]
  · rw [State.movq_of_movers (State.streamPosts_movers ..)]
    have htraced := fun ty unit place info => State.movq_of_movers (s.trace_movers t ty unit place info) t k
    split
    · exact congrArg MovQ.streams (htraced ..)
    · exact (State.enterQueue_streams ..).trans (congrArg MovQ.streams (htraced ..))

/-- R226: no other descriptor's stream ends with it. -/
theorem State.streamDone_running {d : BitVec 3} (hd : x.arm.desc ≠ d) : ((s.streamDone t q x).movd_ t d.toNat).running = (s.movd_ t d.toNat).running := by
  have hother : d.toNat ≠ x.arm.desc.toNat := fun heq => hd (BitVec.eq_of_toNat_eq heq.symm)
  unfold State.streamDone
  dsimp only
  split
  · rw [State.movd_of_movers (State.streamPosts_movers ..)]
  · rw [State.movd_of_movers (State.streamPosts_movers ..)]
    have hended := fun ty unit place info v => congrArg MovD.running
      (((s.trace t ty unit place info).movd_setMovd_other t v hother).trans (State.movd_of_movers (s.trace_movers t ty unit place info) t d.toNat))
    split
    · exact hended ..
    · exact (State.enterQueue_running ..).trans (hended ..)

end

/-- R228: the stream `x` stands last in a queue with a transfer to admit, its descriptor is running, and no stream before it is of that descriptor. -/
structure State.Last (s : State) (t : TileId) (q : Nat) (x : Stream) (l : List Stream) : Prop where
  streams : (s.movq_ t q).streams = l ++ [x]
  next : x.next.isSome = true
  running : (s.movd_ t x.arm.desc.toNat).running = true
  other : ∀ y ∈ l, y.arm.desc ≠ x.arm.desc

/-- R228: the streams before it complete; it goes on. -/
theorem State.Last.completeStreams {s : State} {t : TileId} {q : Nat} {x : Stream} {l : List Stream} (h : s.Last t q x l) (k : Nat) :
    ∃ m, (s.completeStreams t q k).Last t q x m := by
  induction k generalizing s l with
  | zero => exact ⟨l, h⟩
  | succ k ih =>
    obtain ⟨hstreams, hnext, hrunning, hother⟩ := h
    cases l with
    | nil =>
      rw [List.nil_append] at hstreams
      refine ⟨[], ?_⟩
      simp only [State.completeStreams, hstreams, hnext, true_or, if_true]
      exact ⟨hstreams, hnext, hrunning, hother⟩
    | cons y l =>
      rw [List.cons_append] at hstreams
      simp only [State.completeStreams, hstreams]
      split
      · exact ⟨y :: l, hstreams, hnext, hrunning, hother⟩
      · refine ih ⟨?_, hnext, ?_, fun z hz => hother z (List.mem_cons_of_mem y hz)⟩
        · rw [State.streamDone_streams, State.movqAt_setMovq]
        · rw [State.streamDone_running _ _ _ _ (hother y List.mem_cons_self)]
          exact hrunning

theorem State.Last.of_movers {s u : State} {t : TileId} {q : Nat} {x : Stream} {l : List Stream} (h : s.Last t q x l) (hu : u.movers = s.movers) :
    u.Last t q x l :=
  ⟨(congrArg MovQ.streams (State.movq_of_movers hu t q)).trans h.streams, h.next,
    (congrArg MovD.running (State.movd_of_movers hu t _)).trans h.running, h.other⟩

theorem State.Last.finishQueue {s : State} {t : TileId} {q : Nat} {x : Stream} {l : List Stream} (h : s.Last t q x l) :
    ∃ m, (s.finishQueue t q).Last t q x m := by
  obtain ⟨m, hm⟩ := h.completeStreams (s.movq_ t q).streams.length
  exact ⟨m, hm.of_movers ((State.closeWindow_movers ..).trans (State.settle_movers ..))⟩

/-! ### The start -/

/-- R219: the descriptor that an arming names, as it stands. -/
def State.armDesc (s : State) (t : TileId) (a : Arm) : DescV := descOf (s.descWords t a.desc.toNat)

/-- R236: its rows. -/
def State.armRows (s : State) (t : TileId) (a : Arm) : Nat := a.n1.getD (s.armDesc t a).c1

/-- R223: the fault that its start meets where no generator moves it; 0 for none. -/
def State.armFault (s : State) (t : TileId) (p : PartId) (a : Arm) : Nat :=
  s.startFault t p a (s.descWords t a.desc.toNat) (s.armDesc t a) (s.armRows t a)

/-- R219, R222: its stream without a mask, before its first transfer. -/
def State.plainStream (s : State) (t : TileId) (a : Arm) : Stream :=
  { arm := a, words := s.descWords t a.desc.toNat, n1 := s.armRows t a, mask := [], next := none, parts := (s.armDesc t a).parts, bytes := 0,
    fabStarted := false }

/-- R228: a running queue of partition `p`'s tile whose streams have admitted every transfer starts its first arming, which no generator moves. -/
structure State.Starts (s : State) (t : TileId) (q : Nat) (a : Arm) (l : List Arm) (p : PartId) : Prop where
  arms : (s.movq_ t q).arms = a :: l
  part : s.partOf t = some p
  queue : (s.movq_ t q).runs = true
  tile : s.runs t = true
  admitted : ∀ y ∈ (s.movq_ t q).streams, y.next = none
  far : a.farOfs = 0
  mline : a.mlineOfs = 0

/-- R219, R226: the arming has left its queue, and its descriptor is RUNNING. -/
def State.begun (s : State) (t : TileId) (q : Nat) (a : Arm) (l : List Arm) : State :=
  (s.setMovq t q { s.movq_ t q with arms := l }).setMovd t a.desc.toNat { s.movd_ t a.desc.toNat with armed := false, running := true }

theorem State.begun_movq (s : State) (t : TileId) (q : Nat) (a : Arm) (l : List Arm) : (s.begun t q a l).movq_ t q = { s.movq_ t q with arms := l } :=
  s.movqAt_setMovq t q _

theorem State.begun_running (s : State) (t : TileId) (q : Nat) (a : Arm) (l : List Arm) : ((s.begun t q a l).movd_ t a.desc.toNat).running = true :=
  (congrArg MovD.running (State.movdAt_setMovd ..)).trans rfl

section
variable {s : State} {t : TileId} {q : Nat} {a : Arm} {l : List Arm} {p : PartId} (h : s.Starts t q a l p) (y : State)
include h

/-- R219, R223: what a start does: the fault of its descriptor, a wait or poison at its mask, or its stream. -/
theorem State.Starts.startStream_eq :
    let d := s.armDesc t a
    let n1 := s.armRows t a
    s.startStream y t q =
      if s.armFault t p a ≠ 0 then (s.begun t q a l).movFault t none
        { code := s.armFault t p a, q := q, desc := a.desc.toNat, parts := min 64 (max 1 d.parts), mask := 0, addr := d.far }
      else if d.msk ∧ s.quarHeld t (d.mline * 64) ((n1 + 7) / 8) then s
      else if d.msk ∧ y.spadBad t (d.mline * 64) ((n1 + 7) / 8) then s.movPoison t q .spad (d.mline * 64)
      else
        let x : Stream := { s.plainStream t a with mask := if d.msk then y.readMask t d.mline n1 else [] }
        let m := (s.begun t q a l).movq_ t q
        ((s.begun t q a l).setMovq t q { m with streams := m.streams ++ [{ x with next := x.first }] }).finishQueue t q := by
  obtain ⟨harms, hpart, hqueue, htile, hadmitted, hfar, hmline⟩ := h
  have hgo : ¬((!(s.movq_ t q).runs) = true ∨ (!s.runs t) = true ∨ ((s.movq_ t q).streams.any fun x => x.next.isSome) = true) := by
    simpa [hqueue, htile] using hadmitted
  have hwords := latched_words (w := s.descWords t a.desc.toNat) (by simp [State.descWords])
  have hzero : (0 : BitVec 32).toInt = 0 := rfl
  simp only at hwords
  simp only [State.startStream, harms, hpart, if_neg hgo, hfar, hmline, hzero, Int.add_zero, hwords, if_neg (latched_fits _), Int.toNat_natCast]
  rfl

/-- R222, R223: where every check passes and no mask is to be read, the stream stands last in its queue with its first transfer next. -/
theorem State.Starts.startStream_last (hchecked : s.armFault t p a = 0) (hmask : (s.armDesc t a).msk = false) (hfirst : (s.plainStream t a).first ≠ none)
    (hother : ∀ x ∈ (s.movq_ t q).streams, x.arm.desc ≠ a.desc) :
    ∃ m, (s.startStream y t q).Last t q { s.plainStream t a with next := (s.plainStream t a).first } m := by
  rw [h.startStream_eq y, if_neg (not_not_intro hchecked)]
  simp only [hmask, Bool.false_eq_true, false_and, if_false]
  refine State.Last.finishQueue (l := (s.movq_ t q).streams) ⟨?_, Option.isSome_iff_ne_none.2 hfirst, ?_, hother⟩
  · rw [State.movqAt_setMovq, State.begun_movq]
    rfl
  · exact s.begun_running t q a l

/-- R223, R243: where a check fails, the queue faults with its code. -/
theorem State.Starts.startStream_faulted (hfails : s.armFault t p a ≠ 0) : ((s.startStream y t q).movq_ t q).Faulted (s.armFault t p a) := by
  rw [h.startStream_eq y, if_pos hfails]
  exact State.movFault_faulted ..

end

end Sys2Proof.Machine

open Sys2Proof Sys2Proof.Machine

/-- Settles O25: a start is decided by the checks of its descriptor; what completes with it are streams before it in its queue. -/
theorem streamsStart : Obligations.StreamsStart := by
  unfold Obligations.StreamsStart
  intro s t q a l p m w d n1 x harms hpart hqueue htile hstreams hfar hmline
  have hstarts : s.Starts t q.toNat a l p := ⟨harms, hpart, hqueue, htile, fun y hy => (hstreams y hy).1, hfar, hmline⟩
  refine ⟨fun hchecked hmask hfirst => ?_, fun hfails => ?_⟩
  · obtain ⟨before, hlast⟩ := hstarts.startStream_last (s.racy t .other) hchecked hmask hfirst fun y hy => (hstreams y hy).2
    have hsettled := hlast.of_movers (State.settleAts_movers _)
    refine ⟨_, rfl, ?_, hsettled.running⟩
    rw [hsettled.streams]
    exact List.getLast?_concat
  · obtain ⟨hfaulted, hcode, -⟩ := hstarts.startStream_faulted (s.racy t .other) hfails
    refine ⟨_, rfl, ?_⟩
    rw [State.movq_of_movers (State.settleAts_movers _)]
    exact ⟨hfaulted, hcode⟩

end

/-! ## Transfers: admission and retirement (R205, R228 to R233, R241, R245) -/

section
namespace Sys2Proof.Machine

/-! ### Admission -/

/-- Packets that set out change the canal alone. -/
theorem each_inject_frame {β : Type} (l : List β) (f : β → CanPkt) (s : State) :
    (each s l fun u x => u.inject (f x)) = { s with canal := (each s l fun u x => u.inject (f x)).canal } := by
  induction l generalizing s with
  | nil => rfl
  | cons x l ih => exact ih (s.inject (f x))

section
variable (s : State) (t : TileId)

/-- R269: the requests of a transfer change the canal alone. -/
theorem State.sendXfer_frame (q i : Nat) (d : DescV) (f : Xfer) : s.sendXfer t q i d f = { s with canal := (s.sendXfer t q i d f).canal } :=
  each_inject_frame ..

@[simp] theorem State.sendXfer_movers (q i d f) : (s.sendXfer t q i d f).movers = s.movers := by
  rw [s.sendXfer_frame]
  rfl

theorem State.sendXfer_bucketOf (q i : Nat) (d : DescV) (f : Xfer) (k : Nat) : (s.sendXfer t q i d f).bucketOf t k = s.bucketOf t k := by
  rw [s.sendXfer_frame]
  rfl

@[simp] theorem State.charge_movers (k n) : (s.charge t k n).movers = s.movers := rfl

theorem State.charge_bucketOf (k n : Nat) : (s.charge t k n).bucketOf t k = s.bucketOf t k + (100 * n : Nat) := State.bucketOf_setBucket ..

theorem State.setMovq_bucketOf (q : Nat) (m : MovQ) (k : Nat) : (s.setMovq t q m).bucketOf t k = s.bucketOf t k := rfl

theorem State.setTile_bucketOf (v : Tile) (k : Nat) : (s.setTile t v).bucketOf t k = s.bucketOf t k := rfl

end

section
variable {s : State} {t : TileId} {q i : Nat} {y : Stream} {p : Pos}

/-- R230 to R232: what an admission leaves: the transfer last in flight, its stream's next moved on, its bucket charged the unit. -/
theorem State.enterXfer_admits (s : State) (t : TileId) (q i : Nat) (y : Stream) (f : Xfer) :
    let m := s.movq_ t q
    let u := s.enterXfer t q i y f
    (∃ g, (u.movq_ t q).inflight = m.inflight ++ [g] ∧ g.stream = f.stream ∧ g.pos = f.pos ∧ g.refused = f.refused ∧ g.done = f.done)
      ∧ (u.movq_ t q).streams = m.streams.set (i - m.base) { y with next := y.after f.pos, fabStarted := true }
      ∧ u.bucketOf t (y.d.cls t) = s.bucketOf t (y.d.cls t) + (100 * y.d.unit : Nat) := by
  unfold State.enterXfer
  dsimp only
  rw [State.movq_of_movers (State.sendXfer_movers ..), State.movq_of_movers (State.charge_movers ..), State.movqAt_setMovq, State.sendXfer_bucketOf]
  refine ⟨⟨_, rfl, rfl, rfl, rfl, rfl⟩, rfl, (State.charge_bucketOf ..).trans ?_⟩
  rw [State.setMovq_bucketOf, State.setTile_bucketOf]
  rfl

variable (hnext : (s.movq_ t q).upcoming = some (i, y, p))
include hnext

/-- R231: a running queue under its limit, with a token for its next transfer, which nothing holds. -/
theorem State.mayAdmit_next (hrun : (s.movq_ t q).runs = true) (hruns : s.runs t = true) (hlimit : (s.movq_ t q).inflight.length < s.outLimit t q)
    (htoken : s.hasToken t (y.d.cls t) = true) (hwaits : s.xferWaits t y.d (y.xfer i p) = false) : s.mayAdmit t q = true := by
  simp [State.mayAdmit, hnext, hrun, hruns, hlimit, htoken, hwaits]

variable (hmay : s.mayAdmit t q = true) (hturn : s.turnComes t q = true)
include hmay hturn

theorem State.admitNext_serves (x : Xlat) (hspace : y.d.space = 0 ∨ y.d.space = 3) (hserves : ∀ z ∈ s.farDoms t y.d (y.xfer i p), s.serves z.1 = true) :
    s.admitNext t q x = s.enterXfer t q i y (y.xfer i p) := by
  have hpage : s.xferPage t y.d (y.xfer i p) = (s, none) := State.xferPage_none _ (by omega)
  have hall : ((s.farDoms t y.d (y.xfer i p)).all fun z => s.serves z.1) = true := List.all_eq_true.2 hserves
  rcases hspace with hspace | hspace <;> simp [State.admitNext, hnext, hmay, hturn, hspace, hpage, hall]

/-- R241: a HOST transfer goes as its translation says. -/
theorem State.admitNext_host (x : Xlat) (hspace : y.d.space = 4) : s.admitNext t q x = match x with
    | .ok => s.enterXfer t q i y (y.xfer i p)
    | .refused => s.xferFault t q y (y.xfer i p) 0x53 0
    | _ => s := by
  cases x <;> simp [State.admitNext, hnext, hmay, hturn, hspace]

end

/-! ### Retirement -/

section
variable {s : State} {t : TileId} {q : Nat} {f : Xfer} {l : List Xfer} {y : Stream}

/-- R228: the oldest in flight has neither been refused nor completed, and its answers have come. -/
structure State.Oldest (s : State) (t : TileId) (q : Nat) (f : Xfer) (l : List Xfer) (y : Stream) : Prop where
  inflight : (s.movq_ t q).inflight = f :: l
  stream : (s.movq_ t q).streams[f.stream - (s.movq_ t q).base]? = some y
  refused : f.refused = false
  done : f.done = false
  legs : f.legs = 0
  held : s.xferHeld t y.d f = false

variable (h : s.Oldest t q f l y)
include h

theorem State.Oldest.retiring : (s.movq_ t q).retiring = some f := by
  simp [MovQ.retiring, h.inflight, h.refused, h.done]

/-- R269: nothing of it is on its way. -/
theorem State.Oldest.bringXfer : s.bringXfer t q = s :=
  State.bring_arrived s _ (by simp [h.retiring, h.legs])

theorem State.Oldest.retire_completes {r : HostResp} (hhost : ¬(y.d.space = 4 ∧ r = .error)) (hvulor : y.d.space ≠ 5) :
    s.retire t q r = s.retireXfer t q y f r := by
  simp only [State.retire, h.bringXfer, h.retiring, h.stream, h.held, Bool.false_eq_true, if_false, if_neg hhost, if_neg hvulor]

theorem State.Oldest.retire_errors (hspace : y.d.space = 4) : s.retire t q .error = s.xferFault t q y f 0x53 0 := by
  simp only [State.retire, h.bringXfer, h.retiring, h.stream, h.held, Bool.false_eq_true, if_false, hspace, and_self, if_true]

/-- R228: with nothing else in flight no other transfer comes before it. -/
theorem State.Oldest.earlyXfers (hl : l = []) : s.earlyXfers t q = s := by
  have hnone : s.early t q = [] := by simp [State.early, h.retiring, h.inflight, hl]
  simp [State.earlyXfers, hnone]

end

/-! ### What lands in the scratchpad (R205, R245) -/

theorem State.spad_of_mems {s u : State} (h : u.mems = s.mems) : u.spad = s.spad := congrArg Mems.spad h

theorem lookN_length {α : Type} (d : Nat → α) (m : Sparse α) : ∀ n k, (lookN d m k n).length = n
  | 0, _ => rfl
  | n + 1, k => congrArg (· + 1) (lookN_length d m n (k + 1))

section
variable (s : State) (t : TileId)

/-- R421: bytes written without poison where no line is poisoned mark none. -/
theorem State.putSpad_clean (a : Nat) (bs : List Byte) (hclean : s.spadBad t a bs.length = false) :
    (s.putSpad t a bs false).spad = (s.setSpadBytes t a bs).spad := by
  have hmarks : ∀ i ∈ List.range ((a % 64 + bs.length + 63) / 64), s.spadP t (a / 64 + i) = false := by
    simpa [State.spadBad] using hclean
  refine (each_keeps (P := fun u => u.spad = (s.setSpadBytes t a bs).spad
    ∧ ∀ i ∈ List.range ((a % 64 + bs.length + 63) / 64), u.spadP t (a / 64 + i) = false) (fun u i hi hu => ?_) ⟨rfl, hmarks⟩).1
  obtain ⟨hspad, hu⟩ := hu
  dsimp only
  split
  · have hmark : u.markSpad t (a / 64 + i) false = u.setSpadP t (a / 64 + i) false := rfl
    rw [hmark]
    refine ⟨hspad, fun j hj => ?_⟩
    by_cases hij : j = i
    · rw [hij]
      exact State.spadP_setSpadP ..
    · have hother : t.toNat * 4096 + (a / 64 + j) ≠ t.toNat * 4096 + (a / 64 + i) := by omega
      exact (look_put_other noMark u.spadPoison false hother).trans (hu j hj)
  · simp only [hu i hi, Bool.or_self, Bool.false_eq_true, if_false]
    exact ⟨hspad, hu⟩

/-- What is written to a scratchpad is read there. -/
theorem State.spadBytes_of_spad {u : State} (a : Nat) (bs : List Byte) (h : u.spad = (s.setSpadBytes t a bs).spad) : u.spadBytes t a bs.length = bs := by
  rw [State.spadBytes, h]
  exact lookN_putL ..

theorem State.enterQueue_spad (b : Arm) : (s.enterQueue t b).spad = s.spad := rfl

theorem State.streamDone_spad (q : Nat) (x : Stream) : (s.streamDone t q x).spad = s.spad := by
  unfold State.streamDone
  dsimp only
  split
  · exact State.spad_of_movers (State.streamPosts_movers ..)
  · rw [State.spad_of_movers (State.streamPosts_movers ..)]
    have htraced := fun ty unit place info => State.spad_of_movers (s.trace_movers t ty unit place info)
    split
    · rw [State.setMovd_spad, htraced]
    · rw [State.enterQueue_spad, State.setMovd_spad, htraced]

theorem State.completeStreams_spad (q k : Nat) : (s.completeStreams t q k).spad = s.spad := by
  induction k generalizing s with
  | zero => rfl
  | succ k ih =>
    unfold State.completeStreams
    dsimp only
    split
    · rfl
    · split
      · rfl
      · exact (ih _).trans (State.streamDone_spad ..)

/-- R229: what completes with a transfer writes no scratchpad. -/
theorem State.finishQueue_spad (q : Nat) : (s.finishQueue t q).spad = s.spad :=
  (State.spad_of_movers ((State.closeWindow_movers ..).trans (State.settle_movers ..))).trans (s.completeStreams_spad t q _)

theorem State.finishXfer_spad (q : Nat) (x : Stream) (f : Xfer) (r : HostResp) :
    (s.finishXfer t q x f r).spad = (s.moveData (s.xferView t q x f) t x f r).spad := by
  unfold State.finishXfer
  exact State.spad_of_mems ((State.popDone_mems ..).trans ((State.race_mems ..).trans ((State.setMovq_mems ..).trans (State.tcnt_mems ..))))

variable {s t} {f : Xfer} {y : Stream} {g : TileId}

/-- R205: bytes of another tile's scratchpad that stand as they did at the admission arrive as they stand. -/
theorem State.moveData_spad (r : HostResp) (hspace : y.d.space = 0) (hin : y.d.out = false) (himem : y.d.imem = false) (htiles : y.d.tiles = [g])
    (hlost : f.lost = []) (hpage : f.page = none) (hhurt : f.hurt = false) (hold : f.old = (s.spadBytes g f.far.toNat f.len, false))
    (hfar : s.spadBad g f.far.toNat f.len = false) (hloc : s.spadBad t f.loc f.len = false) :
    (s.moveData s t y f r).spad = (s.setSpadBytes t f.loc (s.spadBytes g f.far.toNat f.len)).spad := by
  have hread : s.farRead t y.d f r = (s.spadBytes g f.far.toNat f.len, false) := by
    simp [State.farRead, hspace, htiles, State.mixBytes, hold, hfar]
  have hwrite : (s.moveData s t y f r).mems = (s.drawn.putSpad t f.loc (s.spadBytes g f.far.toNat f.len) false).mems := by
    simp only [State.moveData, hpage, hin, hread, hhurt, himem, hlost, keepLost, Bool.or_self, Bool.false_eq_true, if_false, List.isEmpty_nil, if_true,
      State.inboundLines_mems]
  refine (State.spad_of_mems hwrite).trans (State.putSpad_clean s.drawn t f.loc _ ?_)
  rw [State.spadBytes, lookN_length]
  exact hloc

end

end Sys2Proof.Machine

open Sys2Proof Sys2Proof.Machine

/-- Settles O26: an admission is decided by the queue's next transfer, a retirement by its oldest. -/
theorem transfersAdmitAndRetire : Obligations.TransfersAdmitAndRetire := by
  unfold Obligations.TransfersAdmitAndRetire
  intro s t q x r
  refine ⟨fun i y p hnext hrun hruns hlimit htoken hwaits hturn => ?_, fun f l y hflight hstream hrefused hdone hlegs hheld => ?_⟩
  · have hmay := State.mayAdmit_next hnext hrun hruns hlimit htoken hwaits
    obtain ⟨⟨g, hin, hgstream, hgpos, hgrefused, hgdone⟩, hstreams, hbucket⟩ := s.enterXfer_admits t q.toNat i y (y.xfer i p)
    intro admits
    have hadmits : s.admitNext t q.toNat x = s.enterXfer t q.toNat i y (y.xfer i p) → admits := fun heq => by
      refine ⟨_, g, rfl, congrArg State.settleAts heq, ?_⟩
      rw [heq, State.movq_of_movers (State.settleAts_movers _), State.settleAts_bucketOf]
      exact ⟨hin, hgstream, hgpos, hgrefused, hgdone, hstreams, hbucket⟩
    refine ⟨fun hspace hserves => ?_, fun hspace hok => ?_, fun hspace hno => ⟨_, rfl, ?_⟩⟩
    · exact hadmits (State.admitNext_serves hnext hmay hturn x hspace hserves)
    · exact hadmits (by rw [State.admitNext_host hnext hmay hturn x hspace, hok])
    · obtain ⟨hfaulted, hcode, -⟩ := s.xferFault_faulted t q.toNat y (y.xfer i p) 0x53 0
      rw [State.movq_of_movers (State.settleAts_movers _), State.admitNext_host hnext hmay hturn x hspace, hno]
      exact ⟨hfaulted, hcode⟩
  · have h : s.Oldest t q.toNat f l y := ⟨hflight, hstream, hrefused, hdone, hlegs, hheld⟩
    have hretire := fun hhost hvulor => congrArg State.settleAts (h.retire_completes (r := r) hhost hvulor)
    refine ⟨fun hhost hvulor => congrArg Host.Outcome.next (hretire (fun hspace => hhost hspace.1) hvulor),
      fun bs hspace hdata => congrArg Host.Outcome.next (hretire (by simp [hdata]) (by omega)), fun hspace herror => ⟨_, rfl, ?_⟩,
      fun g hspace hin himem htiles hlost hpage hl hhurt hquiet hold hloc hfar => ⟨_, rfl, ?_⟩⟩
    · obtain ⟨hfaulted, hcode, -⟩ := s.xferFault_faulted t q.toNat y f 0x53 0
      rw [State.movq_of_movers (State.settleAts_movers _), herror, h.retire_errors hspace]
      exact ⟨hfaulted, hcode⟩
    · obtain ⟨hdrains, hxfers, hweirs⟩ := hquiet
      have hview : s.xferView t q.toNat y f = s := by
        simp only [State.xferView, hin, Bool.false_eq_true, if_false, htiles, List.headD_cons]
        exact s.racy_still g _ hdrains hxfers hweirs
      have hspad : (s.retireXfer t q.toNat y f r).spad = (s.setSpadBytes t f.loc (s.spadBytes g f.far.toNat f.len)).spad := by
        rw [State.retireXfer, State.finishQueue_spad, h.earlyXfers hl, State.finishXfer_spad, hview]
        exact State.moveData_spad r hspace hin himem htiles hlost hpage hhurt hold hfar hloc
      have hlands := s.spadBytes_of_spad t f.loc (s.spadBytes g f.far.toNat f.len) ((State.spad_of_movers (State.settleAts_movers _)).trans hspad)
      have hlength : (s.spadBytes g f.far.toNat f.len).length = f.len := lookN_length ..
      rw [hlength] at hlands
      exact (congrArg (·.spadBytes t f.loc f.len) (hretire (by simp [hspace]) (by omega))).trans hlands

end

/-! ## Messages in slots (R285, R291, R296, Tables 11-7, 11-8) -/

section
namespace Sys2Proof.Machine

/-! ### Bytes and numbers -/

theorem leNat_lt : ∀ bs : List Byte, leNat bs < 256 ^ bs.length
  | [] => Nat.one_pos
  | b :: bs => by
    have := leNat_lt bs
    have := b.isLt
    simp only [leNat, List.length_cons, Nat.pow_succ]
    omega

@[simp] theorem natLe_zero (n : Nat) : natLe n 0 = List.replicate n 0 := by
  induction n with
  | zero => rfl
  | succ n ih => exact congrArg (List.cons 0) ih

/-- A number read from bytes and written to a longer string: the bytes, and zeros after them. -/
theorem natLe_leNat : ∀ {n : Nat} {bs : List Byte}, bs.length ≤ n → natLe n (leNat bs) = bs ++ List.replicate (n - bs.length) 0
  | n, [], _ => natLe_zero n
  | n + 1, b :: bs, h => by
    have hb := b.isLt
    have hlow : BitVec.ofNat 8 (b.toNat + 256 * leNat bs) = b := BitVec.eq_of_toNat_eq (by rw [BitVec.toNat_ofNat]; omega)
    have hhigh : (b.toNat + 256 * leNat bs) / 256 = leNat bs := by omega
    simp only [natLe, leNat, hlow, hhigh, natLe_leNat (Nat.le_of_succ_le_succ h), List.length_cons, Nat.add_sub_add_right, List.cons_append]

/-- A word of whole bytes comes out of its bytes. -/
theorem ofNat_leNat_natLe {w n : Nat} (h : w = 8 * n) (x : BitVec w) : BitVec.ofNat w (leNat (natLe n x.toNat)) = x := by
  subst h
  refine BitVec.eq_of_toNat_eq ?_
  rw [leNat_natLe, BitVec.toNat_ofNat, show 256 = 2 ^ 8 from rfl, ← Nat.pow_mul, Nat.mod_mod, Nat.mod_eq_of_lt x.isLt]

/-! ### The header slot (Table 11-7) -/

theorem msgOf_msgCode (t : MsgType) : msgOf (msgCode t) = some t := by
  cases t <;> rfl

theorem msgCode_lt (t : MsgType) : msgCode t < 2 ^ 8 := by
  cases t <;> decide

theorem hdrSlot_toNat (m : Msg) : (hdrSlot m).toNat = msgCode m.ty + m.status.toNat * 2 ^ 8 + m.dst.toNat * 2 ^ 16 + m.src.toNat * 2 ^ 34
    + m.mcount.toNat * 2 ^ 52 + m.mdir.toNat * 2 ^ 58 + m.group.toNat * 2 ^ 64 + m.tag.toNat * 2 ^ 80 + m.lenM1.toNat * 2 ^ 96 + m.raddr.toNat * 2 ^ 128
    + m.value.toNat * 2 ^ 192 := by
  have := msgCode_lt m.ty
  rw [hdrSlot, BitVec.toNat_ofNat, Nat.mod_eq_of_lt]
  omega

/-- The header slot of a message reads back as the message without its data. -/
theorem readHdr_hdrSlot (m : Msg) : readHdr (hdrSlot m) = some { m with data := [] } := by
  have hcode := msgCode_lt m.ty
  have hw := hdrSlot_toNat m
  simp only [readHdr]
  generalize (hdrSlot m).toNat = w at hw
  have hfields : bits w 7 0 = msgCode m.ty ∧ bits w 15 8 = m.status.toNat ∧ bits w 33 16 = m.dst.toNat ∧ bits w 51 34 = m.src.toNat
      ∧ bits w 57 52 = m.mcount.toNat ∧ bits w 60 58 = m.mdir.toNat ∧ bits w 79 64 = m.group.toNat ∧ bits w 95 80 = m.tag.toNat
      ∧ bits w 107 96 = m.lenM1.toNat ∧ bits w 191 128 = m.raddr.toNat ∧ bits w 255 192 = m.value.toNat := by
    simp only [bits, Nat.shiftRight_eq_div_pow]
    refine ⟨?_, ?_, ?_, ?_, ?_, ?_, ?_, ?_, ?_, ?_, ?_⟩ <;> omega
  simp [hfields, msgOf_msgCode]

/-! ### Data slots -/

@[simp] theorem dataSlots_length (n : Nat) (bs : List Byte) : (dataSlots n bs).length = n := by
  induction n generalizing bs with
  | zero => rfl
  | succ n ih => exact congrArg Nat.succ (ih _)

/-- Bytes put into slots come out of them, with zeros to the end of the last. -/
theorem dataSlots_bytes {n : Nat} {bs : List Byte} (h : bs.length ≤ 32 * n) :
    ((dataSlots n bs).flatMap fun b => natLe 32 b.toNat) = bs ++ List.replicate (32 * n - bs.length) 0 := by
  induction n generalizing bs with
  | zero => simp [dataSlots, List.length_eq_zero_iff.1 (Nat.le_zero.1 h)]
  | succ n ih =>
    have hlt : leNat (bs.take 32) < 2 ^ 256 := by
      have := leNat_lt (bs.take 32)
      have : 256 ^ (bs.take 32).length ≤ 256 ^ 32 := Nat.pow_le_pow_right (by decide) (by simp)
      omega
    have hrest : (bs.drop 32).length ≤ 32 * n := by
      rw [List.length_drop]
      omega
    have hslot : natLe 32 (BitVec.ofNat 256 (leNat (bs.take 32))).toNat = bs.take 32 ++ List.replicate (32 - (bs.take 32).length) 0 := by
      rw [BitVec.toNat_ofNat, Nat.mod_eq_of_lt hlt, natLe_leNat (by simp)]
    simp only [dataSlots, List.flatMap_cons, hslot, ih hrest]
    by_cases hlast : bs.length ≤ 32
    · rw [List.take_of_length_le hlast, List.drop_of_length_le hlast, List.nil_append, List.append_assoc, List.replicate_append_replicate]
      congr 2
      simp
      omega
    · have hfull : (bs.take 32).length = 32 := List.length_take_of_le (by omega)
      rw [hfull, Nat.sub_self, List.replicate_zero, List.append_nil, ← List.append_assoc, List.take_append_drop, List.length_drop]
      congr 2
      omega

/-- Slots written to bytes are read back as slots, whatever follows them. -/
theorem dataSlots_flatMap (l : List (BitVec 256)) (rest : List Byte) : dataSlots l.length ((l.flatMap fun b => natLe 32 b.toNat) ++ rest) = l := by
  induction l with
  | nil => rfl
  | cons b l ih =>
    have hslot : BitVec.ofNat 256 (leNat (natLe 32 b.toNat)) = b := ofNat_leNat_natLe (n := 32) rfl b
    simp only [List.length_cons, dataSlots, List.flatMap_cons, List.append_assoc, List.take_left' (natLe_length 32 _),
      List.drop_left' (natLe_length 32 _), hslot, ih]

/-! ### Whole messages -/

theorem msgSlots_of_hasData {t : MsgType} (n : Nat) (h : hasData t = true) : msgSlots t n = 1 + (n + 1 + 31) / 32 := if_pos h

theorem msgSlots_of_not_hasData {t : MsgType} (n : Nat) (h : hasData t = false) : msgSlots t n = 1 := if_neg (by simp [h])

theorem msgToSlots_length (m : Msg) : (msgToSlots m).length = msgSlots m.ty m.lenM1.toNat := by
  cases h : hasData m.ty
  · simp [msgToSlots, msgSlots_of_not_hasData _ h]
  · simp [msgToSlots, msgSlots_of_hasData _ h, Nat.add_comm]

theorem slotsToMsg_hdrSlot (m : Msg) (l : List (BitVec 256)) :
    slotsToMsg (hdrSlot m :: l) = some { m with data := (l.flatMap fun b => natLe 32 b.toNat).take (m.lenM1.toNat + 1) } := by
  simp [slotsToMsg, readHdr_hdrSlot]

/-- A message with no data stands whole in its header slot. -/
theorem slotsToMsg_single {m : Msg} (hdata : m.data = []) : slotsToMsg [hdrSlot m] = some m := by
  rw [slotsToMsg_hdrSlot]
  exact congrArg (fun bs => some { m with data := bs }) hdata.symm

theorem slotsToMsg_msgToSlots {m : Msg} (h : m.data.length = if hasData m.ty then m.lenM1.toNat + 1 else 0) : slotsToMsg (msgToSlots m) = some m := by
  rw [msgToSlots]
  cases hdata : hasData m.ty
  · have hnil : m.data = [] := List.length_eq_zero_iff.1 (by simpa [hdata] using h)
    rw [msgSlots_of_not_hasData _ hdata]
    exact slotsToMsg_single hnil
  · have hlength : m.data.length = m.lenM1.toNat + 1 := by simpa [hdata] using h
    rw [slotsToMsg_hdrSlot, msgSlots_of_hasData _ hdata, dataSlots_bytes (by omega), List.take_left' hlength]

end Sys2Proof.Machine

open Sys2Proof Sys2Proof.Machine

/-- Settles O31: the header's fields lie side by side in its slot, and the data fills the slots after it. -/
theorem messageSlotsRoundTrip : Obligations.MessageSlotsRoundTrip :=
  fun m h => ⟨slotsToMsg_msgToSlots h, msgToSlots_length m⟩

end

/-! ## Flits that arrive (R284 to R288) -/

section
namespace Sys2Proof.Machine

/-! ### A flit's bytes read back (Tables 11-5, 11-6) -/

theorem dataSlots_eq_map (n : Nat) (bs : List Byte) :
    dataSlots n bs = (List.range n).map fun i => BitVec.ofNat 256 (leNat ((bs.drop (32 * i)).take 32)) := by
  induction n generalizing bs with
  | zero => rfl
  | succ n ih =>
    rw [dataSlots, ih, List.range_succ_eq_map, List.map_cons, List.map_map]
    simp [Function.comp_def, Nat.mul_add, Nat.add_comm]

/-- The slots of a message area are those laid out in it, whatever follows them. -/
theorem areaSlots_flatMap {l : List (BitVec 256)} (h : l.length = 7) (rest : List Byte) : areaSlots ((l.flatMap fun b => natLe 32 b.toNat) ++ rest) = l :=
  (dataSlots_eq_map 7 _).symm.trans (h ▸ dataSlots_flatMap l rest)

theorem slotBytes_length (l : List (BitVec 256)) : (l.flatMap fun b => natLe 32 b.toNat).length = 32 * l.length := by
  simp [List.length_flatMap, Nat.mul_comm]

section
variable (f : Flit) (key : BitVec 256) (salt : W32)

/-- What follows a flit's header: the message area and the tag, sealed but in a KEY flit. -/
def sealedArea : List Byte :=
  let area := f.slots.flatMap fun b => natLe 32 b.toNat
  if flitType f = some .key then area ++ natLe 16 0 else sealArea key (flitSeq f ++ salt) (natLe 16 f.hdr.toNat) area

/-- A flit's bytes before its check bytes. -/
def codeBody : List Byte := natLe 16 f.hdr.toNat ++ sealedArea f key salt

theorem flitBytes_eq : flitBytes f key salt = codeBody f key salt ++ checkBytes (codeBody f key salt) := by
  simp only [flitBytes, codeBody, sealedArea]
  split <;> rfl

theorem codeBody_take : (codeBody f key salt).take 16 = natLe 16 f.hdr.toNat := List.take_left' (natLe_length ..)

theorem codeBody_drop : (codeBody f key salt).drop 16 = sealedArea f key salt := List.drop_left' (natLe_length ..)

variable {f} (h : f.slots.length = 7)
include h

theorem codeBody_length : (codeBody f key salt).length = 256 := by
  have harea := slotBytes_length f.slots
  rw [h] at harea
  simp only [codeBody, sealedArea, List.length_append, natLe_length]
  split
  · simp [harea]
  · simp [sealArea]

theorem flitBytes_take : (flitBytes f key salt).take 256 = codeBody f key salt := by
  rw [flitBytes_eq]
  exact List.take_left' (codeBody_length key salt h)

theorem flitBytes_length : (flitBytes f key salt).length = 272 := by
  simp [flitBytes_eq, codeBody_length key salt h, checkBytes]

/-- R284, R288: a flit sealed under the receiving port's key and salt, and put on its lanes, arrives as it was. -/
theorem State.received_flitBytes (s : State) (p : PortId) :
    s.received p { lanes := lanesOf (laneCount (s.portAt p).width) (flitBytes f (s.portAt p).rxKey (s.portAt p).rxSalt),
                   body := (flitBytes f (s.portAt p).rxKey (s.portAt p).rxSalt).take 256, plain := f.slots.flatMap fun b => natLe 32 b.toNat }
      = { corrected := 0, uncorrectable := false, flit := f, tagOk := true } := by
  have hlanes : laneCount (s.portAt p).width ∈ [4, 8] := by
    unfold laneCount
    split <;> simp
  unfold State.received
  dsimp only
  generalize (s.portAt p).rxKey = key
  generalize (s.portAt p).rxSalt = salt
  have hbody := codeBody_length key salt h
  have hfit : fit 256 (codeBody f key salt) = codeBody f key salt := by rw [← hbody, fit_self]
  have harea : fit 224 (f.slots.flatMap fun b => natLe 32 b.toNat) = f.slots.flatMap fun b => natLe 32 b.toNat := by
    have hlength : (f.slots.flatMap fun b => natLe 32 b.toNat).length = 224 := by rw [slotBytes_length, h]
    rw [← hlength, fit_self]
  have hslots : areaSlots (f.slots.flatMap fun b => natLe 32 b.toNat) = f.slots := by
    simpa using areaSlots_flatMap h []
  have hhdr : BitVec.ofNat 128 (leNat (natLe 16 f.hdr.toNat)) = f.hdr := ofNat_leNat_natLe (n := 16) rfl f.hdr
  have hwhole : ∀ k, k = 0 ∨ k = 1 → wordErrors (flitBytes f key salt) (codeBody f key salt) k = 0 := by
    rw [flitBytes_eq]
    exact wordErrors_whole _ hbody
  simp only [ofLanes_lanesOf _ hlanes _ (flitBytes_length key salt h), flitBytes_take key salt h, hfit, hwhole 0 (.inl rfl), hwhole 1 (.inr rfl),
    codeBody_take, codeBody_drop, hhdr, harea, hslots]
  by_cases hkey : flitType f = some .key
  · simp [hkey, sealedArea, areaSlots_flatMap h]
  · simp [hkey, sealedArea]

end

/-! ### What reception keeps of a port -/

/-- What a port has received: the next sequence number, the flit accepted and not yet taken, and its counts. -/
structure RxSide where
  next : W64
  flit : Option Flit
  corrected : W32
  discarded : W16
  tagRun : Nat

def Port.rxSide (q : Port) : RxSide := ⟨q.rxNext, q.rxFlit, q.feccnt, q.discarded, q.tagRun⟩

def State.rxSide (s : State) (p : PortId) : RxSide := (s.portAt p).rxSide

section
variable (s : State) (p : PortId)

@[simp] theorem State.setPort_rxSide (q : Port) : (s.setPort p q).rxSide p = q.rxSide := congrArg Port.rxSide (s.portAt_setPort p q)

theorem Port.takeHeader_rxSide (q : Port) (f : Flit) : (q.takeHeader f).rxSide = q.rxSide := by
  unfold Port.takeHeader
  dsimp only
  split <;> split <;> rfl

/-- Sending a flit changes nothing of what has been received. -/
theorem State.sendFlit_rxSide (ty slots) : (s.sendFlit p ty slots).rxSide p = s.rxSide p := s.setPort_rxSide p _

theorem State.sendSlots_rxSide (n l) : (s.sendSlots p n l).rxSide p = s.rxSide p := by
  induction n generalizing s l with
  | zero => rfl
  | succ n ih =>
    unfold State.sendSlots
    split
    · rfl
    · rw [ih, State.sendFlit_rxSide]

theorem State.pump_rxSide (k) : (s.pump p k).rxSide p = s.rxSide p := by
  induction k generalizing s with
  | zero => rfl
  | succ k ih =>
    unfold State.pump
    dsimp only
    split
    · rfl
    next i vc m _ =>
    generalize ite (m.ty = .time) _ m = m
    split
    · rfl
    · rw [ih, State.setPort_rxSide]
      exact (State.sendSlots_rxSide _ p _ _).trans (s.setPort_rxSide p _)

theorem State.sendIdle_rxSide : (s.sendIdle p).rxSide p = s.rxSide p := by
  unfold State.sendIdle
  split
  · exact s.sendFlit_rxSide p .idle []
  · rfl

theorem State.replay_rxSide (f : Flit) : (s.replay p f).rxSide p = s.rxSide p := by
  unfold State.replay
  split
  · rfl
  · exact each_keeps (P := fun u => u.rxSide p = s.rxSide p) (f := fun u (x : W64 × List Byte) => u.transmit p x.2) (fun _ _ _ hu => hu) rfl

theorem State.raise_port (c src) : (s.raise c src).port = s.port := by
  unfold State.raise State.ordered
  dsimp only
  split
  · rfl
  · split <;> rfl

theorem State.raise_rxSide (c src) : (s.raise c src).rxSide p = s.rxSide p :=
  congrArg (fun l => (look (fun _ => {}) l p.val : Port).rxSide) (s.raise_port c src)

theorem State.portTo_rxSide (st : PortSt) : (s.portTo p st).rxSide p = s.rxSide p := by
  unfold State.portTo
  split
  · rfl
  generalize hraised : (s.setPort p { s.portAt p with st := st }).raise (headCore (dieOfPort p)) (16 + p.val) = u
  have hu : u.rxSide p = s.rxSide p := hraised ▸ (State.raise_rxSide _ p _ _).trans (s.setPort_rxSide p _)
  dsimp only
  split
  · have hother := State.portAt_setPort_other (u.setPort p { u.portAt p with isOpen := true })
      { (u.setPort p { u.portAt p with isOpen := true }).portAt (mate p) with isOpen := true } (mate_ne p).symm
    exact (congrArg Port.rxSide hother).trans ((u.setPort_rxSide p _).trans hu)
  · exact hu

/-- R286: a port that retrains with no flit to take keeps what it has received but the run of bad tags. -/
theorem State.retrain_rxSide (fail : Nat) (hempty : (s.rxSide p).flit = none) :
    ∃ run, (s.retrain p fail).rxSide p = { s.rxSide p with tagRun := run } := by
  have hflit : (s.portAt p).rxFlit = none := hempty
  unfold State.retrain
  split
  · exact ⟨_, rfl⟩
  · have htaken : s.takeAccepted p = s := by rw [State.takeAccepted, hflit]
    refine ⟨0, ?_⟩
    dsimp only
    rw [State.portTo_rxSide, State.setPort_rxSide, htaken]
    simp only [Port.rxSide, Port.down, State.rxSide, hflit]

/-- R286: a discard is counted; the next number and the flit to be taken stand. -/
theorem State.discard_rxSide (tagBad : Bool) (hempty : (s.rxSide p).flit = none) :
    ∃ run, (s.discard p tagBad).rxSide p
      = { s.rxSide p with discarded := BitVec.ofNat 16 (min 0xFFFF ((s.rxSide p).discarded.toNat + 1)), tagRun := run } := by
  unfold State.discard
  dsimp only
  generalize (if tagBad = true then (s.portAt p).tagRun + 1 else (s.portAt p).tagRun) = run
  generalize hcounted : s.setPort p _ = u
  have hu : u.rxSide p = { s.rxSide p with
      discarded := BitVec.ofNat 16 (min 0xFFFF ((s.rxSide p).discarded.toNat + 1)),
      tagRun := run } := hcounted ▸ s.setPort_rxSide p _
  have hretrains : ∀ fail, ∃ run, (u.retrain p fail).rxSide p = { u.rxSide p with tagRun := run } :=
    fun fail => u.retrain_rxSide p fail (by rw [hu]; exact hempty)
  rw [hu] at hretrains
  split
  · exact hretrains 5
  split
  · exact hretrains 0
  · exact ⟨_, (u.sendIdle_rxSide p).trans hu⟩

end

/-! ### Acceptance and discard (R286, R288) -/

/-- What a port has received once the codewords that were corrected are counted. -/
def State.rxCounted (s : State) (p : PortId) (x : FlitArrival) : RxSide :=
  { s.rxSide p with corrected := BitVec.ofNat 32 (min 0xFFFFFFFF ((s.portAt p).feccnt.toNat + (s.received p x).corrected)) }

section
variable {s : State} {p : PortId} (x : FlitArrival) (hempty : (s.portAt p).rxFlit = none)
include hempty

/-- A whole KEY flit stands to be taken; its number does not count. -/
theorem State.flitArrives_key (hst : (s.portAt p).st = .active ∨ (s.portAt p).st = .keying ∨ (s.portAt p).st = .retrain)
    (hkey : flitType (s.received p x).flit = some .key) (hwhole : (s.received p x).uncorrectable = false) :
    (s.flitArrives p x).rxSide p = { s.rxCounted p x with flit := some (s.received p x).flit } := by
  have hheard : (decide ((s.portAt p).st = .active) || (decide ((s.portAt p).st = .keying) || decide ((s.portAt p).st = .retrain))) = true := by
    simpa using hst
  simp only [State.flitArrives, hempty, hkey, hwhole, decide_true, Bool.true_and, hheard, Bool.not_true, Bool.false_eq_true, if_false, if_true,
    State.setPort_rxSide]
  rfl

section
variable (hst : (s.portAt p).st = .active) (hkey : flitType (s.received p x).flit ≠ some .key)
include hst hkey

/-- A flit that holds and is the next one stands to be taken, and the next number follows it. -/
theorem State.flitArrives_accepts (hwhole : (s.received p x).uncorrectable = false) (htag : (s.received p x).tagOk = true)
    (hseq : flitSeq (s.received p x).flit = (s.portAt p).rxNext) :
    (s.flitArrives p x).rxSide p = { s.rxCounted p x with next := (s.portAt p).rxNext + 1, flit := some (s.received p x).flit, tagRun := 0 } := by
  unfold State.flitArrives
  rw [hempty]
  dsimp only
  rw [if_neg (by simp [hst]), if_neg (by simp [hkey]), if_neg (by simp [hwhole]), if_neg (by simp [htag]), if_neg (by simp [hseq]), State.pump_rxSide,
    State.replay_rxSide, State.setPort_rxSide]
  exact congrArg (fun v : RxSide => { v with next := (s.portAt p).rxNext + 1, flit := some (s.received p x).flit, tagRun := 0 })
    (Port.takeHeader_rxSide _ (s.received p x).flit)

/-- Any other is counted and dropped. -/
theorem State.flitArrives_discards (hbad : (s.received p x).uncorrectable = true ∨ (s.received p x).tagOk = false
      ∨ flitSeq (s.received p x).flit ≠ (s.portAt p).rxNext) :
    ∃ run, (s.flitArrives p x).rxSide p
      = { s.rxCounted p x with discarded := BitVec.ofNat 16 (min 0xFFFF ((s.portAt p).discarded.toNat + 1)), tagRun := run } := by
  unfold State.flitArrives
  rw [hempty]
  dsimp only
  rw [if_neg (by simp [hst]), if_neg (by simp [hkey])]
  generalize hcounted : s.setPort p _ = u
  have hu : u.rxSide p = s.rxCounted p x := hcounted ▸ s.setPort_rxSide p _
  have hdiscards : ∀ tagBad, ∃ run, (u.discard p tagBad).rxSide p
      = { s.rxCounted p x with discarded := BitVec.ofNat 16 (min 0xFFFF ((s.portAt p).discarded.toNat + 1)), tagRun := run } := by
    have := fun tagBad => u.discard_rxSide p tagBad (by rw [hu]; exact hempty)
    rwa [hu] at this
  split
  · exact hdiscards false
  split
  · exact hdiscards true
  split
  · exact hdiscards false
  next hwhole htag hseq => exact absurd hbad (not_or.2 ⟨hwhole, not_or.2 ⟨by simpa using htag, hseq⟩⟩)

end

end

/-! ### Flits taken (R281, R285) -/

section
variable (s : State) (p : PortId)

theorem readHdr_zero : readHdr 0#256 = none := by decide

/-- R285: null slots between messages are passed over. -/
theorem State.takeSlots_null (hpart : (s.portAt p).rxPart = []) (n : Nat) : s.takeSlots p (List.replicate n 0) = s := by
  induction n with
  | zero => rfl
  | succ n ih => rw [List.replicate_succ, State.takeSlots, if_pos (by simp [hpart, readHdr_zero]), ih]

/-- R285: a message of one slot enters its channel's buffer. -/
theorem State.takeSlots_single (hpart : (s.portAt p).rxPart = []) {m : Msg} (hty : hasData m.ty = false) (htime : m.ty ≠ .time) (hdata : m.data = [])
    (l : List (BitVec 256)) : s.takeSlots p (hdrSlot m :: l)
      = (s.setPort p { s.portAt p with rxPart := [], bufs := (s.portAt p).bufs ++ [(BitVec.ofNat 3 (s.arrivalVc p m), m)] }).takeSlots p l := by
  rw [State.takeSlots]
  simp only [hpart, readHdr_hdrSlot, List.nil_append, slotsToMsg_single hdata, msgSlots_of_not_hasData _ hty, htime]
  simp

section
variable {s p} {f : Flit} (hflit : (s.portAt p).rxFlit = some f)
include hflit

theorem State.flitTaken_accepted {ty : FlitType} (hty : flitType f = some ty) : s.flitTaken p f ty = s.flitBody p f := if_pos ⟨hflit, hty⟩

theorem State.flitTaken_idle (hty : flitType f = some .idle) : s.flitTaken p f .idle = s.setPort p { s.portAt p with rxFlit := none } := by
  rw [State.flitTaken_accepted hflit hty, State.flitBody, hty]

theorem State.flitTaken_key (hty : flitType f = some .key) : s.flitTaken p f .key = s.setPort p { s.portAt p with rxFlit := none } := by
  rw [State.flitTaken_accepted hflit hty, State.flitBody, hty]

theorem State.flitTaken_leave (hty : flitType f = some .leave) :
    s.flitTaken p f .leave = (s.setPort p { s.portAt p with rxFlit := none }).retrain p 0 := by
  rw [State.flitTaken_accepted hflit hty, State.flitBody, hty]

theorem State.flitTaken_data (hty : flitType f = some .data) :
    s.flitTaken p f .data = (s.setPort p { s.portAt p with rxFlit := none }).takeSlots p f.slots := by
  rw [State.flitTaken_accepted hflit hty, State.flitBody, hty]

end

end

end Sys2Proof.Machine

open Sys2Proof Sys2Proof.Machine

/-- Settles O30: what arrives leaves a port's receiving side as one of the three cases of reception does, and a flit is taken by its type. -/
theorem flitsReceived : Obligations.FlitsReceived := by
  intro s p x f m q g
  refine ⟨fun hst hempty hkey => ⟨fun hwhole htag hseq => ⟨_, rfl, ?_⟩, fun hbad => ⟨_, rfl, ?_⟩⟩, fun hst hempty hkey hwhole => ⟨_, rfl, ?_⟩,
    fun hslots => State.received_flitBytes hslots s p, fun hflit => ?_⟩
  · have h := State.flitArrives_accepts x hempty hst hkey hwhole htag hseq
    exact ⟨congrArg RxSide.next h, congrArg RxSide.flit h, congrArg RxSide.tagRun h⟩
  · obtain ⟨run, h⟩ := State.flitArrives_discards x hempty hst hkey hbad
    exact ⟨congrArg RxSide.next h, (congrArg RxSide.flit h).trans hempty, congrArg RxSide.corrected h, congrArg RxSide.discarded h⟩
  · have h := State.flitArrives_key x hempty hst hkey hwhole
    exact ⟨congrArg RxSide.next h, congrArg RxSide.flit h⟩
  · refine ⟨fun hty => congrArg Host.Outcome.next (State.flitTaken_idle hflit hty), fun hty => congrArg Host.Outcome.next (State.flitTaken_key hflit hty),
      fun hty => congrArg Host.Outcome.next (State.flitTaken_leave hflit hty), fun hty => congrArg Host.Outcome.next (State.flitTaken_data hflit hty),
      fun hty hslots hpart hnone htime hdata => ⟨_, congrArg Host.Outcome.next (State.flitTaken_data hflit hty), ?_⟩⟩
    have hempty : ((s.setPort p { q with rxFlit := none }).portAt p).rxPart = [] := (congrArg Port.rxPart (State.portAt_setPort ..)).trans hpart
    rw [hslots, State.takeSlots_single _ p hempty hnone htime hdata, State.takeSlots_null _ p (by rw [State.portAt_setPort]), State.portAt_setPort,
      State.portAt_setPort]

end

/-! ## Requests that time out, TIME and counters (R292, R294, R297, R299, R324) -/

section
namespace Sys2Proof.Machine

/-! ### What reports, signals and stops leave of the contexts -/

/-- The state and the code of every context. -/
def State.fates (s : State) (p : PartId) (c : CtxId) : CtxSt × Byte := ((s.ctxAt p c).st, (s.ctxAt p c).code)

theorem each_fates {β : Type} (l : List β) (f : State → β → State) (hf : ∀ s x, (f s x).fates = s.fates) (s : State) : (each s l f).fates = s.fates :=
  each_keeps (P := fun u => u.fates = s.fates) (fun u x _ hu => (hf u x).trans hu) rfl

section
variable (s : State)

theorem State.fates_of_ctx {u : State} (h : u.ctx = s.ctx) : u.fates = s.fates := by
  funext p c
  simp only [State.fates, State.ctxAt, h]

/-- A write of a context that keeps its state and code. -/
theorem State.setCtx_fates (p c) (x : Ctx) (hst : x.st = (s.ctxAt p c).st) (hcode : x.code = (s.ctxAt p c).code) : (s.setCtx p c x).fates = s.fates := by
  funext q d
  unfold State.fates
  by_cases h : (q, d) = (p, c)
  · obtain ⟨rfl, rfl⟩ := Prod.mk.injEq .. ▸ h
    rw [State.ctxAt_setCtx, hst, hcode]
  · rw [s.ctxAt_setCtx_other _ _ _ _ _ h]

@[simp] theorem State.setReg_fates (a w) : (s.setReg a w).fates = s.fates := rfl
@[simp] theorem State.setTr_fates (t o w) : (s.setTr t o w).fates = s.fates := s.setReg_fates _ _
@[simp] theorem State.setEng_fates (t e v) : (s.setEng t e v).fates = s.fates := rfl
@[simp] theorem State.setTile_fates (t v) : (s.setTile t v).fates = s.fates := rfl
@[simp] theorem State.setPosterW_fates (t n v) : (s.setPosterW t n v).fates = s.fates := rfl
@[simp] theorem State.setPart_fates (p v) : (s.setPart p v).fates = s.fates := rfl
@[simp] theorem State.setQueue_fates (p q v) : (s.setQueue p q v).fates = s.fates := rfl
@[simp] theorem State.setEvt_fates (p i v) : (s.setEvt p i v).fates = s.fates := rfl
@[simp] theorem State.setWaiter_fates (p i v) : (s.setWaiter p i v).fates = s.fates := rfl
@[simp] theorem State.setPort_fates (p v) : (s.setPort p v).fates = s.fates := rfl
@[simp] theorem State.setDom_fates (d v) : (s.setDom d v).fates = s.fates := rfl
@[simp] theorem State.setHbmBytes_fates (a bs) : (s.setHbmBytes a bs).fates = s.fates := rfl
@[simp] theorem State.newTag_fates : s.newTag.1.fates = s.fates := rfl
@[simp] theorem State.clearScalars_fates (t e) : (s.clearScalars t e).fates = s.fates := rfl

@[simp] theorem State.askWake_fates (d) : (s.askWake d).fates = s.fates := by
  grind [State.askWake, State.setDom_fates]

@[simp] theorem State.lightP_fates (p n k) : (s.lightP p n k).fates = s.fates := by
  cases p with
  | none => rfl
  | some p => exact (State.setReg_fates ..).trans (s.setReg_fates ..)

/-- R342: a record enters a context's line or is counted lost. -/
@[simp] theorem State.notice_fates (p c n) : (s.notice p c n).fates = s.fates := by
  unfold State.notice
  dsimp only
  split
  · rfl
  split <;> exact s.setCtx_fates p c _ rfl rfl

end

@[simp] theorem State.sendFlit_fates (s : State) (p ty slots) : (s.sendFlit p ty slots).fates = s.fates := rfl

@[simp] theorem State.sendSlots_fates (s : State) (p n l) : (s.sendSlots p n l).fates = s.fates := by
  induction n generalizing s l with
  | zero => rfl
  | succ n ih => grind [State.sendSlots, State.sendFlit_fates]

@[simp] theorem State.pump_fates (s : State) (p n) : (s.pump p n).fates = s.fates := by
  induction n generalizing s with
  | zero => rfl
  | succ n ih => grind [State.pump, State.sendSlots_fates, State.setPort_fates]

section
variable (s : State)

@[simp] theorem State.emit_fates (p vc m) : (s.emit p vc m).fates = s.fates := by
  grind [State.emit, State.pump_fates, State.setPort_fates]

@[simp] theorem State.wake_fates (p tl key) : (s.wake p tl key).fates = s.fates := by
  grind [State.wake, State.retest, each_fates, State.setWaiter_fates]

@[simp] theorem State.evtSet_fates (p i err) : (s.evtSet p i err).fates = s.fates := by
  grind [State.evtSet, State.wake_fates, State.setEvt_fates]

@[simp] theorem State.tlApply_fates (p a v) : (s.tlApply p a v).fates = s.fates := by
  grind [State.tlApply, State.askWake_fates, State.wake_fates, State.setHbmBytes_fates, State.fates_of_ctx]

@[simp] theorem State.forceRemote_fates (p c o) : (s.forceRemote p c o).fates = s.fates := by
  grind [State.forceRemote, State.newTag_fates, State.tlApply_fates, State.emit_fates, State.fates_of_ctx]

@[simp] theorem State.forceSignal_fates (p c) : (s.forceSignal p c).fates = s.fates := by
  grind [State.forceSignal, each_fates, State.evtSet_fates, State.forceRemote_fates, State.tlApply_fates]

@[simp] theorem State.takeWait_fates (p q) : (s.takeWait p q).fates = s.fates := by
  grind [State.takeWait, State.waitWake, State.setQueue_fates, State.askWake_fates, State.setWaiter_fates]

@[simp] theorem State.takeWaits_fates (p) : (s.takeWaits p).fates = s.fates := by
  grind [State.takeWaits, each_fates, State.takeWait_fates]

@[simp] theorem State.complete_fates (p sel) : (s.complete p sel).fates = s.fates := by
  grind [State.complete, State.disarm, each_fates, State.setQueue_fates, State.setWaiter_fates, State.setPart_fates, State.notice_fates]

@[simp] theorem State.stopEngine_fates (t e) : (s.stopEngine t e).fates = s.fates := by
  grind [State.stopEngine, State.dropWalk, State.clearScalars_fates, State.setEng_fates, State.setTile_fates]

@[simp] theorem State.settle_fates (t) : (s.settle t).fates = s.fates := by
  grind [State.settle, State.reloadTile, each_fates, State.setPosterW_fates, State.setTr_fates, State.setTile_fates]

@[simp] theorem State.stopTile_fates (t all) : (s.stopTile t all).fates = s.fates := by
  grind [State.stopTile, State.setTile_fates, each_fates, State.stopEngine_fates, State.settle_fates]

/-- R324: an ACTIVE context that a fault meets is LOST with the fault's code. -/
theorem State.loseCtx_fates {p : PartId} {c : CtxId} (hst : (s.ctxAt p c).st = .active) (code w place addr parts) :
    (s.loseCtx p c code w place addr parts).fates p c = (.lost, BitVec.ofNat 8 code) := by
  unfold State.loseCtx
  dsimp only
  rw [if_neg (by simp [hst]), if_pos hst, if_neg (by simp [hst]), State.notice_fates, State.takeWaits_fates, State.forceSignal_fates, State.complete_fates,
    State.complete_fates, each_fates, each_fates, State.lightP_fates]
  · rw [State.fates, State.ctxAt_setCtx]
  · intro u t
    split
    · exact u.stopTile_fates t false
    · rfl
  · intro u e
    split <;> rfl

end

/-! ### The timeout of a request -/

/-- R337: a SIGNAL that is refused loses its context with REMOTE_ERROR. -/
theorem State.vulAnswer_loses {s : State} {tag : BitVec 16} {v : VulReq} (hfind : (s.vulReqs.find? fun x => decide (x.tag = tag)) = some v)
    (hty : v.ty = .signal) (hst : (s.ctxAt v.part v.ctx).st = .active) (part : Nat) (bad : Bool) :
    (s.vulAnswer tag part false none bad).fates v.part v.ctx = (.lost, 0x54) := by
  rw [State.vulAnswer, hfind]
  simp only [hty, if_true, Bool.false_eq_true, if_false]
  have hactive : ∀ u : State, u.ctx = s.ctx → (u.ctxAt v.part v.ctx).st = .active := fun u hu => by rwa [State.ctxAt, hu]
  refine State.loseCtx_fates _ (hactive _ ?_) ..
  rfl

/-- R292, R337: a SIGNAL that no part has answered is taken as refused, and its context is lost. -/
theorem State.vulTimeout_signal {s : State} {tag : BitVec 16} {v : VulReq} (hruns : s.vulHeld = false)
    (hfind : (s.vulReqs.find? fun x => decide (x.tag = tag)) = some v) (hty : v.ty = .signal) (hparts : v.parts = 1)
    (hnone : ∀ f ∈ (s.movq_ v.tile v.q.toNat).inflight, f.tag ≠ some tag) (hst : (s.ctxAt v.part v.ctx).st = .active) :
    (s.vulTimeout tag).fates v.part v.ctx = (.lost, 0x54) := by
  have hflight : ((s.movq_ v.tile v.q.toNat).inflight.find? fun x => decide (x.tag = some tag)) = none :=
    List.find?_eq_none.2 fun f hf => by simpa using hnone f hf
  unfold State.vulTimeout
  rw [hfind]
  dsimp only
  rw [if_neg (by simp [hruns]), hflight, hparts]
  simp only [each, List.range_one, List.foldl_cons, List.foldl_nil]
  rw [if_neg (by simp)]
  exact (congrFun₂ ((s.vulAnswer tag 0 false none false).fates_of_ctx rfl) v.part v.ctx).trans (State.vulAnswer_loses hfind hty hst 0 false)

/-- R292: once its time has run out, no request of the tag stands. -/
theorem State.vulTimeout_vulReqs {s : State} {tag : BitVec 16} {v : VulReq} (hruns : s.vulHeld = false)
    (hfind : (s.vulReqs.find? fun x => decide (x.tag = tag)) = some v) : ∀ x ∈ (s.vulTimeout tag).vulReqs, x.tag ≠ tag := by
  unfold State.vulTimeout
  rw [hfind]
  dsimp only
  rw [if_neg (by simp [hruns])]
  intro x hx
  simpa using (List.mem_filter.1 hx).2

/-- R294: an ACTIVE port's TIME message is one to its peer, on the CONTROL channel. -/
theorem State.sendTime_emits (s : State) (p : PortId) (hst : (s.portAt p).st = .active) :
    ∃ m : Msg, s.sendTime p = s.emit p 0 m ∧ m.ty = .time ∧ m.dst = (s.portAt p).peer ∧ m.src = s.devId :=
  ⟨_, if_neg (not_not.2 hst), rfl, rfl, rfl⟩

end Sys2Proof.Machine

open Sys2Proof Sys2Proof.Machine

/-- Settles O33: a timeout ends in the loss of the SIGNAL's context and drops its request; TIME and the clears are one write each. -/
theorem vulorTimersAndCounters : Obligations.VulorTimersAndCounters := by
  intro s r p n tag v
  refine ⟨fun hruns hfind => ⟨_, rfl, State.vulTimeout_vulReqs hruns hfind, fun hty hparts hnone hst => ?_⟩, ⟨fun hperiod hdue hst => ?_, fun hnot => ?_⟩,
    fun hreq => ⟨congrArg Host.Outcome.next (if_pos hreq), congrArg Host.Outcome.next (if_pos hreq)⟩⟩
  · exact Prod.ext_iff.1 (State.vulTimeout_signal hruns hfind hty hparts hnone hst)
  · have hsends : ¬(s.regF (portBase p + 0x40) 23 0 = 0 ∨ (s.portAt p).txSeq.toNat < (s.portAt p).timeSeq.toNat + s.regF (portBase p + 0x40) 23 0) :=
      not_or.2 ⟨hperiod, Nat.not_lt.2 hdue⟩
    obtain ⟨m, hsent, hfields⟩ := (s.setPort p { s.portAt p with timeSeq := (s.portAt p).txSeq }).sendTime_emits p (by rw [State.portAt_setPort]; exact hst)
    rw [State.portAt_setPort] at hfields
    exact ⟨m, congrArg Host.Outcome.next ((if_neg hsends).trans hsent), hfields⟩
  · exact congrArg Host.Outcome.next (if_pos hnot)

end

/-! ## The fabric boundary (R301, R303, R308 to R311) -/

section
namespace Sys2Proof.Machine

/-! ### A walk that settles something at one of its elements -/

/-- What the step at `x` brings about and the other steps keep holds after a walk through `x`. -/
theorem each_at {β : Type} {P : State → Prop} {l : List β} {f : State → β → State} {x : β} (hx : x ∈ l) (hset : ∀ u, P (f u x))
    (hkeep : ∀ u, ∀ y ∈ l, y ≠ x → P u → P (f u y)) (s : State) : P (each s l f) := by
  obtain ⟨l₁, l₂, rfl⟩ := List.append_of_mem hx
  have hafter : each s (l₁ ++ x :: l₂) f = each (f (each s l₁ f) x) l₂ f := by simp only [each, List.foldl_append, List.foldl_cons]
  rw [hafter]
  refine each_keeps (fun u y hy hu => ?_) (hset _)
  by_cases hyx : y = x
  · exact hyx ▸ hset u
  · exact hkeep u y (by simp [hy]) hyx hu

/-! ### The states of the stages -/

/-- A field keeps its number where another field, apart from it, is written. -/
theorem fld_setFld_apart (w : W32) {hi lo hi' lo' : Nat} (v : Nat) (hhi : hi' < 32) (h : hi < lo' ∨ hi' < lo) :
    fld (setFld w hi lo v) hi' lo' = fld w hi' lo' := by
  refine Nat.eq_of_testBit_eq fun i => ?_
  rw [testBit_fld, testBit_fld]
  by_cases hin : i < hi' + 1 - lo'
  · rw [getLsbD_setFld w hi lo v (by omega), if_neg (by omega)]
  · rw [decide_eq_false hin, Bool.false_and, Bool.false_and]

theorem fld_nibble (w : W32) : fld w 3 0 = fld w 1 0 + 4 * fld w 3 2 := by
  simp only [fld, bits, Nat.shiftRight_eq_div_pow]
  omega

section
variable (s : State) (c : ColId) (f : Bool) {v : Nat}

theorem State.xState_setStage (hv : v < 4) : (s.setStage c f v).xState c (nat01 f) = v := by
  have hwidth : v < 2 ^ (2 * nat01 f + 1 + 1 - 2 * nat01 f) := by cases f <;> exact hv
  refine (congrArg (fld · _ _) (s.reg_setReg _ _)).trans (fld_setFld _ ?_ hwidth)
  cases f <;> decide

theorem State.setStage_reg_other {a : Nat} (v : Nat) (h : a ≠ xstat c) : (s.setStage c f v).reg a = s.reg a := s.reg_setRegF_other _ _ _ h

theorem State.xState_setStage_other {k : ColId} {e : Bool} (v : Nat) (h : (k, e) ≠ (c, f)) :
    (s.setStage c f v).xState k (nat01 e) = s.xState k (nat01 e) := by
  by_cases hk : k = c
  · subst hk
    have hapart : ∀ a b : Bool, a ≠ b → 2 * nat01 b + 1 < 2 * nat01 a ∨ 2 * nat01 a + 1 < 2 * nat01 b := by decide
    refine (congrArg (fld · _ _) (s.reg_setReg _ _)).trans (fld_setFld_apart _ v ?_ (hapart e f fun he => h (he ▸ rfl)))
    cases e <;> decide
  · have hreg : xstat k ≠ xstat c := fun hx => hk (BitVec.eq_of_toNat_eq (by simpa [xstat] using hx))
    exact congrArg (fld · _ _) (s.setStage_reg_other c f v hreg)

/-- A stage in state `v` stays there while any stage is put into `v`. -/
theorem State.setStage_keeps {k : ColId} {e : Bool} (hv : v < 4) (h : s.xState k (nat01 e) = v) : (s.setStage c f v).xState k (nat01 e) = v := by
  by_cases hat : (k, e) = (c, f)
  · obtain ⟨rfl, rfl⟩ := Prod.mk.injEq .. ▸ hat
    exact s.xState_setStage k e hv
  · exact (s.xState_setStage_other c f v hat).trans h

end

theorem xstat_ne {c : ColId} {o : Nat} (h : o < 0x400 ∨ 0x800 ≤ o) : fabBase + o ≠ xstat c := by
  have := c.isLt
  unfold xstat
  omega

/-! ### Global set-reset (R308, R309) -/

/-- R309: both stages of colony `c` are HELD. -/
def State.holdStages (s : State) (c : Nat) : State := (s.setStage (BitVec.ofNat 8 c) false 0).setStage (BitVec.ofNat 8 c) true 0

/-- R308, R309: GSR asserted and counted, every stage HELD and every FIFO flushed. -/
def State.gsrFlushed (s : State) : State :=
  each (each ((s.setReg fabBase 3).incReg (fabBase + 0x008) 15 0 1) (List.range 256) State.holdStages) (List.range 16) State.flush

/-- R309: the probes under way are forgotten, and what is still due from the fabric counts as lost. -/
def State.gsrDropped (s : State) : State :=
  { s with
    probes := []
    tile := mapIf (fun _ => {}) (fun _ => true) (fun x => { x with extSent := x.extSent.map fun y => (y.1, y.2.1, y.2.2.1, true) }) s.tile }

/-- The beats in the FIFOs of port `i`. -/
def State.portBeats (s : State) (i : Nat) : List IngressBeat × List RetBeat := (s.ingressAt i, s.retAt i)

section
variable (s : State)

theorem State.raise_reg_other (c : CoreId) {src a : Nat}
    (h : a ≠ if src < 256 then intBase c + 0x140 + 4 * (src / 32) else intBase c + 0x1A0 + 4 * (src / 32 - 8)) : (s.raise c src).reg a = s.reg a := by
  unfold State.raise State.ordered
  rw [State.reg_setReg_other _ _ h]
  dsimp only
  split_ifs <;> rfl

theorem State.raise_portBeats (c : CoreId) (src i : Nat) : (s.raise c src).portBeats i = s.portBeats i := by
  unfold State.raise State.ordered
  dsimp only
  split_ifs <;> rfl

theorem State.raise_probes (c : CoreId) (src : Nat) : (s.raise c src).probes = s.probes := by
  unfold State.raise State.ordered
  dsimp only
  split_ifs <;> rfl

theorem State.gsrDropped_reg (a : Nat) : s.gsrDropped.reg a = s.reg a := rfl

theorem State.gsrDropped_portBeats (i : Nat) : s.gsrDropped.portBeats i = s.portBeats i := rfl

theorem State.gsrDropped_probes : s.gsrDropped.probes = [] := rfl

theorem State.gsrAssert_eq_or (h : s.gsr = false) :
    s.gsrAssert = s.gsrFlushed.gsrDropped.raise (headCore 0) 32 ∨ s.gsrAssert = s.gsrFlushed.gsrDropped := by
  unfold State.gsrAssert
  rw [if_neg (by simp [h])]
  exact ite_eq_or_eq ..

/-- What `gsrAssert` leaves of the flushed state: the notice to the head core touches no register of the boundary. -/
theorem State.gsrAssert_fabric (h : s.gsr = false) :
    (∀ a, fabBase ≤ a → s.gsrAssert.reg a = s.gsrFlushed.reg a) ∧ (∀ i, s.gsrAssert.portBeats i = s.gsrFlushed.portBeats i) ∧ s.gsrAssert.probes = [] := by
  have hbase : intBase (headCore 0) + 0x140 + 4 * (32 / 32) < fabBase := by decide
  obtain hraised | hquiet := s.gsrAssert_eq_or h
  · rw [hraised]
    exact ⟨fun a ha => (State.raise_reg_other _ _ (Nat.ne_of_gt (hbase.trans_le ha))).trans (State.gsrDropped_reg ..),
      fun i => (State.raise_portBeats ..).trans (State.gsrDropped_portBeats ..), (State.raise_probes ..).trans (State.gsrDropped_probes _)⟩
  · rw [hquiet]
    exact ⟨fun a _ => State.gsrDropped_reg _ a, State.gsrDropped_portBeats _, State.gsrDropped_probes _⟩

theorem State.flush_reg_other {q a : Nat} (hin : a ≠ fabBase + 0x104 + 16 * q) (hret : a ≠ fabBase + 0x10C + 16 * q) : (s.flush q).reg a = s.reg a :=
  (State.reg_setReg_other _ _ hret).trans (s.reg_setReg_other _ hin)

theorem State.flush_portBeats (q : Nat) : (s.flush q).portBeats q = ([], []) := by
  simp [State.portBeats, State.flush, State.incReg, State.ingressAt, State.retAt]

theorem State.flush_portBeats_other {q i : Nat} (h : i ≠ q) : (s.flush q).portBeats i = s.portBeats i := by
  simp [State.portBeats, State.flush, State.incReg, State.ingressAt, State.retAt, look_put_other _ _ _ h]

theorem State.holdStages_reg_other {a : Nat} (c : Nat) (h : a ≠ xstat (BitVec.ofNat 8 c)) : (s.holdStages c).reg a = s.reg a :=
  (State.setStage_reg_other _ _ _ _ h).trans (s.setStage_reg_other _ _ _ h)

theorem State.holdStages_xState (k : ColId) (e : Bool) : (s.holdStages k.toNat).xState k (nat01 e) = 0 := by
  have hk : BitVec.ofNat 8 k.toNat = k := by simp
  unfold State.holdStages
  rw [hk]
  cases e with
  | false => exact State.setStage_keeps _ k true (by decide) (s.xState_setStage k false (by decide))
  | true => exact State.xState_setStage _ k true (by decide)

theorem State.gsrFlushed_reg {a : Nat} (h : ∀ q < 16, a ≠ fabBase + 0x104 + 16 * q ∧ a ≠ fabBase + 0x10C + 16 * q) :
    s.gsrFlushed.reg a = (each ((s.setReg fabBase 3).incReg (fabBase + 0x008) 15 0 1) (List.range 256) State.holdStages).reg a :=
  each_reg_mem _ _ (fun u q hq => u.flush_reg_other (h q (List.mem_range.1 hq)).1 (h q (List.mem_range.1 hq)).2) _

theorem State.gsrFlushed_asserted : s.gsrFlushed.reg fabBase = 3 := by
  refine (s.gsrFlushed_reg fun q _ => ⟨by omega, by omega⟩).trans ((each_reg _ _ (fun u c => ?_) _).trans ?_)
  · exact u.holdStages_reg_other c (xstat_ne (o := 0) (by decide))
  · exact (State.reg_setReg_other _ _ (by decide)).trans (s.reg_setReg _ _)

theorem State.gsrFlushed_xState (k : ColId) (e : Bool) : s.gsrFlushed.xState k (nat01 e) = 0 := by
  have hreg : ∀ q < 16, xstat k ≠ fabBase + 0x104 + 16 * q ∧ xstat k ≠ fabBase + 0x10C + 16 * q := fun q hq => by
    unfold xstat
    omega
  refine (congrArg (fld · _ _) (s.gsrFlushed_reg hreg)).trans ?_
  exact each_at (P := fun u => u.xState k (nat01 e) = 0) (List.mem_range.2 k.isLt) (fun u => u.holdStages_xState k e)
    (fun u c _ _ hu => State.setStage_keeps _ _ _ (by decide) (u.setStage_keeps _ _ (by decide) hu)) _

theorem State.gsrFlushed_portBeats {i : Nat} (hi : i < 16) : s.gsrFlushed.portBeats i = ([], []) :=
  each_at (P := fun u => u.portBeats i = ([], [])) (List.mem_range.2 hi) (fun u => u.flush_portBeats i)
    (fun u _ _ hne hu => (u.flush_portBeats_other hne.symm).trans hu) _

end

/-! ### The end of the hold (R308) -/

/-- The number of fabric stages the partition declares. -/
def State.stagesOf (s : State) (p : PartId) : BitVec 2 := match s.pcfg p with | none => 0 | some g => g.fabStages

/-- Of colony `c`'s stages the first `g` enter PROBE. -/
def State.enterProbe (s : State) (g : BitVec 2) (c : ColId) : State :=
  let s := if 0 < g.toNat then s.setStage c false 1 else s
  if 1 < g.toNat then s.setStage c true 1 else s

/-- The declared stages of the partition's colonies enter PROBE. -/
def State.probePart (s : State) (p : PartId) : State := each s (s.colsOf p) fun u c => u.enterProbe (s.stagesOf p) c

section
variable (s : State)

theorem State.gsrHoldEnds_held (h : s.reg fabBase = 2) : s.gsrHoldEnds = each (s.setReg fabBase 0) s.loadedParts State.probePart :=
  if_neg (not_not.2 h)

theorem State.enterProbe_part (g : BitVec 2) (c : ColId) : (s.enterProbe g c).part = s.part := by
  unfold State.enterProbe
  dsimp only
  split_ifs <;> rfl

theorem State.enterProbe_reg_other {a : Nat} (g : BitVec 2) {c : ColId} (h : a ≠ xstat c) : (s.enterProbe g c).reg a = s.reg a := by
  unfold State.enterProbe
  dsimp only
  split_ifs <;> simp only [State.setStage_reg_other _ _ _ _ h]

theorem State.enterProbe_keeps (g : BitVec 2) (c : ColId) {k : ColId} {e : Bool} (h : s.xState k (nat01 e) = 1) :
    (s.enterProbe g c).xState k (nat01 e) = 1 := by
  have hkeep : ∀ (u : State) (b : Bool), u.xState k (nat01 e) = 1 → (u.setStage c b 1).xState k (nat01 e) = 1 := fun u b =>
    u.setStage_keeps c b (by decide)
  unfold State.enterProbe
  dsimp only
  split_ifs
  · exact hkeep _ _ (hkeep _ _ h)
  · exact hkeep _ _ h
  · exact hkeep _ _ h
  · exact h

theorem State.enterProbe_xState {g : BitVec 2} {e : Bool} (k : ColId) (h : nat01 e < g.toNat) : (s.enterProbe g k).xState k (nat01 e) = 1 := by
  have hfirst : 0 < g.toNat := Nat.zero_lt_of_lt h
  unfold State.enterProbe
  dsimp only
  rw [if_pos hfirst]
  cases e with
  | true => exact (congrArg (fun u : State => u.xState k 1) (if_pos h)).trans (State.xState_setStage _ k true (by decide))
  | false =>
    have hset := s.xState_setStage k false (v := 1) (by decide)
    split_ifs
    · exact State.setStage_keeps _ k true (by decide) hset
    · exact hset

theorem State.probePart_part (p : PartId) : (s.probePart p).part = s.part :=
  each_keeps (P := fun u => u.part = s.part) (fun u c _ hu => (u.enterProbe_part _ c).trans hu) rfl

theorem State.probePart_keeps (p : PartId) {k : ColId} {e : Bool} (h : s.xState k (nat01 e) = 1) : (s.probePart p).xState k (nat01 e) = 1 :=
  each_keeps (P := fun u => u.xState k (nat01 e) = 1) (fun u c _ hu => u.enterProbe_keeps _ c hu) h

theorem State.probePart_xState {p : PartId} {k : ColId} {e : Bool} (hk : k ∈ s.colsOf p) (h : nat01 e < (s.stagesOf p).toNat) :
    (s.probePart p).xState k (nat01 e) = 1 :=
  each_at (P := fun u => u.xState k (nat01 e) = 1) hk (fun u => u.enterProbe_xState k h) (fun u c _ _ hu => u.enterProbe_keeps _ c hu) s

theorem State.gsrHoldEnds_released (h : s.reg fabBase = 2) : s.gsrHoldEnds.reg fabBase = 0 := by
  rw [s.gsrHoldEnds_held h]
  refine (each_reg _ _ (fun u p => each_reg _ _ (fun v c => ?_) u) _).trans (s.reg_setReg _ _)
  exact v.enterProbe_reg_other _ (xstat_ne (o := 0) (by decide))

/-- R308: a declared stage of a loaded partition's colony ends the hold in PROBE. -/
theorem State.gsrHoldEnds_xState {p : PartId} {g : PartCfg} {k : ColId} {e : Bool} (h : s.reg fabBase = 2) (hp : p ∈ s.loadedParts)
    (hcfg : s.pcfg p = some g) (hk : k ∈ s.colsOf p) (hdeclared : nat01 e < g.fabStages.toNat) : s.gsrHoldEnds.xState k (nat01 e) = 1 := by
  have hpart : (each (s.setReg fabBase 0) s.loadedParts State.probePart).part = s.part :=
    each_keeps (P := fun u => u.part = s.part) (fun u p _ hu => (u.probePart_part p).trans hu) rfl
  rw [s.gsrHoldEnds_held h]
  refine each_at (P := fun u => u.part = s.part → u.xState k (nat01 e) = 1) hp (fun u hu => ?_)
    (fun u y _ _ hprobes hu => u.probePart_keeps y (hprobes ((u.probePart_part y).symm.trans hu))) _ hpart
  have hsame : u.partAt p = s.partAt p := by rw [State.partAt, (u.probePart_part p).symm.trans hu, State.partAt]
  have hstages : u.stagesOf p = g.fabStages := by
    rw [State.pcfg] at hcfg
    rw [State.stagesOf, State.pcfg, hsame, hcfg]
  refine u.probePart_xState ?_ (hstages ▸ hdeclared)
  rw [State.colsOf] at hk ⊢
  rwa [hsame]

end

/-! ### The counters' clear (R311) -/

/-- The counters of fabric port `q` clear. -/
def State.clearPort (s : State) (q : Nat) : State :=
  ((s.setRegF (fabBase + 0x104 + 16 * q) 31 16 0).setReg (fabBase + 0x108 + 16 * q) 0).setRegF (fabBase + 0x10C + 16 * q) 31 16 0

/-- The counters of fabric port `n` read 0: accepted beats, and the flushed ones of its ingress and its return FIFO. -/
def State.portCleared (s : State) (n : Nat) : Prop :=
  s.reg (fabBase + 0x108 + 16 * n) = 0 ∧ s.regF (fabBase + 0x104 + 16 * n) 31 16 = 0 ∧ s.regF (fabBase + 0x10C + 16 * n) 31 16 = 0

section
variable (s : State)

theorem State.fabClear_walks : s.fabClear = (each (each s (List.range 16) State.clearPort) (List.range 256)
    fun u c => u.setRegF (fabBase + 0x400 + 4 * c) 31 8 0).setReg (fabBase + 0x800) 0 := rfl

/-- What leaves the three counters' registers of a port as they were leaves them cleared. -/
theorem State.portCleared_of_reg {u : State} {n : Nat} (h : s.portCleared n)
    (hreg : ∀ o, o = 0x104 ∨ o = 0x108 ∨ o = 0x10C → u.reg (fabBase + o + 16 * n) = s.reg (fabBase + o + 16 * n)) : u.portCleared n := by
  obtain ⟨hcount, hin, hret⟩ := h
  exact ⟨(hreg _ (by decide)).trans hcount, (congrArg (fld · 31 16) (hreg _ (by decide))).trans hin, (congrArg (fld · 31 16) (hreg _ (by decide))).trans hret⟩

theorem State.clearPort_cleared (n : Nat) : (s.clearPort n).portCleared n := by
  have hclear : ∀ w : W32, fld (setFld w 31 16 0) 31 16 = 0 := fun w => fld_setFld w (by decide) (by decide)
  refine ⟨?_, ?_, (congrArg (fld · 31 16) (State.reg_setReg ..)).trans (hclear _)⟩
  · exact (State.reg_setRegF_other _ _ _ _ (by omega)).trans (State.reg_setReg ..)
  · refine (congrArg (fld · 31 16) ?_).trans (hclear (s.reg (fabBase + 0x104 + 16 * n)))
    exact (State.reg_setRegF_other _ _ _ _ (by omega)).trans ((State.reg_setReg_other _ _ (by omega)).trans (s.reg_setReg ..))

theorem State.clearPort_reg_other {q a : Nat} (h : ∀ o, o = 0x104 ∨ o = 0x108 ∨ o = 0x10C → a ≠ fabBase + o + 16 * q) : (s.clearPort q).reg a = s.reg a :=
  (State.reg_setRegF_other _ _ _ _ (h _ (by decide))).trans
    ((State.reg_setReg_other _ _ (h _ (by decide))).trans (s.reg_setRegF_other _ _ _ (h _ (by decide))))

theorem State.fabClear_portCleared {n : Nat} (hn : n < 16) : s.fabClear.portCleared n := by
  rw [s.fabClear_walks]
  have hports : (each s (List.range 16) State.clearPort).portCleared n :=
    each_at (P := fun u => u.portCleared n) (List.mem_range.2 hn) (fun u => u.clearPort_cleared n)
      (fun u q _ hne hu => u.portCleared_of_reg hu fun o ho => u.clearPort_reg_other fun o' ho' => by omega) s
  refine State.portCleared_of_reg _ hports fun o ho => (State.reg_setReg_other _ _ (by omega)).trans ?_
  exact each_reg _ _ (fun u c => u.reg_setRegF_other _ _ _ (by omega)) _

end

end Sys2Proof.Machine

open Sys2Proof Sys2Proof.Machine

/-- Settles O34: beats, doorbells and probes are one write each; GSR, the end of its hold and the clear are walks over the ports and stages, each of which
settles its own registers and leaves the others'. -/
theorem fabricBoundary : Obligations.FabricBoundary := by
  intro s r q b c o k f v
  refine ⟨fun hgsr => ⟨fun hnamed hroom => ?_, fun hkept => ?_, fun hdropped => ?_, ⟨_, rfl, ?_⟩⟩, rfl,
    fun hgsr => congrArg Host.Outcome.next (if_pos hgsr),
    fun hhold => ⟨_, rfl, s.gsrHoldEnds_released hhold, fun p g hp hcfg hk hdeclared => s.gsrHoldEnds_xState hhold hp hcfg hk hdeclared⟩,
    fun hprobe hnone hruns => ?_, fun hsent => ?_, fun hreq => ⟨s.fabClear, congrArg Host.Outcome.next (if_pos hreq), ?_⟩⟩
  · exact congrArg Host.Outcome.next (if_neg (by simp [hgsr, hnamed, hroom]))
  · exact congrArg Host.Outcome.next ((if_neg (by simp [hgsr])).trans (if_neg (by simp [hkept])))
  · exact congrArg Host.Outcome.next ((if_neg (by simp [hgsr])).trans (if_pos hdropped))
  · obtain ⟨hreg, hbeats, hprobes⟩ := s.gsrAssert_fabric hgsr
    have hempty : ∀ i < 16, s.gsrAssert.portBeats i = ([], []) := fun i hi => (hbeats i).trans (s.gsrFlushed_portBeats hi)
    refine ⟨(hreg _ le_rfl).trans s.gsrFlushed_asserted, fun i hi => Prod.ext_iff.1 (hempty i hi), hprobes, ?_⟩
    rw [hreg _ (by omega), fld_nibble]
    exact congrArg₂ (· + 4 * ·) (s.gsrFlushed_xState k false) (s.gsrFlushed_xState k true)
  · exact congrArg Host.Outcome.next (if_neg (by simp only [hprobe, hnone, hruns, ne_eq, not_true_eq_false, Bool.false_eq_true, or_self, not_false_eq_true]))
  · exact congrArg Host.Outcome.next (if_neg (by simp only [hsent, Bool.not_true, Bool.false_eq_true, not_false_eq_true]))
  · obtain ⟨hcount, hin, hret⟩ := s.fabClear_portCleared q.isLt
    exact ⟨hcount, hin, hret, State.reg_setReg ..⟩

end

/-! ## Events and timeline words (R335, R336, R338, R340, R465) -/

section
namespace Sys2Proof.Machine

/-! ### Partition windows, and what a fence is read from -/

theorem State.next_onPart (s : State) {r : Req} {p : PartId} (f : State → State) (h : s.partReq r p = true) : (.next (s.onPart r p f) : Ans) = .next (f s) :=
  congrArg Host.Outcome.next (s.onPart_reached f h)

/-- What the fences of a partition are read from, but for their words in HBM: the events, and the partitions' places. -/
structure Fences where
  evt : Sparse Evt
  place : PartId → Bool × Option PartCfg × Nat

def State.fences (s : State) : Fences := ⟨s.evt, fun p => ((s.partAt p).loaded, (s.partAt p).cfg, (s.partAt p).hbmBase)⟩

section
variable {s u : State} (h : u.fences = s.fences)
include h

theorem State.evtAt_of_fences (p : PartId) (i : Nat) : u.evtAt p i = s.evtAt p i :=
  congrArg (fun v : Fences => look (fun _ => {}) v.evt (p.toNat * 16777216 + i)) h

theorem State.hbmOf_of_fences (p : PartId) (a n : Nat) : u.hbmOf p a n = s.hbmOf p a n := by
  have hplace := congrFun (congrArg Fences.place h) p
  simp only [State.fences, Prod.mk.injEq] at hplace
  obtain ⟨hloaded, hcfg, hbase⟩ := hplace
  simp only [State.hbmOf, State.pcfg, hloaded, hcfg, hbase]

theorem State.tlRead_of_fences (hhbm : u.hbm = s.hbm) (p : PartId) (a : W64) : u.tlRead p a = s.tlRead p a := by
  simp only [State.tlRead, State.hbmOf_of_fences h, State.hbmBytes, hhbm]

end

section
variable (s : State)

theorem each_fences {β : Type} (l : List β) (f : State → β → State) (hf : ∀ s x, (f s x).fences = s.fences) : (each s l f).fences = s.fences :=
  each_keeps (P := fun u => u.fences = s.fences) (fun u x _ hu => (hf u x).trans hu) rfl

/-- A write of a partition that keeps its place. -/
theorem State.setPart_fences (p : PartId) (x : Part)
    (h : (x.loaded, x.cfg, x.hbmBase) = ((s.partAt p).loaded, (s.partAt p).cfg, (s.partAt p).hbmBase)) : (s.setPart p x).fences = s.fences := by
  refine congrArg (Fences.mk s.evt) (funext fun q => ?_)
  by_cases hq : q = p
  · rw [hq, State.partAt_setPart, h]
  · rw [s.partAt_setPart_other _ hq]

@[simp] theorem State.setReg_fences (a w) : (s.setReg a w).fences = s.fences := rfl

@[simp] theorem State.askWake_fences (d) : (s.askWake d).fences = s.fences := by
  unfold State.askWake
  dsimp only
  split <;> rfl

@[simp] theorem State.traceUnit_fences (p ty unit place info c) : (s.traceUnit p ty unit place info c).fences = s.fences := by
  unfold State.traceUnit State.traceUnitAt
  split
  · rfl
  · exact s.setPart_fences p _ rfl

@[simp] theorem State.addSem_fences (t n k who) : (s.addSem t n k who).1.fences = s.fences := by
  unfold State.addSem
  dsimp only
  split <;> rfl

@[simp] theorem State.notice_fences (p c n) : (s.notice p c n).fences = s.fences := by
  unfold State.notice
  dsimp only
  split
  · rfl
  split <;> rfl

/-! ### Waiter slots leave the fences they watch -/

@[simp] theorem State.wake_fences (p tl key) : (s.wake p tl key).fences = s.fences :=
  each_fences _ _ _ fun u e => by split <;> rfl

@[simp] theorem State.fireSlot_fences (p i) : (s.fireSlot p i).fences = s.fences := by
  have hfired : ∀ c, ((s.disarm p i).traceUnit p 0x03 5 0 i c).fences = s.fences := fun c => State.traceUnit_fences ..
  unfold State.fireSlot
  dsimp only
  split
  · rfl
  split
  · split
    · exact (State.addSem_fences ..).trans (hfired _)
    · exact (State.askWake_fences ..).trans (hfired _)
  · exact (State.notice_fences ..).trans (hfired _)
  · split
    · exact hfired _
    · split <;> exact hfired _

@[simp] theorem State.fireDue_fences (p) : (s.fireDue p).fences = s.fences := each_fences _ _ _ fun u i => u.fireSlot_fences p i

@[simp] theorem State.waitWake_fences (p tl h) : (s.waitWake p tl h).fences = s.fences := by
  unfold State.waitWake
  split
  · exact s.askWake_fences _
  · rfl

@[simp] theorem State.takeWait_fences (p q) : (s.takeWait p q).fences = s.fences := by
  have hwake : ∀ tl h, (s.waitWake p tl h).fences = s.fences := s.waitWake_fences p
  unfold State.takeWait
  dsimp only
  split
  · split <;> rfl
  split
  · split <;> rfl
  split
  · rfl
  split <;> exact hwake ..

@[simp] theorem State.takeWaits_fences (p) : (s.takeWaits p).fences = s.fences := each_fences _ _ _ fun u e => u.takeWait_fences p e.1

/-- R338, R340: what follows an update of a fence: its waiters fire, and the commands that wait look at it again. -/
theorem State.settled_fences (p) : ((s.fireDue p).takeWaits p).fences = s.fences := (State.takeWaits_fences ..).trans (s.fireDue_fences p)

theorem State.settled_hbm (p) : ((s.fireDue p).takeWaits p).hbm = s.hbm :=
  congrArg Mems.hbm ((State.takeWaits_mems ..).trans (s.fireDue_mems p))

end

/-! ### Events (R335, R465) -/

theorem State.evtAt_setReg (s : State) (a : Nat) (w : W32) (p : PartId) (i : Nat) : (s.setReg a w).evtAt p i = s.evtAt p i := rfl

section
variable {s : State} {p : PartId} (hready : s.hgtReady = true)
include hready

/-- R335: what a CREATE makes of the lowest free entry. -/
theorem State.createEvt_free {c : CtxId} {i : Nat} (hcfg : s.pcfg p ≠ none) (hcap : c.toNat < s.ctxCap p) (hst : (s.ctxAt p c).st ≠ .free)
    (hfirst : (firstBelow (s.evtCap p) fun j => !(s.evtAt p j).live) = some i) :
    (s.createEvt p c).evtAt p i = { live := true, gen := (s.evtAt p i).gen, owner := some c }
      ∧ (s.createEvt p c).reg (partBase p + 0x864) = mkHandle i (s.evtAt p i).gen := by
  have howner : s.mayOwn p c.toNat = true := by simp [State.mayOwn, hcap, hst]
  rw [State.createEvt, if_neg (by simp [hready]), if_neg (by simp [hcfg, howner]), hfirst]
  dsimp only [State.evtResult]
  rw [State.evtAt_setReg, State.evtAt_setReg, State.evtAt_setEvt, State.reg_setReg_other _ _ (by omega), State.reg_setReg]
  exact ⟨rfl, rfl⟩

section
variable {h : W32} {e : Evt} (hname : s.reg (partBase p + 0x864) = h) (hres : s.evtResolve p h = .ok e)
include hname hres

/-- R335: a command on a live event does its work and answers with the event as it then stands. -/
theorem State.onEvt_live (f : State → Nat → State) : s.onEvt p f = (f s (hIdx h)).evtResult p ((f s (hIdx h)).evtAt p (hIdx h)) := by
  rw [State.onEvt, if_neg (by simp [hready]), hname, hres]

theorem State.destroyEvt_runs (hruns : s.partStopped p = false) : s.destroyEvt p
    = (s.setEvt p (hIdx h) { gen := nextGen (s.evtAt p (hIdx h)).gen }).evtResult p { gen := nextGen (s.evtAt p (hIdx h)).gen } := by
  rw [State.destroyEvt, if_neg (by simp [hruns]), State.onEvt_live hready hname hres, State.evtDestroy, State.evtAt_setEvt]

theorem State.destroyEvt_stopped (hstops : s.partStopped p = true) :
    s.destroyEvt p = ({ s with gs := { s.gs with held := s.gs.held ++ [.destroyEvent p h] } } : State).evtFail p 5 := by
  rw [State.destroyEvt, hname, if_pos ⟨hready, hstops, by rw [hres]; rfl⟩]
  rfl

theorem State.onEvt_reset : ((s.onEvt p fun s i => s.evtReset p i).evtAt p (hIdx h)).signalled = false
    ∧ ((s.onEvt p fun s i => s.evtReset p i).evtAt p (hIdx h)).error = false := by
  rw [State.onEvt_live hready hname hres, State.evtResult, State.evtAt_setReg, State.evtReset, State.evtAt_setEvt]
  exact ⟨rfl, rfl⟩

/-- R335, R340: an event that SIGNAL sets stays set while its waiters fire. -/
theorem State.onEvt_signal : ((s.onEvt p fun s i => s.evtSignal p i).evtAt p (hIdx h)).signalled = true := by
  rw [State.onEvt_live hready hname hres, State.evtResult, State.evtAt_setReg, State.evtSignal, State.evtAt_of_fences (State.settled_fences ..),
    State.evtSet, State.evtAt_of_fences (State.wake_fences ..), State.evtAt_setEvt]

end

end

/-! ### Timelines (R336) -/

theorem tlMax_toNat (o v : W64) : (tlMax o v).toNat = max (o.toNat % 2 ^ 63) (v.toNat % 2 ^ 63) + (if o.msb || v.msb then 2 ^ 63 else 0) := by
  rw [tlMax, BitVec.toNat_ofNat]
  split <;> omega

theorem tlMax_low (o v : W64) : (tlMax o v).toNat % 2 ^ 63 = max (o.toNat % 2 ^ 63) (v.toNat % 2 ^ 63) := by
  rw [tlMax_toNat]
  split <;> omega

theorem tlMax_msb (o v : W64) : (tlMax o v).msb = (o.msb || v.msb) := by
  rw [BitVec.msb_eq_decide, tlMax_toNat]
  split
  next h => rw [h]; exact decide_eq_true (by omega)
  next h => rw [eq_false_of_ne_true h]; exact decide_eq_false (by omega)

/-- A timeline's word is its value and its error bit. -/
theorem tlWord_ext {o v : W64} (hlow : o.toNat % 2 ^ 63 = v.toNat % 2 ^ 63) (hmsb : o.msb = v.msb) : o = v := by
  simp only [BitVec.msb_eq_decide, decide_eq_decide] at hmsb
  exact BitVec.eq_of_toNat_eq (by omega)

section
variable {s : State} {p : PartId} {a : W64} {d : Nat} (hplace : s.hbmOf p a.toNat 8 = some d)
include hplace

theorem State.tlRead_setHbmBytes (w : W64) : (s.setHbmBytes d (natLe 8 w.toNat)).tlRead p a = w := by
  have hplaced : (s.setHbmBytes d (natLe 8 w.toNat)).hbmOf p a.toNat 8 = some d := hplace
  rw [State.tlRead, hplaced]
  have hbytes : (s.setHbmBytes d (natLe 8 w.toNat)).hbmBytes d 8 = natLe 8 w.toNat := lookN_putL ..
  dsimp only
  rw [hbytes, ofNat_leNat_natLe (n := 8) rfl]

/-- R336: an update of a word whose stack serves raises it. -/
theorem State.tlApply_serves (hserves : s.serves (domHbm (stackOf d)) = true) (v : W64) :
    s.tlApply p a v = (s.setHbmBytes d (natLe 8 (tlMax (s.tlRead p a) v).toNat)).wake p true a.toNat := by
  rw [State.tlApply, hplace]
  exact if_neg (by simp [hserves])

end

/-- R336: HGT_TLSIGCMD on a live local timeline. -/
theorem State.tlCmd_live {s : State} {p : PartId} {h : W32} {o : Obj} (hready : s.hgtReady = true) (hname : s.reg (partBase p + 0x870) = h)
    (hobj : s.objAt p (hIdx h) = o) (hcap : hIdx h < s.objCap p) (hgen : o.gen = hGen h) (hst : o.st ≠ .free) (hkind : o.kind = 3)
    (hlocal : o.remote = false) : s.tlCmd p = (s.tlApply p o.addr (s.reg64 (partBase p + 0x874) (partBase p + 0x878))).tlResult p resOk := by
  rw [State.tlCmd, if_neg (by simp [hready]), hname, hobj, if_neg (by simp [hcap, hgen, hst]), if_neg (by simp [hkind, hlocal])]

end Sys2Proof.Machine

open Sys2Proof Sys2Proof.Machine

/-- Settles O39: each event command is one write of its entry, which the firing of waiters leaves; a timeline's word is written in HBM, which they leave too. -/
theorem eventsAndTimelineWords : Obligations.EventsAndTimelineWords := by
  refine ⟨fun s r p c i e hreq hready => ?_, fun o v => ⟨tlMax_low o v, tlMax_msb o v, tlWord_ext ?_ ?_, tlWord_ext ?_ ?_⟩⟩
  · intro b h t
    refine ⟨fun hcfg hcap hst hfirst => ⟨_, s.next_onPart _ hreq, State.createEvt_free hready hcfg hcap hst hfirst⟩,
      fun hres => ⟨fun hruns => ?_, fun hstops => ?_, ⟨_, s.next_onPart _ hreq, State.onEvt_reset hready rfl hres⟩,
        ⟨_, s.next_onPart _ hreq, State.onEvt_signal hready rfl hres⟩, ?_⟩,
      fun d hcap hgen hst hkind hlocal hplace hserves => ⟨_, s.next_onPart _ hreq, ?_⟩⟩
    · exact (s.next_onPart _ hreq).trans (congrArg Host.Outcome.next (State.destroyEvt_runs hready rfl hres hruns))
    · exact (s.next_onPart _ hreq).trans (congrArg Host.Outcome.next (State.destroyEvt_stopped hready rfl hres hstops))
    · exact (s.next_onPart _ hreq).trans (congrArg Host.Outcome.next (State.onEvt_live hready rfl hres _))
    · rw [State.tlRead_of_fences (State.settled_fences ..) (State.settled_hbm ..), State.tlCmd_live hready rfl rfl hcap hgen hst hkind hlocal,
        State.tlApply_serves hplace hserves]
      exact (State.tlRead_of_fences ((State.setReg_fences ..).trans (State.wake_fences ..)) (congrArg Mems.hbm (State.wake_mems ..)) p _).trans
        (State.tlRead_setHbmBytes hplace _)
  · simp only [tlMax_low, max_assoc, max_self]
  · simp only [tlMax_msb, Bool.or_assoc, Bool.or_self]
  · rw [tlMax_low, tlMax_low, max_comm]
  · rw [tlMax_msb, tlMax_msb, Bool.or_comm]

end

/-! ## Queues and fetch (R319, R321, R326, R327, R345, R346, R465) -/

section
namespace Sys2Proof.Machine

/-! ### Queues (R319, R326, R327, R465) -/

section
variable {s : State} {p : PartId} {q : QueueId}

section
variable (hready : s.hgtReady = true)
include hready

/-- R326: the queue that CREATE opens, in an ACTIVE context below its quota. -/
theorem State.createQueue_free {c : CtxId} {cfg : W32} {i : Nat} (hstaged : s.reg (partBase p + 0x828) = cfg) (hctx : cfg.extractLsb' 0 8 = c)
    (hcfg : s.pcfg p ≠ none) (hst : (s.ctxAt p c).st = .active) (hmin : 4 ≤ fld cfg 12 8) (hmax : fld cfg 12 8 ≤ 16)
    (hquota : (s.ctxQueues p c).length < 16)
    (hfirst : (firstBelow (s.queueCap p) fun j => !(s.queueAt p (BitVec.ofNat 10 j)).isOpen && (s.queueAt p (BitVec.ofNat 10 j)).cmds.isEmpty) = some i) :
    s.createQueue p = (s.setQueue p (BitVec.ofNat 10 i) { isOpen := true, ctx := c, prio := cfg.extractLsb' 16 2, qlog2 := cfg.extractLsb' 8 5,
                                                          ring := s.reg64 (partBase p + 0x820) (partBase p + 0x824) }).qResult p (BitVec.ofNat 10 i) resOk := by
  rw [State.createQueue, hstaged, hctx]
  dsimp only
  rw [if_neg (by simp [hready]), if_neg (by simp [hcfg, hst, hmin, hmax]), if_neg (Nat.not_le.2 hquota), hfirst]

theorem State.destroyQueue_closed (hclosed : (s.queueAt p q).isOpen = false) : s.destroyQueue p q = s.qResult p q resInvalid := by
  rw [State.destroyQueue, if_neg (by simp [hready]), if_pos (by simp [hclosed])]

section
variable (hopen : (s.queueAt p q).isOpen = true)
include hopen

/-- R465: in the scope of a global stop DESTROY waits for the release. -/
theorem State.destroyQueue_stopped (hstops : s.partStopped p = true) :
    s.destroyQueue p q = ({ s with gs := { s.gs with held := s.gs.held ++ [.destroyQueue p q] } } : State).qResult p q resBusy := by
  rw [State.destroyQueue, if_neg (by simp [hready]), if_neg (by simp [hopen]), if_pos hstops]

section
variable (hruns : s.partStopped p = false)
include hruns

theorem State.destroyQueue_done (hread : (s.queueAt p q).head = (s.queueAt p q).tail) (hcmds : ∀ m ∈ (s.queueAt p q).cmds, m.isDone = true) :
    s.destroyQueue p q = (s.setQueue p q { s.queueAt p q with isOpen := false, stopped := false, wsWait := false }).qResult p q resOk := by
  rw [State.destroyQueue, if_neg (by simp [hready]), if_neg (by simp [hopen]), if_neg (by simp [hruns]), if_neg (by simpa [hread] using hcmds)]

theorem State.destroyQueue_busy (hleft : (s.queueAt p q).head ≠ (s.queueAt p q).tail ∨ ∃ m ∈ (s.queueAt p q).cmds, m.isDone = false) :
    s.destroyQueue p q = s.qResult p q resBusy := by
  rw [State.destroyQueue, if_neg (by simp [hready]), if_neg (by simp [hopen]), if_neg (by simp [hruns]), if_pos (by simpa using hleft)]

end

end

end

/-- R319, R327: a tail write adds entries under the partition's next sequence. -/
theorem State.submit_adds {tail : W16} {n : Nat} (hopen : (s.queueAt p q).isOpen = true) (hst : (s.ctxAt p (s.queueAt p q).ctx).st ≠ .dying)
    (hcount : (tail.toNat % 2 ^ (s.queueAt p q).qlog2.toNat + 2 ^ (s.queueAt p q).qlog2.toNat - (s.queueAt p q).tail.toNat)
      % 2 ^ (s.queueAt p q).qlog2.toNat = n) (hsome : n ≠ 0) :
    s.submit p q tail = (s.setPart p { s.partAt p with subSeq := (s.partAt p).subSeq + 1 }).setQueue p q
      { s.queueAt p q with tail := BitVec.ofNat 16 (tail.toNat % 2 ^ (s.queueAt p q).qlog2.toNat),
                           subs := (s.queueAt p q).subs ++ [(n, (s.partAt p).subSeq + 1)] } := by
  rw [State.submit, hcount, if_neg (by simp [hopen, hst, hsome])]

/-! ### Fetch (R321, R327, R345) -/

section
variable {k : Nat} {seq : W64} {l : List (Nat × W64)} {g : PartCfg} {x : Ctx} {u : State} (hsubs : (s.queueAt p q).subs = (k, seq) :: l)
  (hcfg : s.pcfg p = some g) (hopen : (s.queueAt p q).isOpen = true) (hmay : s.mayFetch p (s.queueAt p q) = true)
  (hctx : s.ctxAt p (s.queueAt p q).ctx = x) (hu : s.setQueue p q (s.queueAt p q).advance = u)
include hsubs hcfg hopen hmay hctx hu

/-- R345: a read that fails loses the context. -/
theorem State.fetchCmd_error (hst : x.st = .active) : s.fetchCmd p q .error = u.loseCtx p (s.queueAt p q).ctx 0x53 .none 0 0 0 := by
  rw [State.fetchCmd, hsubs, hcfg]
  dsimp only
  rw [if_neg (by simp [hopen, hmay]), hctx, hst, hu]

/-- R327, R321, R346, R345: an entry of an ACTIVE context that every check passes joins its queue, and one that fails a check completes with that status;
an entry of a LOST context completes with CONTEXT_LOST. -/
theorem State.fetchCmd_data {bs raw full : List Byte} {m : Cmd} (hraw : (bs ++ List.replicate 128 0).take x.cmdBytes = raw)
    (hfull : (if x.fa1 then fa1Bytes raw else raw) = full) (hm : cmdOf full seq u.time = m) :
    (x.st = .active →
        (u.fetchStatus p g x (s.queueAt p q).ctx raw full m = none →
          s.fetchCmd p q (.data bs) = (u.setQueue p q { u.queueAt p q with cmds := (u.queueAt p q).cmds ++ [m] }).takeWaits p)
        ∧ ∀ st, u.fetchStatus p g x (s.queueAt p q).ctx raw full m = some st →
          s.fetchCmd p q (.data bs) = u.finishCmd p q (u.lawfulSignal p g x (s.queueAt p q).ctx m) st true)
      ∧ (x.st = .lost → s.fetchCmd p q (.data bs) = u.finishCmd p q (u.lawfulSignal p g x (s.queueAt p q).ctx m) 3 false) := by
  rw [State.fetchCmd, hsubs, hcfg]
  dsimp only
  rw [if_neg (by simp [hopen, hmay]), hctx, hu, hraw, hfull, hm]
  refine ⟨fun hst => ⟨fun hok => ?_, fun st hbad => ?_⟩, fun hst => ?_⟩ <;> rw [hst]
  · dsimp only
    rw [hok]
  · dsimp only
    rw [hbad]

end

end

end Sys2Proof.Machine

open Sys2Proof Sys2Proof.Machine

/-- Settles O37: each clause is a case of one operation on the partition's queues. -/
theorem queuesAndFetch : Obligations.QueuesAndFetch := by
  intro s r p q i tail hreq b cfg Q size n
  refine ⟨fun hready => ⟨fun hcfg hst hmin hmax hquota hfirst => ?_, fun hopen hruns hread hcmds => ?_, fun hopen hruns hleft => ?_,
      fun hopen hstops => ?_, fun hclosed => ?_⟩, fun hopen hst hsome => ?_, ?_⟩
  · exact (s.next_onPart _ hreq).trans (congrArg Host.Outcome.next (State.createQueue_free hready rfl rfl hcfg hst hmin hmax hquota hfirst))
  · exact (s.next_onPart _ hreq).trans (congrArg Host.Outcome.next (State.destroyQueue_done hready hopen hruns hread hcmds))
  · exact (s.next_onPart _ hreq).trans (congrArg Host.Outcome.next (State.destroyQueue_busy hready hopen hruns hleft))
  · exact (s.next_onPart _ hreq).trans (congrArg Host.Outcome.next (State.destroyQueue_stopped hready hopen hstops))
  · exact (s.next_onPart _ hreq).trans (congrArg Host.Outcome.next (State.destroyQueue_closed hready hclosed))
  · exact (s.next_onPart _ hreq).trans (congrArg Host.Outcome.next (State.submit_adds hopen hst rfl hsome))
  · intro k seq l g bs hsubs hcfg hopen hmay x s1 raw full m
    obtain ⟨hactive, hlost⟩ := State.fetchCmd_data (bs := bs) hsubs hcfg hopen hmay rfl rfl rfl rfl rfl
    refine ⟨fun hst => ⟨fun hok => congrArg Host.Outcome.next ((hactive hst).1 hok),
      fun st hbad => congrArg Host.Outcome.next ((hactive hst).2 st hbad), congrArg Host.Outcome.next ?_⟩, fun hst => congrArg Host.Outcome.next (hlost hst)⟩
    exact State.fetchCmd_error hsubs hcfg hopen hmay rfl rfl hst

end

/-! ## Waiter slots and notice records (R338, R341 to R343) -/

section
namespace Sys2Proof.Machine

/-! ### Waiter slots (R338) -/

theorem toNat_extractLsb_high (w : W32) : (w.extractLsb' 24 8).toNat = fld w 31 24 := BitVec.extractLsb'_toNat ..

/-- R335: an event handle that resolves is that of the live event it names. -/
theorem State.evtResolve_ok {s : State} {p : PartId} {h : W32} {e : Evt} (hres : s.evtResolve p h = .ok e) : s.evtAt p (hIdx h) = e := by
  unfold State.evtResolve at hres
  dsimp only at hres
  split at hres
  · cases hres
  · split at hres
    · cases hres
    · split at hres
      · exact Except.ok.inj hres
      · cases hres

/-- R335: an event that is not signalled satisfies no wait. -/
theorem State.waitTest_unsignalled {s : State} {p : PartId} {h : W32} (hnot : (s.evtAt p (hIdx h)).signalled = false) (v : W64) :
    s.waitTest p false h v = none := by
  rw [State.waitTest, if_neg Bool.false_ne_true]
  exact if_neg fun ⟨_, _, hset⟩ => by simp [hnot] at hset

section
variable {s : State} {p : PartId} {k : BitVec 14} (hready : s.hgtReady = true) (hslot : k.toNat < s.slotCap p)
include hready hslot

theorem State.armSlot_armed (harmed : (s.waiterAt p k.toNat).armed = true) (tl : Bool) : s.armSlot p k tl = s.wsResult p k resBusy := by
  unfold State.armSlot
  dsimp only
  rw [if_neg (by simp [hready]), if_neg (Nat.not_le.2 hslot), if_pos harmed]

/-- R338: a free slot that is armed on an event that is not signalled waits. -/
theorem State.armSlot_event {h tgt : W32} {e : Evt} (hname : s.reg (partBase p + 0x880) = h) (htgt : s.reg (partBase p + 0x88C) = tgt)
    (hfree : (s.waiterAt p k.toNat).armed = false) (howner : fld tgt 31 24 < s.ctxCap p)
    (htile : bit tgt 16 = true ∨ s.partOf (tgt.extractLsb' 0 12) = some p) (hres : s.evtResolve p h = .ok e) (hnot : e.signalled = false) :
    s.armSlot p k false = (s.wsResult p k resOk).setWaiter p k.toNat
      { s.waiterAt p k.toNat with armed := true, handle := h, tl := false, val := s.reg64 (partBase p + 0x884) (partBase p + 0x888),
                                  owner := tgt.extractLsb' 24 8, tgt := if bit tgt 16 then .notice else .sem (tgt.extractLsb' 0 12) (tgt.extractLsb' 12 4) } := by
  have hplace : ¬(s.ctxCap p ≤ (tgt.extractLsb' 24 8).toNat ∨ ((!bit tgt 16) = true ∧ s.partOf (tgt.extractLsb' 0 12) ≠ some p)) := by
    rw [toNat_extractLsb_high]
    rintro (hcap | ⟨hsem, hother⟩)
    · exact Nat.not_le.2 howner hcap
    · rcases htile with hnotice | hhere
      · simp [hnotice] at hsem
      · exact hother hhere
  have hwait : ∀ v, (s.wsResult p k resOk).waitTest p false h v = none :=
    State.waitTest_unsignalled (by rw [State.wsResult, State.evtAt_setReg, State.evtAt_setReg, State.evtResolve_ok hres, hnot])
  unfold State.armSlot
  simp only [hname, htgt]
  rw [if_neg (by simp [hready]), if_neg (Nat.not_le.2 hslot), if_neg (ne_true_of_eq_false hfree), if_neg hplace]
  simp only [hres, hwait, Bool.false_eq_true, if_false]
  rfl

/-- R338: DISARM of a slot that no command holds. -/
theorem State.disarmSlot_armed (harmed : (s.waiterAt p k.toNat).armed = true) (hown : ∀ q, (s.waiterAt p k.toNat).tgt ≠ .command q) :
    s.disarmSlot p k = ((s.disarm p k.toNat).wsResult p k resOk).takeWaits p := by
  unfold State.disarmSlot
  dsimp only
  rw [if_neg (by simp [hready]), if_neg (Nat.not_le.2 hslot), if_neg (by simp [harmed])]
  split
  next q htgt => exact absurd htgt (hown q)
  next => rfl

end

/-- The slot has fired and stands disarmed; what it was armed for is still to be done. -/
def State.slotFired (s : State) (p : PartId) (i : Nat) : State := (s.disarm p i).traceUnit p 0x03 5 0 i (some (s.waiterAt p i).owner)

section
variable {s : State} {p : PartId} {i : Nat} (harmed : (s.waiterAt p i).armed = true) (hdue : (s.waiterAt p i).due = true)
include harmed hdue

theorem State.fireSlot_sem {t : TileId} {n : SemId} (htgt : (s.waiterAt p i).tgt = .sem t n) (hruns : (s.slotFired p i).runs t = true) :
    s.fireSlot p i = ((s.slotFired p i).addSem t n 1 (posterCode 4 i)).1 := by
  unfold State.fireSlot
  dsimp only
  rw [if_neg (by simp [harmed, hdue]), htgt]
  exact if_pos hruns

theorem State.fireSlot_notice (htgt : (s.waiterAt p i).tgt = .notice) : s.fireSlot p i = (s.slotFired p i).notice p (s.waiterAt p i).owner
    { (s.slotFired p i).blankNotice p 3 0 (s.waiterAt p i).owner true with tag := mkHandle i (s.waiterAt p i).gen } := by
  unfold State.fireSlot
  dsimp only
  rw [if_neg (by simp [harmed, hdue]), htgt]
  rfl

end

/-! ### Notice records (R341 to R343) -/

/-- R342, R343: the oldest record of a context whose ring has room is written and counted, and its message follows. -/
theorem State.noticeWrite_room {s u : State} {p : PartId} {c : CtxId} {x : Ctx} {n : Notice} {l : List Notice} (hctx : s.ctxAt p c = x)
    (hline : x.waiting = n :: l) (hst : x.st ≠ .free) (hroom : x.full = false)
    (hu : (s.hostWrite x.pasidOf (x.ring.toNat + 64 * (x.nwrite.toNat % 2 ^ x.nlog2.toNat)) (n.bytes x.phase)).setCtx p c
      { x with waiting := l, nwrite := x.nwrite + 1 } = u) : s.noticeWrite p c = (noticeVector p x n).elim u u.send := by
  unfold State.noticeWrite
  rw [hctx]
  dsimp only
  rw [hline]
  dsimp only
  rw [if_neg (by simp [hst, hroom]), hu]
  cases noticeVector p x n <;> rfl

end Sys2Proof.Machine

open Sys2Proof Sys2Proof.Machine

/-- Settles O40: each clause is a case of one operation on a waiter slot or on a context's line of records. -/
theorem waitersAndNotices : Obligations.WaitersAndNotices := by
  intro s r p k c w b h tgt y
  refine ⟨fun hreq hready hslot => ⟨fun e hfree howner htile hres hnot => ?_, fun harmed => ?_, fun harmed hown => ?_⟩,
    fun harmed hdue => ⟨fun t n htgt hruns => ?_, fun htgt => ?_⟩, fun n l => ?_, fun hreq => s.next_onPart _ hreq⟩
  · exact (s.next_onPart _ hreq).trans (congrArg Host.Outcome.next (State.armSlot_event hready hslot rfl rfl hfree howner htile hres hnot))
  · exact (s.next_onPart _ hreq).trans (congrArg Host.Outcome.next (State.armSlot_armed hready hslot harmed false))
  · exact (s.next_onPart _ hreq).trans (congrArg Host.Outcome.next (State.disarmSlot_armed hready hslot harmed hown))
  · exact congrArg (fun u : State => (.next (u.takeWaits p) : Ans)) (State.fireSlot_sem harmed hdue htgt hruns)
  · exact congrArg (fun u : State => (.next (u.takeWaits p) : Ans)) (State.fireSlot_notice harmed hdue htgt)
  · intro x hline hst hroom s1
    refine congrArg Host.Outcome.next ((State.noticeWrite_room rfl hline hst hroom rfl).trans ?_)
    cases noticeVector p x n <;> rfl

end

/-! ## Commands: dispatch, start, completion, watchdog and signal (R327 to R334, R339) -/

section
namespace Sys2Proof.Machine

section
variable {s : State} {p : PartId} {q : QueueId}

/-- R333: the queues served last have no part in where a LAUNCH's rectangle stands. -/
theorem State.launchCols_served (b : LaunchBody) : (s.served p q).launchCols p b = s.launchCols p b := by
  simp only [State.launchCols, State.served, State.partAt_setPart]

/-! ### Dispatch (R327 to R333) -/

section
variable {m : Cmd} (hnext : (s.queueAt p q).next = some m) (hturn : s.turn p q = true)
include hnext hturn

theorem State.runNop_turn (hnop : m.launch = none) :
    s.runNop p q = ((s.served p q).finishNext p q m (if m.waitErr then 8 else 0) false).takeWaits p := by
  rw [State.runNop, hnext]
  exact if_neg (by simp [hnop, hturn])

/-- R329, R332: a LAUNCH without an argument tail whose domains serve is staged where its package is sound, and is refused where a colony would have to
load one that is not. -/
theorem State.dispatchLaunch_served {b : LaunchBody} {k : Pkg} {slot : Nat} {u : State} (hbody : m.launch = some b)
    (hhead : s.headReady p (s.queueAt p q) m = true) (herr : m.waitErr = false) (hslot : s.freeStage p = some slot)
    (hawake : s.launchAsleep p b slot = []) (hargs : b.args = 0) (hu : s.served p q = u) (hread : u.readPkg p (u.objAt p (hIdx b.prog)) = some k)
    (args : HostResp) :
    (u.pkgOk (u.ctxAt p (s.queueAt p q).ctx) k ((s.launchCols p b).flatMap tilesOfCol) = true →
        s.dispatchLaunch p q args = (u.stageLaunch p q m b k slot args).takeWaits p)
      ∧ (u.pkgOk (u.ctxAt p (s.queueAt p q).ctx) k ((s.launchCols p b).flatMap tilesOfCol) = false → (∃ c ∈ s.launchCols p b, u.packageAt c ≠ b.prog) →
        s.dispatchLaunch p q args = (u.finishNext p q m 7 true).takeWaits p) := by
  have hcols : u.launchCols p b = s.launchCols p b := hu ▸ State.launchCols_served b
  unfold State.dispatchLaunch
  dsimp only
  rw [hnext]
  dsimp only
  rw [hbody]
  dsimp only
  rw [if_neg (by simp [hhead]), if_neg (by simp [herr]), hslot]
  dsimp only
  rw [if_neg (by simp [hturn]), if_neg (by simp [hawake]), hu, hread, hcols]
  dsimp only
  refine ⟨fun hok => ?_, fun hbad ⟨c, hc, hother⟩ => if_pos ⟨List.any_eq_true.2 ⟨c, hc, decide_eq_true hother⟩, by simp [hbad]⟩⟩
  rw [if_neg (by simp [hok]), if_neg (by simp [hargs])]

end

/-! ### Start, completion and watchdog of a LAUNCH (R333, R334) -/

section
variable {m : Cmd} {b : LaunchBody} (hbody : m.launch = some b)
include hbody

/-- R333, R266: the shapes of a LAUNCH lie in their ranges, so its engines start. -/
theorem State.launchStart_staged
    (hfound : ((s.queueAt p q).cmds.find? fun m => decide (m.st = .staging) && m.launch.any fun b =>
      ((s.launchCols p b).flatMap tilesOfCol).all fun t => s.staged t) = some m)
    (hshapes : ∀ y ∈ m.shapes, y.2.2.toNat ≤ y.2.1.toNat ∧ (y.1 = false ∨ y.2.2 ≠ 0)) :
    s.launchStart p q = each (s.setQueue p q ((s.queueAt p q).swap m { m with st := .running })) ((s.launchCols p b).flatMap tilesOfCol) fun u t =>
      each (if m.engs = 0 then u else u.identify t m.tag m.layer m.operator (s.ctxAt p (s.queueAt p q).ctx).fa1) engines fun u e =>
        if m.engs.getLsbD e.toNat then u.startOp t e 0 else u := by
  have hmax : ¬ (m.shapes.any fun y => decide (y.2.1.toNat < y.2.2.toNat)) = true := by
    simpa using fun a v n hy => (hshapes (a, v, n) hy).1
  have hgate : ¬ (m.shapes.any fun y => y.1 && decide (y.2.2 = 0)) = true := by
    intro hany
    obtain ⟨y, hy, hzero⟩ := List.any_eq_true.1 hany
    obtain ⟨hgates, hnone⟩ := Bool.and_eq_true_iff.1 hzero
    rcases (hshapes y hy).2 with hopen | hsome
    · simp [hopen] at hgates
    · exact hsome (of_decide_eq_true hnone)
  unfold State.launchStart
  dsimp only
  rw [hfound]
  dsimp only
  rw [hbody]
  dsimp only
  rw [if_neg hmax, if_neg hgate]
  rfl

/-- R334: a LAUNCH whose tiles are done completes with OK. -/
theorem State.launchDone_finished
    (hfound : ((s.queueAt p q).cmds.find? fun m => decide (m.st = .running) && m.launch.any fun b =>
      ((s.launchCols p b).flatMap tilesOfCol).all fun t => s.tileDone t) = some m) :
    s.launchDone p q = ((each s ((s.launchCols p b).flatMap tilesOfCol) fun u t => u.closeWindow t).complete p
      fun q' _ m' => if q' = q ∧ m' = m then some 0 else none).takeWaits p := by
  unfold State.launchDone
  dsimp only
  rw [hfound]
  dsimp only
  rw [hbody, Option.toList_some, List.flatMap_singleton]

end

/-- R334: a LAUNCH that runs past the watchdog loses its context. -/
theorem State.watchdog_expires {m : Cmd} (hfound : ((s.queueAt p q).cmds.find? fun m => m.isRunning && m.launch.isSome) = some m)
    (hset : s.regF (partBase p + 0x8B8) 23 0 ≠ 0) : s.watchdog p q
      = (s.reach (m.since + BitVec.ofNat 64 (s.regF (partBase p + 0x8B8) 23 0 * 1000 + 1))).loseCtx p (s.queueAt p q).ctx 0x22 (.cmd q m) 0 0 0 := by
  rw [State.watchdog, hfound]
  exact if_neg hset

/-- R339: a completed command's signal of an event; a status past OK_EMPTY is an error. -/
theorem State.applySignal_event {m : Cmd} {st : Byte} (hfound : (s.queueAt p q).cmds.find? (·.isDone) = some m) (hst : m.st = .done st)
    (hevent : m.sigTl = false) : s.applySignal p q
      = (s.setQueue p q { s.queueAt p q with cmds := (s.queueAt p q).cmds.erase m }).signal p false m.signal m.sigVal (decide (1 < st.toNat)) := by
  rw [State.applySignal, hfound]
  dsimp only
  rw [if_neg (by simp [hevent]), hst, hevent]

end

end Sys2Proof.Machine

open Sys2Proof Sys2Proof.Machine

/-- Settles O41: each clause is a case of one operation on the queue's commands. -/
theorem commandsRun : Obligations.CommandsRun := by
  intro s p q m Q tiles
  refine ⟨fun hnext hturn => ⟨fun hnop => congrArg Host.Outcome.next (State.runNop_turn hnext hturn hnop), ?_⟩,
    fun b hbody => ⟨fun hfound hshapes => congrArg Host.Outcome.next (State.launchStart_staged hbody hfound hshapes),
      fun hfound => congrArg Host.Outcome.next (State.launchDone_finished hbody hfound),
      fun hfound hset => congrArg Host.Outcome.next (State.watchdog_expires hfound hset)⟩,
    fun st hfound hst hevent => congrArg (fun u : State => (.next ((u.fireDue p).takeWaits p) : Ans)) (State.applySignal_event hfound hst hevent)⟩
  intro b k slot args hbody hhead herr hslot hawake hargs s1 hread
  obtain ⟨hsound, hbad⟩ := State.dispatchLaunch_served hnext hturn hbody hhead herr hslot hawake hargs rfl hread args
  exact ⟨fun hok => congrArg Host.Outcome.next (hsound hok), fun hnot hother => congrArg Host.Outcome.next (hbad hnot hother)⟩

end

/-! ## BAR2 accesses, function resets and ATS invalidation (R314 to R316, R325, R398, R400, R412) -/

section
namespace Sys2Proof.Machine

/-! ### What the kill of a context leaves of the function resets that go on (R315, R325, R398, R400) -/

/-- What function resets turn on: the global stop, the IDE streams' keys, PWR_HOSTCFG, and whose each context is and whether it is FREE. -/
structure Tenure where
  stop : GStop
  ide : List (Fin 3 × BitVec 256)
  hostCfg : W32
  owner : PartId → CtxId → Bool × Bool

def State.tenure (s : State) : Tenure :=
  ⟨s.gs, s.chitin.ide, s.reg (pwrBase + 0x10), fun p c => ((s.ctxAt p c).byPf, decide ((s.ctxAt p c).st = .free))⟩

theorem each_tenure {β : Type} (l : List β) (f : State → β → State) (hf : ∀ s x, (f s x).tenure = s.tenure) (s : State) : (each s l f).tenure = s.tenure :=
  each_keeps (P := fun u => u.tenure = s.tenure) (fun u x _ hu => (hf u x).trans hu) rfl

section
variable (s : State)

/-! ### Writes of tables -/

theorem State.setReg_tenure {a : Nat} (w) (ha : 0x00300000 ≤ a) : (s.setReg a w).tenure = s.tenure := by
  simp only [State.tenure, s.reg_setReg_other w (show pwrBase + 0x10 ≠ a by unfold pwrBase; omega)]
  rfl

/-- A write of a context that keeps whose it is, and whether it is FREE. -/
theorem State.setCtx_tenure (p c) (x : Ctx) (hby : x.byPf = (s.ctxAt p c).byPf) (hst : x.st = .free ↔ (s.ctxAt p c).st = .free) :
    (s.setCtx p c x).tenure = s.tenure := by
  refine congrArg (Tenure.mk s.gs s.chitin.ide (s.reg (pwrBase + 0x10))) (funext₂ fun q d => ?_)
  by_cases h : (q, d) = (p, c)
  · obtain ⟨rfl, rfl⟩ := Prod.mk.injEq .. ▸ h
    rw [State.ctxAt_setCtx, hby, decide_eq_decide.2 hst]
  · rw [s.ctxAt_setCtx_other _ _ _ _ _ h]

@[simp] theorem State.setEng_tenure (t e v) : (s.setEng t e v).tenure = s.tenure := rfl
@[simp] theorem State.setTile_tenure (t v) : (s.setTile t v).tenure = s.tenure := rfl
@[simp] theorem State.setMovq_tenure (t q v) : (s.setMovq t q v).tenure = s.tenure := rfl
@[simp] theorem State.setMovd_tenure (t d v) : (s.setMovd t d v).tenure = s.tenure := rfl
@[simp] theorem State.setPosterW_tenure (t n v) : (s.setPosterW t n v).tenure = s.tenure := rfl
@[simp] theorem State.setCtl_tenure (c v) : (s.setCtl c v).tenure = s.tenure := rfl
@[simp] theorem State.setPart_tenure (p v) : (s.setPart p v).tenure = s.tenure := rfl
@[simp] theorem State.setQueue_tenure (p q v) : (s.setQueue p q v).tenure = s.tenure := rfl
@[simp] theorem State.setEvt_tenure (p i v) : (s.setEvt p i v).tenure = s.tenure := rfl
@[simp] theorem State.setWaiter_tenure (p i v) : (s.setWaiter p i v).tenure = s.tenure := rfl
@[simp] theorem State.setPort_tenure (p v) : (s.setPort p v).tenure = s.tenure := rfl
@[simp] theorem State.setDom_tenure (d v) : (s.setDom d v).tenure = s.tenure := rfl
@[simp] theorem State.setHbmBytes_tenure (a bs) : (s.setHbmBytes a bs).tenure = s.tenure := rfl
@[simp] theorem State.inject_tenure (x) : (s.inject x).tenure = s.tenure := rfl
@[simp] theorem State.newTag_tenure : s.newTag.1.tenure = s.tenure := rfl
@[simp] theorem State.clearScalars_tenure (t e) : (s.clearScalars t e).tenure = s.tenure := rfl
@[simp] theorem State.disarm_tenure (p i) : (s.disarm p i).tenure = s.tenure := rfl
@[simp] theorem State.freeSlot_tenure (p i) : (s.freeSlot p i).tenure = s.tenure := rfl
@[simp] theorem State.freeObj_tenure (p i) : (s.freeObj p i).tenure = s.tenure := rfl
@[simp] theorem State.enterQueue_tenure (t a) : (s.enterQueue t a).tenure = s.tenure := rfl

/-! ### Registers of tiles, controllers and counters -/

@[simp] theorem State.setTr_tenure (t o w) : (s.setTr t o w).tenure = s.tenure := s.setReg_tenure _ (by unfold tileBase colBase; omega)

theorem State.setObs_tenure (t o w) : (s.setReg (obsBase t + o) w).tenure = s.tenure := s.setReg_tenure _ (by unfold obsBase colBase; omega)

theorem le_intBase (c : CoreId) : 0x00300000 ≤ intBase c := by
  unfold intBase colBase
  split <;> omega

@[simp] theorem State.lightP_tenure (p n k) : (s.lightP p n k).tenure = s.tenure := by
  cases p with
  | none => rfl
  | some p => exact (State.setReg_tenure _ _ (by unfold partBase; omega)).trans (s.setReg_tenure _ (by unfold partBase; omega))

@[simp] theorem State.setBusy_tenure (t i b) : (s.setBusy t i b).tenure = s.tenure := s.setTr_tenure ..

@[simp] theorem State.addSem_tenure (t n k who) : (s.addSem t n k who).1.tenure = s.tenure := by
  grind [State.addSem, State.setSem, State.setPosterW_tenure, State.setTr_tenure]

/-! ### Reports -/

@[simp] theorem State.raiseTile_tenure (t base) : (s.raiseTile t base).tenure = s.tenure := by
  have hordered : ∀ c l, (s.ordered c l).tenure = s.tenure := by
    grind [State.ordered, State.setCtl_tenure]
  have hint := le_intBase (coreOfCol (colonyOf t))
  unfold State.raiseTile State.raise
  dsimp only
  refine (State.setReg_tenure _ _ ?_).trans ?_
  · split <;> omega
  · split
    · rfl
    · exact hordered ..

@[simp] theorem State.trace_tenure (t ty unit place info) : (s.trace t ty unit place info).tenure = s.tenure := by
  have hlost : ∀ u : State, (u.incReg (obsBase t + 0xFC) 15 0 1).tenure = u.tenure := fun u => u.setObs_tenure t _ _
  grind [State.trace, State.setTile_tenure]

@[simp] theorem State.traceUnit_tenure (p ty unit place info c) : (s.traceUnit p ty unit place info c).tenure = s.tenure := by
  grind [State.traceUnit, State.traceUnitAt, State.setPart_tenure]

@[simp] theorem State.askWake_tenure (d) : (s.askWake d).tenure = s.tenure := by
  grind [State.askWake, State.setDom_tenure]

/-- R342: a record enters a context's line or is counted lost. -/
@[simp] theorem State.notice_tenure (p c n) : (s.notice p c n).tenure = s.tenure := by
  unfold State.notice
  dsimp only
  split
  · rfl
  split <;> exact s.setCtx_tenure p c _ rfl Iff.rfl

end

/-! ### Messages of Vulor ports -/

@[simp] theorem State.sendFlit_tenure (s : State) (p ty slots) : (s.sendFlit p ty slots).tenure = s.tenure := rfl

@[simp] theorem State.sendSlots_tenure (s : State) (p n l) : (s.sendSlots p n l).tenure = s.tenure := by
  induction n generalizing s l with
  | zero => rfl
  | succ n ih => grind [State.sendSlots, State.sendFlit_tenure]

@[simp] theorem State.pump_tenure (s : State) (p n) : (s.pump p n).tenure = s.tenure := by
  induction n generalizing s with
  | zero => rfl
  | succ n ih => grind [State.pump, State.sendSlots_tenure, State.setPort_tenure]

section
variable (s : State)

@[simp] theorem State.emit_tenure (p vc m) : (s.emit p vc m).tenure = s.tenure := by
  grind [State.emit, State.pump_tenure, State.setPort_tenure]

/-! ### Fences, commands and waiter slots -/

@[simp] theorem State.wake_tenure (p tl key) : (s.wake p tl key).tenure = s.tenure := by
  grind [State.wake, State.retest, each_tenure, State.setWaiter_tenure]

@[simp] theorem State.evtSet_tenure (p i err) : (s.evtSet p i err).tenure = s.tenure := by
  grind [State.evtSet, State.wake_tenure, State.setEvt_tenure]

/-- What is held for later has no part in the tenure. -/
theorem State.heldWrites_tenure (l : List HeldWrite) : ({ s with heldWrites := l } : State).tenure = s.tenure := rfl

theorem State.vulReqs_tenure (l : List VulReq) : ({ s with vulReqs := l } : State).tenure = s.tenure := rfl

@[simp] theorem State.tlApply_tenure (p a v) : (s.tlApply p a v).tenure = s.tenure := by
  grind [State.tlApply, State.askWake_tenure, State.wake_tenure, State.setHbmBytes_tenure, State.heldWrites_tenure]

@[simp] theorem State.forceRemote_tenure (p c o) : (s.forceRemote p c o).tenure = s.tenure := by
  grind [State.forceRemote, State.newTag_tenure, State.tlApply_tenure, State.emit_tenure, State.vulReqs_tenure]

@[simp] theorem State.forceSignal_tenure (p c) : (s.forceSignal p c).tenure = s.tenure := by
  grind [State.forceSignal, each_tenure, State.evtSet_tenure, State.forceRemote_tenure, State.tlApply_tenure]

@[simp] theorem State.takeWait_tenure (p q) : (s.takeWait p q).tenure = s.tenure := by
  grind [State.takeWait, State.waitWake, State.setQueue_tenure, State.askWake_tenure, State.setWaiter_tenure]

@[simp] theorem State.takeWaits_tenure (p) : (s.takeWaits p).tenure = s.tenure := by
  grind [State.takeWaits, each_tenure, State.takeWait_tenure]

@[simp] theorem State.complete_tenure (p sel) : (s.complete p sel).tenure = s.tenure := by
  grind [State.complete, each_tenure, State.setQueue_tenure, State.disarm_tenure, State.setPart_tenure, State.notice_tenure]

@[simp] theorem State.fireSlot_tenure (p i) : (s.fireSlot p i).tenure = s.tenure := by
  grind [State.fireSlot, State.disarm_tenure, State.traceUnit_tenure, State.addSem_tenure, State.askWake_tenure, State.notice_tenure, State.setQueue_tenure,
    State.heldWrites_tenure]

@[simp] theorem State.fireDue_tenure (p) : (s.fireDue p).tenure = s.tenure := each_tenure _ _ (fun u i => u.fireSlot_tenure p i) s

/-! ### Engines that stop -/

@[simp] theorem State.dropWalk_tenure (t e) : (s.dropWalk t e).tenure = s.tenure := by
  grind [State.dropWalk, State.setTile_tenure]

@[simp] theorem State.stopEngine_tenure (t e) : (s.stopEngine t e).tenure = s.tenure :=
  (State.clearScalars_tenure ..).trans ((State.setEng_tenure ..).trans (s.dropWalk_tenure t e))

@[simp] theorem State.settle_tenure (t) : (s.settle t).tenure = s.tenure := by
  grind [State.settle, State.reloadTile, each_tenure, State.setPosterW_tenure, State.setTr_tenure, State.setTile_tenure]

@[simp] theorem State.stopTile_tenure (t all) : (s.stopTile t all).tenure = s.tenure := by
  grind [State.stopTile, State.setTile_tenure, each_tenure, State.stopEngine_tenure, State.settle_tenure]

@[simp] theorem State.closeWindow_tenure (t) : (s.closeWindow t).tenure = s.tenure := by
  have hlatch : ∀ u : State, (u.latchCounters t 0x80).tenure = u.tenure := each_tenure _ _ fun v n => by
    simp only [Nat.add_assoc]
    exact (State.setObs_tenure ..).trans (v.setObs_tenure t _ _)
  grind [State.closeWindow, State.windowEnd, State.setTile_tenure]

/-! ### Contexts that are lost, and posts -/

/-- R324: a context that is LOST is not FREE. -/
@[simp] theorem State.loseCtx_tenure (p c code w place addr parts) : (s.loseCtx p c code w place addr parts).tenure = s.tenure := by
  have hlost : ∀ b, (s.ctxAt p c).st = .active → (s.setCtx p c { s.ctxAt p c with st := .lost, code := b }).tenure = s.tenure := fun b hst =>
    s.setCtx_tenure p c _ rfl (by simp [hst])
  grind [State.loseCtx, State.lightP_tenure, each_tenure, State.stopTile_tenure, State.setQueue_tenure, State.complete_tenure, State.forceSignal_tenure,
    State.takeWaits_tenure, State.notice_tenure]

@[simp] theorem State.loseAt_tenure (t code e q d addr parts) : (s.loseAt t code e q d addr parts).tenure = s.tenure := by
  grind [State.loseAt, State.loseCtx_tenure]

@[simp] theorem State.engFault_tenure (t e code) : (s.engFault t e code).tenure = s.tenure := by
  grind [State.engFault, State.faultAtPc, State.setEng_tenure, State.dropWalk_tenure, State.trace_tenure, State.loseAt_tenure, State.raiseTile_tenure]

@[simp] theorem State.post_tenure (t n k who src e) : (s.post t n k who src e).tenure = s.tenure := by
  grind [State.post, State.semOverflow, State.addSem_tenure, State.loseAt_tenure, State.engFault_tenure]

/-! ### Kills at the tiles -/

@[simp] theorem State.streamPosts_tenure (t q x) : (s.streamPosts t q x).tenure = s.tenure := by
  grind [State.streamPosts, State.sendPost, State.opPost, each_tenure, State.inject_tenure, State.post_tenure]

@[simp] theorem State.streamDone_tenure (t q x) : (s.streamDone t q x).tenure = s.tenure := by
  grind [State.streamDone, State.streamPosts_tenure, State.trace_tenure, State.setMovd_tenure, State.enterQueue_tenure]

end

@[simp] theorem State.completeStreams_tenure (s : State) (t q k) : (s.completeStreams t q k).tenure = s.tenure := by
  induction k generalizing s with
  | zero => rfl
  | succ k ih => grind [State.completeStreams, State.streamDone_tenure, State.setMovq_tenure]

@[simp] theorem State.popDone_tenure (s : State) (t q n) : (s.popDone t q n).tenure = s.tenure := by
  induction n generalizing s with
  | zero => rfl
  | succ n ih => grind [State.popDone, State.setMovq_tenure]

section
variable (s : State)

@[simp] theorem State.finishQueue_tenure (t q) : (s.finishQueue t q).tenure = s.tenure := by
  grind [State.finishQueue, State.completeStreams_tenure, State.settle_tenure, State.closeWindow_tenure]

@[simp] theorem State.killMover_tenure (t) : (s.killMover t).tenure = s.tenure := by
  grind [State.killMover, each_tenure, State.setTile_tenure, State.setMovq_tenure, State.setMovd_tenure, State.popDone_tenure, State.finishQueue_tenure]

@[simp] theorem State.enterQuar_tenure (t q) : (s.enterQuar t q).tenure = s.tenure := by
  grind [State.enterQuar, State.stopAll, each_tenure, State.setTile_tenure, State.stopEngine_tenure, State.settle_tenure]

@[simp] theorem State.beginScrub_tenure (t c) : (s.beginScrub t c).tenure = s.tenure := by
  grind [State.beginScrub, each_tenure, State.setBusy_tenure, State.setTile_tenure]

@[simp] theorem State.killTile_tenure (t c) : (s.killTile t c).tenure = s.tenure := by
  grind [State.killTile, State.killWeir, State.setTile_tenure, State.beginScrub_tenure, State.killMover_tenure, State.enterQuar_tenure, State.askWake_tenure]

/-! ### The kill of a context (R325) -/

@[simp] theorem State.killSteps_tenure (p c) : (s.killSteps p c).tenure = s.tenure := by
  have hkilling : (s.setCtx p c { s.ctxAt p c with killing := false }).tenure = s.tenure := s.setCtx_tenure p c _ rfl Iff.rfl
  grind [State.killSteps, each_tenure, State.complete_tenure, State.killTile_tenure, State.forceSignal_tenure, State.fireDue_tenure, State.freeSlot_tenure,
    State.setEvt_tenure, State.freeObj_tenure, State.setQueue_tenure, State.takeWaits_tenure]

/-- R325: DESTROY frees no context, and changes no other's owner. -/
theorem State.destroyCtx_tenure (p c) (hruns : s.partStopped p = false) : (s.destroyCtx p c).tenure = s.tenure := by
  unfold State.destroyCtx State.beginKill
  split
  · rfl
  next hkilled =>
  rw [if_neg (by simp [hruns])]
  have hdying : (s.setCtx p c { (s.ctxAt p c).dropWaiting with st := .dying, killing := true }).tenure = s.tenure :=
    s.setCtx_tenure p c _ rfl (iff_of_false nofun fun hfree => hkilled (by simp [hfree]))
  exact (State.killSteps_tenure ..).trans ((each_tenure _ _ (fun u e => u.setQueue_tenure ..) _).trans hdying)

end

/-! ### Function resets (R315, R398, R412) -/

/-- What the step at `x` brings about where `I` holds, and every step keeps, holds after a walk through `x` that keeps `I`. -/
theorem each_settles {β : Type} {I P : State → Prop} {l : List β} {f : State → β → State} {x : β} (hx : x ∈ l) (hset : ∀ u, I u → P (f u x))
    (hstands : ∀ u y, I u → I (f u y)) (hkeep : ∀ u y, P u → P (f u y)) {s : State} (hs : I s) : P (each s l f) := by
  obtain ⟨l₁, l₂, rfl⟩ := List.append_of_mem hx
  have hafter : each s (l₁ ++ x :: l₂) f = each (f (each s l₁ f) x) l₂ f := by simp only [each, List.foldl_append, List.foldl_cons]
  rw [hafter]
  exact each_keeps (fun u y _ => hkeep u y) (hset _ (each_keeps (fun u y _ => hstands u y) hs))

/-- What a sparse table lists for a key where it reads another value than the default. -/
theorem mem_of_look_ne {α : Type} {d : Nat → α} {m : Sparse α} {k : Nat} (h : look d m k ≠ d k) : (k, look d m k) ∈ m := by
  induction m with
  | nil => exact absurd rfl h
  | cons e m ih =>
    obtain ⟨j, v⟩ := e
    by_cases hj : j = k
    · subst hj
      simp [look]
    · rw [look, if_neg hj] at h ⊢
      exact List.mem_cons_of_mem _ (ih h)

section
variable {s : State} {p q : PartId} {c d : CtxId} {pf : Bool}

/-- A context that is not FREE is one of its function's. -/
theorem State.mem_ownedCtxs (hby : (s.ctxAt p c).byPf = pf) (hst : (s.ctxAt p c).st ≠ .free) : c ∈ s.ownedCtxs p pf := by
  have hlisted : (p.toNat * 256 + c.toNat, s.ctxAt p c) ∈ s.ctx :=
    mem_of_look_ne (d := fun _ => ({} : Ctx)) fun hnone => hst (congrArg Ctx.st hnone)
  have hpart : (p.toNat * 256 + c.toNat) / 256 = p.toNat := by omega
  refine List.mem_map.2 ⟨_, List.mem_filter.2 ⟨hlisted, by simp [hpart, hst, hby]⟩, BitVec.eq_of_toNat_eq ?_⟩
  rw [BitVec.toNat_ofNat]
  omega

theorem State.partStopped_running (hruns : s.gs.st = .running) : s.partStopped p = false := by simp [State.partStopped, hruns]

/-- R325: DESTROY leaves a context that is not FREE in DYING. -/
theorem State.destroyCtx_dies (hruns : s.gs.st = .running) (hst : (s.ctxAt p c).st ≠ .free) : ((s.destroyCtx p c).ctxAt p c).st = .dying := by
  have hkilled : (s.ctxAt p c).st = .active ∨ (s.ctxAt p c).st = .lost → ((s.destroyCtx p c).ctxAt p c).st = .dying := fun h =>
    (s.destroyCtx_dying h (State.partStopped_running hruns)).1
  cases hnow : (s.ctxAt p c).st with
  | free => exact absurd hnow hst
  | active => exact hkilled (.inl hnow)
  | lost => exact hkilled (.inr hnow)
  | dying => rwa [State.destroyCtx, if_pos (by simp [hnow])]

/-- R325: DESTROY of another context keeps a DYING one so. -/
theorem State.destroyCtx_keeps_dying (hdying : (s.ctxAt p c).st = .dying) : ((s.destroyCtx q d).ctxAt p c).st = .dying := by
  have h : s.Dying p c (s.reg (partBase p + 0x814)) := ⟨hdying, rfl⟩
  unfold State.destroyCtx State.beginKill
  split
  · exact hdying
  split
  · exact hdying
  · exact (State.killSteps_dying (each_dying (fun _ _ hu => State.setQueue_dying hu ..) (State.setCtx_dying (fun _ => rfl) h)) ..).1

/-! #### Of one function's contexts in a partition -/

theorem State.running_of_tenure {u : State} (h : u.tenure = s.tenure) (hruns : s.gs.st = .running) : u.gs.st = .running :=
  (congrArg (fun v : Tenure => v.stop.st) h).trans hruns

theorem State.free_of_tenure {u : State} (h : u.tenure = s.tenure) : (u.ctxAt p c).st = .free ↔ (s.ctxAt p c).st = .free :=
  decide_eq_decide.1 (congrArg (fun v : Tenure => (v.owner p c).2) h)

theorem State.byPf_of_tenure {u : State} (h : u.tenure = s.tenure) : (u.ctxAt p c).byPf = (s.ctxAt p c).byPf :=
  congrArg (fun v : Tenure => (v.owner p c).1) h

section
variable (hruns : s.gs.st = .running)
include hruns

theorem State.flrPart_tenure (p pf) : (s.flrPart p pf).tenure = s.tenure :=
  each_keeps (P := fun u => u.tenure = s.tenure)
    (fun u c _ hu => (u.destroyCtx_tenure p c (State.partStopped_running (State.running_of_tenure hu hruns))).trans hu) rfl

/-- R315: the reset of a function sets each context that it created to DYING. -/
theorem State.flrPart_dies (hby : (s.ctxAt p c).byPf = pf) (hst : (s.ctxAt p c).st ≠ .free) : ((s.flrPart p pf).ctxAt p c).st = .dying :=
  each_settles (I := fun u => u.tenure = s.tenure) (P := fun u => (u.ctxAt p c).st = .dying) (State.mem_ownedCtxs hby hst)
    (fun _ hu => State.destroyCtx_dies (State.running_of_tenure hu hruns) (mt (State.free_of_tenure hu).1 hst))
    (fun u d hu => (u.destroyCtx_tenure p d (State.partStopped_running (State.running_of_tenure hu hruns))).trans hu)
    (fun _ _ => State.destroyCtx_keeps_dying) rfl

end

theorem State.flrPart_keeps_dying (hdying : (s.ctxAt p c).st = .dying) : ((s.flrPart q pf).ctxAt p c).st = .dying :=
  each_keeps (P := fun u => (u.ctxAt p c).st = .dying) (fun _ _ _ => State.destroyCtx_keeps_dying) hdying

/-! #### Of a function's contexts in every partition -/

theorem each_flrPart_keeps_dying (l : List PartId) (hdying : (s.ctxAt p c).st = .dying) :
    ((each s l fun u q => u.flrPart q pf).ctxAt p c).st = .dying :=
  each_keeps (P := fun u => (u.ctxAt p c).st = .dying) (fun _ _ _ => State.flrPart_keeps_dying) hdying

section
variable (hruns : s.gs.st = .running)
include hruns

theorem each_flrPart_tenure (l : List PartId) (pf : Bool) : (each s l fun u q => u.flrPart q pf).tenure = s.tenure :=
  each_keeps (P := fun u => u.tenure = s.tenure) (fun _ q _ hu => (State.flrPart_tenure (State.running_of_tenure hu hruns) q pf).trans hu) rfl

theorem each_flrPart_dies {l : List PartId} (hp : p ∈ l) (hby : (s.ctxAt p c).byPf = pf) (hst : (s.ctxAt p c).st ≠ .free) :
    ((each s l fun u q => u.flrPart q pf).ctxAt p c).st = .dying :=
  each_settles (I := fun u => u.tenure = s.tenure) (P := fun u => (u.ctxAt p c).st = .dying) hp
    (fun _ hu => State.flrPart_dies (State.running_of_tenure hu hruns) ((State.byPf_of_tenure hu).trans hby) (mt (State.free_of_tenure hu).1 hst))
    (fun _ q hu => (State.flrPart_tenure (State.running_of_tenure hu hruns) q pf).trans hu) (fun _ _ => State.flrPart_keeps_dying) rfl

end

end

/-! #### Of the physical function, and of every function -/

/-- R398: the state whose IDE streams have ended. -/
def State.ideEnded (s : State) : State := { s with chitin := { s.chitin with ide := [] } }

section
variable (s : State) (hruns : s.gs.st = .running)
include hruns

theorem State.flrPfNow_tenure : s.flrPfNow.tenure = s.ideEnded.tenure := each_flrPart_tenure (s := s.ideEnded) hruns s.loadedParts true

theorem State.flrPfNow_ide : s.flrPfNow.chitin.ide = [] := congrArg Tenure.ide (s.flrPfNow_tenure hruns)

theorem State.flrPfNow_dies {p : PartId} (hp : p ∈ s.loadedParts) {c : CtxId} (hby : (s.ctxAt p c).byPf = true) (hst : (s.ctxAt p c).st ≠ .free) :
    (s.flrPfNow.ctxAt p c).st = .dying := each_flrPart_dies (s := s.ideEnded) hruns hp hby hst

/-- R412: PERST is a reset of every function. -/
theorem State.perstNow_dies {p : PartId} (hp : p ∈ s.loadedParts) {c : CtxId} (hst : (s.ctxAt p c).st ≠ .free) : (s.perstNow.ctxAt p c).st = .dying := by
  have hpf := s.flrPfNow_tenure hruns
  change ((each s.flrPfNow s.loadedParts fun u q => u.flrPart q false).ctxAt p c).st = .dying
  cases hby : (s.ctxAt p c).byPf with
  | true => exact each_flrPart_keeps_dying _ (s.flrPfNow_dies hruns hp hby hst)
  | false => exact each_flrPart_dies (State.running_of_tenure hpf hruns) hp ((State.byPf_of_tenure hpf).trans hby) (mt (State.free_of_tenure hpf).1 hst)

/-- R400: PERST leaves the host port's domain OFF where PWR_HOSTCFG says so. -/
theorem State.perstNow_dom : s.perstNow.domAt 95 = if bit (s.reg (pwrBase + 0x10)) 0 then { st := 2 } else {} := by
  have hpf := s.flrPfNow_tenure hruns
  have hall := (each_flrPart_tenure (State.running_of_tenure hpf hruns) s.loadedParts false).trans hpf
  rw [State.perstNow, State.hostDom, State.domAt_setDom, show State.reg _ (pwrBase + 0x10) = s.reg (pwrBase + 0x10) from congrArg Tenure.hostCfg hall]

end

/-! ### BAR2 accesses and ATS invalidation (R314, R316) -/

section
variable {s : State} {r : Req} {a : W64} {op : Bar2Op}

/-- R314: a BAR2 access to device HBM that nothing holds takes place. -/
theorem State.bar2_reached {h : Nat} (haddr : s.barAddr r a.toNat (barLen op) = some h) (hfree : s.barWaits h (barLen op) = false) :
    s.bar2 r a op = s.barDo h op := by
  unfold State.bar2
  split
  · rw [haddr]
    exact if_neg (by simp [hfree])
  · rw [haddr]
    exact if_neg (by simp [hfree])
  next hpf hvf =>
    cases r with
    | pf => exact absurd rfl hpf
    | vf p => exact absurd rfl (hvf p)
    | core | head | chitin | tap => cases haddr

/-- R398: what the stream of a TLP lets through is carried out. -/
theorem exec_bar2_carried {k : Option IdeStream} (hcarries : s.carries k = true) :
    exec (.bar2Access r a { op := op, stream := k }) s = .next (s.bar2 r a op) := congrArg Host.Outcome.next (if_pos hcarries)

end

/-- R316: an Invalidate Request that covers no transfer in flight is answered at once. -/
theorem State.settleAts_uncovered (s : State) (hnone : s.atsWait = []) : State.settleAts { s with atsWait := s.atsWait ++ [[]] } = s.send .atsInvalidateDone := by
  have hsame : ({ s with atsWait := [] } : State) = s := by rw [← hnone]
  rw [hnone]
  exact congrArg (State.send · .atsInvalidateDone) hsame

end Sys2Proof.Machine

open Sys2Proof Sys2Proof.Machine

/-- Settles O35: BAR2 accesses and invalidations are decided by one test each; a function reset walks over the contexts that its function created, each of
which the walk's kills leave as it was, or DYING. -/
theorem hostAccesses : Obligations.HostAccesses := by
  intro s p a n h bs v size barOk dies
  have haddr : ∀ r m, barOk r m h → s.barAddr r a.toNat m = some h := by
    rintro r m (⟨rfl, hplace⟩ | ⟨rfl, hlimit, rfl⟩)
    · exact hplace
    · exact if_pos hlimit
  refine ⟨fun r k hcarries hok hfree => ?_, fun r k hcarries hok hfree => ?_, fun k hcarries hout => ?_, fun r k op hkeyless => ?_,
    fun hruns => ⟨⟨_, rfl, fun c => State.flrPart_dies hruns⟩, ⟨_, rfl, s.flrPfNow_ide hruns, fun q hq c => s.flrPfNow_dies hruns hq⟩,
      ⟨_, rfl, s.perstNow_dom hruns, fun q hq => ⟨fun c _ => s.perstNow_dies hruns hq, fun c _ => s.perstNow_dies hruns hq⟩⟩⟩,
    rfl, fun hnone hcovers => ?_⟩
  · exact (exec_bar2_carried hcarries).trans (congrArg Host.Outcome.next (State.bar2_reached (op := .read n) (haddr r n hok) hfree))
  · exact (exec_bar2_carried hcarries).trans (congrArg Host.Outcome.next (State.bar2_reached (op := .write bs) (haddr r _ hok) hfree))
  · refine (exec_bar2_carried hcarries).trans (congrArg Host.Outcome.next ?_)
    rw [State.bar2, State.barAddr, barLen, hout]
  · exact congrArg Host.Outcome.next (if_neg (by simp [hkeyless]))
  · have hasked : exec (.atsInvalidate v a size) s
        = .next (State.settleAts { s with atsWait := s.atsWait ++ [s.atsCovered v a.toNat size.toNat] }) := rfl
    rw [hasked, hcovers, s.settleAts_uncovered hnone]

end

/-! ## Error record FIFOs (R368, R370, R433) -/

section
namespace Sys2Proof.Machine

/-! ### The record that an arriving one is merged into -/

/-- R433: the records that count as occurrences of one another agree in severity, unit, cause, tile and address. -/
theorem ErrRec.same_iff (x r : ErrRec) :
    x.same r = true ↔ x.sev = r.sev ∧ x.unit = r.unit ∧ x.cause = r.cause ∧ x.tile = r.tile ∧ x.addr = r.addr := by
  simp [ErrRec.same, and_assoc]

theorem any_sev_eq_false {l : List ErrRec} {v : BitVec 3} (h : ∀ y ∈ l, y.sev ≠ v) : (l.any fun y => decide (y.sev = v)) = false := by
  simpa using h

section
variable {r x : ErrRec} {pre post l : List ErrRec}

theorem mergeErr_of_apart (h : ∀ y ∈ l, y.sev ≠ r.sev) : mergeErr r l = none := by
  induction l with
  | nil => rfl
  | cons x l ih =>
    have hx : x.same r = false := by
      rw [Bool.eq_false_iff, Ne, ErrRec.same_iff]
      exact fun hsame => h x (by simp) hsame.1
    rw [mergeErr, ih fun y hy => h y (by simp [hy])]
    simp [hx]

/-- R433: the newest record of its severity takes the arriving one in where it is alike. -/
theorem mergeErr_newest (hsame : x.same r = true) (hlast : ∀ y ∈ post, y.sev ≠ r.sev) :
    mergeErr r (pre ++ x :: post) = some (pre ++ { x with rep := BitVec.ofNat 7 (min 127 (x.rep.toNat + 1)) } :: post) := by
  induction pre with
  | nil => simp [mergeErr, mergeErr_of_apart hlast, any_sev_eq_false hlast, hsame, satAdd]
  | cons y pre ih => rw [List.cons_append, mergeErr, ih]; rfl

/-- R433: a record that is merged meets the newest of its severity, and is alike. -/
theorem exists_newest_of_mergeErr {l' : List ErrRec} (h : mergeErr r l = some l') :
    ∃ pre x post, l = pre ++ x :: post ∧ x.same r = true ∧ ∀ y ∈ post, y.sev ≠ r.sev := by
  induction l generalizing l' with
  | nil => cases h
  | cons y l ih =>
    cases hrest : mergeErr r l with
    | some m =>
      obtain ⟨pre, x, post, rfl, hx⟩ := ih hrest
      exact ⟨y :: pre, x, post, rfl, hx⟩
    | none =>
      simp only [mergeErr, hrest] at h
      split_ifs at h with hlater hy
      exact ⟨[], y, l, rfl, hy, by simpa using hlater⟩

end

/-! ### The record that gives way at a full FIFO -/

section
variable {x : ErrRec} {pre post l : List ErrRec}

/-- R370: the lowest severity held is the least of all. -/
theorem lowestSev_eq (hx : x ∈ l) (hleast : ∀ y ∈ l, x.sev.toNat ≤ y.sev.toNat) : lowestSev l = x.sev.toNat := by
  have hfold : ∀ (l : List ErrRec) (m : Nat), x.sev.toNat ≤ m → (x ∈ l ∨ m = x.sev.toNat) → (∀ y ∈ l, x.sev.toNat ≤ y.sev.toNat) →
      l.foldl (fun m r => min m r.sev.toNat) m = x.sev.toNat := by
    intro l
    induction l with
    | nil => exact fun m _ hor _ => hor.resolve_left List.not_mem_nil
    | cons y l ih =>
      intro m hm hor hall
      refine ih _ (le_min hm (hall y (by simp))) ?_ fun z hz => hall z (by simp [hz])
      have hy := hall y (by simp)
      rcases hor with hmem | rfl
      · rcases List.mem_cons.1 hmem with rfl | hmem
        · exact .inr (min_eq_right hm)
        · exact .inl hmem
      · exact .inr (min_eq_left hy)
  exact hfold l 7 (by have := x.sev.isLt; omega) (.inl hx) hleast

/-- R370: the newest record of a severity is dropped, and no other. -/
theorem dropNewest_newest (hlast : ∀ y ∈ post, y.sev ≠ x.sev) : dropNewest x.sev (pre ++ x :: post) = pre ++ post := by
  induction pre with
  | nil => simp [dropNewest, any_sev_eq_false hlast]
  | cons y pre ih => simp [dropNewest, ih]

end

/-! ### What an arrival leaves -/

section
variable (s : State) {c : CoreId} {r : ErrRec}

theorem State.arriveErr_merged {l : List ErrRec} (h : mergeErr r (s.ctlAt c).fifo = some l) :
    s.arriveErr c r = s.setCtl c { s.ctlAt c with fifo := l } := by rw [State.arriveErr, h]

theorem State.arriveErr_enters (h : mergeErr r (s.ctlAt c).fifo = none) (hroom : (s.ctlAt c).fifo.length < errDepth c) :
    s.arriveErr c r = s.setCtl c { s.ctlAt c with fifo := (s.ctlAt c).fifo ++ [r] } := by
  rw [State.arriveErr, h]
  exact if_pos hroom

/-- R370: a loss is noted and counted. -/
def State.errLost (s : State) (c : CoreId) : State :=
  let a := intBase c + 0x400
  (s.setReg a (setBit (s.reg a) 8 true)).incReg a 31 16 1

theorem State.arriveErr_full (h : mergeErr r (s.ctlAt c).fifo = none) (hfull : errDepth c ≤ (s.ctlAt c).fifo.length) :
    s.arriveErr c r = if lowestSev (s.ctlAt c).fifo < r.sev.toNat then
        (s.errLost c).setCtl c { s.ctlAt c with fifo := dropNewest (BitVec.ofNat 3 (lowestSev (s.ctlAt c).fifo)) (s.ctlAt c).fifo ++ [r] }
      else s.errLost c := by
  rw [State.arriveErr, h]
  exact if_neg (by omega)

theorem State.errLost_ctlAt (d : CoreId) : (s.errLost c).ctlAt d = s.ctlAt d := by
  simp only [State.errLost, State.incReg, State.ctlAt, State.setReg_ctl]

theorem State.reg_setCtl (d : CoreId) (v : Ctl) (a : Nat) : (s.setCtl d v).reg a = s.reg a := rfl

/-- R370: lost is set, and lostcnt counts up to its largest value. -/
theorem State.errLost_counts : bit ((s.errLost c).reg (intBase c + 0x400)) 8 = true
    ∧ fld ((s.errLost c).reg (intBase c + 0x400)) 31 16 = min 0xFFFF (fld (s.reg (intBase c + 0x400)) 31 16 + 1) := by
  have hreg : (s.errLost c).reg (intBase c + 0x400) = incFld (setBit (s.reg (intBase c + 0x400)) 8 true) 31 16 1 := by
    simp only [State.errLost, State.incReg, State.reg_setReg]
  rw [hreg, incFld]
  refine ⟨(bit_setFld_other _ _ (by decide) (by decide)).trans (bit_setBit_same _ (by decide) true), ?_⟩
  rw [fld_setFld _ (by decide) ?_]
  · rw [satAdd, setBit, fld_setFld_apart _ _ (by decide) (.inl (by decide))]
    rfl
  · exact (Nat.min_le_left _ _).trans_lt (by decide)

/-- R359, R368: sources 1 to 5 follow the FIFO. -/
theorem State.srcPending_iff_held {k : Nat} (hlow : 1 ≤ k) (hhigh : k ≤ 5) :
    s.srcPending c k = true ↔ ∃ x ∈ (s.ctlAt c).fifo, x.sev.toNat = k := by
  rw [State.srcPending, if_neg (by omega), if_pos hhigh]
  simp

end

end Sys2Proof.Machine

open Sys2Proof Sys2Proof.Machine

/-- Settles O43: whether the record is merged is decided by the newest of its severity, and at a full FIFO what is lost by the lowest severity held. -/
theorem errorRecordFifos : Obligations.ErrorRecordFifos := by
  intro s c r l u a alike fresh
  have hmerges : ∀ pre x post, l = pre ++ x :: post → alike x → (∀ y ∈ post, y.sev ≠ r.sev) →
      mergeErr r l = some (pre ++ { x with rep := BitVec.ofNat 7 (min 127 (x.rep.toNat + 1)) } :: post) :=
    fun pre x post hl halike hlast => hl ▸ mergeErr_newest ((x.same_iff r).2 halike) hlast
  have hfresh : fresh → mergeErr r l = none := by
    refine fun hfresh => Option.eq_none_iff_forall_ne_some.2 fun l' hmerged => ?_
    obtain ⟨pre, x, post, hl, hsame, hlast⟩ := exists_newest_of_mergeErr hmerged
    have halike := (x.same_iff r).1 hsame
    exact hfresh pre x post hl halike.1 hlast halike
  refine ⟨fun pre x post hl halike hlast => ?_, fun hnew hroom => ?_, fun hnew hfull => ?_, fun k => s.srcPending_iff_held⟩
  · rw [show u = _ from s.arriveErr_merged (hmerges pre x post hl halike hlast)]
    exact ⟨congrArg Ctl.fifo (State.ctlAt_setCtl ..), rfl⟩
  · rw [show u = _ from s.arriveErr_enters (hfresh hnew) hroom]
    exact ⟨congrArg Ctl.fifo (State.ctlAt_setCtl ..), rfl⟩
  · have hu : u = _ := s.arriveErr_full (hfresh hnew) hfull
    have hreg : u.reg a = (s.errLost c).reg a := by
      rw [hu]
      split_ifs
      · exact State.reg_setCtl ..
      · rfl
    rw [hreg]
    refine ⟨s.errLost_counts.1, s.errLost_counts.2, fun pre x post hl hleast hlast => ?_⟩
    have hlowest : lowestSev (s.ctlAt c).fifo = x.sev.toNat := lowestSev_eq (hl ▸ by simp : x ∈ l) hleast
    rw [hu, hlowest, BitVec.ofNat_toNat, BitVec.setWidth_eq]
    split_ifs
    · rw [State.ctlAt_setCtl, show (s.ctlAt c).fifo = _ from hl, dropNewest_newest hlast]
    · rw [s.errLost_ctlAt]

end

/-! ## Interrupt controllers: the order of a group's pending sources (R359, R364) -/

section
open Sys2Proof Sys2Proof.Machine

/-- Refutes O42: its clause on INT_PENDING_SET lets the pending word alone change, but a source that becomes pending also enters its controller's order
(R364; log 41, DEDUCED). After reset the physical function makes source 64 of head core 0 pending: it is then the one source in the order, which was empty. -/
theorem not_interruptControllers : ¬ Obligations.InterruptControllers := by
  intro h
  obtain ⟨hwrites, -⟩ := h State.reset .pf (headCore 0) 2 0 1 false
  obtain ⟨-, -, -, hpendingSet, -⟩ := hwrites (by decide)
  have horder : ((State.reset.pendSet .pf (headCore 0) 2 1).ctlAt (headCore 0)).order = [] :=
    congrArg (fun u => match u with | Host.Outcome.next v => (State.ctlAt v (headCore 0)).order | _ => []) hpendingSet
  have hentered : ((State.reset.pendSet .pf (headCore 0) 2 1).ctlAt (headCore 0)).order = [64] := by decide
  exact absurd (hentered.symm.trans horder) (by decide)

end

/-! ## Device resets (R388, R409, R412) -/

section
namespace Sys2Proof.Machine

theorem look_filter_kept {α : Type} (d : Nat → α) (p : Nat → Bool) (m : Sparse α) {k : Nat} (hk : p k = true) :
    look d (m.filter fun e => p e.1) k = look d m k := by
  induction m with
  | nil => rfl
  | cons e m ih =>
    obtain ⟨j, v⟩ := e
    by_cases hj : j = k
    · subst hj
      simp [hk, look]
    · by_cases hp : p j = true <;> simp [hp, look, hj, ih]

section
variable (s : State) (cause : Nat) (external : Bool)

theorem State.deviceReset_cause : (s.deviceReset cause external).reg (pwrBase + 0x614) = BitVec.ofNat 32 cause := State.reg_setReg ..

/-- R388: a device reset keeps the boot record. -/
theorem State.deviceReset_bootRecord {a : Nat} (ha : bootRecord a = true) : (s.deviceReset cause external).reg a = s.reg a := by
  have hcause : a ≠ pwrBase + 0x614 := by
    rintro rfl
    exact absurd ha (by decide)
  exact (State.reg_setReg_other _ _ hcause).trans (look_filter_kept resetWord bootRecord s.regs ha)

/-- R386: an external reset begins the starts anew, whatever state chitin was in. -/
theorem State.deviceReset_external : (s.deviceReset cause true).chitin.attempts = 0 ∧ (s.deviceReset cause true).chitin.st = 0 := by
  simp [State.deviceReset]

end

/-- R388: what the boot record counts after power-up. -/
theorem State.powerOn_counts (s : State) : s.powerOn.reg (chiBase + 0x10) = 0 := by
  have hunlisted : resetWord (chiBase + 0x10) = 0 := by decide
  exact (State.reg_setReg_other _ _ (by decide)).trans ((State.deviceReset_bootRecord _ 0 true (by decide)).trans hunlisted)

end Sys2Proof.Machine

open Sys2Proof Sys2Proof.Machine

/-- Settles O48: what a device reset leaves is the reset state but for the fields that it takes over, and the boot record among the registers. -/
theorem deviceResets : Obligations.DeviceResets := by
  intro s r w temp reset keeps
  have hreset : ∀ cause external, reset (s.deviceReset cause external) cause := fun cause external =>
    ⟨s.deviceReset_cause cause external, rfl, rfl, rfl, rfl, rfl, rfl, rfl, rfl, rfl, rfl, rfl, rfl, rfl, rfl, rfl⟩
  have hkeeps : ∀ cause external, keeps (s.deviceReset cause external) := fun cause external =>
    ⟨rfl, fun a => s.deviceReset_bootRecord cause external⟩
  refine ⟨⟨_, rfl, hreset 1 true, hkeeps 1 true, s.deviceReset_external 1⟩, fun hpf hgo hkey => ?_, fun hasks hnot => ?_, fun hhot => ?_, ⟨_, rfl, rfl, rfl, rfl, rfl, ?_⟩⟩
  · exact ⟨_, congrArg Host.Outcome.next ((if_pos hpf).trans (if_pos ⟨hgo, hkey⟩)), hreset 4 true, hkeeps 4 true, (s.deviceReset_external 4).2⟩
  · refine congrArg Host.Outcome.next ?_
    by_cases hpf : s.pfReq r = true
    · exact (if_pos hpf).trans (if_neg fun hgo => hnot.resolve_left (by simp [hpf]) hgo.2)
    · exact (if_neg hpf).trans (s.turnedAway_none (hasks.resolve_left hpf) ..)
  · exact ⟨_, congrArg Host.Outcome.next (if_neg (Nat.not_lt.2 hhot)), hreset 3 false, hkeeps 3 false, rfl, rfl⟩
  · rw [s.powerOn_counts]
    decide

end

/-! ## SPDM, fuses and attestation (R375, R395, R396, R398) -/

section
namespace Sys2Proof.Machine

/-! ### Requests to the responder -/

section
variable (s : State) {ok : SpdmSt → Bool} (f : State → State)

/-- R395: before IMAGE_LOAD has passed a request is answered Busy. -/
theorem State.onSpdm_busy (h : s.chitin.loadPassed = false) : s.onSpdm ok f = s.answer .busy := if_pos (by simp [h])

/-- R395: a request in its turn is carried out. -/
theorem State.onSpdm_runs (hloaded : s.chitin.loadPassed = true) (hok : ok s.chitin.spdm = true) : s.onSpdm ok f = f s :=
  (if_neg (by simp [hloaded])).trans (if_neg (by simp [hok]))

end

/-! ### A report in HBM -/

section
variable (s : State)

/-- R421: bytes written without poison where no line is poisoned mark none. -/
theorem State.putHbm_clean (a : Nat) (bs : List Byte) (hclean : s.hbmBad a bs.length = false) : (s.putHbm a bs false).hbm = putL zeroByte s.hbm a bs := by
  have hmarks : ∀ i ∈ List.range ((a % 64 + bs.length + 63) / 64), s.hbmP (a / 64 + i) = false := by
    simpa [State.hbmBad] using hclean
  refine (each_keeps (P := fun u => u.hbm = putL zeroByte s.hbm a bs
    ∧ ∀ i ∈ List.range ((a % 64 + bs.length + 63) / 64), u.hbmP (a / 64 + i) = false) (fun u i hi hu => ?_) ⟨State.setHbmBytes_hbm .., hmarks⟩).1
  obtain ⟨hhbm, hu⟩ := hu
  dsimp only
  split
  · have hmark : u.markHbm (a / 64 + i) false = u.setHbmP (a / 64 + i) false := rfl
    rw [hmark]
    refine ⟨hhbm, fun j hj => ?_⟩
    by_cases hij : j = i
    · rw [hij]
      exact State.hbmP_setHbmP ..
    · have hother : a / 64 + j ≠ a / 64 + i := by omega
      exact (look_put_other noMark u.hbmPoison false hother).trans (hu j hj)
  · simp only [hu i hi, Bool.or_self, Bool.false_eq_true, if_false]
    exact ⟨hhbm, hu⟩

theorem lookN_take {α : Type} (d : Nat → α) (m : Sparse α) : ∀ {i n : Nat} (k : Nat), i ≤ n → lookN d m k i = (lookN d m k n).take i
  | 0, _, _, _ => rfl
  | i + 1, 0, _, h => absurd h (by omega)
  | i + 1, n + 1, k, h => by
    rw [lookN, lookN, List.take_succ_cons, lookN_take d m (n := n) (k + 1) (Nat.le_of_succ_le_succ h)]

/-- The first bytes of what is written without poison to clean lines read back. -/
theorem State.hbmBytes_putHbm (a : Nat) (bs : List Byte) {i : Nat} (hi : i ≤ bs.length) (hclean : s.hbmBad a bs.length = false) :
    (s.putHbm a bs false).hbmBytes a i = bs.take i := by
  rw [State.hbmBytes, s.putHbm_clean a bs hclean, lookN_take zeroByte _ a hi, lookN_putL]

/-- R396: the words that the function wrote, at the head of the report. -/
def State.pattNonce (s : State) (p : PartId) : List Byte := (List.range 12).flatMap fun q => natLe 4 (s.reg (partBase p + 0x500 + 4 * q)).toNat

theorem State.pattNonce_length (p : PartId) : (s.pattNonce p).length = 48 := by simp [State.pattNonce, List.length_flatMap]

theorem State.freeBytes_length (i n : Nat) : (s.freeBytes i n).length = n := by simp [State.freeBytes]

theorem State.pattReport_split (p : PartId) : ∃ l, s.pattReport p = (s.pattNonce p ++ l).take 512 ∧ 512 ≤ l.length := by
  unfold State.pattReport
  simp only [List.append_assoc]
  refine ⟨_, rfl, ?_⟩
  simp only [List.length_append, s.freeBytes_length]
  omega

theorem State.pattReport_length (p : PartId) : (s.pattReport p).length = 512 := by
  obtain ⟨l, hl, hlength⟩ := s.pattReport_split p
  rw [hl, List.length_take, List.length_append]
  omega

theorem State.pattReport_head (p : PartId) : (s.pattReport p).take 48 = s.pattNonce p := by
  obtain ⟨l, hl, -⟩ := s.pattReport_split p
  rw [hl, List.take_take, List.take_left' (by simp [s.pattNonce_length])]

/-! ### The attestation mailbox (R396) -/

section
variable {s} {p : PartId}

theorem State.pattGo_runs (hloaded : (s.partAt p).loaded = true) (hbusy : (s.partAt p).pattBusy = false) :
    s.pattGo p = s.setPart p { s.partAt p with pattBusy := true, pattResult := 0 } :=
  (if_neg (by simp [hloaded])).trans (if_neg (by simp [hbusy]))

theorem State.pattGo_overruns (hloaded : (s.partAt p).loaded = true) (hbusy : (s.partAt p).pattBusy = true) :
    s.pattGo p = s.setPart p { s.partAt p with pattOverrun := true } :=
  (if_neg (by simp [hloaded])).trans (if_pos hbusy)

variable (hbusy : (s.partAt p).pattBusy = true) (hstays : (s.partAt p).resetting = false)
include hbusy hstays

theorem State.pattDone_refused (hplace : s.pattPlace p = none) : s.pattDone p = s.setPart p { s.partAt p with pattBusy := false, pattResult := 2 } := by
  unfold State.pattDone
  dsimp only
  rw [if_neg (by simp [hbusy, hstays]), hplace]

theorem State.pattDone_writes {a : Nat} (hplace : s.pattPlace p = some a) (hserves : ∀ i ∈ stacksAt a 512, s.serves (domHbm i) = true) :
    s.pattDone p = ((s.putHbm a (s.pattReport p) false).setPart p { s.partAt p with pattBusy := false, pattResult := 1 }).drawn := by
  have hopen : ¬((stacksAt a 512).any fun i => !s.serves (domHbm i)) = true := by simpa using hserves
  unfold State.pattDone
  dsimp only
  rw [if_neg (by simp [hbusy, hstays]), hplace]
  exact if_neg hopen

end

end

end Sys2Proof.Machine

open Sys2Proof Sys2Proof.Machine

/-- Settles O50: a request runs where IMAGE_LOAD has passed and the responder stands in its turn, and a report's first bytes are the words that the
function wrote. -/
theorem spdmAndAttestation : Obligations.SpdmAndAttestation := by
  intro s r p k key x n ix o l fw a st
  have hruns : s.chitin.loadPassed = true → ∀ {ok : SpdmSt → Bool} (f : State → State), ok st = true → (.next (s.onSpdm ok f) : Ans) = .next (f s) :=
    fun hloaded _ f hok => congrArg Host.Outcome.next (s.onSpdm_runs f hloaded hok)
  refine ⟨⟨_, rfl, rfl, rfl⟩, fun hstarted => ⟨_, congrArg Host.Outcome.next (if_neg hstarted), rfl, rfl⟩, fun hunloaded c hc => ?_,
    fun hloaded => ⟨fun hturn => ?_, fun hready => ?_, fun hturn => ?_, fun hturn => ?_, fun hturn => ?_⟩, fun hreq hpart => ⟨fun hidle => ?_, fun hbusy => ?_⟩,
    fun hbusy hstays => ⟨fun hplace => ?_, fun hplace hserves hclean => ?_⟩⟩
  · have hbusy : ∀ {ok : SpdmSt → Bool} (f : State → State), (.next (s.onSpdm ok f) : Ans) = .next (s.answer .busy) := fun f =>
      congrArg Host.Outcome.next (s.onSpdm_busy f hunloaded)
    simp only [List.mem_cons, List.not_mem_nil, or_false] at hc
    rcases hc with rfl | rfl | rfl | rfl | rfl | rfl | rfl | rfl | rfl | rfl | rfl | rfl <;> exact hbusy _
  · exact ⟨_, hruns hloaded _ (decide_eq_true hturn), rfl, rfl⟩
  · refine ⟨hruns hloaded _ hready, hruns hloaded _ hready, ⟨_, _, hruns hloaded _ hready, rfl⟩, fun m himage hok => ?_, fun v c hv => ⟨?_, fun hother => ?_⟩⟩
    · refine (hruns hloaded _ hready).trans ?_
      rw [himage]
      exact congrArg Host.Outcome.next (if_pos hok)
    · exact ⟨_, (hruns hloaded _ hready).trans (congrArg Host.Outcome.next (if_neg (not_not.2 hv))), rfl⟩
    · exact ⟨_, (hruns hloaded _ hready).trans (congrArg Host.Outcome.next (if_pos (hv ▸ hother))), rfl, rfl⟩
  · exact ⟨_, _, hruns hloaded _ (decide_eq_true hturn), rfl, rfl⟩
  · exact ⟨_, hruns hloaded _ (decide_eq_true hturn), rfl, rfl⟩
  · refine ⟨⟨_, hruns hloaded _ (decide_eq_true hturn), rfl, hturn⟩, ⟨_, hruns hloaded _ (decide_eq_true hturn), rfl, hturn⟩, ⟨_, hruns hloaded _ (decide_eq_true hturn), rfl, rfl⟩,
      ⟨_, hruns hloaded _ (decide_eq_true hturn), by simp, fun y hy hk => ?_⟩⟩
    rcases List.mem_append.1 hy with hold | hnew
    · exact absurd hk (by simpa using (List.mem_filter.1 hold).2)
    · rw [List.mem_singleton.1 hnew]
  · exact (s.next_onPart _ hreq).trans (congrArg Host.Outcome.next (State.pattGo_runs hpart hidle))
  · exact (s.next_onPart _ hreq).trans (congrArg Host.Outcome.next (State.pattGo_overruns hpart hbusy))
  · exact congrArg Host.Outcome.next (State.pattDone_refused hbusy hstays hplace)
  · have hpart := State.partAt_setPart (s.putHbm a (s.pattReport p) false) p { s.partAt p with pattBusy := false, pattResult := 1 }
    have hlength := s.pattReport_length p
    refine ⟨_, congrArg Host.Outcome.next (State.pattDone_writes hbusy hstays hplace hserves), congrArg Part.pattBusy hpart, congrArg Part.pattResult hpart, ?_⟩
    exact (s.hbmBytes_putHbm a _ (by omega) (by rwa [hlength])).trans (s.pattReport_head p)

end

/-! ## The governor and the thermal responses (R408, R409, R411) -/

section
namespace Sys2Proof.Machine

/-! ### The governor's stages -/

section
variable (s : State)

theorem each_gov {β : Type} (l : List β) (f : State → β → State) (hf : ∀ u x, (f u x).gov = u.gov) : (each s l f).gov = s.gov :=
  each_keeps (P := fun u => u.gov = s.gov) (fun u x _ hu => (hf u x).trans hu) rfl

theorem State.govDom_gov (d : Nat) : (s.govDom d).gov = s.gov := by
  unfold State.govDom
  dsimp only
  split
  · rfl
  · exact each_gov _ _ _ fun u t => by rw [State.govTile, State.setTr, State.setReg_gov]

theorem State.setGov_gov (k : Nat) : (s.setGov k).gov = { s.gov with sluice := k } := each_gov _ _ _ State.govDom_gov

/-- R408: every stage at its lowest setting; the rest of the governor stays. -/
theorem State.allLowest_gov : s.allLowest.gov = { s.gov with sluice := 6, memHalf := true, vul := 4, duty := 15 } := by
  have hslowed := each_gov s s.runDoms
    (fun u d => u.setDom d { u.domAt d with n := BitVec.ofNat 5 (min (u.domAt d).n.toNat u.nFloor) }) fun u d => State.setDom_gov ..
  exact congrArg (fun g : Gov => { g with memHalf := true, vul := 4, duty := 15 })
    ((State.setGov_gov _ 6).trans (congrArg (fun g : Gov => { g with sluice := 6 }) hslowed))

/-! ### Temperatures -/

/-- R409: the junction is hot from 105 °C on until it reads below 100 °C. -/
def Gov.hotAt (g : Gov) (c : Byte) : Bool := decide (105 ≤ c.toNat) || (g.hot && decide (100 ≤ c.toNat))

/-- R409: what the governor holds once the hottest junction sensor has read `c`. -/
def Gov.Warmed (g k : Gov) (c : Byte) : Prop :=
  k.tjMax = c ∧ k.hot = g.hotAt c ∧ k.jThrottle = (decide (100 ≤ c.toNat) || (g.jThrottle && decide (97 ≤ c.toNat)))
    ∧ k.thermCnt = if g.hotAt c && !g.hot then BitVec.ofNat 16 (min 0xFFFF (g.thermCnt.toNat + 1)) else g.thermCnt

/-- R409: the stages that a hot junction lowers are no part of what it leaves of the temperatures. -/
theorem State.junction_warmed (c : Byte) : s.gov.Warmed (s.junction c).gov c := by
  have hlowest : ∀ u : State, s.gov.Warmed u.gov c → s.gov.Warmed u.allLowest.gov c := fun u hu => by
    rw [State.allLowest_gov]
    exact hu
  unfold State.junction
  dsimp only
  split
  next hnew => exact hlowest _ ⟨rfl, rfl, rfl, (if_pos hnew).symm⟩
  next hold => exact ⟨rfl, rfl, rfl, (if_neg hold).symm⟩

/-- R409: the three fields of a stack's temperature register. -/
theorem stackWord_fields (c : Byte) (x y : Bool) :
    let w := BitVec.ofNat 32 (c.toNat + 256 * nat01 x + 512 * nat01 y)
    fld w 7 0 = c.toNat ∧ bit w 8 = x ∧ bit w 9 = y := by
  have hc := c.isLt
  refine ⟨?_, ?_, ?_⟩
  · rw [fld, bits, BitVec.toNat_ofNat, Nat.shiftRight_zero]
    omega
  all_goals
    rw [bit, BitVec.getLsbD_ofNat, Nat.testBit_eq_decide_div_mod_eq]
    cases x <;> cases y <;> simp only [nat01, Bool.false_eq_true, if_true, if_false] <;> simp <;> omega

theorem State.stackTemp_reg {n : Nat} (c : Byte) (h : n ∈ stackList) :
    (s.stackTemp n c).reg (pwrBase + 0x700 + 4 * n) = BitVec.ofNat 32 (c.toNat + 256 * nat01 (decide (85 < c.toNat))
      + 512 * nat01 (decide (95 ≤ c.toNat) || (bit (s.reg (pwrBase + 0x700 + 4 * n)) 9 && decide (92 ≤ c.toNat)))) := by
  have hstack : ¬(!stackList.contains n) = true := by simp [h]
  unfold State.stackTemp
  rw [if_neg hstack]
  exact State.reg_setReg ..

/-! ### The cap -/

section
variable {w : W32} (hloaded : s.chitin.loadPassed = true)
include hloaded

theorem State.capSet_refused (h : fld w 10 0 < 600 ∨ 1800 < fld w 10 0) : s.capSet w = { s with gov := { s.gov with capRefused := true } } := by
  unfold State.capSet
  dsimp only
  rw [if_neg (by simp [hloaded]), if_pos h]

theorem State.capSet_taken (h : ¬(fld w 10 0 < 600 ∨ 1800 < fld w 10 0)) : s.capSet w = { s.setReg pwrBase (BitVec.ofNat 32 (fld w 10 0)) with
    gov := { s.gov with capLowered := s.gov.capLowered || decide (fld w 10 0 < s.regF pwrBase 10 0) } } := by
  unfold State.capSet
  dsimp only
  rw [if_neg (by simp [hloaded]), if_neg h]

end

theorem State.capSet_unloaded (w : W32) (h : s.chitin.loadPassed = false) : s.capSet w = s := if_pos (by simp [h])

end

end Sys2Proof.Machine

open Sys2Proof Sys2Proof.Machine

/-- Settles O53: a sample takes one of three steps, and a temperature leaves its own fields of the governor or its stack's register. -/
theorem governorAndThermal : Obligations.GovernorAndThermal := by
  intro s r c n w x m g cap t a done junction stack
  have hjunction : ∀ i, exec i s = .next (s.junction c) → junction i := by
    intro i hi
    obtain ⟨htemp, hhot, hthrottle, hcount⟩ := s.junction_warmed c
    exact ⟨_, hi, htemp, hhot, hthrottle, by rw [hcount, hhot]⟩
  have hstack : n.toNat ∈ stackList → ∀ i, exec i s = .next (s.stackTemp n.toNat c) → stack i := by
    intro hn i hi
    refine ⟨_, hi, ?_⟩
    rw [s.stackTemp_reg c hn]
    exact stackWord_fields c _ _
  refine ⟨fun hlowest => ?_, fun hcool hsame => ⟨fun hlower => ?_, fun hdraw hcalm hraise => ?_⟩, fun hunloaded hasks => ?_,
    fun hreq hloaded => ⟨fun hout => ?_, fun hlow hhigh => ?_⟩, hjunction _ rfl, hjunction _ rfl, fun hn => ⟨hstack hn _ rfl, hstack hn _ rfl⟩⟩
  · have hstep : (s.gov.hot || s.gov.capLowered) = true := by simpa using hlowest
    exact congrArg (fun u => Host.Outcome.next (done u)) (if_pos hstep)
  all_goals have hcap : s.capNow (max x m) = cap := rfl
  · have hstep : ¬(s.gov.hot || s.gov.capLowered) = true := by simp [show s.gov.hot = false from hcool, show s.gov.capLowered = false from hsame]
    have hdown : (decide (cap < x) || s.gov.jThrottle) = true := by simpa using hlower
    exact congrArg (fun u => Host.Outcome.next (done u)) ((if_neg hstep).trans (if_pos hdown))
  · have hstep : ¬(s.gov.hot || s.gov.capLowered) = true := by simp [show s.gov.hot = false from hcool, show s.gov.capLowered = false from hsame]
    have hstays : ¬(decide (cap < x) || s.gov.jThrottle) = true := by simp [show s.gov.jThrottle = false from hcalm, hdraw]
    exact congrArg (fun u => Host.Outcome.next (done u)) ((if_neg hstep).trans ((if_neg hstays).trans (if_pos hraise)))
  · refine congrArg Host.Outcome.next ?_
    by_cases hreq : s.pwrReq r = true
    · exact (if_pos hreq).trans (s.capSet_unloaded w hunloaded)
    · exact (if_neg hreq).trans (s.turnedAway_none (hasks.resolve_left hreq) ..)
  · exact congrArg Host.Outcome.next ((if_pos hreq).trans (s.capSet_refused hloaded hout))
  · have hin : ¬(fld w 10 0 < 600 ∨ 1800 < fld w 10 0) := by omega
    refine ⟨_, congrArg Host.Outcome.next ((if_pos hreq).trans (s.capSet_taken hloaded hin)), State.reg_setReg .., ?_⟩
    have hloadedCap : cap = s.regF pwrBase 10 0 := if_pos hloaded
    rw [hloadedCap]

end


/-! ## Claims, returns and accesses of the control cores (R350 to R353, R362, R363) -/

section
namespace Sys2Proof.Machine

/-! ### What a trap keeps -/

section
variable (s : State) (c : CoreId)

/-- R362: the pc that a trap saves. -/
theorem State.trapEntry_epc (cause mtval pc : W32) : (s.trapEntry c cause mtval pc).csr c 0x341 = pc &&& 0xFFFFFFFE := by
  unfold State.trapEntry
  dsimp only
  rw [State.csr_setCore, State.csr_setCsr_other _ c _ (by decide), State.csr_setCsr_other _ c _ (by decide), State.csr_setCsr]

/-- R362: mstatus after a trap: MPP the mode before, MPIE the enable before, which is then closed. -/
theorem State.trapEntry_status (cause mtval pc : W32) : (s.trapEntry c cause mtval pc).csr c 0x300
    = setFld (setFld (setFld (s.csr c 0x300) 7 7 (fld (s.csr c 0x300) 3 3)) 3 3 0) 12 11 (s.coreAt c).priv.toNat := by
  unfold State.trapEntry
  dsimp only
  rw [State.csr_setCore, State.csr_setCsr_other _ c _ (by decide), State.csr_setCsr_other _ c _ (by decide), State.csr_setCsr_other _ c _ (by decide),
    State.csr_setCsr]

/-- A bit that takes another's place. -/
theorem bit_setFld_fld (w x : W32) {i : Nat} (j : Nat) (hi : i < 32) : bit (setFld w i i (fld x j j)) i = bit x j := by
  rw [bit, getLsbD_setFld w i i _ hi, if_pos ⟨le_rfl, le_rfl⟩, Nat.sub_self, testBit_fld, Nat.add_sub_cancel_left]
  rfl

theorem bit_setFld_const (w : W32) {i : Nat} (hi : i < 32) (v : Nat) : bit (setFld w i i v) i = v.testBit 0 := by
  rw [bit, getLsbD_setFld w i i _ hi, if_pos ⟨le_rfl, le_rfl⟩, Nat.sub_self]

theorem trapStatus (m : W32) (x : BitVec 2) : let w := setFld (setFld (setFld m 7 7 (fld m 3 3)) 3 3 0) 12 11 x.toNat
    bit w 3 = false ∧ bit w 7 = bit m 3 ∧ fld w 12 11 = x.toNat := by
  refine ⟨?_, ?_, fld_setFld _ (by decide) x.isLt⟩
  · rw [bit_setFld_other _ _ (by decide) (by decide), bit_setFld_const _ (by decide)]
    rfl
  · rw [bit_setFld_other _ _ (by decide) (by decide), bit_setFld_other _ _ (by decide) (by decide), bit_setFld_fld _ _ _ (by decide)]

/-! ### The claim (R362) -/

/-- R362: the ranks stack: the presented source and its priority stand in front, what stood there is kept. A claim of nothing leaves the threshold. -/
def State.ranked (s : State) (c : CoreId) : State :=
  let src := s.presented c
  let u := ((s.setCsr c 0x7C3 (s.csr c 0xFC0)).setCsr c 0x7C4 (s.csr c 0x7C2)).setCsr c 0xFC0 (BitVec.ofNat 32 src)
  if src = 0 then u else u.setCsr c 0x7C2 (BitVec.ofNat 32 (s.srcPrio c src))

/-- R362: what the claim leaves of the controller. -/
def State.claimed (s : State) (c : CoreId) : State :=
  let src := s.presented c
  let u := s.ranked c
  if src = 0 then u.incReg (intBase c + 4) 15 8 1 else if src ≤ 5 then u else s.modAgain (u.unpend c src) c (src / 32)

theorem State.csr_setReg (a : Nat) (w : W32) (d : CoreId) (n : Nat) : (s.setReg a w).csr d n = s.csr d n := by
  rw [State.csr, State.setReg_csrs, State.csr]

theorem State.coreAt_setReg (a : Nat) (w : W32) (d : CoreId) : (s.setReg a w).coreAt d = s.coreAt d := by
  rw [State.coreAt, State.setReg_core, State.coreAt]

theorem State.coreAt_setCsr (d e : CoreId) (n : Nat) (w : W32) : (s.setCsr d n w).coreAt e = s.coreAt e := rfl

theorem State.modAgain_csr (u : State) (d : CoreId) (g n : Nat) : (s.modAgain u c g).csr d n = u.csr d n := by
  unfold State.modAgain
  dsimp only
  split <;> rfl

theorem State.modAgain_coreAt (u : State) (d : CoreId) (g : Nat) : (s.modAgain u c g).coreAt d = u.coreAt d := by
  unfold State.modAgain
  dsimp only
  split <;> rfl

theorem State.claimed_csr (n : Nat) : (s.claimed c).csr c n = (s.ranked c).csr c n := by
  unfold State.claimed
  dsimp only
  split
  · exact State.csr_setReg ..
  split
  · rfl
  · exact (State.modAgain_csr ..).trans (State.csr_setReg ..)

theorem State.claimed_coreAt : (s.claimed c).coreAt c = s.coreAt c := by
  have hranked : (s.ranked c).coreAt c = s.coreAt c := by
    unfold State.ranked
    dsimp only
    split <;> simp only [State.coreAt_setCsr]
  unfold State.claimed
  dsimp only
  split
  · exact (State.coreAt_setReg ..).trans hranked
  split
  · exact hranked
  · exact (State.modAgain_coreAt ..).trans ((State.coreAt_setReg ..).trans hranked)

theorem State.claim_eq (pc : W32) (hruns : s.coreRuns c = true) (hopen : bit (s.csr c 0x300) 3 = true ∨ (s.coreAt c).priv = 0) :
    let u := (s.claimed c).trapEntry c 0x8000000B 0 pc
    s.claim c pc = u.setCore c { u.coreAt c with pc := (u.csr c 0x7C0 &&& 0xFFFFFFF0) + BitVec.ofNat 32 (16 * s.presented c) } := by
  have hgoes : ¬(!s.coreRuns c ∨ (!bit (s.csr c 0x300) 3 ∧ (s.coreAt c).priv ≠ 0)) := by
    rcases hopen with h | h <;> simp [hruns, h]
  unfold State.claim
  dsimp only
  rw [if_neg hgoes]
  unfold State.claimed State.ranked
  dsimp only
  split <;> rfl

theorem State.ranked_csr_other {n : Nat} (h : n ∉ [0x7C3, 0x7C4, 0xFC0, 0x7C2]) : (s.ranked c).csr c n = s.csr c n := by
  simp only [List.mem_cons, List.not_mem_nil, or_false, not_or] at h
  obtain ⟨h1, h2, h3, h4⟩ := h
  unfold State.ranked
  dsimp only
  split
  · rw [State.csr_setCsr_other _ c _ h3, State.csr_setCsr_other _ c _ h2, State.csr_setCsr_other _ c _ h1]
  · rw [State.csr_setCsr_other _ c _ h4, State.csr_setCsr_other _ c _ h3, State.csr_setCsr_other _ c _ h2, State.csr_setCsr_other _ c _ h1]

theorem State.ranked_stack : (s.ranked c).csr c 0x7C3 = s.csr c 0xFC0 ∧ (s.ranked c).csr c 0x7C4 = s.csr c 0x7C2
    ∧ (s.ranked c).csr c 0xFC0 = BitVec.ofNat 32 (s.presented c)
    ∧ (s.presented c ≠ 0 → (s.ranked c).csr c 0x7C2 = BitVec.ofNat 32 (s.srcPrio c (s.presented c))) := by
  unfold State.ranked
  dsimp only
  split
  next hnone =>
    refine ⟨?_, ?_, State.csr_setCsr .., fun h => absurd hnone h⟩
    · rw [State.csr_setCsr_other _ c _ (by decide), State.csr_setCsr_other _ c _ (by decide), State.csr_setCsr]
    · rw [State.csr_setCsr_other _ c _ (by decide), State.csr_setCsr]
  next hsome =>
    refine ⟨?_, ?_, ?_, fun _ => State.csr_setCsr ..⟩
    · rw [State.csr_setCsr_other _ c _ (by decide), State.csr_setCsr_other _ c _ (by decide), State.csr_setCsr_other _ c _ (by decide), State.csr_setCsr]
    · rw [State.csr_setCsr_other _ c _ (by decide), State.csr_setCsr_other _ c _ (by decide), State.csr_setCsr]
    · rw [State.csr_setCsr_other _ c _ (by decide), State.csr_setCsr]

end

section
variable {s : State} {c : CoreId}

/-- WFI is no part of what decides whether a core executes. -/
theorem State.coreRuns_wfi (wfi : Bool) : (s.setCore c { s.coreAt c with wfi := wfi }).coreRuns c = s.coreRuns c := by
  unfold State.coreRuns
  rw [State.coreAt_setCore]
  rfl

theorem State.srcPrio_wfi (wfi : Bool) (src : Nat) : (s.setCore c { s.coreAt c with wfi := wfi }).srcPrio c src = s.srcPrio c src := rfl

/-- R364: a claim ends the wait in WFI by its trap. -/
theorem State.claimAt_eq (b : Boundary) (hruns : s.coreRuns c = true) (hopen : bit (s.csr c 0x300) 3 = true ∨ (s.coreAt c).priv = 0) :
    s.claimAt c b = (s.setCore c { s.coreAt c with wfi := b.wfi }).claim c b.pc := by
  have hopen' : bit ((s.setCore c { s.coreAt c with wfi := b.wfi }).csr c 0x300) 3 = true ∨ ((s.setCore c { s.coreAt c with wfi := b.wfi }).coreAt c).priv = 0 := by
    rw [State.coreAt_setCore]
    exact hopen
  unfold State.claimAt
  dsimp only
  rw [if_neg (by simp [hruns]), State.claim_eq _ c b.pc ((State.coreRuns_wfi b.wfi).trans hruns) hopen']
  exact if_neg (by simp [State.trapEntry_coreAt])

/-! ### MRET (R363) -/

/-- R363: mstatus after MRET. -/
def retStatus (m : W32) : W32 :=
  let w := setFld (setFld (setFld m 3 3 (fld m 7 7)) 7 7 1) 12 11 0
  if m.extractLsb' 11 2 = 3 then w else setFld w 17 17 0

theorem retStatus_bits (m : W32) : bit (retStatus m) 3 = bit m 7 ∧ bit (retStatus m) 7 = true := by
  have hlow : ∀ i < 17, bit (retStatus m) i = bit (setFld (setFld (setFld m 3 3 (fld m 7 7)) 7 7 1) 12 11 0) i := by
    intro i hi
    unfold retStatus
    dsimp only
    split
    · rfl
    · exact bit_setFld_other _ _ (by omega) (by omega)
  rw [hlow 3 (by decide), hlow 7 (by decide)]
  refine ⟨?_, ?_⟩
  · rw [bit_setFld_other _ _ (by decide) (by decide), bit_setFld_other _ _ (by decide) (by decide), bit_setFld_fld _ _ _ (by decide)]
  · rw [bit_setFld_other _ _ (by decide) (by decide), bit_setFld_const _ (by decide)]
    rfl

theorem State.mretNow_eq (hruns : s.coreRuns c = true) (hmode : (s.coreAt c).priv = 3) :
    let u := (s.setCsr c 0xFC0 (s.csr c 0x7C3)).setCsr c 0x7C2 (s.csr c 0x7C4)
    s.mretNow c = (u.setCsr c 0x300 (retStatus (s.csr c 0x300))).setCore c
      { s.coreAt c with wfi := false, priv := (s.csr c 0x300).extractLsb' 11 2, pc := s.csr c 0x341 } := by
  have hkept : ∀ {n}, n ≠ 0x7C2 → n ≠ 0xFC0 →
      ((s.setCsr c 0xFC0 (s.csr c 0x7C3)).setCsr c 0x7C2 (s.csr c 0x7C4)).csr c n = s.csr c n := fun h1 h2 => by
    rw [State.csr_setCsr_other _ c _ h1, State.csr_setCsr_other _ c _ h2]
  unfold State.mretNow
  dsimp only
  rw [if_neg (by simp [hruns]), if_neg (not_not.2 hmode), hkept (by decide) (by decide), hkept (n := 0x341) (by decide) (by decide)]
  simp only [State.coreAt_setCsr, retStatus]

/-! ### Accesses of a core (R350 to R352) -/

section
variable {k : CoreAccess} {a pc : W32} (hruns : s.coreRuns c = true)
include hruns

theorem State.coreAccess_misaligned {x : W32} (h : alignCause a.toNat k = some x) :
    s.coreAccess c k a pc = (s.excTrap c x (s.mtvalFree a) pc).drawn := by
  unfold State.coreAccess
  rw [if_neg (by simp [hruns]), if_pos (by simp [h]), h]
  rfl

variable (haligned : alignCause a.toNat k = none)
include haligned

theorem State.coreAccess_nowhere (h : s.coreTarget c k a.toNat = none) : s.coreAccess c k a pc = (s.excTrap c (faultCause k) (s.mtvalFree a) pc).drawn := by
  unfold State.coreAccess
  rw [if_neg (by simp [hruns]), if_neg (by simp [haligned]), h]

theorem State.coreAccess_reached {x : CorePlace} (h : s.coreTarget c k a.toNat = some x) (hclean : s.corePoison c k a.toNat x = none)
    (hnow : (s.awake c).coreWaits x = false) : s.coreAccess c k a pc = (s.awake c).coreDo c k a x ∧ ¬(s.awake c).coreWaits x = true := by
  unfold State.coreAccess
  rw [if_neg (by simp [hruns]), if_neg (by simp [haligned]), h]
  dsimp only
  rw [hclean]
  exact ⟨rfl, by simp [hnow]⟩

end

/-- R362: an exception's cause, the pc saved, and where the core goes on. -/
theorem State.excTrap_saves (s : State) (c : CoreId) (cause mtval pc : W32) : let u := (s.excTrap c cause mtval pc).drawn
    u.csr c 0x342 = cause ∧ u.csr c 0x341 = pc &&& 0xFFFFFFFE ∧ (u.coreAt c).pc = s.csr c 0x305 &&& 0xFFFFFFFC ∧ (u.coreAt c).priv = 3 := by
  obtain ⟨hcause, hpc, hpriv, -⟩ := s.excTrap_trapped c cause mtval pc
  refine ⟨hcause, ?_, hpc, hpriv⟩
  rw [State.csr_drawn, State.excTrap_csr, State.trapEntry_epc]

end

/-! ### Memories of the colony cores from outside (R353) -/

theorem State.cmemB_setCmemB_other (s : State) (c : ColId) {a b : Nat} (v : Byte) (h : b ≠ a) : (s.setCmemB c a v).cmemB c b = s.cmemB c b :=
  look_put_other _ _ _ (by omega)

/-- R353: a word written from outside reads back. -/
theorem State.cmemW_cmemWrite (s : State) (c : ColId) {off : Nat} (w : W32) (h : off < 0x18000) : (s.cmemWrite c off w).cmemW c off = w := by
  have hbytes : natLe 4 w.toNat = [BitVec.ofNat 8 w.toNat, BitVec.ofNat 8 (w.toNat / 256), BitVec.ofNat 8 (w.toNat / 256 / 256),
    BitVec.ofNat 8 (w.toNat / 256 / 256 / 256)] := rfl
  have hread : (List.range 4).map (fun i => (s.cmemWrite c off w).cmemB c (off / 4 * 4 + i)) = natLe 4 w.toNat := by
    unfold State.cmemWrite
    rw [if_neg (by omega), hbytes]
    simp only [each, List.zipIdx_cons, List.zipIdx_nil, List.foldl_cons, List.foldl_nil, List.range_succ_eq_map, List.range_zero, List.map_cons, List.map_nil]
    simp [State.cmemB_setCmemB_other]
  rw [State.cmemW, hread, ofNat_leNat_natLe (n := 4) rfl]

end Sys2Proof.Machine

open Sys2Proof Sys2Proof.Machine

/-- Settles O44: a claim stacks its ranks before the standard's trap entry, and an access takes its course by where its address leads. -/
theorem trapsAndReturns : Obligations.TrapsAndReturns := by
  intro s r c pc a k col off w wfi v place old traps
  have htraps : ∀ {cause : W32}, exec (.coreAccessFault c k a pc) s = .next (s.excTrap c cause (s.mtvalFree a) pc).drawn → traps cause := fun h =>
    ⟨_, h, s.excTrap_saves ..⟩
  refine ⟨fun hruns => ⟨fun hopen => ?_, fun hmode => ?_, fun haligned hnowhere => ?_, fun x hx => ?_, fun o rd n sgn hplace hk => ?_,
    fun op rd x hplace hk halign => ?_, fun h n x hplace hk hserves => ?_⟩, fun hreq hoff => ?_⟩
  · have hv : v.coreRuns c = true := (State.coreRuns_wfi wfi).trans hruns
    have hcore : v.coreAt c = { s.coreAt c with wfi := wfi } := State.coreAt_setCore ..
    have hclaim := (State.claimAt_eq ⟨pc, wfi⟩ hruns hopen).trans (v.claim_eq c pc hv (by rw [hcore]; exact hopen))
    have hcsr : ∀ {n}, n ≠ 0x300 → n ≠ 0x341 → n ≠ 0x342 → n ≠ 0x343 → ((v.claimed c).trapEntry c 0x8000000B 0 pc).csr c n = (v.ranked c).csr c n :=
      fun h1 h2 h3 h4 => (State.trapEntry_csr _ c _ _ _ h1 h2 h3 h4).trans (v.claimed_csr c _)
    obtain ⟨hfirst, hsecond, hsource, hrank⟩ := v.ranked_stack c
    have hstatus : ((v.claimed c).trapEntry c 0x8000000B 0 pc).csr c 0x300
        = setFld (setFld (setFld (s.csr c 0x300) 7 7 (fld (s.csr c 0x300) 3 3)) 3 3 0) 12 11 (s.coreAt c).priv.toNat := by
      rw [State.trapEntry_status, v.claimed_csr, v.ranked_csr_other c (by decide), v.claimed_coreAt, hcore]
      rfl
    refine ⟨_, congrArg Host.Outcome.next hclaim, ?_⟩
    simp only [State.csr_setCore, State.coreAt_setCore]
    rw [hcsr (n := 0x7C3) (by decide) (by decide) (by decide) (by decide), hcsr (n := 0x7C4) (by decide) (by decide) (by decide) (by decide),
      hcsr (n := 0xFC0) (by decide) (by decide) (by decide) (by decide), hcsr (n := 0x7C2) (by decide) (by decide) (by decide) (by decide),
      hcsr (n := 0x7C0) (by decide) (by decide) (by decide) (by decide), State.trapEntry_epc, State.trapEntry_cause, hstatus, State.trapEntry_coreAt,
      v.ranked_csr_other c (n := 0x7C0) (by decide)]
    obtain ⟨hie, hpie, hpp⟩ := trapStatus (s.csr c 0x300) (s.coreAt c).priv
    exact ⟨hfirst, hsecond, hsource, fun h => (hrank h).trans (congrArg _ (State.srcPrio_wfi ..)), rfl, rfl, hie, hpie, hpp, rfl, rfl⟩
  · refine ⟨_, congrArg Host.Outcome.next (State.mretNow_eq hruns hmode), ?_⟩
    rw [State.coreAt_setCore]
    simp only [State.csr_setCore]
    rw [State.csr_setCsr_other _ c _ (by decide), State.csr_setCsr_other _ c _ (by decide), State.csr_setCsr, State.csr_setCsr_other _ c _ (by decide),
      State.csr_setCsr, State.csr_setCsr]
    exact ⟨rfl, rfl, trivial, BitVec.extractLsb'_toNat .., retStatus_bits _⟩
  · exact htraps (congrArg Host.Outcome.next (State.coreAccess_nowhere hruns haligned hnowhere))
  · exact htraps (congrArg Host.Outcome.next (State.coreAccess_misaligned hruns hx))
  · subst hk
    obtain ⟨hdo, hnow⟩ := State.coreAccess_reached (pc := pc) hruns rfl hplace rfl rfl
    exact congrArg Host.Outcome.next (hdo.trans (if_neg hnow))
  · subst hk
    obtain ⟨hdo, hnow⟩ := State.coreAccess_reached (pc := pc) hruns (show alignCause _ (.amo op rd x false) = none from if_pos halign) hplace rfl rfl
    exact congrArg Host.Outcome.next (hdo.trans (if_neg hnow))
  · subst hk
    obtain ⟨hdo, hnow⟩ := State.coreAccess_reached (pc := pc) hruns rfl hplace rfl (congrArg (!·) hserves)
    exact congrArg Host.Outcome.next (hdo.trans (if_neg hnow))
  · exact ⟨_, congrArg Host.Outcome.next (if_pos hreq), s.cmemW_cmemWrite col w hoff⟩

end

/-! ## The Debug Module (R355, R457) -/

section
namespace Sys2Proof.Machine

/-- A core as its reset leaves it: not halted, with no halt request of the Debug Module, at an even address. -/
structure State.FreshAt (s : State) (c : CoreId) : Prop where
  runs : (s.coreAt c).halted = false
  noReq : (s.coreAt c).haltReq = false
  even : (s.coreAt c).pc.getLsbD 0 = false

section
variable {s : State} {c : CoreId}

theorem State.FreshAt.congr {t : State} (h : s.FreshAt c) (heq : t.coreAt c = s.coreAt c) : t.FreshAt c :=
  ⟨heq ▸ h.runs, heq ▸ h.noReq, heq ▸ h.even⟩

theorem State.FreshAt.withDm (h : s.FreshAt c) (d : Dm) : { s with dm := d }.FreshAt c := h.congr rfl

/-- A write of another core's state leaves this one as it is, and one that halts nothing at an even address keeps it so. -/
theorem State.FreshAt.setCore (h : s.FreshAt c) (k : Core) (b : CoreId)
    (hk : b = c → k.halted = false ∧ k.haltReq = false ∧ k.pc.getLsbD 0 = false) : (s.setCore b k).FreshAt c := by
  by_cases hb : c = b
  · subst hb
    obtain ⟨hruns, hreq, heven⟩ := hk rfl
    constructor <;> rw [State.coreAt_setCore] <;> assumption
  · exact h.congr (State.coreAt_setCore_other _ _ hb)

/-- R354: a core that leaves its reset starts at an even address, and halts only where that was asked for. -/
theorem State.FreshAt.releaseCore (h : s.FreshAt c) (b : CoreId) : (s.releaseCore b).FreshAt c := by
  unfold State.releaseCore
  dsimp only
  refine State.FreshAt.setCore ?_ _ b fun hb => ?_
  · split <;> exact h.congr (by simp only [State.coreAt_setCsr])
  · subst hb
    exact ⟨h.noReq, h.noReq, by simp⟩

theorem State.FreshAt.dmRelease (h : s.FreshAt c) (b : CoreId) : (s.dmRelease b).FreshAt c := by
  unfold State.dmRelease
  split
  · exact h.releaseCore b
  · exact h

/-- The end of the reset that the Debug Module holds every hart in leaves a fresh core fresh. -/
theorem State.FreshAt.dmResets (h : s.FreshAt c) : (s.dmResets false false).FreshAt c := by
  have hall : ∀ l : List CoreId, (each s l fun s c => s.dmRelease c).FreshAt c := fun l =>
    each_keeps (P := fun u => u.FreshAt c) (fun u b _ hu => hu.dmRelease b) h
  have hndm : ∀ l : List CoreId, (if s.dm.ndmReset then each s l fun s c => s.dmRelease c else s).FreshAt c := fun l => by
    split
    · exact hall l
    · exact h
  unfold State.dmResets
  dsimp only
  rw [if_neg Bool.false_ne_true]
  generalize hu : (if s.dm.ndmReset then each s _ _ else s) = u
  have hfresh : u.FreshAt c := hu ▸ hndm _
  refine State.FreshAt.congr (s := match u.dm.hart with
    | none => u
    | some c => if false then u.dmHold c else if u.dm.hartReset && !false then u.dmRelease c else u) ?_ rfl
  split
  · exact hfresh
  · rw [if_neg Bool.false_ne_true]
    split
    · exact hfresh.dmRelease _
    · exact hfresh

theorem Dm.hart_congr {d e : Dm} (h : d.hartsel = e.hartsel) : d.hart = e.hart := by
  unfold Dm.hart
  simp only [h]

theorem State.dmRelease_dm (b : CoreId) : (s.dmRelease b).dm = s.dm := by
  unfold State.dmRelease State.releaseCore
  dsimp only
  split
  · rw [State.setCore_dm]
    split <;> simp only [State.setCsr]
  · rfl

/-- The hart that is selected stays so where resets end. -/
theorem State.hartsel_dmResets : (s.dmResets false false).dm.hartsel = s.dm.hartsel := by
  have hall : ∀ l : List CoreId, (if s.dm.ndmReset then each s l fun s c => s.dmRelease c else s).dm = s.dm := fun l => by
    split
    · exact each_keeps (P := fun u => u.dm = s.dm) (fun u b _ hu => u.dmRelease_dm b |>.trans hu) rfl
    · rfl
  unfold State.dmResets
  dsimp only
  rw [if_neg Bool.false_ne_true]
  generalize hu : (if s.dm.ndmReset then each s _ _ else s) = u
  have hdm : u.dm = s.dm := hu ▸ hall _
  split
  · rw [hdm]
  · rw [if_neg Bool.false_ne_true]
    split
    · rw [State.dmRelease_dm, hdm]
    · rw [hdm]

/-- A resume request of a hart that has not halted does nothing. -/
theorem State.FreshAt.dmResume (h : s.FreshAt c) : (s.dmResume c).FreshAt c := by
  unfold State.dmResume
  dsimp only
  rw [if_pos (by simp [h.runs])]
  exact h

end

/-- The Debug Module is about to reset every hart; core 1 has halted with dpc 1, and core 0 is selected. -/
def heldHarts : State :=
  { State.reset with dm := { active := true, ndmReset := true }, core := [(1, { inReset := false, halted := true })], csrs := [(4096 + 0x7B1, 1)] }

/-- The same, once its DMI access is admitted (R387). -/
def heldHartsAdmitted : State := { heldHarts with chitin := { heldHarts.chitin with tapIr := 0x11, dmiError := false } }

/-- Selecting another hart takes the reset of all harts once more, core 1 among them. -/
theorem heldHarts_reselect : (heldHartsAdmitted.dmResets false true).FreshAt 1 :=
  ⟨by decide +kernel, by decide +kernel, by decide +kernel⟩

/-- A write of dmcontrol that selects another hart out of 260, ends the reset of all harts and asks for its resume, in steps. -/
theorem dmControl_resume (s : State) (w : W32) (c : CoreId) (hactive : s.dm.active = true) (hndm : s.dm.ndmReset = true)
    (hon : bit w 0 = true) (hreset : bit w 1 = false) (hhart : bit w 29 = false) (hack : bit w 28 = false) (hhalt : bit w 31 = false)
    (hgo : bit w 30 = true) (hsel : s.dm.hartsel ≠ w.extractLsb' 6 10 ++ w.extractLsb' 16 10)
    (hc : ({ s.dm with hartsel := w.extractLsb' 6 10 ++ w.extractLsb' 16 10 } : Dm).hart = some c)
    (hfresh : (s.dmResets false true).FreshAt c) : (s.dmControl w).FreshAt c := by
  unfold State.dmControl
  rw [if_neg (by simp [hon]), if_neg (by simp [hactive])]
  dsimp only
  rw [if_pos hsel, hndm, hhart, hreset]
  have hselected : { s.dmResets false true with dm := { (s.dmResets false true).dm with hartsel := w.extractLsb' 6 10 ++ w.extractLsb' 16 10 } }.FreshAt c :=
    hfresh.withDm _
  generalize hu : { s.dmResets false true with dm := { (s.dmResets false true).dm with hartsel := w.extractLsb' 6 10 ++ w.extractLsb' 16 10 } } = u
    at hselected
  have hended := hselected.dmResets
  split
  · exact hended
  next d hd =>
  have hdc : d = c := by
    have hkept : (u.dmResets false false).dm.hartsel = w.extractLsb' 6 10 ++ w.extractLsb' 16 10 := by rw [State.hartsel_dmResets, ← hu]
    exact Option.some.inj (hd.symm.trans ((Dm.hart_congr hkept).trans hc))
  subst hdc
  rw [if_neg (by simp [hhalt]), if_pos hgo, if_neg (by simp [hack])]
  have hcleared := hended.setCore { (u.dmResets false false).coreAt d with haltReq := false } d fun _ => ⟨hended.runs, rfl, hended.even⟩
  refine State.FreshAt.dmResume (hcleared.setCore _ d fun _ => ?_)
  exact ⟨hcleared.runs, hcleared.noReq, hcleared.even⟩

end Sys2Proof.Machine

open Sys2Proof Sys2Proof.Machine

/-- Refutes O49: its clause on the Debug Module lets a resumed hart go on at dpc, but a write of dmcontrol that selects another hart while ndmreset is
set resets every hart once more (log 127, PRESUMED). Core 1 has halted with dpc 1: the write resets it, so it has not halted where the resume request
comes, and stands at an even address. -/
theorem not_bootAndDebug : ¬ Obligations.BootAndDebug := by
  intro h
  obtain ⟨-, -, -, -, hdebug, -⟩ := h heldHarts .pf Tests.bootInputs ⟨[], [], [], [], []⟩ 0 1 0
  obtain ⟨u, v, -, -, -, -, hresume, -, hpc⟩ := hdebug (by decide) (by decide) (by decide) (by decide) (by decide)
  obtain ⟨-, hpc⟩ := hpc (by decide) (by decide)
  have hdpc : heldHarts.csr 1 0x7B1 = 1 := by decide
  have hallowed : ¬((!heldHarts.debugOk) = true) := by decide
  have hv : heldHarts.dmi (.write 0x10 0x40010001) = v := Host.Outcome.next.inj hresume
  have hcontrol : heldHarts.dmi (.write 0x10 0x40010001) = heldHartsAdmitted.dmControl 0x40010001 := by
    unfold State.dmi
    rw [if_neg hallowed]
    exact (if_pos rfl : heldHartsAdmitted.dmWrite 0x10 0x40010001 = _)
  have hfresh : v.FreshAt 1 := hv ▸ hcontrol ▸ dmControl_resume heldHartsAdmitted 0x40010001 1 (by decide) (by decide) (by decide) (by decide)
    (by decide) (by decide) (by decide) (by decide) (by decide) (by decide) heldHarts_reselect
  have heven := hfresh.even
  rw [hpc, hdpc] at heven
  exact absurd heven (by decide)

end

/-! ## Global stops (R457, R459 to R464) -/

section
namespace Sys2Proof.Machine

/-- What the step at `x` brings about from a state in which the steps elsewhere leave it, and keep, holds after a walk that comes to `x` once. -/
theorem each_once {β : Type} {I P : State → Prop} {l : List β} {f : State → β → State} {x : β} (hl : l.Nodup) (hx : x ∈ l)
    (hset : ∀ u, I u → P (f u x)) (hstands : ∀ u y, y ≠ x → I u → I (f u y)) (hkeep : ∀ u y, y ≠ x → P u → P (f u y)) {s : State} (hs : I s) :
    P (each s l f) := by
  obtain ⟨l₁, l₂, rfl⟩ := List.append_of_mem hx
  have hafter : each s (l₁ ++ x :: l₂) f = each (f (each s l₁ f) x) l₂ f := by simp only [each, List.foldl_append, List.foldl_cons]
  have hnot : x ∉ l₁ ++ l₂ := (List.nodup_cons.1 (List.nodup_middle.1 hl)).1
  have hbefore : ∀ y ∈ l₁, y ≠ x := fun y hy h => hnot (h ▸ List.mem_append_left l₂ hy)
  have hthen : ∀ y ∈ l₂, y ≠ x := fun y hy h => hnot (h ▸ List.mem_append_right l₁ hy)
  rw [hafter]
  exact each_keeps (fun u y hy => hkeep u y (hthen y hy)) (hset _ (each_keeps (fun u y hy => hstands u y (hbefore y hy)) hs))

/-! ### The start of a stop -/

section
variable (s : State)

/-- R459, R460: what a stop that begins writes to the state of the global stop. -/
theorem State.beginStop_gs (device : Bool) (p : PartId) (origin port : Nat) (tile : TileId) (hst : s.gs.st = .running) :
    (s.beginStop device p origin port tile).gs = { s.gs with
      st := .stopping, device := device, part := p, origin := BitVec.ofNat 3 origin, port := BitVec.ofNat 3 port, originTile := tile, time := s.time,
      first := none, last := none, vwait := false } := by
  unfold State.beginStop
  rw [if_neg (not_not.2 hst)]
  dsimp only
  split
  · refine each_keeps (P := fun u => u.gs = _) (fun u c _ hu => ?_) (by simp only [State.add64, State.setReg_gs])
    split
    · exact hu
    · simpa only [State.enterDebug, State.setCore_gs, State.drawn_gs, State.setCsr] using hu
  · simp only [State.add64, State.setReg_gs]

theorem State.coreAt_add64 (a n : Nat) (c : CoreId) : (s.add64 a n).coreAt c = s.coreAt c := by
  simp only [State.add64, State.coreAt_setReg]

theorem State.enterDebug_halted (d c : CoreId) (cause : Nat) (h : (s.coreAt c).halted = true ∨ c = d) : ((s.enterDebug d cause).coreAt c).halted = true := by
  unfold State.enterDebug
  dsimp only
  rw [State.coreAt_drawn]
  by_cases hd : c = d
  · rw [hd, State.coreAt_setCore]
  · rw [State.coreAt_setCore_other _ _ hd, State.coreAt_setCsr, State.coreAt_setCsr]
    exact h.resolve_right hd

/-- A core that has halted stays so while a stop begins. -/
theorem State.beginStop_halted (device : Bool) (p : PartId) (origin port : Nat) (tile : TileId) (c : CoreId) (h : (s.coreAt c).halted = true) :
    ((s.beginStop device p origin port tile).coreAt c).halted = true := by
  unfold State.beginStop
  split
  · exact h
  dsimp only
  split
  · refine each_keeps (P := fun u => (u.coreAt c).halted = true) (fun u d _ hu => ?_) ?_
    · split
      · exact hu
      · by_cases hd : c = coreOfCol d
        · rw [hd, State.coreAt_setCore]
        · rw [State.coreAt_setCore_other _ _ hd]
          exact u.enterDebug_halted _ c 3 (.inl hu)
    · rw [State.coreAt_add64]
      exact h
  · rw [State.coreAt_add64]
    exact h

/-- R457: a core halts at its trigger's hit. -/
theorem State.triggerHit_halted (c : CoreId) (hreset : (s.coreAt c).inReset = false) (hruns : (s.coreAt c).halted = false) :
    ((s.triggerHit c).coreAt c).halted = true := by
  have hhit := s.enterDebug_halted c c 2 (.inr rfl)
  unfold State.triggerHit
  dsimp only
  rw [if_neg (by simp [hreset, hruns])]
  split
  · exact hhit
  split
  · split
    · exact State.beginStop_halted _ _ _ _ _ _ c hhit
    · exact hhit
  · split
    · exact State.beginStop_halted _ _ _ _ _ _ c hhit
    · exact hhit

/-! ### The marker at a tile -/

theorem State.trace_marker (t u : TileId) (ty unit place info : Nat) : ((s.trace t ty unit place info).tileAt u).marker = (s.tileAt u).marker := by
  have hset : ∀ v : Tile, v.marker = (s.tileAt t).marker → ((s.setTile t v).tileAt u).marker = (s.tileAt u).marker := fun v hv => by
    by_cases hu : u = t
    · rw [hu, State.tileAt_setTile, hv]
    · rw [s.tileAt_setTile_other v hu]
  unfold State.trace
  dsimp only
  split
  · rfl
  · split
    · rfl
    · split
      · exact hset _ rfl
      · exact hset _ rfl

/-- R455, R456, R460: of the engines, a halt writes the one that halts. -/
theorem State.haltEngine_engAt (t u : TileId) (e f : EngId) (w : HaltWhy) : (s.haltEngine t e w).engAt u f = (s.setEng t e { s.engAt t e with
    st := .halted, before := (s.engAt t e).st, gstop := decide (w = .gstop), stepping := false, haltStamp := s.stamp t }).engAt u f := by
  unfold State.haltEngine
  dsimp only
  rw [State.trace_engAt]
  split <;> rfl

theorem State.haltEngine_at (t : TileId) (e : EngId) (w : HaltWhy) :
    ((s.haltEngine t e w).engAt t e).st = .halted ∧ ((s.haltEngine t e w).engAt t e).before = (s.engAt t e).st := by
  rw [State.haltEngine_engAt, State.engAt_setEng]
  exact ⟨rfl, rfl⟩

theorem State.haltEngine_other (t : TileId) {e f : EngId} (w : HaltWhy) (h : e ≠ f) : (s.haltEngine t e w).engAt t f = s.engAt t f := by
  rw [State.haltEngine_engAt, s.engAt_setEng_other t t e f _ (by simp [h.symm])]

theorem State.haltEngine_marker (t u : TileId) (e : EngId) (w : HaltWhy) : ((s.haltEngine t e w).tileAt u).marker = (s.tileAt u).marker := by
  unfold State.haltEngine
  dsimp only
  rw [State.trace_marker]
  split <;> rfl

theorem State.raise_eng (c : CoreId) (src : Nat) : (s.raise c src).eng = s.eng := by
  unfold State.raise State.ordered
  dsimp only
  rw [State.setReg_eng]
  split_ifs <;> rfl

theorem State.raise_tile (c : CoreId) (src : Nat) : (s.raise c src).tile = s.tile := by
  unfold State.raise State.ordered
  dsimp only
  rw [State.setReg_tile]
  split_ifs <;> rfl

/-- R460 step 3: what the marker does to an engine that stands as `g`. -/
def Eng.Marked (g h : Eng) : Prop :=
  ((g.st = .run ∨ g.st = .wait ∨ g.st = .stopped) → h.st = .halted ∧ h.before = g.st) ∧ ((g.st = .idle ∨ g.st = .faulted ∨ g.st = .halted) → h = g)

/-- An engine of the tile at the marker: it halts where it goes on with a program, else it stays as it is. -/
def State.markEngine (s : State) (t : TileId) (e : EngId) : State :=
  match (s.engAt t e).st with
  | .run => s.haltEngine t e .gstop
  | .wait => s.haltEngine t e .gstop
  | .stopped => s.haltEngine t e .gstop
  | _ => s

theorem State.markEngine_marked (t : TileId) (e : EngId) : (s.engAt t e).Marked ((s.markEngine t e).engAt t e) := by
  have hhalts := s.haltEngine_at t e .gstop
  unfold State.markEngine Eng.Marked
  cases hst : (s.engAt t e).st <;> simp [hst] at hhalts ⊢ <;> exact hhalts

theorem State.markEngine_other (t : TileId) {e f : EngId} (h : e ≠ f) : (s.markEngine t e).engAt t f = s.engAt t f := by
  unfold State.markEngine
  split
  · exact s.haltEngine_other t _ h
  · exact s.haltEngine_other t _ h
  · exact s.haltEngine_other t _ h
  · rfl

theorem State.markEngine_marker (t u : TileId) (e : EngId) : ((s.markEngine t e).tileAt u).marker = (s.tileAt u).marker := by
  unfold State.markEngine
  split
  · exact s.haltEngine_marker ..
  · exact s.haltEngine_marker ..
  · exact s.haltEngine_marker ..
  · rfl

theorem mem_engines (e : EngId) : e ∈ engines := by
  revert e
  decide

/-- A walk over the tile's streams that marks each. -/
def State.markQueues (s : State) (t : TileId) : State := each s (List.range 4) fun s q => s.setMovq t q { s.movq_ t q with gstop := true }

theorem State.markQueues_keeps (t u : TileId) (e : EngId) : ((s.markQueues t).tileAt u).marker = (s.tileAt u).marker ∧ (s.markQueues t).engAt u e = s.engAt u e := by
  unfold State.markQueues
  refine each_keeps (P := fun v => (v.tileAt u).marker = (s.tileAt u).marker ∧ v.engAt u e = s.engAt u e) (fun _ _ _ hv => ?_) ⟨rfl, rfl⟩
  exact hv

/-- R460 step 3 in its parts: the tile is noted, its cores are told, and its engines and streams are marked. -/
theorem State.markerAt_steps (t : TileId) (hscope : s.stoppedOver t = true) (hfirst : (s.tileAt t).marker = false) (hst : s.gs.st = .stopping) :
    let b := s.bring fun x => x.canal.marks.contains t
    let m := b.setTile t { b.tileAt t with marker := true }
    ∃ r : State, r.tile = m.tile ∧ r.eng = m.eng ∧ s.markerAt t = (each r engines fun u f => u.markEngine t f).markQueues t := by
  intro b m
  unfold State.markerAt
  rw [if_neg (by simp [hscope, hfirst, hst])]
  refine ⟨_, ?_, ?_, rfl⟩
  · dsimp only
    split
    · exact (State.raise_tile ..).trans (State.raise_tile ..)
    · exact State.raise_tile ..
  · dsimp only
    split
    · exact (State.raise_eng ..).trans (State.raise_eng ..)
    · exact State.raise_eng ..

/-- The marker that has come to a tile is noted there, and takes each of its engines. -/
theorem State.markerAt_reaches (t : TileId) (e : EngId) (hscope : s.stoppedOver t = true) (hfirst : (s.tileAt t).marker = false)
    (hst : s.gs.st = .stopping) :
    ((s.markerAt t).tileAt t).marker = true
      ∧ ((s.bring fun x => x.canal.marks.contains t).engAt t e).Marked ((s.markerAt t).engAt t e) := by
  obtain ⟨r, htile, heng, hsteps⟩ := s.markerAt_steps t hscope hfirst hst
  generalize s.bring (fun x => x.canal.marks.contains t) = b at *
  obtain ⟨hmarker, hkept⟩ := (each r engines fun u f => u.markEngine t f).markQueues_keeps t t e
  rw [hsteps, hmarker, hkept]
  constructor
  · refine each_keeps (P := fun u => (u.tileAt t).marker = true) (fun u f _ hu => (u.markEngine_marker t t f).trans hu) ?_
    rw [State.tileAt, htile]
    exact congrArg Tile.marker (b.tileAt_setTile t _)
  · refine each_once (I := fun u => u.engAt t e = b.engAt t e) (P := fun u => (b.engAt t e).Marked (u.engAt t e)) (by decide) (mem_engines e)
      (fun u hu => hu ▸ u.markEngine_marked t e) (fun u f hf hu => (u.markEngine_other t hf).trans hu)
      (fun u f hf hu => by rwa [u.markEngine_other t hf]) ?_
    rw [State.engAt, heng]
    rfl

/-! ### STOP on the ports -/

/-- What a message that a port sends leaves as it is: whether port `v` is ACTIVE and whether STOP has set out on it. -/
def State.stopSide (s : State) (v : PortId) : PortSt × Bool := ((s.portAt v).st, (s.portAt v).stopSent)

theorem State.setPort_stopSide (p v : PortId) (q : Port) (hst : q.st = (s.portAt p).st) (hsent : q.stopSent = (s.portAt p).stopSent) :
    (s.setPort p q).stopSide v = s.stopSide v := by
  unfold State.stopSide
  by_cases hv : v = p
  · rw [hv, State.portAt_setPort, hst, hsent]
  · rw [State.portAt_setPort_other s q hv]

theorem State.sendFlit_stopSide (p v : PortId) (ty slots) : (s.sendFlit p ty slots).stopSide v = s.stopSide v :=
  s.setPort_stopSide p v _ rfl rfl

theorem State.sendSlots_stopSide (p v : PortId) (n l) : (s.sendSlots p n l).stopSide v = s.stopSide v := by
  induction n generalizing s l with
  | zero => rfl
  | succ n ih =>
    unfold State.sendSlots
    split
    · rfl
    · rw [ih, State.sendFlit_stopSide]

theorem State.pump_stopSide (p v : PortId) (k) : (s.pump p k).stopSide v = s.stopSide v := by
  induction k generalizing s with
  | zero => rfl
  | succ k ih =>
    unfold State.pump
    dsimp only
    split
    · rfl
    next i vc m _ =>
    generalize ite (m.ty = .time) _ m = m
    split
    · rfl
    · rw [ih, State.setPort_stopSide, State.sendSlots_stopSide, State.setPort_stopSide]
      all_goals rfl

theorem State.emit_stopSide (p v : PortId) (vc m) : (s.emit p vc m).stopSide v = s.stopSide v :=
  (State.pump_stopSide ..).trans (s.setPort_stopSide p v _ rfl rfl)

theorem mem_allPorts : ∀ p : PortId, p ∈ allPorts := by decide

/-- A port that sends STOP stays as it is but for that. -/
theorem State.setPort_sent_stopSide (p v : PortId) (q : Port) (hst : q.st = (s.portAt p).st) (hsent : q.stopSent = true) :
    (s.setPort p q).stopSide v = ((s.stopSide v).1, (s.stopSide v).2 || decide (v = p)) := by
  unfold State.stopSide
  by_cases hv : v = p
  · subst hv
    rw [State.portAt_setPort, hst, hsent]
    simp
  · rw [State.portAt_setPort_other s _ hv]
    simp [hv]

/-- R460 step 5: on a device stop that sends STOP, every ACTIVE port has sent it. -/
theorem State.sendStop_sends (p : PortId) (hst : s.gs.st = .stopping) (hdevice : s.gs.device = true) (hon : bit (s.reg (dbgBase + 0x104)) 2 = true)
    (hactive : (s.portAt p).st = .active) : (s.sendStop.portAt p).stopSent = true := by
  suffices hside : (s.sendStop.stopSide p).2 = true from hside
  unfold State.sendStop
  rw [if_neg (by simp [hst, hdevice, hon])]
  refine each_settles (I := fun u => (u.stopSide p).1 = .active) (P := fun u => (u.stopSide p).2 = true) (mem_allPorts p) (fun u hu => ?_)
    (fun u q hu => ?_) (fun u q hu => ?_) hactive <;> dsimp only <;> split
  next h =>
    change (u.portAt p).st = .active at hu
    exact h.resolve_left (not_not.2 hu)
  next =>
    rw [State.emit_stopSide, State.setPort_sent_stopSide]
    · simp
    · rfl
    · rfl
  next => exact hu
  next =>
    rw [State.emit_stopSide, State.setPort_sent_stopSide]
    · exact hu
    · rfl
    · rfl
  next => exact hu
  next =>
    rw [State.emit_stopSide, State.setPort_sent_stopSide]
    · simp [hu]
    · rfl
    · rfl

end

/-! ### The release -/

section
variable (s : State)

/-- R464: an engine as the release leaves it: it stands in the state it halted from, at the word it halted at. -/
def Eng.Released (g h : Eng) : Prop := h.st = g.before ∧ h.pc = g.pc ∧ h.gstop = false

/-- R464: an engine of a tile that is released. -/
def State.releaseEngine (s : State) (t : TileId) (e : EngId) : State :=
  if (s.engAt t e).gstop ∧ (s.engAt t e).st = .halted then s.unhalt t e false else s

theorem State.releaseEngine_other (t u : TileId) {e f : EngId} (h : (u, f) ≠ (t, e)) : (s.releaseEngine t e).engAt u f = s.engAt u f := by
  unfold State.releaseEngine
  split
  · exact s.engAt_setEng_other t u e f _ h
  · rfl

theorem State.releaseEngine_tile (t : TileId) (e : EngId) : (s.releaseEngine t e).tile = s.tile := by
  unfold State.releaseEngine
  split <;> rfl

/-- An engine that the stop halted goes on from where it stood; one that goes on already stays. -/
theorem State.releaseEngine_releases (t : TileId) (e : EngId) (g : Eng) (hg : g.st = .halted) (hstop : g.gstop = true)
    (h : s.engAt t e = g ∨ g.Released (s.engAt t e)) : g.Released ((s.releaseEngine t e).engAt t e) := by
  unfold State.releaseEngine
  rcases h with h | h
  · rw [h, if_pos ⟨hstop, hg⟩, State.unhalt, State.engAt_setEng, h]
    exact ⟨rfl, rfl, rfl⟩
  · rw [if_neg (by simp [h.2.2])]
    exact h

/-- What the release does to a tile, in its parts. -/
theorem State.releaseTile_eq (t : TileId) : s.releaseTile t =
    let u := each (each s engines fun u e => u.releaseEngine t e) (List.range 4) fun u q => u.setMovq t q { u.movq_ t q with gstop := false }
    u.setTile t { u.tileAt t with marker := false } := rfl

theorem State.releaseTile_engAt (t u : TileId) (e : EngId) :
    (s.releaseTile t).engAt u e = (each s engines fun u e => u.releaseEngine t e).engAt u e := by
  rw [State.releaseTile_eq]
  dsimp only
  rw [State.engAt, State.setTile_eng]
  refine each_keeps (P := fun v => v.engAt u e = (each s engines fun u e => u.releaseEngine t e).engAt u e) (fun _ _ _ hv => ?_) rfl
  exact hv

theorem State.releaseTile_releases (t : TileId) (e : EngId) (g : Eng) (hg : g.st = .halted) (hstop : g.gstop = true)
    (h : s.engAt t e = g ∨ g.Released (s.engAt t e)) : g.Released ((s.releaseTile t).engAt t e) := by
  rw [State.releaseTile_engAt]
  exact each_once (I := fun v => v.engAt t e = g ∨ g.Released (v.engAt t e)) (P := fun v => g.Released (v.engAt t e)) (by decide) (mem_engines e)
    (fun v hv => v.releaseEngine_releases t e g hg hstop hv) (fun v f hf hv => by rwa [v.releaseEngine_other t t (by simp [hf.symm])])
    (fun v f hf hv => by rwa [v.releaseEngine_other t t (by simp [hf.symm])]) h

theorem State.releaseTile_other {t u : TileId} (h : u ≠ t) (e : EngId) : (s.releaseTile t).engAt u e = s.engAt u e := by
  rw [State.releaseTile_engAt]
  exact each_keeps (P := fun v => v.engAt u e = s.engAt u e) (fun v f _ hv => (v.releaseEngine_other t u (by simp [h])).trans hv) rfl

theorem State.releaseTile_marker (t u : TileId) (h : t = u ∨ (s.tileAt u).marker = false) : ((s.releaseTile t).tileAt u).marker = false := by
  rw [State.releaseTile_eq]
  dsimp only
  by_cases hu : u = t
  · rw [hu, State.tileAt_setTile]
  · rw [State.tileAt_setTile_other _ _ hu]
    refine each_keeps (P := fun v => (v.tileAt u).marker = false) (fun _ _ _ hv => ?_) ?_
    · exact hv
    · refine each_keeps (P := fun v => (v.tileAt u).marker = false) (fun v f _ hv => ?_) (h.resolve_left (Ne.symm hu))
      rw [State.tileAt, v.releaseEngine_tile]
      exact hv

theorem each_nil {β : Type} (f : State → β → State) : each s [] f = s := rfl

/-- The release of cores and ports leaves the tiles and their engines as the release of the tiles left them. -/
theorem State.gsRelease_tiles (hst : s.gs.st = .stopped) (hheld : s.gs.held = []) :
    s.gsRelease.tile = (each s s.scopeTiles fun u x => u.releaseTile x).tile ∧ s.gsRelease.eng = (each s s.scopeTiles fun u x => u.releaseTile x).eng
      ∧ s.gsRelease.gs.st = .running := by
  unfold State.gsRelease
  rw [if_neg (not_not.2 hst), hheld]
  generalize each s s.scopeTiles (fun u x => u.releaseTile x) = a
  dsimp only
  have hcores : ∀ l : List ColId, (each a l fun u c => u.releaseHalt (coreOfCol c)).tile = a.tile ∧ (each a l fun u c => u.releaseHalt (coreOfCol c)).eng = a.eng :=
    fun l => each_keeps (P := fun u => u.tile = a.tile ∧ u.eng = a.eng) (fun u c _ hu => by
      unfold State.releaseHalt
      dsimp only
      split
      · exact hu
      · exact hu) ⟨rfl, rfl⟩
  obtain ⟨htile, heng⟩ := hcores a.scopeCols
  generalize each a a.scopeCols (fun u c => u.releaseHalt (coreOfCol c)) = b at htile heng
  rw [← htile, ← heng]
  have hports : ∀ f : State → PortId → State, (∀ u p, (f u p).tile = u.tile ∧ (f u p).eng = u.eng) →
      (each b allPorts f).tile = b.tile ∧ (each b allPorts f).eng = b.eng := fun f hf =>
    each_keeps (P := fun u => u.tile = b.tile ∧ u.eng = b.eng) (fun u p _ hu => ⟨(hf u p).1.trans hu.1, (hf u p).2.trans hu.2⟩) ⟨rfl, rfl⟩
  simp only [each_nil]
  rw [← and_assoc]
  refine ⟨hports _ ?_, trivial⟩
  exact fun u p => ⟨rfl, rfl⟩

/-- R464: with no request held back, a release ends the stop, takes the marker back and lets the halted engines of the scope go on. -/
theorem State.gsRelease_releases (t : TileId) (e : EngId) (hst : s.gs.st = .stopped) (hheld : s.gs.held = []) (ht : t ∈ s.scopeTiles) :
    s.gsRelease.gs.st = .running ∧ (s.gsRelease.tileAt t).marker = false
      ∧ ((s.engAt t e).st = .halted → (s.engAt t e).gstop = true → (s.engAt t e).Released (s.gsRelease.engAt t e)) := by
  obtain ⟨htile, heng, hrunning⟩ := s.gsRelease_tiles hst hheld
  refine ⟨hrunning, ?_, fun hhalted hstop => ?_⟩
  · rw [State.tileAt, htile]
    exact each_at (P := fun u => (u.tileAt t).marker = false) ht (fun u => u.releaseTile_marker t t (.inl rfl))
      (fun u x _ _ hu => u.releaseTile_marker x t (.inr hu)) s
  · have hengines : s.gsRelease.engAt t e = (each s s.scopeTiles fun u x => u.releaseTile x).engAt t e := by rw [State.engAt, heng, State.engAt]
    rw [hengines]
    have hown : ∀ u : State, (u.engAt t e = s.engAt t e ∨ (s.engAt t e).Released (u.engAt t e)) → (s.engAt t e).Released ((u.releaseTile t).engAt t e) :=
      fun u hu => u.releaseTile_releases t e _ hhalted hstop hu
    refine each_settles (I := fun u => u.engAt t e = s.engAt t e ∨ (s.engAt t e).Released (u.engAt t e)) (P := fun u => (s.engAt t e).Released (u.engAt t e)) ht
      hown (fun u x hu => ?_) (fun u x hu => ?_) (.inl rfl) <;> by_cases hx : t = x
    · subst hx
      exact .inr (hown u hu)
    · rwa [u.releaseTile_other hx]
    · subst hx
      exact hown u (.inr hu)
    · rwa [u.releaseTile_other hx]

end

/-- The part that a write of DBG_GSTOP names. -/
theorem extract_toNat_fld (w : W32) : (w.extractLsb' 4 6).toNat = fld w 9 4 := by
  unfold fld bits
  simp [BitVec.extractLsb'_toNat]

/-- R459: a write of DBG_GSTOP while no stop is in progress begins one in the scope that it names. -/
theorem State.stopGo_begins (s : State) (r : Req) (w : W32) (hst : s.gs.st = .running) :
    (s.stopGo r w).gs.st = .stopping ∧ (s.stopGo r w).gs.device = bit w 2 ∧ (s.stopGo r w).gs.part.toNat = fld w 9 4 := by
  unfold State.stopGo
  dsimp only
  rw [s.beginStop_gs _ _ _ _ _ hst]
  exact ⟨rfl, rfl, extract_toNat_fld w⟩

end Sys2Proof.Machine

open Sys2Proof Sys2Proof.Machine

/-- Settles O47: a stop that begins writes its record once, the marker and the release walk the engines of a tile, and each walk settles every engine
where it comes to it. -/
theorem globalStops : Obligations.GlobalStops := by
  intro s r t c e w p
  refine ⟨fun hreq hr => ?_, fun hreset hruns => ⟨_, rfl, s.triggerHit_halted c hreset hruns⟩, fun hst => ⟨fun hscope hfirst => ?_, fun hdevice hon hactive =>
    ⟨_, rfl, s.sendStop_sends p hst hdevice hon hactive⟩, congrArg Host.Outcome.next (if_pos hst), fun hsettled hclosed hno => ?_⟩⟩
  · have hvia : ∀ f : State → State, Host.Outcome.next (s.via r dbgBase (s.dbgReq r && decide (r ≠ .chitin)) f) = (.next (f s) : Ans) := fun f =>
      congrArg Host.Outcome.next (if_pos (by simp [hreq, hr]))
    refine ⟨fun hst => ⟨_, hvia _, s.stopGo_begins r w hst⟩, fun hst => (hvia _).trans (congrArg Host.Outcome.next (if_pos hst)), fun hst hheld ht => ?_⟩
    obtain ⟨hrunning, hmarker, hreleased⟩ := s.gsRelease_releases t e hst hheld ht
    exact ⟨_, hvia _, hrunning, hmarker, fun hhalted hstop => ⟨(hreleased hhalted hstop).1, (hreleased hhalted hstop).2.1⟩⟩
  · obtain ⟨hmarker, hmarked⟩ := s.markerAt_reaches t e hscope hfirst hst
    exact ⟨_, rfl, hmarker, hmarked⟩
  · exact congrArg Host.Outcome.next ((if_neg (by simp [hst, hsettled, hclosed])).trans (if_pos (by simp [hno])))

end

/-! ## Windows, light counters, trace packets and beacons (R443 to R454, R468, R469) -/

section
namespace Sys2Proof.Machine

/-! ### The counters of a window -/

section
variable (s : State) (t : TileId)

/-- R443: word `i` of the tile's counters stands in the latch at `off`, and no word before the latch has changed. -/
def State.Latched (u s : State) (t : TileId) (off i : Nat) : Prop :=
  u.reg (obsBase t + off + 4 * i) = s.reg (obsBase t + 4 * i) ∧ ∀ a < obsBase t + off, u.reg a = s.reg a

/-- R443: the tile's counters are copied whole, and stand as before below the copy. -/
theorem State.latchCounters_latched (off : Nat) (hoff : 64 ≤ off) {i : Nat} (hi : i < 16) : (s.latchCounters t off).Latched s t off i := by
  have hstep : ∀ (u : State) (n : Nat), (∀ a < obsBase t + off, u.reg a = s.reg a) →
      ∀ a < obsBase t + off, ((u.setReg (obsBase t + 8 * n + off) (u.reg (obsBase t + 8 * n))).setReg (obsBase t + 8 * n + off + 4)
        (u.reg (obsBase t + 8 * n + 4))).reg a = s.reg a := fun u n hu a ha => by
    rw [State.reg_setReg_other _ _ (by omega), State.reg_setReg_other _ _ (by omega), hu a ha]
  have hown : ∀ u : State, (∀ a < obsBase t + off, u.reg a = s.reg a) →
      ((u.setReg (obsBase t + 8 * (i / 2) + off) (u.reg (obsBase t + 8 * (i / 2)))).setReg (obsBase t + 8 * (i / 2) + off + 4)
        (u.reg (obsBase t + 8 * (i / 2) + 4))).Latched s t off i := fun u hu => by
    refine ⟨?_, hstep u _ hu⟩
    rcases Nat.mod_two_eq_zero_or_one i with hpar | hpar
    · rw [show obsBase t + off + 4 * i = obsBase t + 8 * (i / 2) + off by omega, State.reg_setReg_other _ _ (by omega), State.reg_setReg, hu _ (by omega)]
      congr 1
      omega
    · rw [show obsBase t + off + 4 * i = obsBase t + 8 * (i / 2) + off + 4 by omega, State.reg_setReg, hu _ (by omega)]
      congr 1
      omega
  unfold State.latchCounters
  refine each_settles (I := fun u => ∀ a < obsBase t + off, u.reg a = s.reg a) (P := fun u => u.Latched s t off i)
    (List.mem_range.2 (by omega : i / 2 < 8)) hown hstep (fun u n hu => ?_) fun _ _ => rfl
  obtain ⟨hword, hbelow⟩ := hu
  by_cases hn : n = i / 2
  · subst hn
    exact hown u hbelow
  · refine ⟨?_, hstep u n hbelow⟩
    rw [State.reg_setReg_other _ _ (by omega), State.reg_setReg_other _ _ (by omega), hword]

theorem State.setTile_reg (v : Tile) (a : Nat) : (s.setTile t v).reg a = s.reg a := rfl

theorem State.windowEnd_latches {i : Nat} (hi : i < 16) :
    (s.windowEnd t).reg (obsBase t + 0x80 + 4 * i) = s.reg (obsBase t + 4 * i) ∧ ((s.windowEnd t).tileAt t).inwin = false := by
  unfold State.windowEnd
  dsimp only
  rw [State.setTile_reg, State.tileAt_setTile]
  exact ⟨(s.latchCounters_latched t 0x80 (by decide) hi).1, rfl⟩

/-- R443: what else a start event resets stands above the counters and their first copy. -/
theorem State.clearStats_reg {a : Nat} (ha : a < obsBase t + 0xC0) : (s.clearStats t).reg a = s.reg a := by
  unfold State.clearStats
  refine each_reg_mem _ _ (fun v o ho => State.reg_setReg_other _ _ ?_) _
  have : 0xC0 ≤ o := by
    revert o
    decide
  omega

/-- R443: the counters start from 0, and their copy stays in the latch. -/
theorem State.windowStart_latches {i : Nat} (hi : i < 16) :
    (s.windowStart t).reg (obsBase t + 4 * i) = 0 ∧ (s.windowStart t).reg (obsBase t + 0x40 + 4 * i) = s.reg (obsBase t + 4 * i)
      ∧ ((s.windowStart t).tileAt t).inwin = true := by
  obtain ⟨hlatched, -⟩ := s.latchCounters_latched t 0x40 (by decide) hi
  unfold State.windowStart
  dsimp only
  generalize s.latchCounters t 0x40 = u at hlatched
  rw [State.setTile_reg, State.setTile_reg, State.tileAt_setTile, State.clearStats_reg _ _ (by omega), State.clearStats_reg _ _ (by omega)]
  refine ⟨?_, ?_, rfl⟩
  · refine each_at (P := fun u => u.reg (obsBase t + 4 * i) = 0) (List.mem_range.2 hi) (fun u => State.reg_setReg ..) (fun u n _ hn hu => ?_) _
    rw [State.reg_setReg_other _ _ (by omega), hu]
  · refine (each_reg_mem _ _ (fun v n hn => State.reg_setReg_other _ _ ?_) _).trans hlatched
    have := List.mem_range.1 hn
    omega

/-! ### Light counters -/

/-- The two words of a number are the number. -/
theorem ofNat_words (n : Nat) : BitVec.ofNat 32 (n >>> 32) ++ BitVec.ofNat 32 n = BitVec.ofNat 64 n := by
  refine BitVec.eq_of_getLsbD_eq fun i hi => ?_
  rw [BitVec.getLsbD_append]
  simp only [BitVec.getLsbD_ofNat, Nat.testBit_shiftRight]
  by_cases h : i < 32
  · simp [h, hi]
  · have hhigh : i - 32 < 32 := by omega
    have hsum : 32 + (i - 32) = i := by omega
    simp [h, hi, hhigh, hsum]

/-- R445: a 64-bit counter counts. -/
theorem State.reg64_add64 (a n : Nat) : (s.add64 a n).reg64 a (a + 4) = s.reg64 a (a + 4) + BitVec.ofNat 64 n := by
  have hwords : (s.add64 a n).reg64 a (a + 4) = BitVec.ofNat 64 ((s.reg64 a (a + 4)).toNat + n) := by
    rw [← ofNat_words]
    unfold State.add64
    generalize (s.reg64 a (a + 4)).toNat + n = v
    unfold State.reg64
    rw [State.reg_setReg, State.reg_setReg_other _ _ (by omega), State.reg_setReg]
  rw [hwords, BitVec.ofNat_add, BitVec.ofNat_toNat, BitVec.setWidth_eq]

theorem State.add64_reg_other {a b : Nat} (n : Nat) (ha : b ≠ a) (ha4 : b ≠ a + 4) : (s.add64 a n).reg b = s.reg b := by
  unfold State.add64
  dsimp only
  rw [State.reg_setReg_other _ _ ha4, State.reg_setReg_other _ _ ha]

/-- The partitions' counters lie beside the device's. -/
theorem State.lightP_reg (p : Option PartId) (n k : Nat) {a : Nat} (ha : a < 0x06000000) : (s.lightP p n k).reg a = s.reg a := by
  cases p with
  | none => rfl
  | some p =>
    have hbase : 0x06000000 ≤ partBase p := by
      unfold partBase
      omega
    exact s.add64_reg_other k (by omega) (by omega)

/-- R445: a sample adds its energy to the device's counter. -/
theorem State.lightSample_energy (mJ : Nat) :
    (s.lightSample mJ).reg64 (dbgBase + 48) (dbgBase + 52) = s.reg64 (dbgBase + 48) (dbgBase + 52) + BitVec.ofNat 64 mJ := by
  have hdbg : dbgBase = 0x00200000 := rfl
  have hkept : ∀ a, a = dbgBase + 48 ∨ a = dbgBase + 52 → ∀ (u : State) (l : List PartId) (x y z : PartId → Nat) (i j k : Nat), u.reg a = s.reg a →
      ((((each u l fun u p => ((u.lightP (some p) 0 (x p)).lightP (some p) 1 (y p)).lightP (some p) 2 (z p)).add64 dbgBase i).add64 (dbgBase + 8) j).add64
        (dbgBase + 16) k).reg a = s.reg a := fun a ha u l x y z i j k hu => by
    rw [State.add64_reg_other _ _ (by omega) (by omega), State.add64_reg_other _ _ (by omega) (by omega),
      State.add64_reg_other _ _ (by omega) (by omega)]
    refine (each_reg _ _ (fun v p => ?_) u).trans hu
    rw [State.lightP_reg _ _ _ _ (by omega), State.lightP_reg _ _ _ _ (by omega), State.lightP_reg _ _ _ _ (by omega)]
  unfold State.lightSample
  dsimp only
  rw [show dbgBase + 52 = dbgBase + 48 + 4 from rfl, State.reg64_add64]
  unfold State.reg64
  rw [hkept _ (.inl rfl) s _ _ _ _ _ _ _ rfl, hkept _ (.inr rfl) s _ _ _ _ _ _ _ rfl]

/-! ### The trace ring -/

/-- R452: a sink with nothing lost to tell writes its oldest record, or loses it to a full ring. -/
theorem State.ringWrite_oldest (p : PartId) {x : TraceRec} {l : List TraceRec}
    (hserves : ∀ d ∈ (s.bringTrace p).ringDom p, (s.bringTrace p).serves d = true) (hnone : ((s.bringTrace p).partAt p).trLostPend = 0)
    (hsink : ((s.bringTrace p).partAt p).sink = x :: l) :
    s.ringWrite p = if (s.bringTrace p).trFull p then (s.bringTrace p).setPart p { (s.bringTrace p).partAt p with
        sink := l, trLostPend := ((s.bringTrace p).partAt p).trLostPend + 1, trLost := BitVec.ofNat 16 (satAdd 0xFFFF ((s.bringTrace p).partAt p).trLost.toNat 1) }
      else ((s.bringTrace p).setPart p { (s.bringTrace p).partAt p with sink := l }).ringPut p x := by
  unfold State.ringWrite
  generalize s.bringTrace p = u at *
  have hawake : ¬((u.ringDom p).any fun d => !u.serves d) = true := by
    cases hd : u.ringDom p with
    | none => simp
    | some d => simp [hserves d hd]
  dsimp only
  rw [if_neg hawake, if_neg (by simp [hnone]), hsink]

/-! ### Beacons -/

theorem State.sendSlots_regs (p n l) : (s.sendSlots p n l).regs = s.regs := by
  induction n generalizing s l with
  | zero => rfl
  | succ n ih =>
    unfold State.sendSlots
    split
    · rfl
    · rw [ih]
      rfl

theorem State.pump_regs (p k) : (s.pump p k).regs = s.regs := by
  induction k generalizing s with
  | zero => rfl
  | succ k ih =>
    unfold State.pump
    dsimp only
    split
    · rfl
    next i vc m _ =>
    generalize ite (m.ty = .time) _ m = m
    split
    · rfl
    · rw [ih, State.setPort_regs, State.sendSlots_regs, State.setPort_regs]

theorem State.sendTime_reg (p : PortId) (a : Nat) : (s.sendTime p).reg a = s.reg a := by
  unfold State.sendTime
  dsimp only
  split
  · rfl
  · rw [State.reg, State.emit, State.pump_regs]
    rfl

/-- A tile's records touch no register but the count of those lost. -/
theorem State.trace_reg (ty unit place info : Nat) {a : Nat} (ha : a < 0x01000000) : (s.trace t ty unit place info).reg a = s.reg a := by
  have hbase : 0x01000000 ≤ obsBase t := by
    unfold obsBase colBase
    omega
  unfold State.trace
  dsimp only
  split
  · rfl
  · split
    · rfl
    · split
      · rfl
      · exact State.reg_setReg_other _ _ (by omega)

/-- R454: a beacon is counted. -/
theorem State.firefly_counts (hon : fld (s.reg (dbgBase + 0x140)) 23 0 ≠ 0) :
    s.firefly.reg (dbgBase + 0x144) = s.reg (dbgBase + 0x144) + 1 := by
  have hdbg : dbgBase = 0x00200000 := rfl
  unfold State.firefly
  dsimp only
  rw [if_neg hon]
  generalize hcounted : s.setReg (dbgBase + 0x144) (s.reg (dbgBase + 0x144) + 1) = u
  have hu : u.reg (dbgBase + 0x144) = s.reg (dbgBase + 0x144) + 1 := hcounted ▸ State.reg_setReg ..
  have htraced : ∀ n : Nat, (each u u.loadedParts fun u p => if u.traceLevel p = 0 then u else each u (u.tilesIn p) fun u t =>
      if (u.domAt (domTile t)).st.toNat ≤ 2 then u.trace t 0x08 8 0 n else u).reg (dbgBase + 0x144) = s.reg (dbgBase + 0x144) + 1 := fun n => by
    refine (each_reg _ _ (fun v p => ?_) u).trans hu
    split
    · rfl
    · refine each_reg _ _ (fun x t => ?_) v
      split
      · exact x.trace_reg t _ _ _ _ (by omega)
      · rfl
  split
  · exact (each_reg _ _ (fun v p => v.sendTime_reg p _) _).trans (htraced _)
  · exact htraced _

end

end Sys2Proof.Machine

open Sys2Proof Sys2Proof.Machine

/-- Settles O46: a window's latch is written word by word above the counters it copies; every other write is one case of its operation. -/
theorem traceAndWindows : Obligations.TraceAndWindows := by
  intro s r t p w mJ i
  refine ⟨fun hreq hi => ⟨⟨_, congrArg Host.Outcome.next (if_pos hreq), s.windowStart_latches t hi⟩,
    ⟨_, congrArg Host.Outcome.next (if_pos hreq), s.windowEnd_latches t hi⟩⟩, ⟨_, rfl, s.lightSample_energy mJ⟩, fun hsome hkept hpart => ?_,
    fun g l k hload => ?_, fun x l => fun hserves hnone hsink => ⟨fun hroom => ?_, fun hfull => ?_⟩,
    fun hreq => ⟨s.next_onPart _ hreq, s.next_onPart _ hreq⟩, fun hreq => congrArg Host.Outcome.next (if_pos hreq), fun hon => ⟨_, rfl, s.firefly_counts hon⟩⟩
  · refine congrArg Host.Outcome.next ?_
    unfold State.tracePacket
    rw [hpart]
    dsimp only
    split
    next hempty => exact absurd hempty hsome
    next hnone => exact absurd hnone (Option.some_ne_none p)
    next hsame _ =>
      obtain rfl := Option.some.inj hsame
      rw [if_pos hkept]
  · unfold State.canalArrive
    rw [hload]
    dsimp only
    rw [State.partAt_setPart]
  · refine congrArg Host.Outcome.next ?_
    rw [s.ringWrite_oldest p hserves hnone hsink, if_neg (by simp [hroom])]
  · refine congrArg Host.Outcome.next ?_
    rw [s.ringWrite_oldest p hserves hnone hsink, if_pos hfull]
    rfl

end

/-! ## Power domains (R401 to R407, R414, R415) -/

section
namespace Sys2Proof.Machine

/-! ### What the passing of time leaves of a quiet domain -/

/-- The registers that say when a quiet domain closes: PWR_GOVLIM and a colony's limit and wake time. -/
def IdleAddr (a : Nat) : Prop :=
  (pwrBase ≤ a ∧ a < pwrBase + 0x1000) ∨ (0x01000000 ≤ a ∧ a < 0x05000000 ∧ 0x1C000 ≤ a % 0x40000 ∧ a % 0x40000 < 0x1E000)

theorem not_idleAddr_obs (t : TileId) {o : Nat} (ho : o < 0x100) : ¬ IdleAddr (obsBase t + o) := by
  have hindex : indexOf t < 16 := by unfold indexOf; omega
  unfold IdleAddr pwrBase obsBase colBase
  omega

theorem not_idleAddr_tile (t : TileId) {o : Nat} (ho : o < 0x2000) : ¬ IdleAddr (tileBase t + o) := by
  have hindex : indexOf t < 16 := by unfold indexOf; omega
  unfold IdleAddr pwrBase tileBase colBase
  omega

theorem not_idleAddr_int (c : CoreId) {o : Nat} (ho : o < 0x4000) : ¬ IdleAddr (intBase c + o) := by
  have hlow : (BitVec.ofNat 8 c.val).toNat < 256 := (BitVec.ofNat 8 c.val).isLt
  have hcore := c.isLt
  unfold IdleAddr pwrBase intBase colBase
  split <;> omega

theorem not_idleAddr_high {a : Nat} (h : 0x05000000 ≤ a) : ¬ IdleAddr a := by
  unfold IdleAddr pwrBase
  omega

theorem not_idleAddr_dbg {o : Nat} (ho : o < 0x1000) : ¬ IdleAddr (dbgBase + o) := by
  unfold IdleAddr pwrBase dbgBase
  omega

/-- A register, and since when a domain has been quiet. -/
def State.idleSide (s : State) (a d : Nat) : W32 × W64 := (s.reg a, (s.domAt d).quietSince)

section
variable {a d : Nat}

theorem State.idleSide_of (s : State) {u : State} (hregs : u.regs = s.regs) (hdom : u.dom = s.dom) : u.idleSide a d = s.idleSide a d := by
  simp only [State.idleSide, State.reg, State.domAt, hregs, hdom]

theorem each_idleSide {β : Type} (l : List β) (f : State → β → State) (hf : ∀ s x, (f s x).idleSide a d = s.idleSide a d) (s : State) :
    (each s l f).idleSide a d = s.idleSide a d :=
  each_keeps (P := fun u => u.idleSide a d = s.idleSide a d) (fun u x _ hu => (hf u x).trans hu) rfl

section
variable (s : State)

@[simp] theorem State.setTile_idleSide (t v) : (s.setTile t v).idleSide a d = s.idleSide a d := rfl
@[simp] theorem State.setEng_idleSide (t e v) : (s.setEng t e v).idleSide a d = s.idleSide a d := rfl
@[simp] theorem State.setMovq_idleSide (t q v) : (s.setMovq t q v).idleSide a d = s.idleSide a d := rfl
@[simp] theorem State.setPart_idleSide (p v) : (s.setPart p v).idleSide a d = s.idleSide a d := rfl
@[simp] theorem State.setCtl_idleSide (c v) : (s.setCtl c v).idleSide a d = s.idleSide a d := rfl
@[simp] theorem State.setRset_idleSide (t k v) : (s.setRset t k v).idleSide a d = s.idleSide a d := rfl
@[simp] theorem State.inject_idleSide (x) : (s.inject x).idleSide a d = s.idleSide a d := rfl
@[simp] theorem State.drawn_idleSide : s.drawn.idleSide a d = s.idleSide a d := rfl
@[simp] theorem State.markSpad_idleSide (t l b) : (s.markSpad t l b).idleSide a d = s.idleSide a d := by cases b <;> rfl
@[simp] theorem State.setCopy_idleSide (q n) : (s.setCopy q n).idleSide a d = s.idleSide a d := rfl
@[simp] theorem State.refill_idleSide (b k) : (s.refill b k).idleSide a d = s.idleSide a d := rfl

theorem State.setReg_idleSide (ha : IdleAddr a) {b : Nat} (w : W32) (hb : ¬ IdleAddr b) : (s.setReg b w).idleSide a d = s.idleSide a d :=
  congrArg (Prod.mk · _) (s.reg_setReg_other w fun h => hb (h ▸ ha))

theorem State.canal_idleSide (c : Canal) : ({ s with canal := c } : State).idleSide a d = s.idleSide a d := rfl

@[simp] theorem State.mapFlight_idleSide (t q st pos f) : (s.mapFlight t q st pos f).idleSide a d = s.idleSide a d := by
  grind [State.mapFlight, State.setMovq_idleSide]

@[simp] theorem State.weirHurt_idleSide (t q bad) : (s.weirHurt t q bad).idleSide a d = s.idleSide a d := by
  grind [State.weirHurt, State.setTile_idleSide]

@[simp] theorem State.canalArrive_idleSide (p) : (s.canalArrive p).idleSide a d = s.idleSide a d := by
  grind [State.canalArrive, State.mapFlight_idleSide, State.weirHurt_idleSide, State.setTile_idleSide, State.setPart_idleSide, State.inject_idleSide]

@[simp] theorem State.beatOut_idleSide (b) : (s.beatOut b).idleSide a d = s.idleSide a d := by
  grind [State.beatOut, State.canalArrive_idleSide, State.canal_idleSide]

@[simp] theorem State.fillBuf_idleSide (e) : (s.fillBuf e).idleSide a d = s.idleSide a d := by
  grind [State.fillBuf, State.setRset_idleSide]

/-- A clock that runs leaves since when its domain has been quiet. -/
@[simp] theorem State.runClock_idleSide (e k) : (s.runClock e k).idleSide a d = s.idleSide a d := by
  have hset : ∀ v : Dom, v.quietSince = (s.domAt e).quietSince → (s.setDom e v).idleSide a d = s.idleSide a d := fun v hv => by
    refine congrArg (Prod.mk _) ?_
    by_cases h : d = e
    · rw [h, State.domAt_setDom, hv]
    · rw [s.domAt_setDom_other v h]
  grind [State.runClock]

end

section
variable (ha : IdleAddr a)
include ha

theorem State.incReg_idleSide (s : State) {b : Nat} (hi lo n : Nat) (hb : ¬ IdleAddr b) : (s.incReg b hi lo n).idleSide a d = s.idleSide a d :=
  s.setReg_idleSide ha _ hb

theorem State.add64_idleSide (s : State) {b : Nat} (n : Nat) (hb : ¬ IdleAddr b) (hb' : ¬ IdleAddr (b + 4)) : (s.add64 b n).idleSide a d = s.idleSide a d :=
  (State.setReg_idleSide _ ha _ hb').trans (s.setReg_idleSide ha _ hb)

theorem State.lightP_idleSide (s : State) (p : Option PartId) (n k : Nat) : (s.lightP p n k).idleSide a d = s.idleSide a d := by
  cases p with
  | none => rfl
  | some p => exact s.add64_idleSide ha k (not_idleAddr_high (by unfold partBase; omega)) (not_idleAddr_high (by unfold partBase; omega))

theorem State.light_idleSide (s : State) (p : Option PartId) (n k : Nat) (hn : n < 8) : (s.light p n k).idleSide a d = s.idleSide a d := by
  unfold State.light
  refine (State.add64_idleSide ha _ k (not_idleAddr_dbg (by omega)) (not_idleAddr_dbg (by omega) : ¬ IdleAddr (dbgBase + (8 * n + 4)))).trans ?_
  exact s.lightP_idleSide ha p n k

theorem State.arriveErr_idleSide (s : State) (c : CoreId) (r : ErrRec) : (s.arriveErr c r).idleSide a d = s.idleSide a d := by
  have hlost : ∀ w, ((s.setReg (intBase c + 0x400) w).incReg (intBase c + 0x400) 31 16 1).idleSide a d = s.idleSide a d := fun w =>
    (State.incReg_idleSide ha _ 31 16 1 (not_idleAddr_int c (by norm_num))).trans (s.setReg_idleSide ha w (not_idleAddr_int c (by norm_num)))
  grind [State.arriveErr, State.setCtl_idleSide]

theorem State.countErr_idleSide (s : State) (r : ErrRec) : (s.countErr r).idleSide a d = s.idleSide a d := by
  unfold State.countErr
  split
  · exact (State.light_idleSide ha _ _ _ _ (by decide)).trans (each_idleSide _ _ (fun u p => u.lightP_idleSide ha _ _ _) s)
  · refine s.light_idleSide ha _ _ _ ?_
    split <;> decide

/-- R366: a DEFERRED error has no automatic effect. -/
theorem State.errAt_idleSide (s : State) (t : TileId) {r : ErrRec} (hsev : r.sev.toNat = 2) : (s.errAt t r).idleSide a d = s.idleSide a d := by
  unfold State.errAt State.escalate
  rw [hsev]
  exact (State.countErr_idleSide ha _ r).trans (s.arriveErr_idleSide ha _ r)

theorem State.linkCount_idleSide (s : State) (r : TileId) (u : ErrUnit) (e : LinkErr) : (s.linkCount r u e).idleSide a d = s.idleSide a d := by
  have hspine : ∀ hi lo n, (s.incReg (spineBase (dieOf r) + 8) hi lo n).idleSide a d = s.idleSide a d := fun hi lo n =>
    s.incReg_idleSide ha hi lo n (not_idleAddr_high (by unfold spineBase; omega))
  cases e with
  | none => rfl
  | corrected => exact hspine ..
  | poisoned => exact (State.errAt_idleSide ha _ r rfl).trans (hspine ..)

theorem State.beatMove_idleSide (s : State) (r o k i e) : (s.beatMove r o k i e).idleSide a d = s.idleSide a d := by
  have hlink := fun u : State => u.linkCount_idleSide (d := d) ha
  grind [State.beatMove, State.beatOut_idleSide, State.canal_idleSide]

theorem State.canalCycle_idleSide (s : State) (noisy : Bool) : (s.canalCycle noisy).idleSide a d = s.idleSide a d := by
  have hmoves := each_idleSide s.canalMoves.zipIdx
    (fun u y => u.beatMove y.1.1 y.1.2.1 y.1.2.2.1 y.1.2.2.2 (if noisy then u.linkErr y.2 else .none)) (fun u y => u.beatMove_idleSide (d := d) ha ..) s
  have hwaits := each_idleSide (s.bridgeWaits s.canal.busy s.canalMoves) (fun u e => u.incReg (spineBase e + 4) 15 0 1)
    (fun u e => u.incReg_idleSide (d := d) ha _ _ _ (not_idleAddr_high (by unfold spineBase; omega)))
  unfold State.canalCycle
  dsimp only
  by_cases hquiet : s.canal.bufs.isEmpty ∧ s.canal.front.isEmpty
  · rw [if_pos hquiet]
  · rw [if_neg hquiet]
    cases noisy <;> exact (hwaits _).trans hmoves

theorem State.canalRun_idleSide (n : Nat) (s : State) : (State.canalRun n s).idleSide a d = s.idleSide a d := by
  induction n generalizing s with
  | zero => rfl
  | succ n ih =>
    unfold State.canalRun
    split
    · rfl
    · exact (ih _).trans (s.canalCycle_idleSide ha true)

theorem State.countWait_idleSide (s : State) (i k : Nat) : (s.countWait i k).idleSide a d = s.idleSide a d := by
  have hobs : ∀ (u : State) (t : TileId) (w : W32) (o : Nat), o < 0x100 → (u.setReg (obsBase t + o) w).idleSide a d = u.idleSide a d := fun u t w o ho =>
    u.setReg_idleSide ha w (not_idleAddr_obs t ho)
  unfold State.countWait
  dsimp only
  unfold State.tcnt
  refine (hobs _ _ _ (8 * 7 + 4) (by norm_num)).trans ((hobs _ _ _ (8 * 7) (by norm_num)).trans ?_)
  split <;> rfl

theorem State.landWait_idleSide (s : State) (u : TileId) (k : Nat) : (s.landWait u k).idleSide a d = s.idleSide a d := by
  unfold State.landWait
  split
  · rfl
  · exact s.incReg_idleSide ha _ _ _ (not_idleAddr_tile u (by decide))

theorem State.furrowNoise_idleSide (s : State) (e : Nat) : (s.furrowNoise e).idleSide a d = s.idleSide a d := by
  have hlink := fun u : State => u.linkCount_idleSide (d := d) ha
  grind [State.furrowNoise, State.markSpad_idleSide, State.setRset_idleSide]

theorem State.haloNoise_idleSide (s : State) (e : Nat) : (s.haloNoise e).idleSide a d = s.idleSide a d := by
  have hlink := fun u : State => u.linkCount_idleSide (d := d) ha
  grind [State.haloNoise, State.markSpad_idleSide]

theorem State.furrowErrs_idleSide (s : State) : s.furrowErrs.idleSide a d = s.idleSide a d := by
  have hfur := fun u : State => u.furrowNoise_idleSide (d := d) ha
  have hhalo := fun u : State => u.haloNoise_idleSide (d := d) ha
  grind [State.furrowErrs, each_idleSide, State.drawn_idleSide]

theorem State.elapse_idleSide (s : State) (k : Nat) : (s.elapse k).idleSide a d = s.idleSide a d := by
  unfold State.elapse
  refine Eq.trans (b := (each _ _ fun u q => u.setCopy q (look (fun _ => 0) u.copies q - 40 * k)).idleSide a d) rfl ?_
  refine (each_idleSide _ (fun u q => u.setCopy q (look (fun _ => 0) u.copies q - 40 * k)) (fun _ _ => rfl) _).trans ?_
  refine (each_idleSide _ _ (fun u e => u.runClock_idleSide e k) _).trans ?_
  refine (State.furrowErrs_idleSide ha _).trans ((State.canalRun_idleSide ha _ _).trans ?_)
  refine (each_idleSide _ _ (fun u t => u.landWait_idleSide ha t k) _).trans ?_
  refine (each_idleSide _ _ (fun u e => u.fillBuf_idleSide e) _).trans ?_
  refine (each_idleSide _ _ (fun u i => u.countWait_idleSide ha i k) _).trans ?_
  exact each_idleSide _ (fun u b => u.refill b k) (fun u b => u.refill_idleSide b k) s

theorem State.reach_idleSide (s : State) (x : W64) : (s.reach x).idleSide a d = s.idleSide a d := by
  unfold State.reach
  split
  · exact s.elapse_idleSide ha _
  · rfl

end

end

/-! ### A quiet domain closes or naps (R401, R402, R405) -/

theorem idleAddr_cfg (d : Fin 64) : IdleAddr (pwrBase + 0x300 + 4 * d.val) := by
  have := d.isLt
  unfold IdleAddr
  omega

theorem idleAddr_col (c : ColId) {o : Nat} (hlow : 0x1C000 ≤ o) (hhigh : o < 0x1E000) : IdleAddr (colBase c + o) := by
  have := c.isLt
  unfold IdleAddr colBase
  omega

section
variable (s : State)

theorem State.reach_reg (x : W64) {a : Nat} (ha : IdleAddr a) : (s.reach x).reg a = s.reg a := congrArg Prod.fst (s.reach_idleSide (d := 0) ha x)

theorem State.reach_quietSince (x : W64) (d : Nat) : ((s.reach x).domAt d).quietSince = (s.domAt d).quietSince :=
  congrArg Prod.snd (s.reach_idleSide (idleAddr_cfg 0) x)

theorem State.limitOf_reach (x : W64) (d : Nat) : (s.reach x).limitOf d = s.limitOf d := by
  have hreg : ∀ c, (s.reach x).regF (colBase c + 0x1C000) 1 0 = s.regF (colBase c + 0x1C000) 1 0 := fun c =>
    congrArg (fld · 1 0) (s.reach_reg x (idleAddr_col c (le_refl _) (by decide)))
  simp only [State.limitOf, hreg]

theorem State.cwakeOf_reach (x : W64) (d : Nat) : (s.reach x).cwakeOf d = s.cwakeOf d := by
  have hlow : ∀ c, (s.reach x).reg (colBase c + 0x1C004) = s.reg (colBase c + 0x1C004) := fun c => s.reach_reg x (idleAddr_col c (by decide) (by decide))
  have hhigh : ∀ c, (s.reach x).reg (colBase c + 0x1C008) = s.reg (colBase c + 0x1C008) := fun c => s.reach_reg x (idleAddr_col c (by decide) (by decide))
  simp only [State.cwakeOf, State.reg64, hlow, hhigh]

section
variable (d : Fin 64) (us : Nat) (hquiet : (s.domAt (1 + d.val)).quiet = true) (hphase : (s.domAt (1 + d.val)).phase = 0)
  (hwake : (s.domAt (1 + d.val)).wakeReq = false) (hst : (s.domAt (1 + d.val)).st = 1) (hall : s.domQuiet (1 + d.val) = true)
  (hnone : s.cwakeOf (1 + d.val) = none)
include hquiet hphase hwake hst hall hnone

/-- R402: once the time has come, a quiet domain does what its limit and its minimum times say. -/
theorem State.idleTimeout_eq :
    let u := s.reach (BitVec.ofNat 64 ((s.domAt (1 + d.val)).quietSince.toNat + 1000 * us))
    let long := fun m => (s.domAt (1 + d.val)).quietSince.toNat + 1000 * m ≤ u.time.toNat
    s.idleTimeout (1 + d.val) us =
      if 2 ≤ s.limitOf (1 + d.val) ∧ long (fld (s.reg (pwrBase + 0x300 + 4 * d.val)) 23 12) then u.close (1 + d.val) 3
      else if 1 ≤ s.limitOf (1 + d.val) ∧ long (fld (s.reg (pwrBase + 0x300 + 4 * d.val)) 11 0) then u.setDom (1 + d.val) { s.domAt (1 + d.val) with st := 2 }
      else u := by
  intro u long
  have hcfg : u.reg (pwrBase + 0x300 + 4 * (1 + d.val - 1)) = s.reg (pwrBase + 0x300 + 4 * d.val) := by
    rw [Nat.add_sub_cancel_left]
    exact s.reach_reg _ (idleAddr_cfg d)
  have hlong : ∀ m, (u.longQuiet (1 + d.val) m = true) = long m := fun m => by
    rw [State.longQuiet, s.cwakeOf_reach, hnone]
    dsimp only
    rw [s.reach_quietSince, decide_eq_true_eq]
  unfold State.idleTimeout
  dsimp only
  rw [if_neg (by simp [hquiet, hphase, hwake, hst, hall])]
  simp only [← hcfg, ← hlong, ← s.limitOf_reach (BitVec.ofNat 64 ((s.domAt (1 + d.val)).quietSince.toNat + 1000 * us))]
  rfl

end

/-- R401: the cores of a quiet domain wait once it enters IDLE. (log 93, DEDUCED) -/
theorem State.quietEntry_enters (d : Nat) (hst : (s.domAt d).st = 0) (hphase : (s.domAt d).phase = 0) (hgate : (s.domAt d).gate = false)
    (hquiet : s.domQuiet d = true) :
    ((s.quietEntry d).domAt d).st = 1 ∧ ((s.quietEntry d).domAt d).quiet = true
      ∧ ∀ c ∈ domCols d, (s.coreAt (coreOfCol c)).inReset = false → ((s.quietEntry d).coreAt (coreOfCol c)).wfi = true := by
  unfold State.quietEntry
  dsimp only
  rw [if_neg (by simp [hst, hphase, hgate, hquiet]), State.domAt_setDom]
  refine ⟨rfl, rfl, fun c hc hreset => ?_⟩
  have hstep : ∀ (u : State) (b : ColId), ((if (u.coreAt (coreOfCol b)).inReset then u else
      u.setCore (coreOfCol b) { u.coreAt (coreOfCol b) with wfi := true }).coreAt (coreOfCol c)) =
        if coreOfCol c = coreOfCol b ∧ (u.coreAt (coreOfCol c)).inReset = false then { u.coreAt (coreOfCol c) with wfi := true } else u.coreAt (coreOfCol c) :=
    fun u b => by
    by_cases hb : coreOfCol c = coreOfCol b
    · rw [← hb]
      cases hr : (u.coreAt (coreOfCol c)).inReset
      · rw [if_neg Bool.false_ne_true, State.coreAt_setCore, if_pos ⟨rfl, rfl⟩]
      · rw [if_pos rfl, if_neg (by simp)]
    · rw [if_neg (show ¬(coreOfCol c = coreOfCol b ∧ (u.coreAt (coreOfCol c)).inReset = false) from fun h => hb h.1)]
      split
      · rfl
      · exact u.coreAt_setCore_other _ hb
  refine (each_settles (I := fun u => (u.coreAt (coreOfCol c)).inReset = false)
    (P := fun u => (u.coreAt (coreOfCol c)).wfi = true) hc (fun u hu => ?_) (fun u b hu => ?_) (fun u b hu => ?_) hreset : _)
  · rw [hstep, if_pos ⟨rfl, hu⟩]
  · rw [hstep]
    split
    · exact hu
    · exact hu
  · rw [hstep]
    split
    · rfl
    · exact hu

/-! ### Low states and wakes (R404 to R407, R414, R415) -/

theorem State.loseTile_dom (t : TileId) : (s.loseTile t).dom = s.dom := by
  unfold State.loseTile
  rw [State.setTile_dom]

theorem State.loseTdom_dom (d : Nat) : (s.loseTdom d).dom = s.dom := by
  unfold State.loseTdom
  refine each_keeps (P := fun u => u.dom = s.dom) (fun u c _ hu => ?_) rfl
  dsimp only
  refine each_keeps (P := fun u => u.dom = s.dom) (fun v t _ hv => (v.loseTile_dom t).trans hv) ?_
  rw [State.setPackage_dom, State.setCore_dom, State.setCtl_dom]
  exact hu

theorem State.zeroSlot_dom (t : TileId) (i : Nat) : (s.zeroSlot t i).dom = s.dom := rfl

theorem State.loseCdom_dom (d : Nat) : (s.loseCdom d).dom = s.dom := by
  unfold State.loseCdom
  refine each_keeps (P := fun u => u.dom = s.dom) (fun u t _ hu => ?_) rfl
  exact each_keeps (P := fun u => u.dom = s.dom) (fun v i _ hv => (v.zeroSlot_dom t i).trans hv) hu

/-- R405, R406: a domain enters its target; a wake asked for meanwhile begins. -/
theorem State.entered_enters (d : Nat) (hphase : (s.domAt d).phase = 1) (hentering : (s.domAt d).entering = true) :
    ((s.entered d).domAt d).st = (s.domAt d).target ∧ ((s.entered d).domAt d).entering = false
      ∧ ((s.entered d).domAt d).phase = if (s.domAt d).wakeReq then 2 else 0 := by
  unfold State.entered
  dsimp only
  rw [if_neg (by simp [hphase, hentering]), State.domAt_setDom]
  have hkept : ∀ u : State, u.dom = s.dom → u.domAt d = s.domAt d := fun u hu => by rw [State.domAt, hu, State.domAt]
  have hlost : (if d ≤ 64 ∧ (s.domAt d).target = 4 then s.loseTdom d else if 65 ≤ d ∧ d ≤ 80 ∧ (s.domAt d).target = 2 then s.loseCdom d else s).domAt d
      = s.domAt d := by
    split
    · exact hkept _ (s.loseTdom_dom d)
    · split
      · exact hkept _ (s.loseCdom_dom d)
      · rfl
  rw [hlost]
  exact ⟨rfl, rfl, rfl⟩

section
variable (n : BitVec 7) (hlow : 1 ≤ n.toNat) (hhigh : n.toNat ≤ 64) (howned : s.domOwned n.toNat = true) (hruns : s.domStopped n.toNat = false)
  (hready : s.domResetting n.toNat = false)
include hlow hhigh howned hruns hready

/-- R414: a request for the wake of a tile domain is accepted and acts. -/
theorem State.powerReq_wake : s.powerReq n.toNat 0 = (s.reqResult 1).wakeUp n.toNat := by
  unfold State.powerReq State.toWake
  rw [if_neg (by simp only [howned]; simp; omega), if_neg (by simp [hruns]), if_neg (by simp [hready]), if_pos rfl, if_neg (by omega),
    if_pos (by omega)]

/-- R404, R414: a request for SLEEP of a quiet tile domain is accepted, and its gate closes. -/
theorem State.powerReq_sleep (hphase : (s.domAt n.toNat).phase = 0) (hwake : (s.domAt n.toNat).wakeReq = false) (hst : (s.domAt n.toNat).st.toNat ≤ 2)
    (hleave : s.mayLeave n.toNat 3 = true) : s.powerReq n.toNat 3 = (s.close n.toNat 3).reqResult 1 := by
  have hdeep : (s.domAt n.toNat).st ≠ 3 := fun h => by simp [h] at hst
  unfold State.powerReq State.toState
  rw [if_neg (by simp only [howned]; simp; omega), if_neg (by simp [hruns]), if_neg (by simp [hready]), if_neg (by decide)]
  dsimp only
  rw [if_pos ⟨hlow, hhigh⟩, if_neg (by decide), if_neg (by omega), if_neg (by simp [hphase, hwake, hleave]), if_neg (by decide), if_neg hdeep]

end

/-- R415: a partition's write wakes a tile domain of its own. -/
theorem State.pwake_tile (p : PartId) (w : W32) (hon : bit w 31 = true) (htile : fld w 9 8 = 0) (hown : 1 + fld w 7 0 ∈ s.tdomsOf p) :
    s.pwake p w = (s.setPart p { s.partAt p with pwakeDom := 1 + fld w 7 0 }).wakeUp (1 + fld w 7 0) := by
  have hdom : s.pwakeDom p w = some (1 + fld w 7 0) := by
    unfold State.pwakeDom
    rw [htile]
    exact if_pos (List.contains_iff_mem.2 hown)
  unfold State.pwake
  rw [if_neg (by simp [hon]), hdom]

end

end Sys2Proof.Machine

open Sys2Proof Sys2Proof.Machine

/-- Settles O52: the time that passes leaves a quiet domain's limits and its quiet time as they are, and what a low state loses leaves the domains. -/
theorem powerDomains : Obligations.PowerDomains := by
  intro s r d e z n us p w
  refine ⟨fun hst hphase hgate hquiet => ⟨_, rfl, s.quietEntry_enters _ hst hphase hgate hquiet⟩, fun hquiet hphase hwake hst hall hnone hlong => ?_,
    fun hst hphase hgate => ⟨_, rfl, ?_⟩, fun hphase hentering => ⟨fun hwake helig => ?_, fun hwake => ?_⟩,
    fun hphase hentering => ⟨_, rfl, s.entered_enters _ hphase hentering⟩, fun hwakes hwake hphase hst => ?_, fun hphase hst => ?_, fun v hv => ?_,
    fun hreq hlow hhigh howned hruns hready => ⟨?_, fun hphase hwake hst hleave => ?_⟩, fun hreq hon htile hown => ?_⟩
  · have hdoes := s.idleTimeout_eq d us hquiet hphase hwake hst hall hnone
    have hafter : ∀ m, m ≤ us → (s.domAt (1 + d.val)).quietSince.toNat + 1000 * m
        ≤ (s.reach (BitVec.ofNat 64 ((s.domAt (1 + d.val)).quietSince.toNat + 1000 * us))).time.toNat := fun m hm => by omega
    refine ⟨fun hlimit hmin => ⟨_, rfl, ?_⟩, fun hlimit hmin => ⟨_, rfl, ?_⟩⟩
    · rw [hdoes, if_pos ⟨by omega, hafter _ hmin⟩, State.close, State.domAt_setDom]
      exact ⟨rfl, rfl, rfl⟩
    · rw [hdoes, if_neg (fun h => absurd h.1 (by omega)), if_pos ⟨by omega, hafter _ hmin⟩, State.domAt_setDom]
  · unfold State.cisIdle
    dsimp only
    rw [if_neg (by simp [hst, hphase, hgate]), State.domAt_setDom]
  · refine congrArg Host.Outcome.next ?_
    unfold State.closed
    dsimp only
    rw [if_neg (by simp [hphase, hentering]), if_neg (by simp [hwake, helig])]
  · refine congrArg Host.Outcome.next ?_
    unfold State.closed
    dsimp only
    rw [if_neg (by simp [hphase, hentering]), if_pos (.inl hwake)]
  · refine congrArg Host.Outcome.next ?_
    unfold State.wakeStart
    dsimp only
    rw [if_neg (by
      rintro (h | h | h | h)
      · simp [hwakes] at h
      · simp [hwake] at h
      · exact hst h.2.1
      · simp [hphase] at h), if_neg (by simp [hphase])]
  · refine congrArg Host.Outcome.next ?_
    unfold State.wakeEnd
    dsimp only
    rw [if_neg (by simp [hphase]), if_neg fun h => hst h.2]
  · refine congrArg Host.Outcome.next ?_
    unfold State.cwakeReached
    rw [hv]
  · exact congrArg Host.Outcome.next ((if_pos hreq).trans (s.powerReq_wake n hlow hhigh howned hruns hready))
  · exact congrArg Host.Outcome.next ((if_pos hreq).trans (s.powerReq_sleep n hlow hhigh howned hruns hready hphase hwake hst hleave))
  · exact (s.next_onPart _ hreq).trans (congrArg Host.Outcome.next (s.pwake_tile p w hon htile hown))

end

/-! ## What reports, stops and lost contexts spare -/

section
namespace Sys2Proof.Machine

/-- Something read of the state. -/
def State.under {α : Type} (s : State) (φ : State → α) : α := φ s

/-- The registers of tiles, controllers and partitions, and the light counters. -/
def SpareReg (a : Nat) : Prop := 0x00300000 ≤ a ∨ (dbgBase ≤ a ∧ a < dbgBase + 64)

/-- What is read is not of engines, queues, ports or registers, and of a tile, partition or context it is what these writes keep. -/
structure Spares {α : Type} (φ : State → α) : Prop where
  reg : ∀ (s : State) a w, SpareReg a → (s.setReg a w).under φ = s.under φ
  tile : ∀ (s : State) t v, v.wv = (s.tileAt t).wv → v.wvParity = (s.tileAt t).wvParity → (s.setTile t v).under φ = s.under φ
  part : ∀ (s : State) p v, v.resetting = (s.partAt p).resetting → v.pattBusy = (s.partAt p).pattBusy → v.pattResult = (s.partAt p).pattResult →
    v.keyDraw = (s.partAt p).keyDraw → (s.setPart p v).under φ = s.under φ
  ctx : ∀ (s : State) p c v, v.st = (s.ctxAt p c).st → v.code = (s.ctxAt p c).code → (s.setCtx p c v).under φ = s.under φ
  eng : ∀ (s : State) t e v, (s.setEng t e v).under φ = s.under φ
  movq : ∀ (s : State) t q v, (s.setMovq t q v).under φ = s.under φ
  movd : ∀ (s : State) t d v, (s.setMovd t d v).under φ = s.under φ
  poster : ∀ (s : State) t n v, (s.setPosterW t n v).under φ = s.under φ
  ctl : ∀ (s : State) c v, (s.setCtl c v).under φ = s.under φ
  queue : ∀ (s : State) p q v, (s.setQueue p q v).under φ = s.under φ
  evt : ∀ (s : State) p i v, (s.setEvt p i v).under φ = s.under φ
  waiter : ∀ (s : State) p i v, (s.setWaiter p i v).under φ = s.under φ
  port : ∀ (s : State) p v, (s.setPort p v).under φ = s.under φ
  dom : ∀ (s : State) d v, (s.setDom d v).under φ = s.under φ
  hbm : ∀ (s : State) a bs, (s.setHbmBytes a bs).under φ = s.under φ
  send : ∀ (s : State) o, (s.send o).under φ = s.under φ
  inject : ∀ (s : State) x, (s.inject x).under φ = s.under φ
  scalars : ∀ (s : State) t e, (s.clearScalars t e).under φ = s.under φ
  drawn : ∀ s : State, s.drawn.under φ = s.under φ
  tag : ∀ (s : State) n, ({ s with nextTag := n } : State).under φ = s.under φ
  held : ∀ (s : State) l, ({ s with heldWrites := l } : State).under φ = s.under φ
  reqs : ∀ (s : State) l, ({ s with vulReqs := l } : State).under φ = s.under φ

theorem each_under {α β : Type} {φ : State → α} (l : List β) (f : State → β → State) (hf : ∀ s x, (f s x).under φ = s.under φ) (s : State) :
    (each s l f).under φ = s.under φ :=
  each_keeps (P := fun u => u.under φ = s.under φ) (fun u x _ hu => (hf u x).trans hu) rfl

namespace Spares

section
variable {α : Type} {φ : State → α} (hφ : Spares φ)
include hφ

/-! ### Registers -/

theorem setTr (s : State) (t o w) : (s.setTr t o w).under φ = s.under φ := hφ.reg _ _ _ (.inl (by unfold tileBase colBase; omega))

theorem setObs (s : State) (t : TileId) (o w) : (s.setReg (obsBase t + o) w).under φ = s.under φ := hφ.reg _ _ _ (.inl (by unfold obsBase colBase; omega))

theorem lightP (s : State) (p n k) : (s.lightP p n k).under φ = s.under φ := by
  cases p with
  | none => rfl
  | some p => exact (hφ.reg _ _ _ (.inl (by unfold partBase; omega))).trans (hφ.reg _ _ _ (.inl (by unfold partBase; omega)))

theorem light (s : State) (p : Option PartId) {n : Nat} (k) (hn : n < 8) : (s.light p n k).under φ = s.under φ := by
  unfold State.light State.add64
  refine (hφ.reg _ _ _ (.inr (by omega))).trans ((hφ.reg _ _ _ (.inr (by omega))).trans ?_)
  exact hφ.lightP s p n k

theorem addSem (s : State) (t n k who) : (s.addSem t n k who).1.under φ = s.under φ := by
  grind [State.addSem, State.setSem, hφ.poster, hφ.setTr]

/-! ### Reports -/

theorem trace (s : State) (t ty unit place info) : (s.trace t ty unit place info).under φ = s.under φ := by
  have hlost : ∀ u : State, (u.incReg (obsBase t + 0xFC) 15 0 1).under φ = u.under φ := fun u => hφ.setObs u t _ _
  grind [State.trace, hφ.tile]

theorem raiseTile (s : State) (t base) : (s.raiseTile t base).under φ = s.under φ := by
  have hordered : ∀ c l, (s.ordered c l).under φ = s.under φ := by
    grind [State.ordered, hφ.ctl]
  have hint := le_intBase (coreOfCol (colonyOf t))
  unfold State.raiseTile State.raise
  dsimp only
  refine (hφ.reg _ _ _ (.inl ?_)).trans ?_
  · split <;> omega
  · split
    · rfl
    · exact hordered ..

theorem askWake (s : State) (d) : (s.askWake d).under φ = s.under φ := by
  grind [State.askWake, hφ.dom]

/-- R342: a record enters a context's line or is counted lost. -/
theorem notice (s : State) (p c n) : (s.notice p c n).under φ = s.under φ := by
  unfold State.notice
  dsimp only
  split
  · rfl
  split <;> exact hφ.ctx s p c _ rfl rfl

/-! ### Messages of Vulor ports -/

theorem sendFlit (s : State) (p ty slots) : (s.sendFlit p ty slots).under φ = s.under φ := (hφ.send _ _).trans (hφ.port _ _ _)

theorem sendSlots (s : State) (p n l) : (s.sendSlots p n l).under φ = s.under φ := by
  induction n generalizing s l with
  | zero => rfl
  | succ n ih => grind [State.sendSlots, hφ.sendFlit]

theorem pump (s : State) (p n) : (s.pump p n).under φ = s.under φ := by
  induction n generalizing s with
  | zero => rfl
  | succ n ih => grind [State.pump, hφ.sendSlots, hφ.port]

theorem emit (s : State) (p vc m) : (s.emit p vc m).under φ = s.under φ := by
  grind [State.emit, hφ.pump, hφ.port]

/-! ### Fences, commands and waiter slots -/

theorem wake (s : State) (p tl key) : (s.wake p tl key).under φ = s.under φ := by
  grind [State.wake, State.retest, each_under, hφ.waiter]

theorem evtSet (s : State) (p i err) : (s.evtSet p i err).under φ = s.under φ := by
  grind [State.evtSet, hφ.wake, hφ.evt]

theorem tlApply (s : State) (p a v) : (s.tlApply p a v).under φ = s.under φ := by
  grind [State.tlApply, hφ.askWake, hφ.wake, hφ.hbm, hφ.held]

theorem forceRemote (s : State) (p c o) : (s.forceRemote p c o).under φ = s.under φ := by
  grind [State.forceRemote, State.newTag, hφ.tag, hφ.tlApply, hφ.emit, hφ.reqs]

theorem forceSignal (s : State) (p c) : (s.forceSignal p c).under φ = s.under φ := by
  grind [State.forceSignal, each_under, hφ.evtSet, hφ.forceRemote, hφ.tlApply]

theorem waitWake (s : State) (p tl h) : (s.waitWake p tl h).under φ = s.under φ := by
  grind [State.waitWake, hφ.askWake]

theorem takeWait (s : State) (p q) : (s.takeWait p q).under φ = s.under φ := by
  unfold State.takeWait
  dsimp only
  split
  · grind [hφ.queue]
  · split
    · grind [hφ.queue]
    · split
      · exact hφ.queue _ _ _ _
      · split
        · exact (hφ.queue _ _ _ _).trans (hφ.waitWake _ _ _ _)
        · exact (hφ.queue _ _ _ _).trans ((hφ.waiter _ _ _ _).trans (hφ.waitWake _ _ _ _))

theorem takeWaits (s : State) (p) : (s.takeWaits p).under φ = s.under φ := by
  grind [State.takeWaits, each_under, hφ.takeWait]

theorem complete (s : State) (p sel) : (s.complete p sel).under φ = s.under φ := by
  grind [State.complete, State.disarm, each_under, hφ.queue, hφ.waiter, hφ.part, hφ.notice]

/-! ### Engines that stop -/

theorem dropWalk (s : State) (t e) : (s.dropWalk t e).under φ = s.under φ := by
  grind [State.dropWalk, hφ.tile]

theorem stopEngine (s : State) (t e) : (s.stopEngine t e).under φ = s.under φ :=
  (hφ.scalars _ _ _).trans ((hφ.eng _ _ _ _).trans (hφ.dropWalk s t e))

theorem settle (s : State) (t) : (s.settle t).under φ = s.under φ := by
  grind [State.settle, State.reloadTile, each_under, hφ.poster, hφ.setTr, hφ.tile]

theorem stopTile (s : State) (t all) : (s.stopTile t all).under φ = s.under φ := by
  grind [State.stopTile, hφ.tile, each_under, hφ.stopEngine, hφ.settle]

theorem enterQuar (s : State) (t q) : (s.enterQuar t q).under φ = s.under φ := by
  grind [State.enterQuar, State.stopAll, each_under, hφ.tile, hφ.stopEngine, hφ.settle]

/-! ### Error records -/

theorem arriveErr (s : State) (c r) : (s.arriveErr c r).under φ = s.under φ := by
  have hint := le_intBase c
  have hlost : ∀ w, ((s.setReg (intBase c + 0x400) w).incReg (intBase c + 0x400) 31 16 1).under φ = s.under φ := fun w =>
    (hφ.reg _ _ _ (.inl (by omega))).trans (hφ.reg _ _ _ (.inl (by omega)))
  grind [State.arriveErr, hφ.ctl]

theorem countErr (s : State) (r) : (s.countErr r).under φ = s.under φ := by
  unfold State.countErr
  split
  · exact (hφ.light _ _ _ (by decide)).trans (each_under _ _ (fun u p => hφ.lightP u _ _ _) s)
  · refine hφ.light s _ _ ?_
    split <;> decide

end

/-! ### Contexts that are lost -/

section
variable {α : Type} {φ : State → α} (hφ : Spares φ)
include hφ

/-- R324: what is read of other than a context is spared by its loss. -/
theorem loseCtx (s : State) (p c) (hctx : ∀ (u : State) v, (u.setCtx p c v).under φ = u.under φ) (code w place addr parts) : (s.loseCtx p c code w place addr parts).under φ = s.under φ := by
  have hmarked : ∀ b, (if (s.ctxAt p c).st = .active then (s.setCtx p c { s.ctxAt p c with st := .lost, code := b }).lightP (some p) 7 1 else s).under φ
      = s.under φ := fun b => by
    split
    · exact (hφ.lightP _ _ _ _).trans (hctx _ _)
    · rfl
  have hstops : ∀ (u : State) (l : List TileId), (each u l fun u t => if u.ctxOf t = c then u.stopTile t false else u).under φ = u.under φ := fun u l =>
    each_under l _ (fun v t => by
      split
      · exact hφ.stopTile v t false
      · rfl) u
  have hqueues : ∀ (u : State) (l : List (QueueId × Queue)),
      (each u l fun u e => if e.2.ctx = c ∧ e.2.isOpen then u.setQueue p e.1 { e.2 with stopped := true } else u).under φ = u.under φ := fun u l =>
    each_under l _ (fun v e => by
      split
      · exact hφ.queue _ _ _ _
      · rfl) u
  unfold State.loseCtx
  dsimp only
  split
  · rfl
  split
  · exact hstops _ _
  · rw [hφ.notice, hφ.takeWaits, hφ.forceSignal, hφ.complete, hφ.complete, hqueues, hstops, hmarked]

section
variable (hctx : ∀ (s : State) p c v, (s.setCtx p c v).under φ = s.under φ)
include hctx

theorem loseAll (s : State) (p code) : (s.loseAll p code).under φ = s.under φ := each_under _ _ (fun u c => hφ.loseCtx u p c (fun v => hctx v p c) ..) s

theorem errorNotice (s : State) (p sev) : (s.errorNotice p sev).under φ = s.under φ := by
  grind [State.errorNotice, hφ.notice]

/-- R366: the automatic effects of a record are losses and notices. -/
theorem escalate (s : State) (r) : (s.escalate r).under φ = s.under φ := by
  unfold State.escalate
  split
  · split
    · exact hφ.loseCtx _ _ _ (fun u => hctx u _ _) ..
    · rfl
  · split
    · exact (hφ.errorNotice hctx _ _ _).trans (hφ.loseAll hctx _ _ _)
    · rfl
  · dsimp only
    have hall := each_under s.loadedParts (fun u p => u.loseAll p 0x21) (fun u p => hφ.loseAll hctx u p 0x21) s
    split
    · exact (hφ.errorNotice hctx _ _ _).trans hall
    · exact hall
  · rfl

theorem errAt (s : State) (t r) : (s.errAt t r).under φ = s.under φ := by
  unfold State.errAt
  refine (hφ.escalate hctx _ _).trans ((hφ.countErr _ _).trans ?_)
  split
  · exact (hφ.arriveErr _ _ _).trans (hφ.arriveErr _ _ _)
  · exact hφ.arriveErr _ _ _

theorem errHead (s : State) (die r) : (s.errHead die r).under φ = s.under φ :=
  (hφ.escalate hctx _ _).trans ((hφ.countErr _ _).trans (hφ.arriveErr _ _ _))

end

end

end Spares

end Sys2Proof.Machine
end

/-! ## Weevil passes, scrubs and the HBM patrol (R422, R428 to R431, R435, R436) -/

section
namespace Sys2Proof.Machine

/-! ### What a SCRUB_FAULT and the patrol leave as they found it -/

/-- A weevil's state and its parity mark. -/
def State.weevil (s : State) (t : TileId) : WvSt × Bool := ((s.tileAt t).wv, (s.tileAt t).wvParity)

theorem spares_weevil (t : TileId) : Spares fun s => s.weevil t := by
  constructor
  case tile =>
    intro s u v hwv hparity
    unfold State.under State.weevil
    dsimp only
    by_cases hu : t = u
    · rw [hu, State.tileAt_setTile, hwv, hparity]
    · rw [s.tileAt_setTile_other v hu]
  all_goals
    intros
    rfl

theorem spares_hbmP (l : Nat) : Spares fun s => s.hbmP l := by
  constructor <;> intros <;> rfl

theorem spares_hbm_reg {a : Nat} (ha : ¬ SpareReg a) : Spares fun s => s.reg a := by
  constructor
  case reg =>
    intro s b w hb
    exact s.reg_setReg_other w fun h => ha (h ▸ hb)
  all_goals
    intros
    rfl

/-- R366: CORRECTED and DEFERRED records have no automatic effect. -/
theorem State.escalate_minor (s : State) {r : ErrRec} (hsev : r.sev.toNat ≤ 2) : s.escalate r = s := by
  unfold State.escalate
  split
  next h => omega
  next h => omega
  next h => omega
  next => rfl

section
variable (s : State)

/-! ### Passes and faults -/

/-- R430: a weevil that chitin's reload has to bring back. -/
theorem State.scrubFault_weevil (t : TileId) (w : ScrubCause) : (s.scrubFault t w).weevil t = (.halted, decide (w = .parity)) := by
  unfold State.scrubFault
  dsimp only
  refine ((spares_weevil t).drawn _).trans (((spares_weevil t).errAt (fun _ _ _ _ => rfl) _ _ _).trans ?_)
  exact congrArg (fun x : Tile => (x.wv, x.wvParity)) (s.tileAt_setTile t _)

theorem State.wvReload_fails (t : TileId) (hhalted : (s.tileAt t).wv = .halted) : ((s.wvReload t false).weevil t).1 = .failed := by
  unfold State.wvReload
  rw [if_neg (not_not.2 hhalted), if_neg Bool.false_ne_true]
  refine congrArg Prod.fst (((spares_weevil t).drawn _).trans ((spares_weevil t).errAt (fun _ _ _ _ => rfl) _ _ _)) |>.trans ?_
  exact congrArg Tile.wv (s.tileAt_setTile t _)

theorem State.wvReload_runs (t : TileId) (hhalted : (s.tileAt t).wv = .halted) :
    ((s.wvReload t true).tileAt t).wv = .run ∧ ((s.wvReload t true).tileAt t).wvIn = false := by
  unfold State.wvReload
  rw [if_neg (not_not.2 hhalted), if_pos rfl, State.tileAt_setTile]
  exact ⟨rfl, rfl⟩

/-- R429: a pass starts at the canary, one of whose bits is flipped. -/
theorem State.wvStart_flips (t : TileId) (hworks : s.wvWorks t = true) (hidle : (s.tileAt t).wvIn = false) :
    ((s.wvStart t).tileAt t).wvIn = true ∧ ((s.wvStart t).tileAt t).wvRegion = 0
      ∧ ((s.wvStart t).tileAt t).canary.getLsbD ((s.tileAt t).wvPassNo % 8) = true := by
  have hbit : (s.tileAt t).wvPassNo % 8 < 8 := Nat.mod_lt _ (by decide)
  unfold State.wvStart
  dsimp only
  rw [if_neg (by simp [hworks, hidle]), State.tileAt_setTile]
  refine ⟨rfl, rfl, ?_⟩
  rw [BitVec.getLsbD_or, BitVec.getLsbD_ofNat, Nat.testBit_two_pow_self]
  simp [hbit]

section
variable (t : TileId) (hworks : s.wvWorks t = true) (hin : (s.tileAt t).wvIn = true)
include hworks hin

section
variable (hdone : (s.tileAt t).wvDone = false)
include hdone

/-- R429: what was found, if anything, is dealt with, and the weevil moves on. -/
theorem State.wvScrub_clean : s.wvScrub t .clean =
    s.setTile t ((s.tileAt t).wvNext (bit (s.tr t 0x1E60) 16) (bit (s.tr t 0x1E60) 17 && s.serves (domCis t))) := by
  have hfind : ∀ o u addr bad mark, s.wvFind t .clean o u addr bad mark = s := fun o u addr bad mark => by
    unfold State.wvFind
    split <;> rfl
  unfold State.wvScrub
  dsimp only
  rw [if_neg (by simp [hworks, hin, hdone])]
  simp only [hfind]
  split <;> simp

theorem State.wvScrub_spad (f : ScrubFind) (hspad : (s.tileAt t).wvRegion = 1) : s.wvScrub t f =
    let u := s.wvFind t f 0x1E40 .spad (64 * (s.tileAt t).wvIndex.toNat + 4 * (s.tileAt t).wvSub.toNat) (s.spadP t (s.tileAt t).wvIndex.toNat)
      fun s' => s'.markSpad t (s.tileAt t).wvIndex.toNat true
    u.setTile t ((u.tileAt t).wvNext (bit (s.tr t 0x1E60) 16) (bit (s.tr t 0x1E60) 17 && s.serves (domCis t))) := by
  unfold State.wvScrub
  dsimp only
  rw [if_neg (by simp [hworks, hin, hdone]), hspad]
  rfl

end

section
variable (hdone : (s.tileAt t).wvDone = true)
include hdone

theorem State.wvOver_done : s.wvOver t = true := by simp [State.wvOver, hworks, hin, hdone]

theorem State.wvEnd_counts (hfixed : (s.tileAt t).wvCanaryFixed = true) : ((s.wvEnd t).tileAt t).wvIn = false
    ∧ ((s.wvEnd t).tileAt t).wvPasses = BitVec.ofNat 16 (min 0xFFFF ((s.tileAt t).wvPasses.toNat + 1)) := by
  unfold State.wvEnd
  dsimp only
  rw [if_neg (by simp [s.wvOver_done t hworks hin hdone]), if_neg (by simp [hfixed]), State.tileAt_setTile]
  exact ⟨rfl, rfl⟩

theorem State.wvEnd_misses (hmissed : (s.tileAt t).wvCanaryFixed = false) : s.wvEnd t = s.scrubFault t .canaryMissed := by
  unfold State.wvEnd
  dsimp only
  rw [if_neg (by simp [s.wvOver_done t hworks hin hdone]), if_pos (by simp [hmissed])]

theorem State.wvFault_missed (hmissed : (s.tileAt t).wvCanaryFixed = false) : s.wvFault t .canaryMissed = s.scrubFault t .canaryMissed :=
  if_pos (by simp [s.wvOver_done t hworks hin hdone, hmissed])

end

end

/-! ### The counters of a tile -/

theorem State.tileEccClr_zero (t : TileId) : ∀ x ∈ [0x1E40, 0x1E44, 0x1E48, 0x1E4C], (s.tileEccClr t).tr t x = 0 := fun x hx => by
  unfold State.tileEccClr
  refine each_at (f := fun u y => u.setTr t y 0) (P := fun u => u.tr t x = 0) hx (fun u => u.reg_setReg _ _) (fun u y _ hy hu => ?_) s
  rw [State.tr, State.setTr, State.reg_setReg_other _ _ (by omega)]
  exact hu

/-! ### The patrol -/

/-- A counter in a field of a register counts, up to the field's largest value. -/
theorem State.incReg_fld (o : Nat) {hi lo : Nat} (hhi : hi < 32) :
    fld ((s.incReg o hi lo 1).reg o) hi lo = min (2 ^ (hi + 1 - lo) - 1) (fld (s.reg o) hi lo + 1) := by
  have hpos : 0 < 2 ^ (hi + 1 - lo) := Nat.two_pow_pos _
  have hfits : satAdd (2 ^ (hi + 1 - lo) - 1) (fld (s.reg o) hi lo) 1 < 2 ^ (hi + 1 - lo) :=
    lt_of_le_of_lt (Nat.min_le_left _ _) (Nat.sub_lt hpos Nat.one_pos)
  rw [State.incReg, State.reg_setReg, incFld, fld_setFld _ hhi hfits]
  rfl

theorem not_spareReg_hbm (n : BitVec 3) : ¬ SpareReg (dbgBase + 0x800 + 4 * n.toNat) := by
  have := n.isLt
  unfold SpareReg dbgBase
  omega

/-- R366: a record of a CORRECTED error leaves device memory as it is. -/
theorem State.errHead_hbm (die : Nat) {r : ErrRec} (hsev : r.sev.toNat ≤ 2) : (s.errHead die r).hbm = s.hbm := by
  unfold State.errHead
  dsimp only
  rw [State.escalate_minor]
  · exact congrArg Mems.hbm ((State.countErr_mems ..).trans (s.arriveErr_mems ..))
  · exact hsev

/-- A record that arrives leaves the counters of the stacks and the marks of the lines, whatever it loses. -/
theorem State.errHead_hbm_reg (die : Nat) (r : ErrRec) (n : BitVec 3) :
    (s.errHead die r).reg (dbgBase + 0x800 + 4 * n.toNat) = s.reg (dbgBase + 0x800 + 4 * n.toNat) :=
  (spares_hbm_reg (not_spareReg_hbm n)).errHead (fun _ _ _ _ => rfl) s die r

theorem State.errHead_hbmP (die : Nat) (r : ErrRec) (l : Nat) : (s.errHead die r).hbmP l = s.hbmP l :=
  (spares_hbmP l).errHead (fun _ _ _ _ => rfl) s die r

theorem State.incReg_hbmP (a hi lo n l : Nat) : (s.incReg a hi lo n).hbmP l = s.hbmP l := by
  rw [State.hbmP, State.incReg, State.setReg_hbmPoison, State.hbmP]

theorem State.markHbm_hbmP (l : Nat) : (s.markHbm l true).hbmP l = true := by
  unfold State.markHbm
  rw [if_pos rfl, State.hbmP, State.drawn_hbmPoison, State.setHbmBytes_hbmPoison]
  exact s.hbmP_setHbmP l true

theorem State.markHbm_reg (l a : Nat) (b : Bool) : (s.markHbm l b).reg a = s.reg a := by
  cases b <;> rfl

section
variable (n : BitVec 3) (a : Nat) (syn : BitVec 16) (place : Byte) (hstack : n.toNat ∈ stackList) (hown : stackOf a = n.toNat)
  (hroom : a < Config.hbmUnits * 2 ^ 28) (hserves : s.serves (domHbm n.toNat) = true) (hclean : s.hbmP (a / 64) = false)
include hstack hown hroom hserves hclean

/-- R435: what the patrol does with a line of its stack that is not poisoned. -/
theorem State.patrol_goes (f : ScrubFind) : s.patrol n.toNat a f = match f with
    | .clean => s
    | .corrected syn _ =>
      let u := s.incReg (dbgBase + 0x800 + 4 * n.toNat) 15 0 1
      u.errHead (n.toNat / 2) (u.unitErr (s.ownerOf a) 1 .hbm 1 (a / 64 * 64) syn.toNat n.toNat)
    | .uncorrectable syn _ =>
      let u := (s.markHbm (a / 64) true).incReg (dbgBase + 0x800 + 4 * n.toNat) 31 16 1
      u.errHead (n.toNat / 2) (u.unitErr (s.ownerOf a) (if (s.ownerOf a).isSome then 2 else 5) .hbm 2 (a / 64 * 64) syn.toNat n.toNat) := by
  have hgoes : ¬((!stackList.contains n.toNat) = true ∨ stackOf a ≠ n.toNat ∨ Config.hbmUnits * 2 ^ 28 ≤ a ∨ (!s.serves (domHbm n.toNat)) = true
      ∨ s.hbmP (a / 64) = true) := by
    rintro (h | h | h | h | h)
    · simp [hstack] at h
    · exact h hown
    · omega
    · simp [hserves] at h
    · simp [hclean] at h
  exact if_neg hgoes

theorem State.patrol_corrects : fld ((s.patrol n.toNat a (.corrected syn place)).reg (dbgBase + 0x800 + 4 * n.toNat)) 15 0
      = min 0xFFFF (fld (s.reg (dbgBase + 0x800 + 4 * n.toNat)) 15 0 + 1)
    ∧ (s.patrol n.toNat a (.corrected syn place)).hbm = s.hbm := by
  rw [s.patrol_goes n a hstack hown hroom hserves hclean]
  dsimp only
  have hsev : ∀ u : State, (u.unitErr (s.ownerOf a) 1 .hbm 1 (a / 64 * 64) syn.toNat n.toNat).sev.toNat ≤ 2 := fun u => by
    change (1 : BitVec 3).toNat ≤ 2
    decide
  refine ⟨?_, (State.errHead_hbm _ _ (hsev _)).trans (by rw [State.incReg, State.setReg_hbm])⟩
  rw [State.errHead_hbm_reg]
  exact s.incReg_fld _ (by decide)

theorem State.patrol_poisons : fld ((s.patrol n.toNat a (.uncorrectable syn place)).reg (dbgBase + 0x800 + 4 * n.toNat)) 31 16
      = min 0xFFFF (fld (s.reg (dbgBase + 0x800 + 4 * n.toNat)) 31 16 + 1)
    ∧ (s.patrol n.toNat a (.uncorrectable syn place)).hbmP (a / 64) = true := by
  rw [s.patrol_goes n a hstack hown hroom hserves hclean]
  dsimp only
  constructor
  · rw [State.errHead_hbm_reg, State.incReg_fld _ _ (by decide), State.markHbm_reg]
    rfl
  · rw [State.errHead_hbmP, State.incReg_hbmP, State.markHbm_hbmP]

end

end

end Sys2Proof.Machine

open Sys2Proof Sys2Proof.Machine

/-- Settles O54: a weevil's state, a stack's counters and the marks of its lines stand through the reports that a fault or a find makes; the rest is one
case of each operation. -/
theorem weevilAndPatrol : Obligations.WeevilAndPatrol := by
  intro s r t c n a syn place tl i o next
  refine ⟨fun hworks => ⟨fun hidle => ⟨_, rfl, s.wvStart_flips t hworks hidle⟩, fun hin hdone => ⟨congrArg Host.Outcome.next (s.wvScrub_clean t hworks hin hdone),
      fun hspad hclean => ⟨?_, ?_⟩, fun hspad hpoison => ?_⟩⟩, fun hidle => ?_, fun hdown => congrArg Host.Outcome.next (if_neg (by simp [hdown])),
    fun hworks hin hdone => ⟨fun hfixed => ⟨_, rfl, s.wvEnd_counts t hworks hin hdone hfixed⟩, fun hmissed =>
      ⟨congrArg Host.Outcome.next (s.wvEnd_misses t hworks hin hdone hmissed), congrArg Host.Outcome.next (s.wvFault_missed t hworks hin hdone hmissed)⟩⟩,
    fun hup => ⟨_, congrArg Host.Outcome.next (if_pos hup), Prod.ext_iff.1 (s.scrubFault_weevil t .parity)⟩,
    fun hhalted => ⟨⟨_, rfl, s.wvReload_runs t hhalted⟩, ⟨_, rfl, s.wvReload_fails t hhalted⟩⟩, fun hstack hown hroom hserves hclean => ⟨?_, ?_, ?_⟩,
    fun hreq => ⟨_, s.next_onTile _ hreq, ?_⟩, fun hreq => congrArg Host.Outcome.next (if_pos hreq), fun hreq => ⟨_, congrArg Host.Outcome.next (if_pos hreq), ?_⟩⟩
  · refine congrArg Host.Outcome.next ((s.wvScrub_spad t hworks hin hdone _ hspad).trans ?_)
    unfold State.wvFind
    rw [hclean, if_neg Bool.false_ne_true]
  · refine congrArg Host.Outcome.next ((s.wvScrub_spad t hworks hin hdone _ hspad).trans ?_)
    unfold State.wvFind
    rw [hclean, if_neg Bool.false_ne_true]
  · refine congrArg Host.Outcome.next ((s.wvScrub_spad t hworks hin hdone _ hspad).trans ?_)
    unfold State.wvFind
    rw [hpoison, if_pos rfl]
  · refine congrArg Host.Outcome.next (if_pos ?_)
    simp [State.wvOver, hidle]
  · exact congrArg Host.Outcome.next (s.patrol_goes n a.toNat hstack hown hroom hserves hclean .clean)
  · exact ⟨_, rfl, s.patrol_corrects n a.toNat syn place hstack hown hroom hserves hclean⟩
  · exact ⟨_, rfl, s.patrol_poisons n a.toNat syn place hstack hown hroom hserves hclean⟩
  · exact s.tileEccClr_zero t
  · have hn : n.toNat ∈ List.range 8 := List.mem_range.2 n.isLt
    refine each_at (P := fun u => u.reg (dbgBase + 0x800 + 4 * n.toNat) = 0) hn (fun u => State.reg_setReg ..) (fun u m _ hm hu => ?_) s
    rw [State.reg_setReg_other _ _ (by omega), hu]

end

/-! ## Accesses through BAR2 (R314, R405) -/

section
namespace Sys2Proof.Machine

/-- What is read is none of what an access through BAR2 writes: device memory and its marks, the wakes of stacks, and what leaves the device or waits. -/
structure BarSpares {α : Type} (φ : State → α) : Prop where
  hbm : ∀ (s : State) a bs, (s.setHbmBytes a bs).under φ = s.under φ
  mark : ∀ (s : State) l b, (s.setHbmP l b).under φ = s.under φ
  drawn : ∀ s : State, s.drawn.under φ = s.under φ
  send : ∀ (s : State) o, (s.send o).under φ = s.under φ
  dom : ∀ (s : State) d v, (s.setDom d v).under φ = s.under φ
  bar : ∀ (s : State) l, ({ s with barHeld := l } : State).under φ = s.under φ

theorem markLines_under {α : Type} {φ : State → α} (s : State) (b n bad is) {set : State → Nat → Bool → State}
    (hset : ∀ u l v, (set u l v).under φ = u.under φ) : (markLines s b n bad is set).under φ = s.under φ := by
  unfold markLines
  refine each_under _ _ (fun u i => ?_) s
  dsimp only
  split
  · exact hset ..
  · split
    · exact hset ..
    · rfl

namespace BarSpares

variable {α : Type} {φ : State → α} (hφ : BarSpares φ)
include hφ

theorem putHbm (s : State) (a bs bad) : (s.putHbm a bs bad).under φ = s.under φ :=
  (markLines_under _ _ _ _ _ fun u l b => by
    unfold State.markHbm
    dsimp only
    split
    · exact (hφ.drawn _).trans ((hφ.hbm _ _ _).trans (hφ.mark _ _ _))
    · exact hφ.mark _ _ _).trans (hφ.hbm _ _ _)

theorem askWake (s : State) (d) : (s.askWake d).under φ = s.under φ := by
  unfold State.askWake
  dsimp only
  split
  · rfl
  · exact hφ.dom _ _ _

theorem bar2 (s : State) (r addr op) : (s.bar2 r addr op).under φ = s.under φ := by
  have hdone : ∀ a, (s.barDo a op).under φ = s.under φ := fun a => by
    cases op with
    | read n => exact hφ.send ..
    | write bs => exact hφ.putHbm ..
  have hserved : ∀ a, (if s.barWaits a (barLen op) then
      each ({ s with barHeld := s.barHeld ++ [(r, addr, op)] } : State) (stacksAt a (barLen op)) fun s i => s.askWake (domHbm i)
    else s.barDo a op).under φ = s.under φ := fun a => by
    split
    · exact (each_under _ _ (fun u i => hφ.askWake u (domHbm i)) _).trans (hφ.bar _ _)
    · exact hdone a
  unfold State.bar2
  split
  · split
    · exact hφ.send ..
    · exact hserved _
  · split
    · exact hφ.send ..
    · exact hserved _
  · rfl

theorem barRetry (s : State) : s.barRetry.under φ = s.under φ :=
  (each_under _ _ (fun u _ => hφ.bar2 u _ _ _) _).trans (hφ.bar _ _)

/-- R316: an invalidation that ends is answered. -/
theorem settleAts (hats : ∀ (s : State) l, ({ s with atsWait := l } : State).under φ = s.under φ) (s : State) : s.settleAts.under φ = s.under φ :=
  (each_under _ _ (fun u _ => hφ.send u _) _).trans (hats _ _)

end BarSpares

end Sys2Proof.Machine
end

/-! ## Partition resets (R391, R392, R412) -/

section
namespace Sys2Proof.Machine

namespace Spares

/-! ### Faults, posts and streams at a tile -/

section
variable {α : Type} {φ : State → α} (hφ : Spares φ) (hctx : ∀ (s : State) p c v, (s.setCtx p c v).under φ = s.under φ)
include hφ

theorem closeWindow (s : State) (t) : (s.closeWindow t).under φ = s.under φ := by
  have hlatch : ∀ u : State, (u.latchCounters t 0x80).under φ = u.under φ := each_under _ _ fun v n => by
    simp only [Nat.add_assoc]
    exact (hφ.setObs _ _ _ _).trans (hφ.setObs v t _ _)
  grind [State.closeWindow, State.windowEnd, hφ.tile]

theorem enterQueue (s : State) (t a) : (s.enterQueue t a).under φ = s.under φ := (hφ.movd _ _ _ _).trans (hφ.movq _ _ _ _)

theorem popDone (s : State) (t q n) : (s.popDone t q n).under φ = s.under φ := by
  induction n generalizing s with
  | zero => rfl
  | succ n ih => grind [State.popDone, hφ.movq]

theorem killWeir (s : State) (t) : (s.killWeir t).under φ = s.under φ := hφ.tile _ _ _ rfl rfl

include hctx

theorem loseAt (s : State) (t code e q d addr parts) : (s.loseAt t code e q d addr parts).under φ = s.under φ := by
  unfold State.loseAt
  split
  · exact hφ.loseCtx _ _ _ (fun u => hctx u _ _) ..
  · rfl

theorem engFault (s : State) (t e code) : (s.engFault t e code).under φ = s.under φ := by
  unfold State.engFault State.faultAtPc
  dsimp only
  rw [hφ.loseAt hctx, hφ.raiseTile, hφ.trace, hφ.eng, hφ.dropWalk]

theorem post (s : State) (t n k who src e) : (s.post t n k who src e).under φ = s.under φ := by
  have hadd := hφ.addSem s t n k who
  unfold State.post
  split
  next u hu => rwa [hu] at hadd
  next u hu =>
    rw [hu] at hadd
    unfold State.semOverflow
    split
    · exact (hφ.loseAt hctx ..).trans hadd
    · exact (hφ.engFault hctx ..).trans hadd

theorem streamPosts (s : State) (t q x) : (s.streamPosts t q x).under φ = s.under φ := by
  grind [State.streamPosts, State.sendPost, State.opPost, each_under, hφ.inject, hφ.post hctx]

theorem streamDone (s : State) (t q x) : (s.streamDone t q x).under φ = s.under φ := by
  grind [State.streamDone, hφ.streamPosts hctx, hφ.trace, hφ.movd, hφ.enterQueue]

theorem completeStreams (s : State) (t q k) : (s.completeStreams t q k).under φ = s.under φ := by
  induction k generalizing s with
  | zero => rfl
  | succ k ih => grind [State.completeStreams, hφ.streamDone hctx, hφ.movq]

theorem finishQueue (s : State) (t q) : (s.finishQueue t q).under φ = s.under φ := by
  grind [State.finishQueue, hφ.completeStreams hctx, hφ.settle, hφ.closeWindow]

theorem killMover (s : State) (t) : (s.killMover t).under φ = s.under φ := by
  grind [State.killMover, each_under, hφ.tile, hφ.movq, hφ.movd, hφ.popDone, hφ.finishQueue hctx]

end

/-! ### Domains that open (R403, R405, R406) -/

section
variable {α : Type} {φ : State → α} (hφ : Spares φ)
include hφ

theorem startOp (s : State) (t e pc) : (s.startOp t e pc).under φ = s.under φ := by
  grind [State.startOp, State.startNow, State.beginProgram, Tile.loadGen, hφ.held, hφ.askWake, hφ.eng, hφ.tile, hφ.trace]

theorem spownNow (s : State) (t w) : (s.spownNow t w).under φ = s.under φ := by
  grind [State.spownNow, hφ.tile, hφ.enterQuar]

theorem doHeld (s : State) (h) : (s.doHeld h).under φ = s.under φ := by
  cases h with
  | start t e pc => exact hφ.startOp ..
  | sempost t w => grind [State.doHeld, State.semPostWrite, hφ.addSem]
  | spown t w => exact hφ.spownNow ..
  | post t n slot => exact hφ.addSem ..
  | tlWord p a v => exact hφ.tlApply ..

theorem govDom (s : State) (d) : (s.govDom d).under φ = s.under φ := by
  grind [State.govDom, State.govTile, each_under, hφ.dom, hφ.setTr]

section
variable (hbar : BarSpares φ)
include hbar

/-- R403, R405: what a tile or cistern domain does as it opens. -/
theorem opened (s : State) {d : Nat} (hd : d < 81) : (s.opened d).under φ = s.under φ := by
  have hheld := fun (u : State) (l : List HeldWrite) => each_under l (fun u h => u.doHeld h) (fun v h => hφ.doHeld v h) u
  unfold State.opened State.tlAgain
  dsimp only
  rw [if_pos (.inl hd), hbar.barRetry, hheld, hφ.held, hφ.dom, hφ.govDom]

theorem wakeUp (s : State) {d : Nat} (hd : d < 81) : (s.wakeUp d).under φ = s.under φ := by
  have habandon : (s.abandon d).under φ = s.under φ := by
    unfold State.abandon
    dsimp only
    split
    · exact hφ.opened hbar s hd
    · rfl
  unfold State.wakeUp
  dsimp only
  rw [hφ.askWake, hφ.dom, habandon]

end

end

end Spares

end Sys2Proof.Machine
end

/-! ## The start and the end of a partition reset (R391, R392, R412) -/

section
namespace Sys2Proof.Machine

/-! ### What a partition reset turns on -/

/-- Of a partition: whether it is being reset, its attestation, and the draw of its key. -/
def State.resetSide (s : State) (p : PartId) : Bool × Bool × BitVec 3 × Nat :=
  ((s.partAt p).resetting, (s.partAt p).pattBusy, (s.partAt p).pattResult, (s.partAt p).keyDraw)

theorem State.resetSide_of_part {s u : State} (h : u.part = s.part) (p : PartId) : u.resetSide p = s.resetSide p := by
  simp only [State.resetSide, State.partAt, h]

theorem spares_resetSide (p : PartId) : Spares fun s => s.resetSide p := by
  constructor
  case part =>
    intro s q v hresetting hbusy hresult hkey
    unfold State.under State.resetSide
    dsimp only
    by_cases hq : p = q
    · rw [hq, State.partAt_setPart, hresetting, hbusy, hresult, hkey]
    · rw [s.partAt_setPart_other v hq]
  all_goals
    intros
    rfl

theorem barSpares_resetSide (p : PartId) : BarSpares fun s => s.resetSide p := by
  constructor <;> intros <;> rfl

theorem barSpares_fates (p : PartId) (c : CtxId) : BarSpares fun s => s.fates p c := by
  constructor <;> intros <;> rfl

theorem spares_fates (p : PartId) (c : CtxId) : Spares fun s => s.fates p c := by
  constructor
  case ctx =>
    intro s q d v hst hcode
    exact congrFun₂ (s.setCtx_fates q d v hst hcode) p c
  all_goals
    intros
    rfl

/-! ### The start -/

section
variable (s : State) (p : PartId) (c : CtxId)

/-- R324: the loss of another context leaves this one as it was. -/
theorem State.loseCtx_other {d : CtxId} (hd : c ≠ d) (code w place addr parts) : (s.loseCtx p d code w place addr parts).fates p c = s.fates p c :=
  (spares_fates p c).loseCtx s p d (fun u v => by
    unfold State.under State.fates
    dsimp only
    rw [u.ctxAt_setCtx_other _ _ _ _ _ (by simp [hd])]) code w place addr parts

theorem State.loseCtx_lost (hlost : (s.ctxAt p c).st = .lost) (code w place addr parts) : s.loseCtx p c code w place addr parts = s := if_pos (.inl hlost)

theorem State.mem_losable (hst : (s.ctxAt p c).st = .active) : c ∈ s.losable p := by
  have hentry : (p.toNat * 256 + c.toNat, s.ctxAt p c) ∈ s.ctx := mem_of_look_ne (by
    intro h
    rw [State.ctxAt, h] at hst
    exact absurd hst nofun)
  have hnumber : (BitVec.ofNat 8 (p.toNat * 256 + c.toNat) : CtxId) = c := BitVec.eq_of_toNat_eq (by
    have := c.isLt
    rw [BitVec.toNat_ofNat]
    omega)
  have hpart : (p.toNat * 256 + c.toNat) / 256 = p.toNat := by
    have := c.isLt
    omega
  unfold State.losable
  refine List.mem_append_left _ (List.mem_map.2 ⟨_, List.mem_filter.2 ⟨hentry, ?_⟩, hnumber⟩)
  simp [hpart, hst]

/-- R392: every ACTIVE context of the partition is LOST with the code given. -/
theorem State.loseAll_loses (hst : (s.ctxAt p c).st = .active) (code : Nat) : (s.loseAll p code).fates p c = (.lost, BitVec.ofNat 8 code) := by
  have hown : ∀ u : State, ((u.ctxAt p c).st = .active ∨ u.fates p c = (.lost, BitVec.ofNat 8 code)) →
      (u.loseCtx p c code .none 0 0 0).fates p c = (.lost, BitVec.ofNat 8 code) := fun u hu => by
    rcases hu with hu | hu
    · exact u.loseCtx_fates hu ..
    · rw [u.loseCtx_lost p c (congrArg Prod.fst hu), hu]
  unfold State.loseAll
  refine each_settles (I := fun u => (u.ctxAt p c).st = .active ∨ u.fates p c = (.lost, BitVec.ofNat 8 code))
    (P := fun u => u.fates p c = (.lost, BitVec.ofNat 8 code)) (s.mem_losable p c hst) hown (fun u d hu => ?_) (fun u d hu => ?_) (.inl hst) <;>
    by_cases hd : c = d
  · subst hd
    exact .inr (hown u hu)
  · have hother := u.loseCtx_other p c hd code .none 0 0 0
    exact hu.imp (fun h => (congrArg Prod.fst hother).trans h) hother.trans
  · subst hd
    exact hown u (.inr hu)
  · exact (u.loseCtx_other p c hd code .none 0 0 0).trans hu

/-- The domains of a partition are tile and cistern domains. -/
theorem State.lt_of_mem_doms {d : Nat} (hd : d ∈ s.tdomsOf p ++ s.cdomsOf p) : d < 81 := by
  rcases List.mem_append.1 hd with h | h
  · obtain ⟨b, -, rfl⟩ := List.mem_map.1 (List.mem_eraseDups.1 h)
    have := b.isLt
    unfold tdomOfCol
    omega
  · obtain ⟨b, -, rfl⟩ := List.mem_map.1 (List.mem_eraseDups.1 h)
    have := b.isLt
    unfold cdomOfCol
    omega

/-- R403: waking the partition's domains changes nothing that the writes of reports and stops spare. -/
theorem State.wakes_under {α : Type} {φ : State → α} (hφ : Spares φ) (hbar : BarSpares φ) :
    (each s (s.tdomsOf p ++ s.cdomsOf p) fun u d => u.wakeUp d).under φ = s.under φ :=
  each_keeps (P := fun u => u.under φ = s.under φ) (fun u _ hd hu => (hφ.wakeUp hbar u (s.lt_of_mem_doms p hd)).trans hu) rfl

/-- What a partition reset that begins writes of the partition. -/
def Part.resets (q : Part) : Part := { (if q.pattBusy then { q with pattBusy := false, pattResult := 3 } else q) with resetting := true }

theorem Part.resets_patt {q : Part} (hbusy : q.pattBusy = true) : q.resets.pattBusy = false ∧ q.resets.pattResult = 3 := by
  unfold Part.resets
  rw [if_pos hbusy]
  exact ⟨rfl, rfl⟩

theorem State.resetCores_keeps (l : List ColId) : (each s l fun u c => u.setCore (coreOfCol c) {}).part = s.part
    ∧ (each s l fun u c => u.setCore (coreOfCol c) {}).ctx = s.ctx :=
  each_keeps (f := fun u (c : ColId) => u.setCore (coreOfCol c) {}) (P := fun u => u.part = s.part ∧ u.ctx = s.ctx) (fun _ _ _ hu => hu) ⟨rfl, rfl⟩

/-- R392: a reset begins: the partition's domains wake, it is marked, its cores are reset, its contexts are lost and its tiles stop. -/
theorem State.resetBegin_steps : ∃ v : State, (v.partAt p = ((each s (s.tdomsOf p ++ s.cdomsOf p) fun u d => u.wakeUp d).partAt p).resets)
    ∧ v.ctx = (each s (s.tdomsOf p ++ s.cdomsOf p) fun u d => u.wakeUp d).ctx
    ∧ s.resetBegin p = each (v.loseAll p 0x20) ((v.loseAll p 0x20).tilesIn p) fun u t => u.stopTile t true := by
  refine ⟨_, ?_, ?_, rfl⟩
  · rw [State.partAt, (State.resetCores_keeps _ _).1, ← State.partAt, State.partAt_setPart]
    rfl
  · rw [(State.resetCores_keeps _ _).2, State.setPart_ctx]

/-- R392: what the reset writes of the partition stands through the losses and stops that follow. -/
theorem State.resetBegin_writes (w : State) (hw : (each s (s.tdomsOf p ++ s.cdomsOf p) fun u d => u.wakeUp d) = w) :
    (s.resetBegin p).resetSide p
      = ((w.partAt p).resets.resetting, (w.partAt p).resets.pattBusy, (w.partAt p).resets.pattResult, (w.partAt p).resets.keyDraw) := by
  obtain ⟨v, hpart, -, hsteps⟩ := s.resetBegin_steps p
  have hφ := spares_resetSide p
  rw [hw] at hpart
  rw [← hpart, hsteps]
  have hlost := hφ.loseAll (fun _ _ _ _ => rfl) v p 0x20
  generalize v.loseAll p 0x20 = l at hlost
  exact (each_under (l.tilesIn p) (fun u t => u.stopTile t true) (fun u t => hφ.stopTile u t true) l).trans hlost

/-- R392: a reset that begins marks its partition, and an attestation that was under way ends with result 3. -/
theorem State.resetBegin_marks : ((s.resetBegin p).partAt p).resetting = true
    ∧ ((s.partAt p).pattBusy = true → ((s.resetBegin p).partAt p).pattBusy = false ∧ ((s.resetBegin p).partAt p).pattResult = 3) := by
  have hwoken : (each s (s.tdomsOf p ++ s.cdomsOf p) fun u d => u.wakeUp d).resetSide p = s.resetSide p :=
    s.wakes_under p (spares_resetSide p) (barSpares_resetSide p)
  have hwrites := s.resetBegin_writes p _ rfl
  generalize each s (s.tdomsOf p ++ s.cdomsOf p) (fun u d => u.wakeUp d) = w at hwoken hwrites
  generalize s.resetBegin p = u at hwrites
  simp only [State.resetSide, Prod.mk.injEq] at hwoken hwrites
  obtain ⟨-, hbusyKept, -, -⟩ := hwoken
  obtain ⟨hresetting, hpatt, hresult, -⟩ := hwrites
  refine ⟨hresetting, fun hbusy => ?_⟩
  obtain ⟨hended, hthree⟩ := Part.resets_patt (hbusyKept.trans hbusy)
  exact ⟨hpatt.trans hended, hresult.trans hthree⟩

/-- R392: the ACTIVE contexts of a partition are LOST as its reset begins. -/
theorem State.resetBegin_loses (hst : (s.ctxAt p c).st = .active) : (s.resetBegin p).fates p c = (.lost, 0x20) := by
  obtain ⟨v, -, hctx, hsteps⟩ := s.resetBegin_steps p
  have hφ := spares_fates p c
  have hwoken : (each s (s.tdomsOf p ++ s.cdomsOf p) fun u d => u.wakeUp d).fates p c = s.fates p c :=
    s.wakes_under p hφ (barSpares_fates p c)
  have hactive : (v.ctxAt p c).st = .active := by
    rw [State.ctxAt, hctx]
    exact (congrArg Prod.fst hwoken).trans hst
  rw [hsteps]
  have hlost := v.loseAll_loses p c hactive 0x20
  generalize v.loseAll p 0x20 = l at hlost
  exact (each_under (l.tilesIn p) (fun u t => u.stopTile t true) (fun u t => hφ.stopTile u t true) l).trans hlost

/-! ### The end -/

/-- R114, R216, R248, R257: the reset of a tile leaves what a reset has written of the partition. -/
theorem State.resetTile_resetSide (t : TileId) : (s.resetTile t).resetSide p = s.resetSide p := by
  have hφ := spares_resetSide p
  suffices hunder : (s.resetTile t).under (fun u => u.resetSide p) = s.under fun u => u.resetSide p from hunder
  have hkilled := (hφ.killWeir (s.killMover t) t).trans (hφ.killMover (fun _ _ _ _ => rfl) s t)
  have hpart : ∀ {u v : State}, u.part = v.part → u.under (fun u => u.resetSide p) = v.under fun u => u.resetSide p := fun h => State.resetSide_of_part h p
  generalize (fun u : State => u.resetSide p) = φ at hφ hkilled hpart ⊢
  unfold State.resetTile
  generalize (s.killMover t).killWeir t = u at hkilled
  rw [← hkilled]
  dsimp only
  have hzero : ∀ v : State, (((v.zeroWorking t).zeroAcc t).zeroVregs t).under φ = v.under φ := fun v => hpart rfl
  have hempty : ∀ (v : State) i, (v.emptySlot t i).under φ = v.under φ := fun v i => (hφ.setTr _ _ _ _).trans ((hφ.setTr _ _ _ _).trans (hpart rfl))
  rw [hφ.tile, each_under, hφ.setTr, each_under, each_under, each_under, each_under, hzero, each_under, each_under]
  · exact fun v q => hφ.movq v _ _ _
  · exact fun v e => (hφ.eng _ _ _ _).trans (hφ.stopEngine v t e)
  · exact hempty
  · exact fun _ _ => hpart rfl
  · exact fun _ _ => hpart rfl
  · exact fun v n => hφ.poster v _ _ _
  · exact fun _ _ => hpart rfl
  · rfl
  · rfl

end

end Sys2Proof.Machine

end

/-! ## What the end of a partition reset leaves (R379, R391, R392) -/

section
namespace Sys2Proof.Machine

section
variable (s : State) (p : PartId)

/-! The image's part of a partition is registers, memories and tiles: no partition's state (`State.part`) changes. -/

theorem State.imgReg_part (a w) : (s.imgReg a w).under State.part = s.under State.part := by
  unfold State.imgReg
  dsimp only
  split <;> rfl

theorem State.clearImg_part (b base) : (s.clearImg b base).under State.part = s.under State.part := by
  unfold State.clearImg
  refine each_under _ _ (fun u r => ?_) s
  exact each_under _ _ (fun v i => by rfl) u

theorem barSpares_part : BarSpares State.part := by
  constructor <;> intros <;> rfl

theorem State.putSpad_part (t a bs bad) : (s.putSpad t a bs bad).under State.part = s.under State.part :=
  markLines_under _ _ _ _ _ fun u l b => by
    unfold State.markSpad
    dsimp only
    split <;> rfl

theorem State.putImem_part (t e b a l) : (s.putImem t e b a l).under State.part = s.under State.part := by
  unfold State.putImem
  refine each_under _ _ (fun u y => ?_) s
  dsimp only
  split <;> rfl

theorem State.secTile_part (x t) : (s.secTile x t).under State.part = s.under State.part := by
  cases x with
  | regsTile => exact each_under _ _ (fun u _ => u.imgReg_part _ _) s
  | imem => exact State.putImem_part s ..
  | spad => exact State.putSpad_part s ..
  | part | regsColony | core | regsPart | hbm | ident | plan | regsDevice | headfw => rfl

theorem State.secCol_part (x b) : (s.secCol x b).under State.part = s.under State.part := by
  cases x with
  | regsColony => exact each_under _ _ (fun u _ => u.imgReg_part _ _) s
  | core => exact each_under _ _ (fun u y => by rfl) s
  | part | regsTile | imem | spad | regsPart | hbm | ident | plan | regsDevice | headfw => rfl

/-- R379: a section writes registers and memories. -/
theorem State.applySection_part (at_ whole x) : (s.applySection at_ whole x).under State.part = s.under State.part := by
  have htiles : ∀ l : List TileId, (each s l fun u t => u.secTile x t).under State.part = s.under State.part :=
    fun l => each_under l _ (fun u t => u.secTile_part x t) s
  have hcols : ∀ l : List ColId, (each s l fun u b => u.secCol x b).under State.part = s.under State.part :=
    fun l => each_under l _ (fun u b => u.secCol_part x b) s
  cases x with
  | regsTile | imem | spad => exact htiles _
  | regsColony | core => exact hcols _
  | regsPart q l =>
    unfold State.applySection
    dsimp only
    split
    · exact each_under _ _ (fun u _ => u.imgReg_part _ _) s
    · rfl
  | hbm q dst bs | ident q dst bs =>
    unfold State.applySection
    dsimp only
    split
    · split
      · rfl
      · exact barSpares_part.putHbm s ..
    · rfl
  | part | plan | regsDevice | headfw => rfl

theorem State.setReg_partsKept (a w) : (s.setReg a w).under State.part = s.under State.part := rfl

theorem State.setTile_partsKept (t v) : (s.setTile t v).under State.part = s.under State.part := rfl

theorem State.dropSpad_partsKept (l l') : ({ s with spad := l, spadPoison := l' } : State).under State.part = s.under State.part := rfl

theorem State.govDom_part (d) : (s.govDom d).under State.part = s.under State.part := by
  unfold State.govDom
  dsimp only
  split
  · rfl
  · exact (each_under _ _ (fun u t => u.setReg_partsKept _ _) _).trans rfl

theorem State.initCol_part (b whole) : (s.initCol b whole).under State.part = s.under State.part := by
  unfold State.initCol
  exact (each_under _ _ (fun u t => u.clearImg_part _ _) _).trans ((State.clearImg_part ..).trans rfl)

theorem State.initTile_part (t g) : (s.initTile t g).under State.part = s.under State.part := by
  unfold State.initTile State.setTr
  dsimp only
  rw [State.dropSpad_partsKept, State.setReg_partsKept, State.setReg_partsKept, State.setTile_partsKept, State.clearImg_part]

theorem State.startTile_part (t whole) : (s.startTile t whole).under State.part = s.under State.part := by
  unfold State.startTile State.govInit State.govTile State.setTr
  dsimp only
  rw [State.setTile_partsKept, State.setReg_partsKept, State.setTile_partsKept, State.govDom_part]

theorem State.initPart_part (p g) : (s.initPart p g).under State.part = s.under State.part :=
  (State.setReg_partsKept ..).trans (s.clearImg_part ..)

/-- R379: what the image brings back to a partition is no part of its reset. -/
theorem State.applyPart_part (m p g cols) : (s.applyPart m p g cols true).under State.part = s.under State.part := by
  unfold State.applyPart
  dsimp only
  rw [each_under _ _ fun u t => u.startTile_part t _, each_under _ _ fun u x => u.applySection_part _ _ x, each_under _ _ fun u t => u.initTile_part t g,
    each_under _ _ fun u b => u.initCol_part b _, if_pos rfl, State.initPart_part]

theorem State.setCsr_partsKept (d n w) : (s.setCsr d n w).under State.part = s.under State.part := rfl

theorem State.setCore_partsKept (d v) : (s.setCore d v).under State.part = s.under State.part := rfl

theorem State.releaseCore_part (d) : (s.releaseCore d).under State.part = s.under State.part := by
  have hdebug : ∀ (u : State) (req : Bool) (a b : W32),
      (if req then (u.setCsr d 0x7B0 a).setCsr d 0x7B1 b else u).under State.part = u.under State.part := fun u req a b => by
    split
    · rw [State.setCsr_partsKept, State.setCsr_partsKept]
    · rfl
  unfold State.releaseCore
  dsimp only
  rw [State.setCore_partsKept, hdebug, State.setCsr_partsKept, State.setCsr_partsKept]

theorem State.resetCol_part (b : ColId) : ((s.setPackage b 0).releaseCore (coreOfCol b)).under State.part = s.under State.part :=
  (State.releaseCore_part ..).trans rfl
/-! ### Its request -/

/-- R412: a write of PWR_PRESET that no reset and no stop stands against begins the reset. -/
theorem State.preset_begins {r w} (hreq : s.pwrReq r = true) (hrole : r ≠ .chitin) (hwritten : bit w 31 = true) (hp : p = w.extractLsb' 0 6)
    (hloaded : (s.partAt p).loaded = true) (hfree : (s.partAt p).resetting = false) (hstop : s.partStopped p = false) : s.preset r w = s.resetBegin p := by
  have hnow : s.presetNow p = s.resetBegin p := by
    unfold State.presetNow
    dsimp only
    rw [hloaded, hfree, hstop]
    rfl
  refine (if_pos ?_).trans ((if_pos hwritten).trans ?_)
  · rw [hreq, decide_eq_true hrole, Bool.and_self]
  · rw [← hp, hnow]

/-! ### Its completion -/

/-- The partitions' state, and the registers. -/
def State.partsAndRegs (s : State) : Sparse Part × Sparse W32 := (s.part, s.regs)

theorem barSpares_partsAndRegs : BarSpares State.partsAndRegs := by
  constructor <;> intros <;> rfl

/-- R392: the accesses that waited for the reset, and the invalidations that it ends, change no partition and no register. -/
theorem State.resume_partsAndRegs : (s.drawn.barRetry).settleAts.under State.partsAndRegs = s.under State.partsAndRegs :=
  (barSpares_partsAndRegs.settleAts (fun _ _ => rfl) _).trans (barSpares_partsAndRegs.barRetry s.drawn)

/-- What the end of a reset leaves of the partition. -/
def Part.reborn (q : Part) : Part := { q with resetting := false, mapCache := [], mapInv := none, stages := [] }

/-- R391: a reset draws the partition's key anew. -/
theorem State.rekey_keyDraw : ((s.rekey p).partAt p).keyDraw = s.chitin.draws + 1 := by
  unfold State.rekey
  dsimp only
  rw [State.partAt_setPart]

theorem State.partAt_dropGrants : (s.dropGrants p).partAt p = s.partAt p := by
  rw [State.partAt, State.dropGrants, State.setRegF, State.setReg_part, State.setRegF, State.setReg_part, ← State.partAt]

/-- R46: both version grants of the partition read 0. -/
theorem State.dropGrants_zero (pf : Bool) : fld ((s.dropGrants p).reg (verReg pf p)) 13 12 = 0 := by
  have hfresh : ∀ (u : State) a, fld ((u.setRegF a 13 12 0).reg a) 13 12 = 0 := fun u a => by
    rw [State.setRegF, State.reg_setReg]
    exact fld_setFld _ (by decide) (by decide)
  have hne : verReg false p ≠ verReg true p := by
    unfold verReg partBase hgtBase
    have := p.isLt
    simp only [Bool.false_eq_true, if_false, if_true]
    omega
  unfold State.dropGrants
  cases pf with
  | false => rw [State.reg_setRegF_other _ _ _ _ hne, hfresh]
  | true => rw [hfresh]

/-- R391, R392: the steps that a reset ends with, over the key that it draws. -/
theorem State.resetEnds_steps {g m} (hresetting : (s.partAt p).resetting = true) (hcfg : s.pcfg p = some g) (himage : s.chitin.image = some m)
    (hready : s.resetReady p = true) : ∃ v : State, (v.partAt p).keyDraw = s.chitin.draws + 1
      ∧ s.resetEnds p = (((v.dropGrants p).setPart p ((v.dropGrants p).partAt p).reborn).drawn.barRetry).settleAts := by
  have htiles : ∀ (u : State) (l : List TileId), (each u l fun w t => w.resetTile t).resetSide p = u.resetSide p :=
    fun u l => each_keeps (P := fun w => w.resetSide p = u.resetSide p) (fun w t _ hw => (w.resetTile_resetSide p t).trans hw) rfl
  have hcols : ∀ (u : State) (l : List ColId), (each u l fun w b => (w.setPackage b 0).releaseCore (coreOfCol b)).under State.part = u.under State.part :=
    fun u l => each_under l _ (fun w b => w.resetCol_part b) u
  refine ⟨each (((each (s.rekey p) ((s.rekey p).tilesIn p) fun w t => w.resetTile t).applyPart m p g (s.colsOf p) true)) (s.colsOf p)
    fun w b => (w.setPackage b 0).releaseCore (coreOfCol b), ?_, ?_⟩
  · have hside := (State.resetSide_of_part ((hcols _ (s.colsOf p)).trans (State.applyPart_part _ m p g (s.colsOf p))) p).trans
      (htiles (s.rekey p) ((s.rekey p).tilesIn p))
    exact (congrArg (fun x => x.2.2.2) hside).trans (s.rekey_keyDraw p)
  · unfold State.resetEnds
    rw [hresetting, hcfg, himage, hready]
    rfl

/-- R391, R392, R46: a partition whose reset has ended. -/
theorem State.resetEnds_reborn {g m} (hresetting : (s.partAt p).resetting = true) (hcfg : s.pcfg p = some g) (himage : s.chitin.image = some m)
    (hready : s.resetReady p = true) : ((s.resetEnds p).partAt p).resetting = false ∧ ((s.resetEnds p).partAt p).mapCache = []
      ∧ ((s.resetEnds p).partAt p).keyDraw = s.chitin.draws + 1 ∧ ∀ pf, fld ((s.resetEnds p).reg (verReg pf p)) 13 12 = 0 := by
  obtain ⟨v, hkey, hsteps⟩ := s.resetEnds_steps p hresetting hcfg himage hready
  have hresume := State.resume_partsAndRegs ((v.dropGrants p).setPart p ((v.dropGrants p).partAt p).reborn)
  rw [← hsteps] at hresume
  obtain ⟨hparts, hkept⟩ := Prod.mk.inj hresume
  have hpart : (s.resetEnds p).partAt p = (v.partAt p).reborn := by
    rw [State.partAt, hparts, ← State.partAt, State.partAt_setPart, v.partAt_dropGrants]
  have hregs : ∀ a, (s.resetEnds p).reg a = (v.dropGrants p).reg a := fun a => by
    rw [State.reg, hkept, State.setPart_regs, ← State.reg]
  rw [hpart]
  refine ⟨rfl, rfl, ?_, fun pf => ?_⟩
  · exact hkey
  · rw [hregs]
    exact v.dropGrants_zero p pf

end

end Sys2Proof.Machine

open Sys2Proof Sys2Proof.Machine

/-- Settles O51: what the reset writes of its partition stands through every loss, stop and section that follows, and the accesses let in at its end
write neither partitions nor registers. -/
theorem partitionResets : Obligations.PartitionResets := by
  unfold Obligations.PartitionResets
  intro s r p w g m
  refine ⟨fun hreq hrole hwritten hp hloaded hfree hstop => ?_, fun hresetting hcfg himage hready => ?_⟩
  · obtain ⟨hmark, hatt⟩ := s.resetBegin_marks p
    refine ⟨s.resetBegin p, congrArg Host.Outcome.next (s.preset_begins p hreq hrole hwritten hp hloaded hfree hstop), hmark, fun c hactive => ?_, hatt⟩
    exact Prod.mk.inj (s.resetBegin_loses p c hactive)
  · obtain ⟨hends, hcache, hkey, hgrants⟩ := s.resetEnds_reborn p hresetting hcfg himage hready
    exact ⟨s.resetEnds p, rfl, hends, hcache, hkey, hgrants false, hgrants true⟩

end
